-- ==== Sys2Proof/Word.lean ====
section
/-! DEFINITION. The plain words of the W1: widths of the register files, core numbers and field positions.
Nothing here is a rule of its own; the rules are cited where the words are used. -/

namespace Sys2Proof

/-- A 64-bit scalar register value (R9). -/
abbrev Word := BitVec 64
/-- A vector register value (R9). -/
abbrev Vec := BitVec 1024
/-- A mask register value (R9). -/
abbrev Mask := BitVec 128
/-- A halfword index of code memory, the width of the PC and of t0 to t7 (R72). -/
abbrev CodeIdx := BitVec 13
/-- A bundle, bit 383 the most significant (R60). -/
abbrev BundleWord := BitVec 384
/-- The number of a tile-class core: the logical TID of a tile, or `mgmtCore` (R4, R397). -/
abbrev CoreId := Nat

/-- The number the model gives the Bursel management core; TID reads 0xFFFF on it (R397). -/
def mgmtCore : CoreId := 0xFFFF

/-- The `n` bits of `x` from bit `lo` up. -/
abbrev field (lo n : Nat) {w : Nat} (x : BitVec w) : BitVec n := x.extractLsb' lo n

end Sys2Proof
end

