-- ==== Sys2Proof/Config.lean ====
section
/-! DEFINITION. What the spec leaves open: values with no body, applied to the counter `State.free` or to what they depend
on. No proof can see what they are (logs 3, 13 to 16, 22, 111 and 115). -/

namespace Sys2Proof.Config

/-- Which of two writes of equal rank and age that meet at one boundary counts as the later (log 13). -/
opaque tie : Nat → Bool

/-- Is an entry of a translation cache still there (R306: capacity and replacement are not architectural; log 14)? -/
opaque retained : Nat → Bool

/-- Is an event whose time the spec does not fix put off to a later cycle (log 15)? -/
opaque putOff : Nat → Bool

/-- The delay u of a barrier's detection, from the rectangle, its placement and the last arriving tile (R264; log 16). -/
opaque barrierDelay : Nat → Nat → Nat → Nat → Nat → Nat

/-- A byte of a part of a save area whose contents the spec gives and whose places it does not (R324, R328, R329): by part, the contents
and the offset in the part (log 22). -/
opaque recordByte : Nat → List Nat → Nat → BitVec 8

/-- What a part of a record means that was changed in memory where its places are open: by part, its bytes and the place among what the
part holds (R329, R330; log 22). -/
opaque recordValue : Nat → List (BitVec 8) → Nat → Nat

/-- d of a restore, the number of record cycles between its grant and its start (R330, which does not count them; log 111). -/
opaque recordCycles : Nat

/-- The IPv4 address, mask and gateway that the port configuration record in the flash gives, from its bytes (R404 does not lay it out; log
115). -/
opaque portRecord : List (BitVec 8) → Option (BitVec 96)

/-- The tc after which the peer module behind an optical port has consumed a packet (R233, R243; log 3). -/
opaque peerDelay : Nat → Nat

end Sys2Proof.Config
end

