-- ==== Sys2Proof/Machine/Flags.lean ====
section
/-! DEFINITION. FSTAT's flags, number formats, the one rounding step and exact arithmetic (02 R31 to R59). -/

namespace Sys2Proof.Machine

/-- A set of flags in the bit places of FSTAT (R12). -/
abbrev Flags := BitVec 7

/-- Invalid operation, FSTAT bit 0 (R12). -/
def flNV : Flags := 1
/-- Float division by zero, bit 1 (R12). -/
def flDZ : Flags := 2
/-- Overflow, bit 2 (R12). -/
def flOF : Flags := 4
/-- Underflow, bit 3 (R12). -/
def flUF : Flags := 8
/-- Inexact, bit 4 (R12). -/
def flNX : Flags := 16
/-- A NaN or an infinity was produced, bit 5 (R12). -/
def flNF : Flags := 32
/-- A write collision discarded a result, bit 6 (R12). -/
def flWC : Flags := 64

/-! ### Format-table entries (R31 to R33) -/

/-- The valid bit of an entry. -/
def fmtV (e : BitVec 32) : Bool := e.getLsbD 31
/-- KIND. -/
def fmtKind (e : BitVec 32) : Nat := (field 28 3 e).toNat
/-- STORE, the code of the storage width. -/
def fmtStoreCode (e : BitVec 32) : Nat := (field 26 2 e).toNat
/-- The storage width in bits: 4, 8, 16 or 32. -/
def fmtStore (e : BitVec 32) : Nat := 4 <<< fmtStoreCode e
/-- EW, exponent width. -/
def fmtEW (e : BitVec 32) : Nat := (field 22 4 e).toNat
/-- FW, fraction width. -/
def fmtFW (e : BitVec 32) : Nat := (field 17 5 e).toNat
/-- BIAS, two's complement. -/
def fmtBias (e : BitVec 32) : Int := (field 9 8 e).toInt
/-- SUB, subnormals supported. -/
def fmtSub (e : BitVec 32) : Bool := e.getLsbD 8
/-- SGN, sign bit present. -/
def fmtSgn (e : BitVec 32) : Bool := e.getLsbD 7
/-- CB, the codebook register of KIND 5. -/
def fmtCB (e : BitVec 32) : Nat := (field 0 4 e).toNat

/-- Entry 0, FP32 (R33). -/
def fmtFp32 : BitVec 32 := 0x8E2EFF80
/-- Entry 1, BF16 (R33). -/
def fmtBf16 : BitVec 32 := 0x8A0EFF80
/-- Entry 2, FP16 (R33). -/
def fmtFp16 : BitVec 32 := 0x89541F80
/-- Entry 3, INT8 (R33). -/
def fmtInt8 : BitVec 32 := 0xB4000080

/-- Does `setfmt` accept this word for an entry of 4 to 15 (R32)? -/
def fmtLegal (e : BitVec 32) : Bool :=
  if !fmtV e then e == 0
  else
    let k := fmtKind e
    field 4 3 e == 0 &&
    (if k ≤ 2 then
      (if fmtSgn e then 1 else 0) + fmtEW e + fmtFW e == fmtStore e && fmtEW e != 0 && fmtEW e ≤ 8 &&
        fmtStoreCode e != 3 && fmtCB e == 0 && !(k == 0 && (fmtEW e < 2 || fmtFW e == 0))
    else if k ≤ 4 then
      field 8 18 e == 0 && fmtCB e == 0 && fmtSgn e == (k == 3)
    else if k == 5 then
      fmtStoreCode e == 0 && field 7 19 e == 0 && fmtCB e ≤ 7
    else false)

/-- A float entry, KIND 0 to 2 (R31). -/
def fmtIsFloat (e : BitVec 32) : Bool := fmtKind e ≤ 2

/-! ### The internal form (R37) -/

/-- A decoded value: class, sign, significand and exponent. `fin s m e` is (−1)^s · m · 2^e with `m ≠ 0`. -/
inductive Num
  | zero (s : Bool)
  | fin (s : Bool) (m : Nat) (e : Int)
  | inf (s : Bool)
  | nan
deriving DecidableEq, Repr

/-- The sign of a number; a NaN has none. -/
def Num.sign : Num → Bool
  | .zero s => s
  | .fin s _ _ => s
  | .inf s => s
  | .nan => false

/-- Is it a NaN? -/
def Num.isNan : Num → Bool
  | .nan => true
  | _ => false

/-- Is it a NaN or an infinity? -/
def Num.nonFinite : Num → Bool
  | .nan => true
  | .inf _ => true
  | _ => false

/-- (−1)^s · m · 2^e, zero when `m` is. -/
def Num.mk (s : Bool) (m : Nat) (e : Int) : Num := if m = 0 then .zero s else .fin s m e

/-- The value of a float code of KIND 0 to 2 (R35). -/
def decodeFloat (e : BitVec 32) (code : Nat) : Num :=
  let fw := fmtFW e
  let ew := fmtEW e
  let f := code % 2 ^ fw
  let x := code / 2 ^ fw % 2 ^ ew
  let s := fmtSgn e && code / 2 ^ (fw + ew) % 2 == 1
  let top := 2 ^ ew - 1
  if fmtKind e == 0 && x == top then (if f == 0 then .inf s else .nan)
  else if fmtKind e == 1 && x == top && f == 2 ^ fw - 1 then .nan
  else if x == 0 then
    (if fmtSub e then Num.mk s f (1 - fmtBias e - fw) else .zero s)
  else .fin s (2 ^ fw + f) (x - fmtBias e - fw)

/-- The integer `i` as a number. -/
def Num.ofInt (i : Int) : Num := Num.mk (i < 0) i.natAbs 0

/-- The value of the low `w` bits of `code` in two's complement. -/
def sintOf (w : Nat) (code : Nat) : Int :=
  let c := code % 2 ^ w
  if c < 2 ^ (w - 1) then c else (c : Int) - 2 ^ w

/-- The value of a code of any valid entry; `kb` is the content of the codebook registers (R35, R36). -/
def decodeCode (kb : Nat → BitVec 256) (e : BitVec 32) (code : Nat) : Num :=
  if fmtIsFloat e then decodeFloat e (code % 2 ^ fmtStore e)
  else if fmtKind e == 3 then Num.ofInt (sintOf (fmtStore e) code)
  else if fmtKind e == 4 then Num.ofInt ((code % 2 ^ fmtStore e : Nat) : Int)
  else decodeFloat fmtBf16 ((kb (fmtCB e)).toNat / 2 ^ (16 * (code % 16)) % 2 ^ 16)

/-! ### Exact magnitudes and their floors -/

/-- Digit-by-digit square root: the greatest `r` below `2^k` more than the given start with `r² ≤ n`. -/
def isqrtFrom : Nat → Nat → Nat → Nat
  | 0, _, r => r
  | k + 1, n, r =>
    let t := r + 2 ^ k
    isqrtFrom k n (if t * t ≤ n then t else r)

/-- The integer square root. -/
def isqrt (n : Nat) : Nat := isqrtFrom (n.log2 / 2 + 1) n 0

/-- A positive real number given exactly. -/
inductive Exact
  /-- m · 2^e -/
  | dyad (m : Nat) (e : Int)
  /-- (m / n) · 2^e -/
  | quot (m n : Nat) (e : Int)
  /-- √(m · 2^e) -/
  | root (m : Nat) (e : Int)
  /-- 1 / √(m · 2^e) -/
  | rroot (m : Nat) (e : Int)
  /-- 2^(i + r / 2^l), with 0 < r < 2^l -/
  | pow2 (i : Int) (r l : Nat)
  /-- |log2 (m · 2^e)|, `m` no power of two -/
  | lg2 (m : Nat) (e : Int)
deriving DecidableEq, Repr

/-- ⌊m · 2^s⌋, and whether nothing was cut off. -/
def shiftFloor (m : Nat) (s : Int) : Nat × Bool :=
  if 0 ≤ s then (m * 2 ^ s.toNat, true)
  else (m / 2 ^ (-s).toNat, m % 2 ^ (-s).toNat == 0)

/-- Bounds of 2^(r / 2^l) at `p` fraction bits: the loop over the fraction's first `fuel` bits. `cl` and `ch` bound the
current root of 2, `al` and `ah` the product so far. -/
def pow2Loop (p l : Nat) : Nat → Nat → Nat → Nat → Nat → Nat → Nat × Nat
  | 0, r, _, _, al, ah => (max al (2 ^ p), if r = 0 then ah else ah + ah / 2 ^ (p - 1) + 1)
  | fuel + 1, r, cl, ch, al, ah =>
    let cl' := isqrt (cl * 2 ^ p)
    let ch' := isqrt (ch * 2 ^ p) + 1
    let r2 := 2 * r
    if r2 < 2 ^ l then pow2Loop p l fuel r2 cl' ch' al ah
    else pow2Loop p l fuel (r2 - 2 ^ l) cl' ch' (al * cl' / 2 ^ p) (ah * ch' / 2 ^ p + 1)

/-- ⌊2^(r / 2^l) · 2^n⌋: bounds at growing precision until both have one floor. The value is irrational, so the bounds
part from every multiple in the end. -/
def pow2Floor (r l n : Nat) : Nat → Nat → Nat
  | 0, p => (pow2Loop p l p r (2 ^ (p + 1)) (2 ^ (p + 1)) (2 ^ p) (2 ^ p)).1 / 2 ^ (p - n)
  | fuel + 1, p =>
    let b := pow2Loop p l p r (2 ^ (p + 1)) (2 ^ (p + 1)) (2 ^ p) (2 ^ p)
    let lo := b.1 / 2 ^ (p - n)
    if lo = b.2 / 2 ^ (p - n) then lo else pow2Floor r l n fuel (2 * p)

/-- The first `n` bits of log2 of the number between `lo / 2^w` and `hi / 2^w`, in [1, 2); `none` when the bounds do not
decide a bit. -/
def lg2Bits (w : Nat) : Nat → Nat → Nat → Nat → Option Nat
  | 0, _, _, acc => some acc
  | n + 1, lo, hi, acc =>
    let l2 := lo * lo / 2 ^ w
    let h2 := hi * hi / 2 ^ w + 1
    if 2 ^ (w + 1) ≤ l2 then lg2Bits w n (l2 / 2) (h2 / 2 + 1) (2 * acc + 1)
    else if h2 < 2 ^ (w + 1) then lg2Bits w n l2 h2 (2 * acc)
    else none

/-- ⌊log2 (m / 2^(log2 m)) · 2^n⌋ for `m` no power of two, at growing precision. -/
def lg2Floor (m n : Nat) : Nat → Nat → Nat
  | 0, _ => 0
  | fuel + 1, w =>
    let u := shiftFloor m ((w : Int) - m.log2)
    match lg2Bits w n u.1 (if u.2 then u.1 else u.1 + 1) 0 with
    | some b => b
    | none => lg2Floor m n fuel (2 * w)

/-- ⌊x · 2^(−k)⌋, and whether x is exactly that multiple of 2^k. -/
def Exact.floorAt (x : Exact) (k : Int) : Nat × Bool :=
  match x with
  | .dyad m e => shiftFloor m (e - k)
  | .quot m n e =>
    let s := e - k
    if 0 ≤ s then (m * 2 ^ s.toNat / n, m * 2 ^ s.toNat % n == 0)
    else (m / (n * 2 ^ (-s).toNat), m % (n * 2 ^ (-s).toNat) == 0)
  | .root m e =>
    let q := shiftFloor m (e - 2 * k)
    let r := isqrt q.1
    (r, q.2 && r * r == q.1)
  | .rroot m e =>
    let t := -2 * k - e
    if 0 ≤ t then
      let q := 2 ^ t.toNat / m
      let r := isqrt q
      (r, m * (r * r) == 2 ^ t.toNat)
    else (0, false)
  | .pow2 i r l =>
    let n := i - k
    if n < 0 then (0, false) else (pow2Floor r l n.toNat 6 (n.toNat + 64), false)
  | .lg2 m e =>
    let top : Int := m.log2 + e
    let n := -k
    let whole : Nat := if 0 ≤ top then top.toNat else (-top - 1).toNat
    if n < 0 then (whole / 2 ^ k.toNat, false)
    else
      let b := lg2Floor m n.toNat 6 (2 * n.toNat + 64)
      (whole * 2 ^ n.toNat + (if 0 ≤ top then b else 2 ^ n.toNat - 1 - b), false)

/-- ⌊log2 x⌋. -/
def Exact.lead (x : Exact) : Int :=
  match x with
  | .dyad m e => m.log2 + e
  | .quot m n e =>
    let k : Int := (m.log2 : Int) - n.log2 + e - 2
    ((x.floorAt k).1.log2 : Int) + k
  | .root m e => ((m.log2 : Int) + e) / 2
  | .rroot m e =>
    let k : Int := -(((m.log2 : Int) + e) / 2) - 3
    ((x.floorAt k).1.log2 : Int) + k
  | .pow2 i _ _ => i
  | .lg2 _ _ =>
    let k : Int := -64
    ((x.floorAt k).1.log2 : Int) + k

/-! ### Rounding (R37 to R43) -/

/-- The magnitude `n`, of which `rest` quarters and a sticky remainder were cut off (`ex` says none), rounded to an
integer by mode `rm` (R38) for a value of sign `s`. Without fraction bits both neighbours end in the same significand bit: RNE then takes
the larger magnitude on a tie, RTO the smaller one (DESIGN CHOICE, log 122). -/
def roundMag (rm : BitVec 3) (s : Bool) (n rest : Nat) (ex : Bool) : Nat :=
  if rest == 0 && ex then n
  else
    let up :=
      match rm.toNat with
      | 0 => 2 < rest || (rest == 2 && !ex) || (rest == 2 && ex && n % 2 == 1) || 3 ≤ rest
      | 1 => false
      | 2 => !s
      | 3 => s
      | _ => n % 2 == 0
    if up then n + 1 else n

/-- A float target: precision, exponent of the smallest normal, the largest finite magnitude `maxM · 2^maxE`, and the
policy of its KIND (R35, R39). -/
structure FloatTarget where
  prec : Nat
  emin : Int
  maxM : Nat
  maxE : Int
  kind : Nat
  sub : Bool
  sgn : Bool
deriving DecidableEq, Repr

/-- The float target an entry of KIND 0 to 2 describes (R35). -/
def fmtTarget (e : BitVec 32) : FloatTarget :=
  let fw := fmtFW e
  let top : Nat := 2 ^ fmtEW e - 1
  let m : Nat × Nat :=
    match fmtKind e with
    | 0 => (top - 1, 2 ^ (fw + 1) - 1)
    | 1 => if fw = 0 then (top - 1, 1) else (top, 2 ^ (fw + 1) - 2)
    | _ => (top, 2 ^ (fw + 1) - 1)
  { prec := fw + 1, emin := 1 - fmtBias e, maxM := m.2, maxE := (m.1 : Int) - fmtBias e - fw
    kind := fmtKind e, sub := fmtSub e, sgn := fmtSgn e }

/-- WIDE96 as a rounding target (R52, R53). -/
def wideTarget : FloatTarget :=
  { prec := 80, emin := -16382, maxM := 2 ^ 80 - 1, maxE := 16383 - 79, kind := 0, sub := true, sgn := true }

/-- An exact result before rounding: a special, or a sign and an exact magnitude; `fl` holds the flags the operation
itself raised. -/
inductive PreVal
  | zero (s : Bool)
  | inf (s : Bool)
  | nan
  | real (s : Bool) (x : Exact)
deriving DecidableEq, Repr

/-- An exact result with the flags the operation raised. -/
structure Pre where
  v : PreVal
  fl : Flags
deriving DecidableEq, Repr

/-- A number as an exact result without flags. -/
def Num.pre : Num → Pre
  | .zero s => ⟨.zero s, 0⟩
  | .fin s m e => ⟨.real s (.dyad m e), 0⟩
  | .inf s => ⟨.inf s, 0⟩
  | .nan => ⟨.nan, 0⟩

/-- Does a magnitude `n · 2^q` exceed the target's largest finite one? -/
def FloatTarget.exceeds (t : FloatTarget) (n : Nat) (q : Int) : Bool :=
  let d := q - t.maxE
  if 0 ≤ d then t.maxM < n * 2 ^ d.toNat else t.maxM * 2 ^ (-d).toNat < n

/-- RoundTo a float target (R37 to R43): the number written and every flag of R48. -/
def roundFloat (t : FloatTarget) (rm : BitVec 3) (sat : Bool) (x : Pre) : Num × Flags :=
  let big (s : Bool) : Num := .fin s t.maxM t.maxE
  match x.v with
  | .nan => if t.kind == 2 then (.zero false, x.fl ||| flNV) else (.nan, x.fl ||| flNF)
  | .zero s => (.zero (s && t.sgn), x.fl)
  | .inf s =>
    if s && !t.sgn then (.zero false, x.fl ||| flNV)
    else if t.kind == 0 && !sat then (.inf s, x.fl ||| flNF)
    else (big s, x.fl ||| flOF)
  | .real s m =>
    if s && !t.sgn then (.zero false, x.fl ||| flNV ||| flNX)
    else
      let lead := m.lead
      let tiny := lead < t.emin
      if tiny && !t.sub then (.zero s, x.fl ||| flUF ||| flNX)
      else
        let q : Int := max lead t.emin - t.prec + 1
        let f := m.floorAt (q - 2)
        let n := f.1 / 4
        let rest := f.1 % 4
        let exact := rest == 0 && f.2
        let r := roundMag rm s n rest f.2
        if t.exceeds r q then
          let toInf := t.kind == 0 && !sat && (rm == 0 || (rm == 2 && !s) || (rm == 3 && s))
          if toInf then (.inf s, x.fl ||| flOF ||| flNX ||| flNF)
          else (big s, x.fl ||| flOF ||| flNX)
        else
          (Num.mk s r q,
            x.fl ||| (if exact then 0 else flNX) ||| (if tiny && !exact then flUF else 0))

/-- RoundTo an integer target of range [lo, hi] (R41). -/
def roundInt (lo hi : Int) (rm : BitVec 3) (x : Pre) : Int × Flags :=
  match x.v with
  | .nan => (0, x.fl ||| flNV)
  | .zero _ => (0, x.fl)
  | .inf s =>
    if s && 0 ≤ lo then (0, x.fl ||| flNV) else (if s then lo else hi, x.fl ||| flOF)
  | .real s m =>
    let f := m.floorAt (-2)
    let exact := f.1 % 4 == 0 && f.2
    let r : Int := roundMag rm s (f.1 / 4) (f.1 % 4) f.2
    let i := if s then -r else r
    if i < lo && 0 ≤ lo then (0, x.fl ||| flNV ||| flNX)
    else if i < lo then (lo, x.fl ||| flOF ||| flNX)
    else if hi < i then (hi, x.fl ||| flOF ||| flNX)
    else (i, x.fl ||| (if exact then 0 else flNX))

/-- The code of a number the target holds exactly (R34, R35, R43). -/
def encodeFloat (e : BitVec 32) (x : Num) : Nat :=
  let fw := fmtFW e
  let ew := fmtEW e
  let sb (s : Bool) : Nat := if s && fmtSgn e then 2 ^ (fw + ew) else 0
  match x with
  | .zero s => sb s
  | .inf s => sb s + (2 ^ ew - 1) * 2 ^ fw
  | .nan => (2 ^ ew - 1) * 2 ^ fw + (if fmtKind e == 0 then 2 ^ (fw - 1) else 2 ^ fw - 1)
  | .fin s m q =>
    let lead : Int := m.log2 + q
    let emin : Int := 1 - fmtBias e
    if lead < emin then sb s + (shiftFloor m (q - (emin - fw))).1
    else sb s + (lead + fmtBias e).toNat * 2 ^ fw + ((shiftFloor m (q - (lead - fw))).1 - 2 ^ fw)

/-- RoundTo any entry of KIND 0 to 4: the code written and its flags (R37, R41). -/
def roundTo (e : BitVec 32) (rm : BitVec 3) (sat : Bool) (x : Pre) : Nat × Flags :=
  if fmtIsFloat e then
    let r := roundFloat (fmtTarget e) rm sat x
    (encodeFloat e r.1, r.2)
  else
    let w := fmtStore e
    let r := if fmtKind e == 3 then roundInt (-(2 ^ (w - 1))) (2 ^ (w - 1) - 1) rm x
             else roundInt 0 (2 ^ w - 1) rm x
    ((r.1 % 2 ^ w).toNat, r.2)

/-! ### Exact arithmetic (R44, R46, R47, R50) -/

/-- The signed integer of a finite number over 2^q, `q` at most its exponent. -/
def finInt (s : Bool) (m : Nat) (e q : Int) : Int :=
  let v : Int := (m * 2 ^ (e - q).toNat : Nat)
  if s then -v else v

/-- The exact sum; an exact zero sum of opposite signs is −0 under RDN alone (R44). -/
def preAdd (rm : BitVec 3) (a b : Num) : Pre :=
  match a, b with
  | .nan, _ => ⟨.nan, 0⟩
  | _, .nan => ⟨.nan, 0⟩
  | .inf s, .inf t => if s == t then ⟨.inf s, 0⟩ else ⟨.nan, flNV⟩
  | .inf s, _ => ⟨.inf s, 0⟩
  | _, .inf t => ⟨.inf t, 0⟩
  | .zero s, .zero t => ⟨.zero (if s == t then s else rm == 3), 0⟩
  | .zero _, .fin t m e => ⟨.real t (.dyad m e), 0⟩
  | .fin s m e, .zero _ => ⟨.real s (.dyad m e), 0⟩
  | .fin s m e, .fin t n f =>
    let q := min e f
    let v := finInt s m e q + finInt t n f q
    if v = 0 then ⟨.zero (rm == 3), 0⟩ else ⟨.real (v < 0) (.dyad v.natAbs q), 0⟩

/-- The number with its sign inverted. -/
def Num.neg : Num → Num
  | .zero s => .zero !s
  | .fin s m e => .fin (!s) m e
  | .inf s => .inf !s
  | .nan => .nan

/-- The exact product as a number, and NV for 0 × ∞ (R44). -/
def mulNum (a b : Num) : Num × Flags :=
  let s := a.sign != b.sign
  match a, b with
  | .nan, _ => (.nan, 0)
  | _, .nan => (.nan, 0)
  | .inf _, .zero _ => (.nan, flNV)
  | .zero _, .inf _ => (.nan, flNV)
  | .inf _, _ => (.inf s, 0)
  | _, .inf _ => (.inf s, 0)
  | .zero _, _ => (.zero s, 0)
  | _, .zero _ => (.zero s, 0)
  | .fin _ m e, .fin _ n f => (.fin s (m * n) (e + f), 0)

/-- The exact product. -/
def preMul (a b : Num) : Pre :=
  let p := mulNum a b
  ⟨p.1.pre.v, p.2⟩

/-- a × b + c exactly, rounded once by its caller (R44). -/
def preFma (rm : BitVec 3) (a b c : Num) : Pre :=
  let p := mulNum a b
  let r := preAdd rm p.1 c
  ⟨r.v, r.fl ||| p.2⟩

/-- The exact quotient (R47). -/
def preDiv (a b : Num) : Pre :=
  let s := a.sign != b.sign
  match a, b with
  | .nan, _ => ⟨.nan, 0⟩
  | _, .nan => ⟨.nan, 0⟩
  | .inf _, .inf _ => ⟨.nan, flNV⟩
  | .inf _, _ => ⟨.inf s, 0⟩
  | .zero _, .zero _ => ⟨.nan, flNV⟩
  | .zero _, _ => ⟨.zero s, 0⟩
  | .fin _ _ _, .inf _ => ⟨.zero s, 0⟩
  | .fin _ _ _, .zero _ => ⟨.inf s, flDZ⟩
  | .fin _ m e, .fin _ n f => ⟨.real s (.quot m n (e - f)), 0⟩

/-- The exact square root (R47). -/
def preSqrt (a : Num) : Pre :=
  match a with
  | .nan => ⟨.nan, 0⟩
  | .zero s => ⟨.zero s, 0⟩
  | .inf s => if s then ⟨.nan, flNV⟩ else ⟨.inf false, 0⟩
  | .fin s m e => if s then ⟨.nan, flNV⟩ else ⟨.real false (.root m e), 0⟩

/-- 1 ÷ a (R47). -/
def preRcp (a : Num) : Pre := preDiv (.fin false 1 0) a

/-- 1 ÷ √a (R47). -/
def preRsq (a : Num) : Pre :=
  match a with
  | .nan => ⟨.nan, 0⟩
  | .zero s => ⟨.inf s, flDZ⟩
  | .inf s => if s then ⟨.nan, flNV⟩ else ⟨.zero false, 0⟩
  | .fin s m e => if s then ⟨.nan, flNV⟩ else ⟨.real false (.rroot m e), 0⟩

/-- 2^a (R47). Beyond 2^±4096 every format overflows or is below a quarter of its smallest step. -/
def preExp2 (a : Num) : Pre :=
  match a with
  | .nan => ⟨.nan, 0⟩
  | .zero _ => ⟨.real false (.dyad 1 0), 0⟩
  | .inf s => if s then ⟨.zero false, 0⟩ else ⟨.inf false, 0⟩
  | .fin s m e =>
    if 12 < (m.log2 : Int) + e then ⟨.real false (.dyad 1 (if s then -4096 else 4096)), 0⟩
    else if 0 ≤ e then
      let i : Int := (m * 2 ^ e.toNat : Nat)
      ⟨.real false (.dyad 1 (if s then -i else i)), 0⟩
    else
      let l := (-e).toNat
      let r := m % 2 ^ l
      let i : Int := (m / 2 ^ l : Nat)
      if r = 0 then ⟨.real false (.dyad 1 (if s then -i else i)), 0⟩
      else if s then ⟨.real false (.pow2 (-i - 1) (2 ^ l - r) l), 0⟩
      else ⟨.real false (.pow2 i r l), 0⟩

/-- log2 a (R47). -/
def preLog2 (a : Num) : Pre :=
  match a with
  | .nan => ⟨.nan, 0⟩
  | .zero _ => ⟨.inf true, flDZ⟩
  | .inf s => if s then ⟨.nan, flNV⟩ else ⟨.inf false, 0⟩
  | .fin s m e =>
    if s then ⟨.nan, flNV⟩
    else
      let top : Int := m.log2 + e
      if m = 2 ^ m.log2 then
        (if top = 0 then ⟨.zero false, 0⟩ else ⟨.real (top < 0) (.dyad top.natAbs 0), 0⟩)
      else ⟨.real (top < 0) (.lg2 m e), 0⟩

/-- a < b for two numbers, no NaN among them; −0 counts below +0 only when `z` says so. -/
def Num.lt (z : Bool) (a b : Num) : Bool :=
  let key (x : Num) (q : Int) : Int :=
    match x with
    | .fin s m e => finInt s m e q
    | _ => 0
  match a, b with
  | .inf s, .inf t => s && !t
  | .inf s, _ => s
  | _, .inf t => !t
  | .zero s, .zero t => z && s && !t
  | .fin _ _ e, .fin _ _ f => key a (min e f) < key b (min e f)
  | .fin s _ _, .zero _ => s
  | .zero _, .fin t _ _ => !t
  | _, _ => false

/-- Minimum or maximum by R44: the non-NaN operand when one is a NaN, −0 less than +0, no rounding. -/
def minMaxNum (mx : Bool) (a b : Num) : Num :=
  if a.isNan then b
  else if b.isNan then a
  else if mx then (if Num.lt true a b then b else a)
  else (if Num.lt true b a then b else a)

/-- Compare by R46; `none` when the code is not one a float comparison accepts. -/
def cmpNum (cc : Nat) (a b : Num) : Bool × Flags :=
  let un := a.isNan || b.isNan
  let lt := !un && Num.lt false a b
  let gt := !un && Num.lt false b a
  match cc with
  | 0 => (!un && !lt && !gt, 0)
  | 1 => (un || lt || gt, 0)
  | 2 => (lt, if un then flNV else 0)
  | 3 => (!un && !gt, if un then flNV else 0)
  | _ => (un, 0)

/-- The class number of a value in the numbering of `fclass` (R111): a subnormal is a non-zero value below the target's
smallest normal magnitude. -/
def classNum (e : BitVec 32) (x : Num) : Nat :=
  match x with
  | .nan => 0
  | .inf s => if s then 1 else 8
  | .zero s => if s then 4 else 5
  | .fin s m q =>
    let subn := (m.log2 : Int) + q < 1 - fmtBias e
    if s then (if subn then 3 else 2) else (if subn then 6 else 7)

/-! ### WIDE96 (R52, R53) -/

/-- The canonical NaN of WIDE96. -/
def wideNan : BitVec 96 := 0x7FFF80000000000000000000

/-- The value of a WIDE96 code, canonical or not (R52). -/
def decodeWide (c : BitVec 96) : Num :=
  let s := c.getLsbD 95
  let x := (field 80 15 c).toNat
  let g := (field 0 80 c).toNat
  if x = 0x7FFF then (if g = 0 then .inf s else .nan)
  else if x = 0 then Num.mk s g (1 - 16383 - 79)
  else Num.mk s g ((x : Int) - 16383 - 79)

/-- The canonical WIDE96 code of a number rounded to it (R52). -/
def encodeWide (x : Num) : BitVec 96 :=
  let mk (s : Bool) (e g : Nat) : BitVec 96 :=
    BitVec.ofNat 96 ((if s then 2 ^ 95 else 0) + e * 2 ^ 80 + g)
  match x with
  | .zero s => mk s 0 0
  | .inf s => mk s 0x7FFF 0
  | .nan => wideNan
  | .fin s m q =>
    let lead : Int := m.log2 + q
    if lead < -16382 then mk s 0 (shiftFloor m (q - (-16382 - 79))).1
    else mk s (lead + 16383).toNat (shiftFloor m (q - (lead - 79))).1

/-- RoundTo(WIDE96, x, RNE, 0) (R53). -/
def roundWide (x : Pre) : BitVec 96 × Flags :=
  let r := roundFloat wideTarget 0 false x
  (encodeWide r.1, r.2)

end Sys2Proof.Machine
end

