-- ==== Sys2Proof/Syntax.lean ====
section
/-! DEFINITION. The instructions of the W1: one constructor of `Instr` for each row of the opcode table.

A slot instruction carries the fields of its slot as the layout of its form names them, reserved fields included, since
a reserved field that is not zero is no decoding error but a cause the bundle raises when it issues (R62, R101).
An event (a step of the machine that no slot encodes) carries what tells one such event from another. -/

namespace Sys2Proof

/-- The nine slots of a bundle, the header, and none, in the coding of TRAPINFO1.SLOT (R27). -/
inductive Slot
  | h | s0 | s1 | c | v | l | z | m | k | n | none
deriving DecidableEq, Repr

/-- The fields of form R (and P with layout R, whose PD is `d[5:3]`), R66. -/
structure RForm where
  /-- `true` when the instruction sits in S1 (R86). -/
  s1 : Bool
  /-- guard invert -/
  gi : BitVec 1
  /-- guard predicate -/
  gp : BitVec 3
  d : BitVec 6
  a : BitVec 6
  b : BitVec 6
  c : BitVec 6
  x : BitVec 12
deriving DecidableEq, Repr

/-- The fields of form I (and P with layout I, whose PD is `d[5:3]`), R66. -/
structure IForm where
  /-- `true` when the instruction sits in S1 (R86). -/
  s1 : Bool
  /-- guard invert -/
  gi : BitVec 1
  /-- guard predicate -/
  gp : BitVec 3
  d : BitVec 6
  a : BitVec 6
  b : BitVec 6
  imm : BitVec 18
deriving DecidableEq, Repr

/-- The fields of form L, R66. -/
structure LForm where
  /-- `true` when the instruction sits in S1 (R86). -/
  s1 : Bool
  /-- guard invert -/
  gi : BitVec 1
  /-- guard predicate -/
  gp : BitVec 3
  d : BitVec 6
  imm : BitVec 30
deriving DecidableEq, Repr

/-- The fields of `br` and `call`, R119. -/
structure BrForm where
  /-- guard invert -/
  gi : BitVec 1
  /-- guard predicate -/
  gp : BitVec 3
  t : BitVec 3
  /-- required to be zero -/
  z : BitVec 19
deriving DecidableEq, Repr

/-- The fields of a C instruction without operands, R119. -/
structure BareForm where
  /-- guard invert -/
  gi : BitVec 1
  /-- guard predicate -/
  gp : BitVec 3
  /-- required to be zero -/
  z : BitVec 22
deriving DecidableEq, Repr

/-- The fields of `loop`, R119. -/
structure LoopForm where
  /-- guard invert -/
  gi : BitVec 1
  /-- guard predicate -/
  gp : BitVec 3
  t : BitVec 3
  lc : BitVec 2
  /-- required to be zero -/
  z : BitVec 17
deriving DecidableEq, Repr

/-- The fields of `wait`, R119. -/
structure WaitForm where
  /-- guard invert -/
  gi : BitVec 1
  /-- guard predicate -/
  gp : BitVec 3
  /-- required to be zero -/
  z : BitVec 2
  l : BitVec 4
  s : BitVec 4
  k : BitVec 4
  m : BitVec 4
  n : BitVec 4
deriving DecidableEq, Repr

/-- The fields of `sync`, R119. -/
structure SyncForm where
  /-- guard invert -/
  gi : BitVec 1
  /-- guard predicate -/
  gp : BitVec 3
  bl : BitVec 2
  pv : BitVec 3
  pr : BitVec 3
  /-- required to be zero -/
  z : BitVec 14
deriving DecidableEq, Repr

/-- The fields of `trap` and `brk`, R119. -/
structure TrapForm where
  /-- guard invert -/
  gi : BitVec 1
  /-- guard predicate -/
  gp : BitVec 3
  /-- required to be zero -/
  z : BitVec 6
  imm : BitVec 16
deriving DecidableEq, Repr

/-- The fields of `qfence`, R119. -/
structure QfenceForm where
  /-- guard invert -/
  gi : BitVec 1
  /-- guard predicate -/
  gp : BitVec 3
  /-- required to be zero -/
  z : BitVec 18
  mask : BitVec 4
deriving DecidableEq, Repr

/-- The fields of the V slot, R68. -/
structure VForm where
  mg : BitVec 4
  fmt : BitVec 4
  rnd : BitVec 3
  sat : BitVec 1
  lw : BitVec 2
  vd : BitVec 5
  va : BitVec 5
  vb : BitVec 5
  vc : BitVec 5
  sb : BitVec 1
  fn : BitVec 21
deriving DecidableEq, Repr

/-- The fields of form LS, R153. -/
structure LsForm where
  /-- guard invert -/
  gi : BitVec 1
  /-- guard predicate -/
  gp : BitVec 3
  cls : BitVec 4
  d : BitVec 6
  a : BitVec 6
  t : BitVec 4
  disp : BitVec 16
deriving DecidableEq, Repr

/-- The fields of form LV, R154. -/
structure LvForm where
  /-- guard invert -/
  gi : BitVec 1
  /-- guard predicate -/
  gp : BitVec 3
  cls : BitVec 4
  v : BitVec 5
  a : BitVec 6
  /-- required to be zero -/
  z : BitVec 5
  disp : BitVec 16
deriving DecidableEq, Repr

/-- The fields of form LVS, R155. -/
structure LvsForm where
  /-- guard invert -/
  gi : BitVec 1
  /-- guard predicate -/
  gp : BitVec 3
  cls : BitVec 4
  v : BitVec 5
  a : BitVec 6
  s : BitVec 6
  lw : BitVec 2
  disp : BitVec 13
deriving DecidableEq, Repr

/-- The fields of form LVG, R156. -/
structure LvgForm where
  /-- guard invert -/
  gi : BitVec 1
  /-- guard predicate -/
  gp : BitVec 3
  cls : BitVec 4
  v : BitVec 5
  a : BitVec 6
  vi : BitVec 5
  lw : BitVec 2
  sc : BitVec 2
  m : BitVec 4
  /-- required to be zero -/
  z : BitVec 8
deriving DecidableEq, Repr

/-- The fields of `stvm`, R157. -/
structure StvmForm where
  /-- guard invert -/
  gi : BitVec 1
  /-- guard predicate -/
  gp : BitVec 3
  cls : BitVec 4
  v : BitVec 5
  a : BitVec 6
  m : BitVec 4
  lw : BitVec 2
  disp : BitVec 15
deriving DecidableEq, Repr

/-- The fields of form AW, R158. -/
structure AwForm where
  /-- guard invert -/
  gi : BitVec 1
  /-- guard predicate -/
  gp : BitVec 3
  cls : BitVec 4
  r1 : BitVec 6
  a : BitVec 6
  r2 : BitVec 6
  disp : BitVec 14
deriving DecidableEq, Repr

/-- The fields of `spl` and `fil`, R161. -/
structure SpForm where
  /-- guard invert -/
  gi : BitVec 1
  /-- guard predicate -/
  gp : BitVec 3
  cls : BitVec 4
  d : BitVec 6
  /-- required to be zero -/
  z : BitVec 17
  off : BitVec 9
deriving DecidableEq, Repr

/-- The fields of `splv` and `filv`, R161. -/
structure SpvForm where
  /-- guard invert -/
  gi : BitVec 1
  /-- guard predicate -/
  gp : BitVec 3
  cls : BitVec 4
  v : BitVec 5
  /-- required to be zero -/
  z : BitVec 18
  off : BitVec 9
deriving DecidableEq, Repr

/-- The fields of `xlate`, R163. -/
structure XlateForm where
  /-- guard invert -/
  gi : BitVec 1
  /-- guard predicate -/
  gp : BitVec 3
  cls : BitVec 4
  h : BitVec 4
  /-- required to be zero -/
  z1 : BitVec 2
  a : BitVec 6
  /-- required to be zero -/
  z2 : BitVec 20
deriving DecidableEq, Repr

/-- The fields of `hinv`, R163. -/
structure HinvForm where
  /-- guard invert -/
  gi : BitVec 1
  /-- guard predicate -/
  gp : BitVec 3
  cls : BitVec 4
  h : BitVec 4
  /-- required to be zero -/
  z : BitVec 28
deriving DecidableEq, Repr

/-- The fields of `hget`, R163. -/
structure HgetForm where
  /-- guard invert -/
  gi : BitVec 1
  /-- guard predicate -/
  gp : BitVec 3
  cls : BitVec 4
  d : BitVec 6
  h : BitVec 4
  /-- required to be zero -/
  z : BitVec 20
  sel : BitVec 2
deriving DecidableEq, Repr

/-- The fields of `ldh` and `sth`, R165. -/
structure LdhForm where
  /-- guard invert -/
  gi : BitVec 1
  /-- guard predicate -/
  gp : BitVec 3
  cls : BitVec 4
  d : BitVec 6
  h : BitVec 4
  i : BitVec 6
  t : BitVec 4
  disp : BitVec 12
deriving DecidableEq, Repr

/-- The fields of `ldvh` and `stvh`, R165. -/
structure LdvhForm where
  /-- guard invert -/
  gi : BitVec 1
  /-- guard predicate -/
  gp : BitVec 3
  cls : BitVec 4
  v : BitVec 5
  h : BitVec 4
  i : BitVec 6
  /-- required to be zero -/
  z : BitVec 5
  disp : BitVec 12
deriving DecidableEq, Repr

/-- The fields of form AT, R168. -/
structure AtForm where
  /-- guard invert -/
  gi : BitVec 1
  /-- guard predicate -/
  gp : BitVec 3
  cls : BitVec 4
  d : BitVec 6
  a : BitVec 6
  b : BitVec 6
  c : BitVec 6
  w : BitVec 2
  pd : BitVec 3
  /-- required to be zero -/
  z : BitVec 3
deriving DecidableEq, Repr

/-- The fields of `fence`, R98. -/
structure FenceForm where
  /-- guard invert -/
  gi : BitVec 1
  /-- guard predicate -/
  gp : BitVec 3
  cls : BitVec 4
  /-- required to be zero -/
  z : BitVec 16
  mask : BitVec 16
deriving DecidableEq, Repr

/-- The fields of `fence.sc`, R98. -/
structure FenceScForm where
  /-- guard invert -/
  gi : BitVec 1
  /-- guard predicate -/
  gp : BitVec 3
  cls : BitVec 4
  /-- required to be zero -/
  z : BitVec 29
  scope : BitVec 3
deriving DecidableEq, Repr

/-- The fields of the Z slot, R70. -/
structure ZForm where
  d : BitVec 4
  off : BitVec 15
deriving DecidableEq, Repr

/-- The fields of the M slot, R70: the command fields are laid out by R182 to R188. -/
structure MForm where
  ops : BitVec 27
deriving DecidableEq, Repr

/-- The fields of the K slot, R70. -/
structure KForm where
  aws : BitVec 3
  ring : BitVec 3
  swz : BitVec 4
  ops : BitVec 17
deriving DecidableEq, Repr

/-- The fields of the N slot, R70. -/
structure NForm where
  ch : BitVec 10
  aws : BitVec 3
  pm : BitVec 2
  ops : BitVec 12
deriving DecidableEq, Repr

/-- Where a host's access goes: an offset in its window BAR0, or a byte of drawer memory (R256, R280). -/
structure HostPlace where
  window : Bool
  addr : Nat
deriving DecidableEq, Repr

/-- The instructions: slot instructions first, in the table's order, then the events. -/
inductive Instr
  /-- Event BUNDLE_ISSUE, R413. -/
  | bundleIssue (t : Nat)
  /-- Event LOCKSTEP_RESULT_LANDING, R13. -/
  | lockstepResultLanding (t : Nat)
  /-- Event TRAP_DELIVERY, R28. -/
  | trapDelivery (t : Nat)
  /-- Event GANG_ABORT, R374. -/
  | gangAbort (t : Nat)
  /-- `add`, R105. -/
  | add (f : RForm)
  /-- `sub`, R105. -/
  | sub (f : RForm)
  /-- `mul`, R105. -/
  | mul (f : RForm)
  /-- `mulh`, R105. -/
  | mulh (f : RForm)
  /-- `mulhn`, R105. -/
  | mulhn (f : RForm)
  /-- `div`, R105. -/
  | div (f : RForm)
  /-- `divn`, R105. -/
  | divn (f : RForm)
  /-- `rem`, R105. -/
  | rem (f : RForm)
  /-- `remn`, R105. -/
  | remn (f : RForm)
  /-- `and`, R105. -/
  | and (f : RForm)
  /-- `or`, R105. -/
  | or (f : RForm)
  /-- `xor`, R105. -/
  | xor (f : RForm)
  /-- `andn`, R105. -/
  | andn (f : RForm)
  /-- `shl`, R105. -/
  | shl (f : RForm)
  /-- `shr`, R105. -/
  | shr (f : RForm)
  /-- `sra`, R105. -/
  | sra (f : RForm)
  /-- `rol`, R105. -/
  | rol (f : RForm)
  /-- `min`, R105. -/
  | min (f : RForm)
  /-- `max`, R105. -/
  | max (f : RForm)
  /-- `minn`, R105. -/
  | minn (f : RForm)
  /-- `maxn`, R105. -/
  | maxn (f : RForm)
  /-- `clz`, R105. -/
  | clz (f : RForm)
  /-- `ctz`, R105. -/
  | ctz (f : RForm)
  /-- `popc`, R105. -/
  | popc (f : RForm)
  /-- `bswap`, R105. -/
  | bswap (f : RForm)
  /-- `exts`, R105. -/
  | exts (f : RForm)
  /-- `extz`, R105. -/
  | extz (f : RForm)
  /-- `ins`, R105. -/
  | ins (f : RForm)
  /-- `sel`, R105. -/
  | sel (f : RForm)
  /-- `lea`, R105. -/
  | lea (f : RForm)
  /-- `addi`, R107. -/
  | addi (f : IForm)
  /-- `andi`, R107. -/
  | andi (f : IForm)
  /-- `ori`, R107. -/
  | ori (f : IForm)
  /-- `xori`, R107. -/
  | xori (f : IForm)
  /-- `shli`, R107. -/
  | shli (f : IForm)
  /-- `shri`, R107. -/
  | shri (f : IForm)
  /-- `srai`, R107. -/
  | srai (f : IForm)
  /-- `muli`, R107. -/
  | muli (f : IForm)
  /-- `mini`, R107. -/
  | mini (f : IForm)
  /-- `maxi`, R107. -/
  | maxi (f : IForm)
  /-- `movi`, R108. -/
  | movi (f : LForm)
  /-- `moviz`, R108. -/
  | moviz (f : LForm)
  /-- `movm`, R108. -/
  | movm (f : LForm)
  /-- `movt`, R108. -/
  | movt (f : LForm)
  /-- `addpc`, R108. -/
  | addpc (f : LForm)
  /-- `cmp`, R109. -/
  | cmp (f : RForm)
  /-- `cmpi`, R109. -/
  | cmpi (f : IForm)
  /-- `pand`, R109. -/
  | pand (f : RForm)
  /-- `por`, R109. -/
  | por (f : RForm)
  /-- `pxor`, R109. -/
  | pxor (f : RForm)
  /-- `pmov`, R109. -/
  | pmov (f : RForm)
  /-- `ptos`, R109. -/
  | ptos (f : RForm)
  /-- `pset`, R109. -/
  | pset (f : IForm)
  /-- `ptst`, R109. -/
  | ptst (f : IForm)
  /-- `fadd`, R111. -/
  | fadd (f : RForm)
  /-- `fsub`, R111. -/
  | fsub (f : RForm)
  /-- `fmul`, R111. -/
  | fmul (f : RForm)
  /-- `ffma`, R111. -/
  | ffma (f : RForm)
  /-- `fmin`, R111. -/
  | fmin (f : RForm)
  /-- `fmax`, R111. -/
  | fmax (f : RForm)
  /-- `fdiv`, R111. -/
  | fdiv (f : RForm)
  /-- `fsqrt`, R111. -/
  | fsqrt (f : RForm)
  /-- `fcmp`, R111. -/
  | fcmp (f : RForm)
  /-- `fclass`, R111. -/
  | fclass (f : RForm)
  /-- `fsgn`, R111. -/
  | fsgn (f : RForm)
  /-- `fcvt`, R112. -/
  | fcvt (f : RForm)
  /-- `fcvti`, R112. -/
  | fcvti (f : RForm)
  /-- `icvtf`, R112. -/
  | icvtf (f : RForm)
  /-- `prep`, R113. -/
  | prep (f : RForm)
  /-- `prepr`, R113. -/
  | prepr (f : LForm)
  /-- `get`, R114. -/
  | get (f : IForm)
  /-- `set`, R114. -/
  | set (f : IForm)
  /-- `gets`, R114. -/
  | gets (f : IForm)
  /-- `sets`, R114. -/
  | sets (f : IForm)
  /-- `setfmt`, R115. -/
  | setfmt (f : IForm)
  /-- `getfmt`, R115. -/
  | getfmt (f : IForm)
  /-- `stg`, R116. -/
  | stg (f : IForm)
  /-- `gtg`, R116. -/
  | gtg (f : IForm)
  /-- `lcset`, R117. -/
  | lcset (f : IForm)
  /-- `lcget`, R117. -/
  | lcget (f : IForm)
  /-- `rasrd`, R117. -/
  | rasrd (f : IForm)
  /-- `raswr`, R117. -/
  | raswr (f : IForm)
  /-- `br`, R120. -/
  | br (f : BrForm)
  /-- `call`, R120. -/
  | call (f : BrForm)
  /-- `ret`, R120. -/
  | ret (f : BareForm)
  /-- `loop`, R120. -/
  | loop (f : LoopForm)
  /-- `wait`, R121. -/
  | wait (f : WaitForm)
  /-- `sync`, R122. -/
  | sync (f : SyncForm)
  /-- `done`, R123. -/
  | done (f : BareForm)
  /-- `swap`, R123. -/
  | swap (f : BareForm)
  /-- `trap`, R124. -/
  | trap (f : TrapForm)
  /-- `brk`, R124. -/
  | brk (f : TrapForm)
  /-- `eret`, R125. -/
  | eret (f : BareForm)
  /-- `idle`, R126. -/
  | idle (f : BareForm)
  /-- `halt`, R126. -/
  | halt (f : BareForm)
  /-- `qfence`, R127. -/
  | qfence (f : QfenceForm)
  /-- `vadd`, R131. -/
  | vadd (f : VForm)
  /-- `vsub`, R131. -/
  | vsub (f : VForm)
  /-- `vmul`, R131. -/
  | vmul (f : VForm)
  /-- `vmulh`, R131. -/
  | vmulh (f : VForm)
  /-- `vmulhn`, R131. -/
  | vmulhn (f : VForm)
  /-- `vmin`, R131. -/
  | vmin (f : VForm)
  /-- `vmax`, R131. -/
  | vmax (f : VForm)
  /-- `vminn`, R131. -/
  | vminn (f : VForm)
  /-- `vmaxn`, R131. -/
  | vmaxn (f : VForm)
  /-- `vand`, R131. -/
  | vand (f : VForm)
  /-- `vor`, R131. -/
  | vor (f : VForm)
  /-- `vxor`, R131. -/
  | vxor (f : VForm)
  /-- `vandn`, R131. -/
  | vandn (f : VForm)
  /-- `vshl`, R131. -/
  | vshl (f : VForm)
  /-- `vshr`, R131. -/
  | vshr (f : VForm)
  /-- `vsra`, R131. -/
  | vsra (f : VForm)
  /-- `vabs`, R131. -/
  | vabs (f : VForm)
  /-- `vneg`, R131. -/
  | vneg (f : VForm)
  /-- `vclz`, R131. -/
  | vclz (f : VForm)
  /-- `vpopc`, R131. -/
  | vpopc (f : VForm)
  /-- `vadds`, R131. -/
  | vadds (f : VForm)
  /-- `vaddsn`, R131. -/
  | vaddsn (f : VForm)
  /-- `vsubs`, R131. -/
  | vsubs (f : VForm)
  /-- `vsubsn`, R131. -/
  | vsubsn (f : VForm)
  /-- `vsel`, R132. -/
  | vsel (f : VForm)
  /-- `vcmp`, R132. -/
  | vcmp (f : VForm)
  /-- `vfadd`, R133. -/
  | vfadd (f : VForm)
  /-- `vfsub`, R133. -/
  | vfsub (f : VForm)
  /-- `vfmul`, R133. -/
  | vfmul (f : VForm)
  /-- `vfma`, R133. -/
  | vfma (f : VForm)
  /-- `vfmin`, R133. -/
  | vfmin (f : VForm)
  /-- `vfmax`, R133. -/
  | vfmax (f : VForm)
  /-- `vfdiv`, R133. -/
  | vfdiv (f : VForm)
  /-- `vfsqrt`, R133. -/
  | vfsqrt (f : VForm)
  /-- `vfexp2`, R133. -/
  | vfexp2 (f : VForm)
  /-- `vflog2`, R133. -/
  | vflog2 (f : VForm)
  /-- `vfrcp`, R133. -/
  | vfrcp (f : VForm)
  /-- `vfrsq`, R133. -/
  | vfrsq (f : VForm)
  /-- `vfabs`, R134. -/
  | vfabs (f : VForm)
  /-- `vfneg`, R134. -/
  | vfneg (f : VForm)
  /-- `vfcmp`, R134. -/
  | vfcmp (f : VForm)
  /-- `vfclass`, R134. -/
  | vfclass (f : VForm)
  /-- `vcvt`, R136. -/
  | vcvt (f : VForm)
  /-- `vqnt`, R136. -/
  | vqnt (f : VForm)
  /-- `vdqnt`, R136. -/
  | vdqnt (f : VForm)
  /-- `vfredadd`, R137. -/
  | vfredadd (f : VForm)
  /-- `vfredmax`, R137. -/
  | vfredmax (f : VForm)
  /-- `vredadd`, R137. -/
  | vredadd (f : VForm)
  /-- `vredmax`, R137. -/
  | vredmax (f : VForm)
  /-- `vmov`, R138. -/
  | vmov (f : VForm)
  /-- `vsplat`, R138. -/
  | vsplat (f : VForm)
  /-- `vsplati`, R138. -/
  | vsplati (f : VForm)
  /-- `vextr`, R138. -/
  | vextr (f : VForm)
  /-- `vinsr`, R138. -/
  | vinsr (f : VForm)
  /-- `vperm`, R138. -/
  | vperm (f : VForm)
  /-- `vperm2`, R138. -/
  | vperm2 (f : VForm)
  /-- `vshuf`, R138. -/
  | vshuf (f : VForm)
  /-- `vslide`, R138. -/
  | vslide (f : VForm)
  /-- `viota`, R138. -/
  | viota (f : VForm)
  /-- `vacc`, R140. -/
  | vacc (f : VForm)
  /-- `vaccw`, R141. -/
  | vaccw (f : VForm)
  /-- `vsin`, R142. -/
  | vsin (f : VForm)
  /-- `vsout`, R142. -/
  | vsout (f : VForm)
  /-- `mand`, R144. -/
  | mand (f : VForm)
  /-- `mor`, R144. -/
  | mor (f : VForm)
  /-- `mxor`, R144. -/
  | mxor (f : VForm)
  /-- `mnot`, R144. -/
  | mnot (f : VForm)
  /-- `mset`, R144. -/
  | mset (f : VForm)
  /-- `mget`, R144. -/
  | mget (f : VForm)
  /-- `vany`, R145. -/
  | vany (f : VForm)
  /-- `vall`, R145. -/
  | vall (f : VForm)
  /-- `mpopc`, R145. -/
  | mpopc (f : VForm)
  /-- `zld`, R147. -/
  | zld (f : ZForm)
  /-- `zldh`, R147. -/
  | zldh (f : ZForm)
  /-- `zldb`, R147. -/
  | zldb (f : ZForm)
  /-- `kld`, R147. -/
  | kld (f : ZForm)
  /-- `zfromv`, R147. -/
  | zfromv (f : ZForm)
  /-- `lds`, R153. -/
  | lds (f : LsForm)
  /-- `sts`, R153. -/
  | sts (f : LsForm)
  /-- `ldv`, R154. -/
  | ldv (f : LvForm)
  /-- `stv`, R154. -/
  | stv (f : LvForm)
  /-- `ldvs`, R155. -/
  | ldvs (f : LvsForm)
  /-- `stvs`, R155. -/
  | stvs (f : LvsForm)
  /-- `ldvg`, R156. -/
  | ldvg (f : LvgForm)
  /-- `stvg`, R156. -/
  | stvg (f : LvgForm)
  /-- `stvm`, R157. -/
  | stvm (f : StvmForm)
  /-- `setaw`, R159. -/
  | setaw (f : AwForm)
  /-- `waita`, R160. -/
  | waita (f : AwForm)
  /-- `spl`, R161. -/
  | spl (f : SpForm)
  /-- `fil`, R161. -/
  | fil (f : SpForm)
  /-- `splv`, R161. -/
  | splv (f : SpvForm)
  /-- `filv`, R161. -/
  | filv (f : SpvForm)
  /-- `xlate`, R163. -/
  | xlate (f : XlateForm)
  /-- `hinv`, R163. -/
  | hinv (f : HinvForm)
  /-- `hget`, R163. -/
  | hget (f : HgetForm)
  /-- `ldh`, R165. -/
  | ldh (f : LdhForm)
  /-- `sth`, R165. -/
  | sth (f : LdhForm)
  /-- `ldvh`, R165. -/
  | ldvh (f : LdvhForm)
  /-- `stvh`, R165. -/
  | stvh (f : LdvhForm)
  /-- `aadd`, R170. -/
  | aadd (f : AtForm)
  /-- `amin`, R170. -/
  | amin (f : AtForm)
  /-- `amax`, R170. -/
  | amax (f : AtForm)
  /-- `aminn`, R170. -/
  | aminn (f : AtForm)
  /-- `amaxn`, R170. -/
  | amaxn (f : AtForm)
  /-- `aand`, R170. -/
  | aand (f : AtForm)
  /-- `aor`, R170. -/
  | aor (f : AtForm)
  /-- `axor`, R170. -/
  | axor (f : AtForm)
  /-- `aswp`, R170. -/
  | aswp (f : AtForm)
  /-- `acas`, R170. -/
  | acas (f : AtForm)
  /-- `aincb`, R170. -/
  | aincb (f : AtForm)
  /-- `aincw`, R170. -/
  | aincw (f : AtForm)
  /-- `adecp`, R170. -/
  | adecp (f : AtForm)
  /-- `afal`, R170. -/
  | afal (f : AtForm)
  /-- `afadd`, R170. -/
  | afadd (f : AtForm)
  /-- `fence`, R174. -/
  | fence (f : FenceForm)
  /-- `fence.sc`, R175. -/
  | fenceSc (f : FenceScForm)
  /-- `mma`, R183. -/
  | mma (f : MForm)
  /-- `mepi`, R185. -/
  | mepi (f : MForm)
  /-- `msend`, R186. -/
  | msend (f : MForm)
  /-- `mred`, R187. -/
  | mred (f : MForm)
  /-- `mclr`, R188. -/
  | mclr (f : MForm)
  /-- `mstat`, R188. -/
  | mstat (f : MForm)
  /-- `kcpy`, R190. -/
  | kcpy (f : KForm)
  /-- `kput`, R195. -/
  | kput (f : KForm)
  /-- `kfill`, R196. -/
  | kfill (f : KForm)
  /-- `kfill`, R196. -/
  | kfillConfigure (f : KForm)
  /-- `kdec`, R197. -/
  | kdec (f : KForm)
  /-- `kzero`, R190. -/
  | kzero (f : KForm)
  /-- `kloc`, R195. -/
  | kloc (f : KForm)
  /-- `nsend`, R200. -/
  | nsend (f : NForm)
  /-- `nsendt`, R202. -/
  | nsendt (f : NForm)
  /-- `npost`, R201. -/
  | npost (f : NForm)
  /-- `npush`, R205. -/
  | npush (f : NForm)
  /-- `npop`, R206. -/
  | npop (f : NForm)
  /-- `nrot`, R203. -/
  | nrot (f : NForm)
  /-- `ngsend`, R204. -/
  | ngsend (f : NForm)
  /-- `nclose`, R205. -/
  | nclose (f : NForm)
  /-- `ndisarm`, R202. -/
  | ndisarm (f : NForm)
  /-- Event DRAWER_LOAD_RETURN, R166. -/
  | drawerLoadReturn (t : Nat) (a : Nat)
  /-- Event DRAWER_STORE_ACCEPT, R167. -/
  | drawerStoreAccept (t : Nat) (a : Nat)
  /-- Event HELD_LOAD_REISSUE, R316. -/
  | heldLoadReissue (t : Nat)
  /-- Event SIDE_LOG_REPLAY, R316. -/
  | sideLogReplay (t : Nat) (cls : Nat)
  /-- Event REMOTE_ATOMIC_SERVICE, R241. -/
  | remoteAtomicService (p : Nat)
  /-- Event REMOTE_ATOMIC_REPLY, R171. -/
  | remoteAtomicReply (p : Nat)
  /-- Event HANDLE_WALK_END, R307. -/
  | handleWalkEnd (k : Nat) (w : Nat) (stalled : Bool)
  /-- Event SHOOTDOWN_REQUEST, R309. -/
  | shootdownRequest (x : Word)
  /-- Event SHOOTDOWN_ACK, R310. -/
  | shootdownAck (t : Nat)
  /-- Event SHOOTDOWN_COMPLETE, R310. -/
  | shootdownComplete
  /-- Event FAULT_RECORD_WRITE, R312. -/
  | faultRecordWrite
  /-- Event FAULT_BUFFER_FLUSH, R315. -/
  | faultBufferFlush (x : Word)
  /-- Event MATRIX_DISPATCH, R184. -/
  | matrixDispatch (t : Nat)
  /-- Event MMA_PASS_START, R217. -/
  | mmaPassStart (t : Nat)
  /-- Event MMA_PASS_RETIRE, R212. -/
  | mmaPassRetire (t : Nat)
  /-- Event ACC_ROW_FINAL, R219. -/
  | accRowFinal (t : Nat)
  /-- Event MEPI_ROW_WRITE, R185. -/
  | mepiRowWrite (t : Nat)
  /-- Event MSEND_ROW_SEND, R186. -/
  | msendRowSend (t : Nat)
  /-- Event MRED_ROW_ADD, R187. -/
  | mredRowAdd (t : Nat)
  /-- Event MCLR_ROW_WRITE, R188. -/
  | mclrRowWrite (t : Nat)
  /-- Event COPY_DISPATCH, R191. -/
  | copyDispatch (t : Nat)
  /-- Event CHUNK_ISSUE, R192. -/
  | chunkIssue (t : Nat)
  /-- Event CHUNK_COMPLETE, R192. -/
  | chunkComplete (t : Nat) (n : Nat)
  /-- Event CHUNK_READ_FAULT, R193. -/
  | chunkReadFault (t : Nat)
  /-- Event CHANNEL_DISPATCH, R199. -/
  | channelDispatch (t : Nat)
  /-- Event PACKET_SEND, R200. -/
  | packetSend (t : Nat)
  /-- Event PACKET_DEPOSIT, R228. -/
  | packetDeposit (p : Nat)
  /-- Event ARRIVAL, R238. -/
  | arrival (a : Nat)
  /-- Event CREDIT_RETURN, R233. -/
  | creditReturn (c : Nat)
  /-- Event TRIGGERED_SEND_FIRE, R202. -/
  | triggeredSendFire (t : Nat)
  /-- Event QUEUE_APPEND, R284. -/
  | queueAppend (p : Nat)
  /-- Event QUEUE_POP, R286. -/
  | queuePop (p : Nat)
  /-- Event QUEUE_CLOSE, R287. -/
  | queueClose (p : Nat)
  /-- Event SPILL_MOVE, R284. -/
  | spillMove (q : Nat)
  /-- Event BARRIER_DETECT, R264. -/
  | barrierDetect (g : Nat) (bl : Nat)
  /-- Event BARRIER_RELEASE, R264. -/
  | barrierRelease (g : Nat) (bl : Nat)
  /-- Event STREAM_REGISTER_WATCHDOG, R143. -/
  | streamRegisterWatchdog (t : Nat)
  /-- Event ARRIVAL_WAIT_WATCHDOG, R160. -/
  | arrivalWaitWatchdog (t : Nat)
  /-- Event OPTICAL_VECTOR_DELIVERY, R244. -/
  | opticalVectorDelivery (p : Nat) (lane : Nat) (inward : Bool) (x : Vec)
  /-- Event OPTICAL_HOP, R243. -/
  | opticalHop (p : Nat) (id : Nat) (inward : Bool) (hdr : BitVec 512) (data : List (BitVec 8))
  /-- Event DRAIN_POINT, R123. -/
  | drainPoint (t : Nat)
  /-- Event TAIL_REGISTER_WRITE, R281. -/
  | tailRegisterWrite (port : Nat) (q : Nat) (x : Word)
  /-- Event STAGING_ENTRY_TAKE, R281. -/
  | stagingEntryTake (q : Nat)
  /-- Event EVENT_COUNTER_WRITE, R282. -/
  | eventCounterWrite (port : Nat) (c : Nat) (e : Nat) (x : BitVec 32)
  /-- Event HOST_DRAWER_ACCESS, R256. -/
  | hostDrawerAccess (port : Nat) (write : Bool) (addr : HostPlace) (len : Nat) (data : List (BitVec 8))
  /-- Event PLACEMENT_ROUND, R295. -/
  | placementRound
  /-- Event DEPENDENCE_READ, R296. -/
  | dependenceRead (l : Nat)
  /-- Event PLANE_LOAD, R298. -/
  | planeLoad (l : Nat)
  /-- Event LAUNCH_GRANT, R299. -/
  | launchGrant (l : Nat)
  /-- Event START_TOKEN, R299. -/
  | startToken (g : Nat) (t : Nat)
  /-- Event GANG_START, R299. -/
  | gangStart (g : Nat)
  /-- Event LAUNCH_COMPLETE, R293. -/
  | launchComplete (g : Nat)
  /-- Event STALE_LAUNCH, R301. -/
  | staleLaunch (l : Nat)
  /-- Event CONTEXT_SAVE_REQUEST, R327. -/
  | contextSaveRequest (x : Word)
  /-- Event CONTEXT_RESTORE_REQUEST, R330. -/
  | contextRestoreRequest (x : Word)
  /-- Event CONTEXT_DESTROY_REQUEST, R321. -/
  | contextDestroyRequest (x : Word)
  /-- Event HALT_TOKEN, R327. -/
  | haltToken (t : Nat)
  /-- Event TILE_HALTED, R327. -/
  | tileHalted (t : Nat)
  /-- Event TILE_RECORD_WRITTEN, R329. -/
  | tileRecordWritten (t : Nat)
  /-- Event GANG_RESTORE, R330. -/
  | gangRestore (c : Nat)
  /-- Event DESCRIPTOR_SELECT, R400. -/
  | descriptorSelect (x : Word)
  /-- Event QUEUE_DESCRIPTOR_COMMIT, R283. -/
  | queueDescriptorCommit (x : Word)
  /-- Event CONTEXT_DESCRIPTOR_COMMIT, R320. -/
  | contextDescriptorCommit (x : Word)
  /-- Event ACCESS_TABLE_SELECT, R402. -/
  | accessTableSelect (x : Word)
  /-- Event TILE_GRANT_COMMIT, R402. -/
  | tileGrantCommit (x : Word)
  /-- Event DRAWER_RANGE_COMMIT, R402. -/
  | drawerRangeCommit (x : Word)
  /-- Event HOST_CONTEXT_SET_COMMIT, R402. -/
  | hostContextSetCommit (x : Word)
  /-- Event DRAWER_REQUEST_SEND, R343. -/
  | drawerRequestSend (t : Nat)
  /-- Event SLOT_GRANT, R341. -/
  | slotGrant (n : Nat)
  /-- Event SLT_DATA_WRITE, R340. -/
  | sltDataWrite (x : Word)
  /-- Event SLOT_TABLE_COMMIT, R340. -/
  | slotTableCommit (x : Word)
  /-- Event SLOT_TABLE_SWITCH, R340. -/
  | slotTableSwitch (n : Nat)
  /-- Event TOKEN_REFILL, R344. -/
  | tokenRefill
  /-- Event BWC_WRITE, R345. -/
  | bwcWrite (n : Nat) (x : Word)
  /-- Event LINK_TRAINING, R346. -/
  | linkTraining (n : Nat)
  /-- Event LINK_WAIT_TIMEOUT, R348. -/
  | linkWaitTimeout (r : Nat)
  /-- Event SENSOR_SAMPLE, R391. -/
  | sensorSample
  /-- Event THROTTLE_WRITE, R395. -/
  | throttleWrite (f : Nat) (x : Word)
  /-- Event FIELD_POWER_WRITE, R390. -/
  | fieldPowerWrite (x : Word)
  /-- Event FIELD_POWER_STAGE, R389. -/
  | fieldPowerStage
  /-- Event WAKE_TIMER, R398. -/
  | wakeTimer
  /-- Event EVENT_STAMP, R381. -/
  | eventStamp
  /-- Event BB_IDX_WRITE, R399. -/
  | bbIdxWrite (x : Word)
  /-- Event BB_WCODE_WRITE, R399. -/
  | bbWcodeWrite (x : Word)
  /-- Event MOD_RANK_WRITE, R401. -/
  | modRankWrite (x : Word)
  /-- Event SYSTEM_REGISTER_WRITE, R400. -/
  | systemRegisterWrite (n : Nat) (x : Word)
  /-- Event CLEAR_ROW, R366. -/
  | clearRow (x : Word)
  /-- Event CLEAR_COLUMN, R366. -/
  | clearColumn (x : Word)
  /-- Event CLEAR_HOLE, R366. -/
  | clearHole (x : Word)
  /-- Event CLEAR_DEAD_LINK, R366. -/
  | clearDeadLink (x : Word)
  /-- Event ADD_ROW, R366. -/
  | addRow (x : Word)
  /-- Event ADD_COLUMN, R366. -/
  | addColumn (x : Word)
  /-- Event ADD_HOLE, R366. -/
  | addHole (x : Word)
  /-- Event CONTAINED_ERROR, R369. -/
  | containedError (t : Nat) (u : Nat)
  /-- Event MIGRATION_FREEZE_ORDER, R370. -/
  | migrationFreezeOrder (f : Nat)
  /-- Event MIGRATION_COPY, R370. -/
  | migrationCopy (f : Nat)
  /-- Event MAP_CHANGE, R370. -/
  | mapChange (f : Nat)
  /-- Event MIGRATION_THAW, R370. -/
  | migrationThaw (f : Nat)
  /-- Event UNCONTAINED_ERROR, R374. -/
  | uncontainedError (t : Nat) (u : Nat)
  /-- Event POISON_MARKED, R376. -/
  | poisonMarked (t : Nat) (a : Nat)
  /-- Event LINK_FLIT_RETRY, R367. -/
  | linkFlitRetry (n : Nat) (detail : Nat)
  /-- Event TAIL_ACKNOWLEDGE, R377. -/
  | tailAcknowledge (n : Nat)
  /-- Event MESH_LINK_DEAD, R378. -/
  | meshLinkDead (n : Nat)
  /-- Event MANAGEMENT_DATAGRAM, R404. -/
  | managementDatagram (src : Nat) (bytes : List (BitVec 8))
  /-- Event SYSTEM_REGISTER_READ_REQUEST, R405. -/
  | systemRegisterReadRequest (src : Nat) (seq : BitVec 32) (arg : BitVec 32) (data : List (BitVec 8))
  /-- Event SYSTEM_REGISTER_WRITE_REQUEST, R405. -/
  | systemRegisterWriteRequest (src : Nat) (seq : BitVec 32) (arg : BitVec 32) (data : List (BitVec 8))
  /-- Event FAULT_LOG_READ, R405. -/
  | faultLogRead (src : Nat) (seq : BitVec 32) (arg : BitVec 32) (data : List (BitVec 8))
  /-- Event BLACK_BOX_READ, R405. -/
  | blackBoxRead (src : Nat) (seq : BitVec 32) (arg : BitVec 32) (data : List (BitVec 8))
  /-- Event FLASH_READ, R405. -/
  | flashRead (src : Nat) (seq : BitVec 32) (arg : BitVec 32) (data : List (BitVec 8))
  /-- Event FLASH_WRITE, R405. -/
  | flashWrite (src : Nat) (seq : BitVec 32) (arg : BitVec 32) (data : List (BitVec 8))
  /-- Event MODULE_RESET, R405. -/
  | moduleReset (src : Nat) (seq : BitVec 32)
  /-- Event RECOVERY_BOOT, R405. -/
  | recoveryBoot (src : Nat) (seq : BitVec 32)
  /-- Event CORE_RELEASE, R405. -/
  | coreRelease (src : Nat) (seq : BitVec 32)
  /-- Event PORT_BIND, R405. -/
  | portBind (port : Nat) (order : Word)
  /-- Event PORT_UNBIND, R405. -/
  | portUnbind (port : Nat)
  /-- Event PORT_UP, R407. -/
  | portUp (port : Nat)
  /-- Event PORT_LOW_POWER, R408. -/
  | portLowPower (port : Nat)
  /-- Event PORT_DOWN, R407. -/
  | portDown (port : Nat)
  /-- Event WAKE_HINT, R408. -/
  | wakeHint (port : Nat) (sideband : Bool)
  /-- Event BOOT, R406. -/
  | boot
  /-- Event CONTEXT_DESTROYED, R321. -/
  | contextDestroyed (c : Nat)
  /-- Event READ_REQUEST_SERVICE, R195. -/
  | readRequestService (p : Nat)
  /-- Event NPOP_RESULT_WRITE, R206. -/
  | npopResultWrite (p : Nat)
  /-- Event OPTICAL_PORT_TRAINING_END, R407. -/
  | opticalPortTrainingEnd (port : Nat)
deriving DecidableEq, Repr

/-- The events alone, as the machine holds those it is about to run (log 1): constructors of the same names as in `Instr`. -/
inductive Event
  | bundleIssue (t : Nat)
  | lockstepResultLanding (t : Nat)
  | trapDelivery (t : Nat)
  | gangAbort (t : Nat)
  | drawerLoadReturn (t : Nat) (a : Nat)
  | drawerStoreAccept (t : Nat) (a : Nat)
  | heldLoadReissue (t : Nat)
  | sideLogReplay (t : Nat) (cls : Nat)
  | remoteAtomicService (p : Nat)
  | remoteAtomicReply (p : Nat)
  | handleWalkEnd (k : Nat) (w : Nat) (stalled : Bool)
  | shootdownRequest (x : Word)
  | shootdownAck (t : Nat)
  | shootdownComplete
  | faultRecordWrite
  | faultBufferFlush (x : Word)
  | matrixDispatch (t : Nat)
  | mmaPassStart (t : Nat)
  | mmaPassRetire (t : Nat)
  | accRowFinal (t : Nat)
  | mepiRowWrite (t : Nat)
  | msendRowSend (t : Nat)
  | mredRowAdd (t : Nat)
  | mclrRowWrite (t : Nat)
  | copyDispatch (t : Nat)
  | chunkIssue (t : Nat)
  | chunkComplete (t : Nat) (n : Nat)
  | chunkReadFault (t : Nat)
  | channelDispatch (t : Nat)
  | packetSend (t : Nat)
  | packetDeposit (p : Nat)
  | arrival (a : Nat)
  | creditReturn (c : Nat)
  | triggeredSendFire (t : Nat)
  | queueAppend (p : Nat)
  | queuePop (p : Nat)
  | queueClose (p : Nat)
  | spillMove (q : Nat)
  | barrierDetect (g : Nat) (bl : Nat)
  | barrierRelease (g : Nat) (bl : Nat)
  | streamRegisterWatchdog (t : Nat)
  | arrivalWaitWatchdog (t : Nat)
  | opticalVectorDelivery (p : Nat) (lane : Nat) (inward : Bool) (x : Vec)
  | opticalHop (p : Nat) (id : Nat) (inward : Bool) (hdr : BitVec 512) (data : List (BitVec 8))
  | drainPoint (t : Nat)
  | tailRegisterWrite (port : Nat) (q : Nat) (x : Word)
  | stagingEntryTake (q : Nat)
  | eventCounterWrite (port : Nat) (c : Nat) (e : Nat) (x : BitVec 32)
  | hostDrawerAccess (port : Nat) (write : Bool) (addr : HostPlace) (len : Nat) (data : List (BitVec 8))
  | placementRound
  | dependenceRead (l : Nat)
  | planeLoad (l : Nat)
  | launchGrant (l : Nat)
  | startToken (g : Nat) (t : Nat)
  | gangStart (g : Nat)
  | launchComplete (g : Nat)
  | staleLaunch (l : Nat)
  | contextSaveRequest (x : Word)
  | contextRestoreRequest (x : Word)
  | contextDestroyRequest (x : Word)
  | haltToken (t : Nat)
  | tileHalted (t : Nat)
  | tileRecordWritten (t : Nat)
  | gangRestore (c : Nat)
  | descriptorSelect (x : Word)
  | queueDescriptorCommit (x : Word)
  | contextDescriptorCommit (x : Word)
  | accessTableSelect (x : Word)
  | tileGrantCommit (x : Word)
  | drawerRangeCommit (x : Word)
  | hostContextSetCommit (x : Word)
  | drawerRequestSend (t : Nat)
  | slotGrant (n : Nat)
  | sltDataWrite (x : Word)
  | slotTableCommit (x : Word)
  | slotTableSwitch (n : Nat)
  | tokenRefill
  | bwcWrite (n : Nat) (x : Word)
  | linkTraining (n : Nat)
  | linkWaitTimeout (r : Nat)
  | sensorSample
  | throttleWrite (f : Nat) (x : Word)
  | fieldPowerWrite (x : Word)
  | fieldPowerStage
  | wakeTimer
  | eventStamp
  | bbIdxWrite (x : Word)
  | bbWcodeWrite (x : Word)
  | modRankWrite (x : Word)
  | systemRegisterWrite (n : Nat) (x : Word)
  | clearRow (x : Word)
  | clearColumn (x : Word)
  | clearHole (x : Word)
  | clearDeadLink (x : Word)
  | addRow (x : Word)
  | addColumn (x : Word)
  | addHole (x : Word)
  | containedError (t : Nat) (u : Nat)
  | migrationFreezeOrder (f : Nat)
  | migrationCopy (f : Nat)
  | mapChange (f : Nat)
  | migrationThaw (f : Nat)
  | uncontainedError (t : Nat) (u : Nat)
  | poisonMarked (t : Nat) (a : Nat)
  | linkFlitRetry (n : Nat) (detail : Nat)
  | tailAcknowledge (n : Nat)
  | meshLinkDead (n : Nat)
  | managementDatagram (src : Nat) (bytes : List (BitVec 8))
  | systemRegisterReadRequest (src : Nat) (seq : BitVec 32) (arg : BitVec 32) (data : List (BitVec 8))
  | systemRegisterWriteRequest (src : Nat) (seq : BitVec 32) (arg : BitVec 32) (data : List (BitVec 8))
  | faultLogRead (src : Nat) (seq : BitVec 32) (arg : BitVec 32) (data : List (BitVec 8))
  | blackBoxRead (src : Nat) (seq : BitVec 32) (arg : BitVec 32) (data : List (BitVec 8))
  | flashRead (src : Nat) (seq : BitVec 32) (arg : BitVec 32) (data : List (BitVec 8))
  | flashWrite (src : Nat) (seq : BitVec 32) (arg : BitVec 32) (data : List (BitVec 8))
  | moduleReset (src : Nat) (seq : BitVec 32)
  | recoveryBoot (src : Nat) (seq : BitVec 32)
  | coreRelease (src : Nat) (seq : BitVec 32)
  | portBind (port : Nat) (order : Word)
  | portUnbind (port : Nat)
  | portUp (port : Nat)
  | portLowPower (port : Nat)
  | portDown (port : Nat)
  | wakeHint (port : Nat) (sideband : Bool)
  | boot
  | contextDestroyed (c : Nat)
  | readRequestService (p : Nat)
  | npopResultWrite (p : Nat)
  | opticalPortTrainingEnd (port : Nat)
deriving DecidableEq, Repr

/-- The event that an instruction is, if it is one. -/
def Instr.event? : Instr → Option Event
  | .bundleIssue t => some (.bundleIssue t)
  | .lockstepResultLanding t => some (.lockstepResultLanding t)
  | .trapDelivery t => some (.trapDelivery t)
  | .gangAbort t => some (.gangAbort t)
  | .add _ => none
  | .sub _ => none
  | .mul _ => none
  | .mulh _ => none
  | .mulhn _ => none
  | .div _ => none
  | .divn _ => none
  | .rem _ => none
  | .remn _ => none
  | .and _ => none
  | .or _ => none
  | .xor _ => none
  | .andn _ => none
  | .shl _ => none
  | .shr _ => none
  | .sra _ => none
  | .rol _ => none
  | .min _ => none
  | .max _ => none
  | .minn _ => none
  | .maxn _ => none
  | .clz _ => none
  | .ctz _ => none
  | .popc _ => none
  | .bswap _ => none
  | .exts _ => none
  | .extz _ => none
  | .ins _ => none
  | .sel _ => none
  | .lea _ => none
  | .addi _ => none
  | .andi _ => none
  | .ori _ => none
  | .xori _ => none
  | .shli _ => none
  | .shri _ => none
  | .srai _ => none
  | .muli _ => none
  | .mini _ => none
  | .maxi _ => none
  | .movi _ => none
  | .moviz _ => none
  | .movm _ => none
  | .movt _ => none
  | .addpc _ => none
  | .cmp _ => none
  | .cmpi _ => none
  | .pand _ => none
  | .por _ => none
  | .pxor _ => none
  | .pmov _ => none
  | .ptos _ => none
  | .pset _ => none
  | .ptst _ => none
  | .fadd _ => none
  | .fsub _ => none
  | .fmul _ => none
  | .ffma _ => none
  | .fmin _ => none
  | .fmax _ => none
  | .fdiv _ => none
  | .fsqrt _ => none
  | .fcmp _ => none
  | .fclass _ => none
  | .fsgn _ => none
  | .fcvt _ => none
  | .fcvti _ => none
  | .icvtf _ => none
  | .prep _ => none
  | .prepr _ => none
  | .get _ => none
  | .set _ => none
  | .gets _ => none
  | .sets _ => none
  | .setfmt _ => none
  | .getfmt _ => none
  | .stg _ => none
  | .gtg _ => none
  | .lcset _ => none
  | .lcget _ => none
  | .rasrd _ => none
  | .raswr _ => none
  | .br _ => none
  | .call _ => none
  | .ret _ => none
  | .loop _ => none
  | .wait _ => none
  | .sync _ => none
  | .done _ => none
  | .swap _ => none
  | .trap _ => none
  | .brk _ => none
  | .eret _ => none
  | .idle _ => none
  | .halt _ => none
  | .qfence _ => none
  | .vadd _ => none
  | .vsub _ => none
  | .vmul _ => none
  | .vmulh _ => none
  | .vmulhn _ => none
  | .vmin _ => none
  | .vmax _ => none
  | .vminn _ => none
  | .vmaxn _ => none
  | .vand _ => none
  | .vor _ => none
  | .vxor _ => none
  | .vandn _ => none
  | .vshl _ => none
  | .vshr _ => none
  | .vsra _ => none
  | .vabs _ => none
  | .vneg _ => none
  | .vclz _ => none
  | .vpopc _ => none
  | .vadds _ => none
  | .vaddsn _ => none
  | .vsubs _ => none
  | .vsubsn _ => none
  | .vsel _ => none
  | .vcmp _ => none
  | .vfadd _ => none
  | .vfsub _ => none
  | .vfmul _ => none
  | .vfma _ => none
  | .vfmin _ => none
  | .vfmax _ => none
  | .vfdiv _ => none
  | .vfsqrt _ => none
  | .vfexp2 _ => none
  | .vflog2 _ => none
  | .vfrcp _ => none
  | .vfrsq _ => none
  | .vfabs _ => none
  | .vfneg _ => none
  | .vfcmp _ => none
  | .vfclass _ => none
  | .vcvt _ => none
  | .vqnt _ => none
  | .vdqnt _ => none
  | .vfredadd _ => none
  | .vfredmax _ => none
  | .vredadd _ => none
  | .vredmax _ => none
  | .vmov _ => none
  | .vsplat _ => none
  | .vsplati _ => none
  | .vextr _ => none
  | .vinsr _ => none
  | .vperm _ => none
  | .vperm2 _ => none
  | .vshuf _ => none
  | .vslide _ => none
  | .viota _ => none
  | .vacc _ => none
  | .vaccw _ => none
  | .vsin _ => none
  | .vsout _ => none
  | .mand _ => none
  | .mor _ => none
  | .mxor _ => none
  | .mnot _ => none
  | .mset _ => none
  | .mget _ => none
  | .vany _ => none
  | .vall _ => none
  | .mpopc _ => none
  | .zld _ => none
  | .zldh _ => none
  | .zldb _ => none
  | .kld _ => none
  | .zfromv _ => none
  | .lds _ => none
  | .sts _ => none
  | .ldv _ => none
  | .stv _ => none
  | .ldvs _ => none
  | .stvs _ => none
  | .ldvg _ => none
  | .stvg _ => none
  | .stvm _ => none
  | .setaw _ => none
  | .waita _ => none
  | .spl _ => none
  | .fil _ => none
  | .splv _ => none
  | .filv _ => none
  | .xlate _ => none
  | .hinv _ => none
  | .hget _ => none
  | .ldh _ => none
  | .sth _ => none
  | .ldvh _ => none
  | .stvh _ => none
  | .aadd _ => none
  | .amin _ => none
  | .amax _ => none
  | .aminn _ => none
  | .amaxn _ => none
  | .aand _ => none
  | .aor _ => none
  | .axor _ => none
  | .aswp _ => none
  | .acas _ => none
  | .aincb _ => none
  | .aincw _ => none
  | .adecp _ => none
  | .afal _ => none
  | .afadd _ => none
  | .fence _ => none
  | .fenceSc _ => none
  | .mma _ => none
  | .mepi _ => none
  | .msend _ => none
  | .mred _ => none
  | .mclr _ => none
  | .mstat _ => none
  | .kcpy _ => none
  | .kput _ => none
  | .kfill _ => none
  | .kfillConfigure _ => none
  | .kdec _ => none
  | .kzero _ => none
  | .kloc _ => none
  | .nsend _ => none
  | .nsendt _ => none
  | .npost _ => none
  | .npush _ => none
  | .npop _ => none
  | .nrot _ => none
  | .ngsend _ => none
  | .nclose _ => none
  | .ndisarm _ => none
  | .drawerLoadReturn t a => some (.drawerLoadReturn t a)
  | .drawerStoreAccept t a => some (.drawerStoreAccept t a)
  | .heldLoadReissue t => some (.heldLoadReissue t)
  | .sideLogReplay t cls => some (.sideLogReplay t cls)
  | .remoteAtomicService p => some (.remoteAtomicService p)
  | .remoteAtomicReply p => some (.remoteAtomicReply p)
  | .handleWalkEnd k w stalled => some (.handleWalkEnd k w stalled)
  | .shootdownRequest x => some (.shootdownRequest x)
  | .shootdownAck t => some (.shootdownAck t)
  | .shootdownComplete => some .shootdownComplete
  | .faultRecordWrite => some .faultRecordWrite
  | .faultBufferFlush x => some (.faultBufferFlush x)
  | .matrixDispatch t => some (.matrixDispatch t)
  | .mmaPassStart t => some (.mmaPassStart t)
  | .mmaPassRetire t => some (.mmaPassRetire t)
  | .accRowFinal t => some (.accRowFinal t)
  | .mepiRowWrite t => some (.mepiRowWrite t)
  | .msendRowSend t => some (.msendRowSend t)
  | .mredRowAdd t => some (.mredRowAdd t)
  | .mclrRowWrite t => some (.mclrRowWrite t)
  | .copyDispatch t => some (.copyDispatch t)
  | .chunkIssue t => some (.chunkIssue t)
  | .chunkComplete t n => some (.chunkComplete t n)
  | .chunkReadFault t => some (.chunkReadFault t)
  | .channelDispatch t => some (.channelDispatch t)
  | .packetSend t => some (.packetSend t)
  | .packetDeposit p => some (.packetDeposit p)
  | .arrival a => some (.arrival a)
  | .creditReturn c => some (.creditReturn c)
  | .triggeredSendFire t => some (.triggeredSendFire t)
  | .queueAppend p => some (.queueAppend p)
  | .queuePop p => some (.queuePop p)
  | .queueClose p => some (.queueClose p)
  | .spillMove q => some (.spillMove q)
  | .barrierDetect g bl => some (.barrierDetect g bl)
  | .barrierRelease g bl => some (.barrierRelease g bl)
  | .streamRegisterWatchdog t => some (.streamRegisterWatchdog t)
  | .arrivalWaitWatchdog t => some (.arrivalWaitWatchdog t)
  | .opticalVectorDelivery p lane inward x => some (.opticalVectorDelivery p lane inward x)
  | .opticalHop p id inward hdr data => some (.opticalHop p id inward hdr data)
  | .drainPoint t => some (.drainPoint t)
  | .tailRegisterWrite port q x => some (.tailRegisterWrite port q x)
  | .stagingEntryTake q => some (.stagingEntryTake q)
  | .eventCounterWrite port c e x => some (.eventCounterWrite port c e x)
  | .hostDrawerAccess port write addr len data => some (.hostDrawerAccess port write addr len data)
  | .placementRound => some .placementRound
  | .dependenceRead l => some (.dependenceRead l)
  | .planeLoad l => some (.planeLoad l)
  | .launchGrant l => some (.launchGrant l)
  | .startToken g t => some (.startToken g t)
  | .gangStart g => some (.gangStart g)
  | .launchComplete g => some (.launchComplete g)
  | .staleLaunch l => some (.staleLaunch l)
  | .contextSaveRequest x => some (.contextSaveRequest x)
  | .contextRestoreRequest x => some (.contextRestoreRequest x)
  | .contextDestroyRequest x => some (.contextDestroyRequest x)
  | .haltToken t => some (.haltToken t)
  | .tileHalted t => some (.tileHalted t)
  | .tileRecordWritten t => some (.tileRecordWritten t)
  | .gangRestore c => some (.gangRestore c)
  | .descriptorSelect x => some (.descriptorSelect x)
  | .queueDescriptorCommit x => some (.queueDescriptorCommit x)
  | .contextDescriptorCommit x => some (.contextDescriptorCommit x)
  | .accessTableSelect x => some (.accessTableSelect x)
  | .tileGrantCommit x => some (.tileGrantCommit x)
  | .drawerRangeCommit x => some (.drawerRangeCommit x)
  | .hostContextSetCommit x => some (.hostContextSetCommit x)
  | .drawerRequestSend t => some (.drawerRequestSend t)
  | .slotGrant n => some (.slotGrant n)
  | .sltDataWrite x => some (.sltDataWrite x)
  | .slotTableCommit x => some (.slotTableCommit x)
  | .slotTableSwitch n => some (.slotTableSwitch n)
  | .tokenRefill => some .tokenRefill
  | .bwcWrite n x => some (.bwcWrite n x)
  | .linkTraining n => some (.linkTraining n)
  | .linkWaitTimeout r => some (.linkWaitTimeout r)
  | .sensorSample => some .sensorSample
  | .throttleWrite f x => some (.throttleWrite f x)
  | .fieldPowerWrite x => some (.fieldPowerWrite x)
  | .fieldPowerStage => some .fieldPowerStage
  | .wakeTimer => some .wakeTimer
  | .eventStamp => some .eventStamp
  | .bbIdxWrite x => some (.bbIdxWrite x)
  | .bbWcodeWrite x => some (.bbWcodeWrite x)
  | .modRankWrite x => some (.modRankWrite x)
  | .systemRegisterWrite n x => some (.systemRegisterWrite n x)
  | .clearRow x => some (.clearRow x)
  | .clearColumn x => some (.clearColumn x)
  | .clearHole x => some (.clearHole x)
  | .clearDeadLink x => some (.clearDeadLink x)
  | .addRow x => some (.addRow x)
  | .addColumn x => some (.addColumn x)
  | .addHole x => some (.addHole x)
  | .containedError t u => some (.containedError t u)
  | .migrationFreezeOrder f => some (.migrationFreezeOrder f)
  | .migrationCopy f => some (.migrationCopy f)
  | .mapChange f => some (.mapChange f)
  | .migrationThaw f => some (.migrationThaw f)
  | .uncontainedError t u => some (.uncontainedError t u)
  | .poisonMarked t a => some (.poisonMarked t a)
  | .linkFlitRetry n detail => some (.linkFlitRetry n detail)
  | .tailAcknowledge n => some (.tailAcknowledge n)
  | .meshLinkDead n => some (.meshLinkDead n)
  | .managementDatagram src bytes => some (.managementDatagram src bytes)
  | .systemRegisterReadRequest src seq arg data => some (.systemRegisterReadRequest src seq arg data)
  | .systemRegisterWriteRequest src seq arg data => some (.systemRegisterWriteRequest src seq arg data)
  | .faultLogRead src seq arg data => some (.faultLogRead src seq arg data)
  | .blackBoxRead src seq arg data => some (.blackBoxRead src seq arg data)
  | .flashRead src seq arg data => some (.flashRead src seq arg data)
  | .flashWrite src seq arg data => some (.flashWrite src seq arg data)
  | .moduleReset src seq => some (.moduleReset src seq)
  | .recoveryBoot src seq => some (.recoveryBoot src seq)
  | .coreRelease src seq => some (.coreRelease src seq)
  | .portBind port order => some (.portBind port order)
  | .portUnbind port => some (.portUnbind port)
  | .portUp port => some (.portUp port)
  | .portLowPower port => some (.portLowPower port)
  | .portDown port => some (.portDown port)
  | .wakeHint port sideband => some (.wakeHint port sideband)
  | .boot => some .boot
  | .contextDestroyed c => some (.contextDestroyed c)
  | .readRequestService p => some (.readRequestService p)
  | .npopResultWrite p => some (.npopResultWrite p)
  | .opticalPortTrainingEnd port => some (.opticalPortTrainingEnd port)

end Sys2Proof
end

