-- ==== Sys2Proof/Machine/State.lean ====
section
/-! DEFINITION. The state of the machine as plain data, and the state after reset.

A *core* is one tile-class core: a logical tile or the Bursel management core (R4, R397). The module's own units
(coordinator, launch units, links, ports, repair, power, management) follow in the structures after it. -/

namespace Sys2Proof.Machine

/-- Bytes by rising address; a byte not listed is 0 (log 6). -/
abbrev Mem := List Host.Cell

/-- A table by rising key. -/
abbrev Tab (α : Type) := List (Nat × α)

/-! ### The strand -/

/-- A handle register (R162). `walk` is the number of the walk a pending handle awaits; `ftype`, `flevel` and `fentry` say
how the walk of a faulted handle failed (R304, R313). -/
structure Handle where
  v : Bool
  p : Bool
  f : Bool
  tp : Bool
  rd : Bool
  wr : Bool
  sz : Bool
  gen : BitVec 12
  base : BitVec 48
  vpage : Word
  walk : Nat
  ftype : Nat
  flevel : Nat
  fentry : Word
deriving DecidableEq, Repr

/-- The empty handle (R162). -/
def Handle.empty : Handle :=
  { v := false, p := false, f := false, tp := false, rd := false, wr := false, sz := false
    gen := 0, base := 0, vpage := 0, walk := 0, ftype := 0, flevel := 0, fentry := 0 }

/-- A register that can be pending (R15). -/
inductive PReg
  | s (r : BitVec 6)
  | p (r : BitVec 3)
  | v (r : BitVec 5)
deriving DecidableEq, Repr

/-- A register write that lands at a boundary: the register and the value (R13, R118). -/
inductive Write
  | s (r : BitVec 6) (x : Word)
  | p (r : BitVec 3) (x : Bool)
  | v (r : BitVec 5) (x : Vec)
  | m (r : BitVec 4) (x : Mask)
  | t (r : BitVec 3) (x : CodeIdx)
  | lc (r : BitVec 2) (x : BitVec 32)
  | h (r : BitVec 4) (x : Handle)
  | z (r : BitVec 4) (x : BitVec 512)
  | k (r : BitVec 3) (x : BitVec 256)
  | fmt (r : BitVec 4) (x : BitVec 32)
  | stg (r : BitVec 6) (x : Word)
  | ras (r : BitVec 4) (x : CodeIdx)
  | depth (x : BitVec 5)
  /-- a user special register, by `set` (R114) -/
  | spr (n : BitVec 12) (x : Word)
  /-- a system register, by `set` or `sets` in system mode (R10, R114) -/
  | sys (n : BitVec 12) (x : Word)
  /-- an accumulator row by `vaccw`; `act` holds the lanes it writes (R141), `src`, `fmt` and `ent` the source lanes, the format entry and
  its number as read at issue (R324) -/
  | acc (a : BitVec 2) (row : BitVec 4) (act : BitVec 16) (x : BitVec 1536) (src : Vec) (fmt : BitVec 4) (ent : BitVec 32)
deriving DecidableEq, Repr

/-- A result on its way to its register. `rem` counts the boundaries left. A `late` result is a drawer-load, atomic or
engine result (R14, R15): it counts down in every cycle, ranks below lockstep results and is in no snapshot. `lat` is the count it began with. -/
structure Res where
  w : Write
  fl : Flags
  slot : Slot
  rem : Nat
  lat : Nat
  ord : Nat
  late : Bool
deriving DecidableEq, Repr

/-- A pending delay-bundle redirect (R21): after `left` more bundles the PC becomes `target`; `src` is the transfer's PC. -/
structure Redirect where
  target : CodeIdx
  left : Nat
  src : CodeIdx
deriving DecidableEq, Repr

/-- The last bundle issued, when nothing but results in flight and the way of control followed from it: what its issue replaced, its
issue order and how many results it began. A contained error stops such a bundle before they land (R368, R385). -/
structure Undo where
  pc : CodeIdx
  pcFrom : Option CodeIdx
  redirects : List Redirect
  pb : Nat
  ord : Nat
  results : Nat
deriving DecidableEq, Repr

/-- A trap cause (R26, R27); `ord` is the issue order of the failing operation (R25); `fresh` while the cycle runs in which an
engine's cause becomes known (R24). -/
structure Cause where
  code : Nat
  info : Word
  slot : Slot
  deferred : Bool
  opc : CodeIdx
  qpos : Nat
  ord : Nat
  fresh : Bool
deriving DecidableEq, Repr

/-- The snapshot buffer: results, redirects and the PB count (R28, R65). -/
structure Snapshot where
  results : List Res
  redirects : List Redirect
  pb : Nat
deriving DecidableEq, Repr

/-- The trap registers TRAPVEC, TRAPPC, TRAPCAUSE, TRAPINFO0 and TRAPINFO1 (R10, R26, R27). -/
structure TrapRegs where
  en : Bool
  vec : CodeIdx
  pc : CodeIdx
  inH : Bool
  cause : BitVec 6
  info0 : Word
  info1 : Word
deriving DecidableEq, Repr

/-- What the strand of a core is doing. -/
inductive Strand
  /-- no strand: before gang start, or drained and returned (R123) -/
  | none
  /-- issues bundles -/
  | running
  /-- waits in `sync` for the release of line `bl`; the AND goes to `pr` (R122) -/
  | sync (bl : BitVec 2) (pr : BitVec 3)
  /-- ended by `done`, or by `swap` when `swap` is set, and draining (R123) -/
  | ended (swap : Bool)
  /-- at its drain point (R123) -/
  | drained (swap : Bool)
  /-- halted by an undeliverable trap or a gang abort (R29, R374) -/
  | halted
  /-- halted for a context save (R327) -/
  | saved
  /-- the management core after `idle` (R126) -/
  | coreIdle
  /-- the management core after `halt` (R126) -/
  | coreHalt
deriving DecidableEq, Repr

/-- The position registers (R10, R11). -/
structure Position where
  x : BitVec 8
  y : BitVec 8
  ctx : BitVec 7
  gangW : BitVec 8
  gangH : BitVec 8
  orgX : BitVec 8
  orgY : BitVec 8
  loopc : Vector (BitVec 32) 8
  loopt : Vector (BitVec 32) 8
deriving DecidableEq, Repr

/-- The five outstanding-operation counters (R20). -/
structure Counters where
  l : Nat
  s : Nat
  k : Nat
  m : Nat
  n : Nat
deriving DecidableEq, Repr

/-! ### Engines -/

/-- A ring register with its tags (R211). -/
structure Ring where
  fill : Nat
  tail : Nat
  head : Nat
  count : Nat
  size : Nat
  base : Nat
  tags : Vector (BitVec 8) 64
deriving DecidableEq, Repr

/-- The unconfigured ring (R9, R211). -/
def Ring.empty : Ring :=
  { fill := 0, tail := 0, head := 0, count := 0, size := 0, base := 0, tags := Vector.replicate 64 0 }

/-- The commands of the three engine slots (R181, R190, R199). -/
inductive CmdKind
  | mma | mepi | msend | mred | mclr | mstat
  | kcpy | kput | kfill | kdec | kzero | kloc
  | nsend | nsendt | npost | npush | npop | nrot | ngsend | nclose | ndisarm
deriving DecidableEq, Repr

/-- A command as enqueued: its slot bits below the opcode and all that it captured (R8, R176). `ord` is its issue order,
`opc` the halfword index of its bundle, `stg` the sixteen staging registers of its engine, `fa` and `fb` the format
entries it names, `gd` and `gtab` the group descriptors, `sh` and `dh` the handles of a copy. -/
structure Cmd where
  ord : Nat
  opc : CodeIdx
  kind : CmdKind
  ops : BitVec 27
  stg : List Word
  fa : BitVec 32
  fb : BitVec 32
  gd : List Word
  gtab : Word
  sh : Handle
  dh : Handle
deriving DecidableEq, Repr

/-- A pass of `mma` in the array: its number, start cycle (moved on by a hold), ring slots, the codebook register it read, the
cycles whose steps are done and the slot words read so far (R36, R213, R217, R218). -/
structure Pass where
  p : Nat
  start : Nat
  slotA : Nat
  slotB : Nat
  book : BitVec 256
  cycles : Nat
  got : Tab Word
deriving DecidableEq, Repr

/-- A matrix command in execution: dispatch cycle, the next pass, the passes in the array, the next row, the flags so far,
and the deferred cause that ends it when its passes in the array have retired (R178, R183). -/
structure MExec where
  cmd : Cmd
  since : Nat
  pass : Nat
  passes : List Pass
  row : Nat
  fl : Flags
  failed : Option Cause
  /-- route and expected position of `msend`'s peer (R186, R269) -/
  segs : List Nat
  expect : Option (Nat × Nat × Nat)
  /-- scratchpad words that the command needs in this cycle, each with its pass (R210, R218), and those of `mred`'s row read -/
  want : List (Nat × Nat)
  got : Tab Word
  /-- rows that `msend` has taken and not yet sent, and the boundary by which the router has accepted the packet under way (R186) -/
  out : List (Nat × List (BitVec 8))
  accept : Option Nat
deriving DecidableEq, Repr

/-- The matrix engine: queue, command in execution that changes elements (or `mstat`), epilogue command in execution,
whether a deferred cause stopped it, commands retired and not yet counted (lowered one boundary later, R20), the flags of
those that retire at this boundary (R49), and PASSES of `mstat` (R188). -/
structure MatrixEngine where
  queue : List Cmd
  exec : Option MExec
  epi : Option MExec
  stopped : Bool
  retired : Nat
  passes : Nat
  fl : Flags
  /-- holds for a group-table read that faulted (R268) -/
  held : Bool
deriving DecidableEq, Repr

/-- What became of an issued chunk of a copy (R192, R193): being moved, complete, its read faulted (type, level, entry, address
and FGEN for the record), or in the side log. -/
inductive ChunkState
  | flying
  | complete
  | faulted (type lev : Nat) (entry va : Word) (stamp : BitVec 16)
  | logged
deriving DecidableEq, Repr

/-- A copy in execution: every chunk below `next` is complete; the states of issued chunks from there up; the bytes of those on
their way to the drawer; of a chunk read from the drawer the blocks whose bytes have gone on (R351); `kdec`'s place in its
stream; whether a read fault holds it, and the cause that ends it when no chunk is under way, with the chunk that it is of (R178,
R192, R193, R195, R197). -/
structure KExec where
  cmd : Cmd
  next : Nat
  chunks : Tab ChunkState
  data : Tab (List (BitVec 8))
  blocks : Tab (List Word)
  bit : Nat
  held : Bool
  failed : Option Cause
  failedAt : Nat
  /-- its chunks -/
  total : Nat
  /-- its last drawer access has performed (R127, R191) -/
  drawerDone : Bool
  /-- number of the first strand access issued after the dispatch (R248) -/
  mark : Nat
deriving DecidableEq, Repr

/-- The copy engine. -/
structure CopyEngine where
  queue : List Cmd
  exec : Option KExec
  stopped : Bool
deriving DecidableEq, Repr

/-- A send in progress: the next packet, the source and the offset at the peer as dispatch fixed them, the route's segments
and destination channel, and the position a group's member must have (R200, R203, R204, R269). -/
structure NExec where
  cmd : Cmd
  next : Nat
  src : Nat
  roff : Nat
  segs : List Nat
  dch : Nat
  expect : Option (Nat × Nat × Nat)
  /-- the packet under way, and its data flits that have entered the router (R200) -/
  pkt : Option Nat
  flit : Nat
deriving DecidableEq, Repr

/-- A posting of a receive channel (R201). -/
structure Posting where
  base : Nat
  bytes : Nat
  aw : Nat
deriving DecidableEq, Repr

/-- The channel engine: queue, the send in progress, fired sends waiting for it, armed triggered sends, postings by
channel, credits spent by channel (R200 to R202, R233), and the `npop` that waits at the queue's head (R206). -/
structure ChannelEngine where
  queue : List Cmd
  exec : Option NExec
  fired : List Cmd
  armed : List Cmd
  posts : Tab Posting
  spent : Tab Nat
  waiting : Option Cmd
  /-- the cycle from which the router has accepted the last data flit of the `npush` that waits, when N has still to fall (R20) -/
  accept : Option Nat
  stopped : Bool
  /-- holds for a group-table read that faulted (R268) -/
  held : Bool
deriving DecidableEq, Repr

/-! ### Drawer accesses and remote atomics of a core -/

/-- A drawer access or remote atomic of the strand that has not performed (R165 to R171). -/
inductive AccKind
  /-- `ldh`: destination scalar, type code -/
  | ldh (d : BitVec 6) (t : BitVec 4)
  /-- `ldvh`: destination vector -/
  | ldvh (d : BitVec 5)
  /-- `sth`: data and size in bytes -/
  | sth (x : Word) (size : Nat)
  /-- `stvh`: data -/
  | stvh (x : Vec)
  /-- an atomic: opcode, width code, destinations and operands (R170) -/
  | atomic (op : BitVec 8) (w : BitVec 2) (d : BitVec 6) (pd : BitVec 3) (b c : Word) (addr : Word)
deriving DecidableEq, Repr

/-- Where such an access stands. -/
inductive AccState
  /-- in its class queue of the tile's drawer path (R248) -/
  | queued
  /-- sent, not yet performed -/
  | sent
  /-- a load held for fault service, or behind logged stores of its class (R166, R252) -/
  | held
  /-- a held load released for retry (R315) -/
  | retry
  /-- a store in the side log (R167) -/
  | logged
  /-- performed; a load's or atomic's reply is on its way -/
  | performed
deriving DecidableEq, Repr

/-- One access: its number in the core, issue order, bundle, class, captured handle, offset, and the accesses that a
fence or a class makes it wait for (R173, R174). -/
structure Access where
  id : Nat
  ord : Nat
  opc : CodeIdx
  cls : BitVec 4
  kind : AccKind
  h : Handle
  off : Word
  st : AccState
  after : List Nat
  /-- a load that fault service has held: the strand stands still until its destination is written (R18, R166) -/
  again : Bool
  /-- it left with its blocks translated afresh, under a handle that had been shot down (R162, R253) -/
  fresh : Bool
deriving DecidableEq, Repr

/-- A side-log entry of a strand store or of a copy's chunk (R167, R194, R317): the access's or chunk's number and the
issue order that gives its place in its class. -/
structure LogEntry where
  cls : BitVec 4
  ord : Nat
  acc : Option Nat
  chunk : Nat
  opc : CodeIdx
  addr : Word
  bytes : List (BitVec 8)
  /-- may be replayed: released by a flush, or logged only behind an earlier entry (R316) -/
  ready : Bool
  /-- its place in the log slot (R317) -/
  place : Nat
deriving DecidableEq, Repr

/-- A `fence` with accesses still to perform, or a `qfence` with operations still to perform (R127, R174). -/
structure Join where
  mask : BitVec 16
  waits : List Nat
  ord : Nat
deriving DecidableEq, Repr

/-! ### Bank units (R210, R247) -/

/-- Whose words a bank transfer moves. -/
inductive XferOwner
  /-- the local source of chunk `n` of a copy -/
  | chunkRead (n : Nat)
  /-- its local destination -/
  | chunkWrite (n : Nat)
  /-- a row of `mepi` -/
  | epiRow
  /-- the next data flit of the send in progress -/
  | flit
  /-- the entry of an `npush` -/
  | message
  /-- a packet at its destination: the bytes of its flits written, or what it asks for read or performed -/
  | packet (p : Nat)
  /-- an arrival word -/
  | arrival (a : Nat)
  /-- the read of the trigger of the armed send of issue order `o` (R202, R239) -/
  | trigger (o : Nat)
  /-- `nrot`'s read of its parity word (R203) -/
  | parity
  /-- the coordinator's read for dependence `n` of launch `l` (R296) -/
  | dep (l n : Nat)
deriving DecidableEq, Repr

/-- An access of an engine or of the remote-access port to the scratchpad, served word by word (R210, R247): its port, the words
still to be served, the bytes it writes, whether it writes, and the words it has read. -/
structure Xfer where
  owner : XferOwner
  port : Nat
  todo : List Nat
  put : List (Nat × BitVec 8)
  write : Bool
  got : Tab Word
deriving DecidableEq, Repr

/-! ### Configuration planes -/

/-- A loop-table entry: kind and trip count (R262). -/
structure LoopEntry where
  kind : Nat
  trips : BitVec 32
deriving DecidableEq, Repr

/-- A configuration plane: code halfwords, literal marks, dictionary, routes, loop table and the image header's
fields (R72 to R75). A halfword not listed is 0xFFFE, a route not listed an immediate end. -/
structure Plane where
  code : Tab (BitVec 16)
  marks : List Nat
  dict : Tab BundleWord
  routes : Tab Word
  loops : List LoopEntry
  ndict : Nat
  ncode : Nat
  tag : BitVec 16
  entry : CodeIdx
deriving DecidableEq, Repr

/-- A plane that nothing has filled (log 5). -/
def Plane.empty : Plane :=
  { code := [], marks := [], dict := [], routes := [], loops := [], ndict := 0, ncode := 0, tag := 0, entry := 0 }

/-! ### A core -/

/-- One tile-class core: everything of 00 R1's first two spans that belongs to one tile. -/
structure Core where
  /-- s0 to s63 (R9); s0 is hard-wired by `Core.sreg` -/
  sregs : Vector Word 64
  /-- p0 to p7 (R9); p0 is hard-wired by `Core.preg` -/
  pregs : Vector Bool 8
  vregs : Vector Vec 32
  /-- m0 to m15 (R9); m0 is hard-wired by `Core.mreg` -/
  mregs : Vector Mask 16
  tregs : Vector CodeIdx 8
  lcregs : Vector (BitVec 32) 4
  hregs : Vector Handle 16
  zregs : Vector (BitVec 512) 16
  kregs : Vector (BitVec 256) 8
  rings : Vector Ring 8
  /-- a0 to a3, element (i, j) at 16 i + j (R52) -/
  accs : Vector (Vector (BitVec 96) 256) 4
  /-- w0 to w3 (R139) -/
  wmarks : Vector Nat 4
  /-- owner set of each accumulator: issue orders of its commands and whether each changes elements (R139) -/
  owners : Vector (List (Nat × Bool)) 4
  /-- mx0 to mx15, cx0 to cx15, nx0 to nx15, numbered as R116 does -/
  stg : Vector Word 48
  /-- receive buffers of o0 to o3, oldest first (R142) -/
  orx : Vector (List Vec) 4
  /-- transmit buffers of o0 to o3, oldest first (R142) -/
  otx : Vector (List Vec) 4
  ras : Vector CodeIdx 16
  depth : BitVec 5
  /-- the format table (R31) -/
  fmts : Vector (BitVec 32) 16
  pos : Position
  fstat : Flags
  zbase : Word
  gd : Vector Word 4
  gtab : Word
  wdog : Word
  trap : TrapRegs
  cnt : Counters
  /-- stores that performed in this cycle: S falls by them at the boundary that ends it (R20) -/
  sFalls : Nat
  /-- MODE of SYS_MODE, 1 = system (R397) -/
  sysMode : Bool
  /-- PMODE of SYS_MODE (R397) -/
  pmode : Bool
  pc : CodeIdx
  /-- the transfer or `eret` by which control arrived at `pc`, if one did (R23) -/
  pcFrom : Option CodeIdx
  /-- STALL cycles still to come (R63) -/
  stall : Nat
  redirects : List Redirect
  /-- consecutive PB bundles (R65) -/
  pb : Nat
  inflight : List Res
  /-- the last bundle issued, while a contained error can still stop it (R385) -/
  undo : Option Undo
  /-- pending registers and the issue order that made each pending (R15, R16) -/
  pend : List (PReg × Nat)
  /-- the MODEL's own: the issue order of the next bundle (log 2) -/
  issueNo : Nat
  snapTrap : Snapshot
  /-- the pre-emption snapshot (R324) -/
  snapPre : Snapshot
  /-- deferred causes that are known and not delivered (R24, R25) -/
  deferred : List Cause
  /-- those of them that were known when the handler that runs was entered (R25) -/
  held : List Cause
  /-- causes of matrix and channel commands whose packets are still on their way (R178) -/
  failing : List Cause
  /-- the cause of a `trap` or `brk` that has issued, taken at the boundary that follows its issue (R28, R124) -/
  trapAfter : Option Cause
  /-- the cause kept by a trap that could not be delivered (R29) -/
  undelivered : Option Cause
  strand : Strand
  /-- waiting in the drain cycles of `eret` (R125) -/
  eretDrain : Bool
  /-- a halt token has arrived, and it has in this cycle (R327) -/
  haltReq : Bool
  haltNew : Bool
  /-- frozen by a migration or a repair (R370) -/
  frozen : Bool
  /-- its state cannot be read: its successor position starts with zeros (R373, R374) -/
  lost : Bool
  /-- scratchpad words of the present bundle still to be served; `none` before it has asked for any (R150) -/
  bankLeft : Option (List Nat)
  /-- words for which the strand asked the bank units in this cycle (R210) -/
  bankWant : List Nat
  /-- the port that a bank unit served last; one not listed served the remote-access port (R210) -/
  bankLast : Tab Nat
  /-- accesses of the other ports, oldest first (R210) -/
  xfers : List Xfer
  /-- bytes whose words were served in this cycle: they land at the boundary that ends it (R210) -/
  landing : List (Nat × BitVec 8)
  /-- watchdog count of a `vsin` or `vsout` (R143) -/
  waitedV : Nat
  /-- watchdog count of a `waita` (R160) -/
  waitedL : Nat
  /-- the `waita` due has made a read that did not satisfy it (R160) -/
  waitaRead : Bool
  /-- the satisfying read of a frozen `waita` was made in the cycle before (R160) -/
  waitaSeen : Bool
  /-- the `fence.sc` due has waited, and the triggered sends that had not fired when it began to (R254) -/
  fenceLate : Option (List Nat)
  /-- the first cycle in which the strand may issue (R299, R330) -/
  gate : Nat
  spad : Mem
  /-- numbers of the poisoned 8-byte words, rising (R151) -/
  poison : List Nat
  spill : Vector Word 512
  planes : Vector Plane 2
  /-- the current plane is plane 1 (R299) -/
  curPlane : Bool
  mat : MatrixEngine
  cpy : CopyEngine
  chn : ChannelEngine
  /-- drawer accesses and remote atomics that have not performed or not returned -/
  dacc : List Access
  /-- number of the next such access; the MODEL's own name for it (log 2) -/
  nextAcc : Nat
  fences : List Join
  qfences : List Join
  slog : List LogEntry
  /-- side-log slot in the log memory, when the tile holds one (R317) -/
  slogSlot : Option Nat
  /-- in this cycle a store or a chunk is kept in the drawer path for want of a log slot (R317) -/
  slogWait : Bool
  /-- token bucket of the tile (R343) -/
  bucket : Int
deriving DecidableEq, Repr

/-- A core before anything has run on it, at its position (R9, log 5, log 6, log 7). The management core is master 64 in
system mode and has no position (R397). -/
def Core.fresh (id : CoreId) : Core :=
  let mg := id == mgmtCore
  { sregs := Vector.replicate 64 0
    pregs := Vector.replicate 8 false
    vregs := Vector.replicate 32 0
    mregs := Vector.replicate 16 0
    tregs := Vector.replicate 8 0
    lcregs := Vector.replicate 4 0
    hregs := Vector.replicate 16 Handle.empty
    zregs := Vector.replicate 16 0
    kregs := Vector.replicate 8 0
    rings := Vector.replicate 8 Ring.empty
    accs := Vector.replicate 4 (Vector.replicate 256 0)
    wmarks := Vector.replicate 4 16
    owners := Vector.replicate 4 []
    stg := Vector.replicate 48 0
    orx := Vector.replicate 4 []
    otx := Vector.replicate 4 []
    ras := Vector.replicate 16 0
    depth := 0
    fmts := ((((Vector.replicate 16 0).set 0 fmtFp32).set 1 fmtBf16).set 2 fmtFp16).set 3 fmtInt8
    pos :=
      { x := if mg then 0 else BitVec.ofNat 8 (id % 184)
        y := if mg then 0 else BitVec.ofNat 8 (id / 184)
        ctx := if mg then 64 else 0
        gangW := 0, gangH := 0, orgX := 0, orgY := 0
        loopc := Vector.replicate 8 0
        loopt := Vector.replicate 8 (if mg then 0 else 1) }
    fstat := 0
    zbase := 0
    gd := Vector.replicate 4 0
    gtab := 0
    wdog := 65536
    trap := { en := false, vec := 0, pc := 0, inH := false, cause := 0, info0 := 0, info1 := 0 }
    cnt := { l := 0, s := 0, k := 0, m := 0, n := 0 }
    sFalls := 0
    sysMode := mg
    pmode := false
    pc := 0
    pcFrom := none
    stall := 0
    redirects := []
    pb := 0
    inflight := []
    undo := none
    pend := []
    issueNo := 0
    snapTrap := { results := [], redirects := [], pb := 0 }
    snapPre := { results := [], redirects := [], pb := 0 }
    deferred := []
    held := []
    failing := []
    trapAfter := none
    undelivered := none
    strand := .none
    eretDrain := false
    haltReq := false
    haltNew := false
    frozen := false
    lost := false
    bankLeft := none
    bankWant := []
    bankLast := []
    xfers := []
    landing := []
    waitedV := 0
    waitedL := 0
    waitaRead := false
    waitaSeen := false
    fenceLate := none
    gate := 0
    spad := []
    poison := []
    spill := Vector.replicate 512 0
    planes := Vector.replicate 2 Plane.empty
    curPlane := false
    mat := { queue := [], exec := none, epi := none, stopped := false, retired := 0, passes := 0, fl := 0, held := false }
    cpy := { queue := [], exec := none, stopped := false }
    chn := { queue := [], exec := none, fired := [], armed := [], posts := [], spent := [], waiting := none,
             accept := none, stopped := false, held := false }
    dacc := []
    nextAcc := 0
    fences := []
    qfences := []
    slog := []
    slogSlot := none
    slogWait := false
    bucket := 0 }
/-! ### The module -/

/-- What the world outside the module holds ready for it: the codes that each sensor, 4 × field + number, gives sample by sample, of which
the last stays (R391), physical tiles and
links that self-test would find failing (R364), the drawer's capacity (R335), each link's LAT (R333), and the IPv4 address, mask and gateway
that DHCP would give (R404). Not state the spec
gives the machine: the MODEL's place for these inputs (log 3). -/
structure Env where
  temps : Tab (List Nat)
  sick : List Nat
  sickLinks : List Nat
  cap : Word
  lat : Tab Nat
  lease : Option (BitVec 96)
deriving DecidableEq, Repr

/-- A leaf entry of a field translation cache (R306): `page` is the virtual address of the page. -/
structure Leaf where
  ctx : Nat
  big : Bool
  page : Nat
  base : Nat
  rd : Bool
  wr : Bool
  /-- TGEN of the context at the walk (R162) -/
  gen : BitVec 12
deriving DecidableEq, Repr

/-- A path entry (R306): the table that level `lev`'s entry under `tag` points to. -/
structure PathEntry where
  ctx : Nat
  lev : Nat
  tag : Nat
  table : Nat
deriving DecidableEq, Repr

/-- How a walk ends (R304). -/
inductive WalkEnd
  | leaf (l : Leaf) (paths : List PathEntry)
  | fault (type lev : Nat) (entry : Word) (paths : List PathEntry)
deriving DecidableEq, Repr

/-- A page-table walk (R304, R307); `marked` for restart by a shootdown (R310). -/
structure Walk where
  id : Nat
  ctx : Nat
  va : Word
  marked : Bool
  /-- the cycle in which it began; 0 while it waits for its turn -/
  since : Nat
  /-- the level and the table of its next read, and the path entries met -/
  lev : Nat
  table : Nat
  paths : List PathEntry
  /-- the request of the read under way, and the cycle in which it began (R303, R307) -/
  req : Option Nat
  readAt : Nat
  /-- it has met a link that was not up (R307) -/
  stalled : Bool
  /-- how it ends, once known -/
  ending : Option WalkEnd
deriving DecidableEq, Repr

/-- A translation cache; the first sixteen walks run, the others wait (R306). -/
structure Cache where
  leaves : List Leaf
  paths : List PathEntry
  walks : List Walk
deriving DecidableEq, Repr

/-- Whose a drawer request is. -/
inductive ReqOwner
  /-- block of a strand access -/
  | access (id : Nat)
  /-- block of a copy's chunk -/
  | chunk (n : Nat)
  /-- a host access -/
  | host
  /-- a walker's read (R303) -/
  | walk (id : Nat)
  /-- block of a memory unit's transfer (R341) -/
  | job (id : Nat)
  /-- nobody's: a write that has performed and whose completion is on its way (R347), or an access of a context that is gone, whose result
  is discarded (R349) -/
  | past
deriving DecidableEq, Repr

/-- Where a drawer request stands. -/
inductive ReqPlace
  /-- at the network port (R337) -/
  | port
  /-- held back while its tile is frozen: its address is translated again before it leaves (R258, R311) -/
  | stale
  /-- on its way to its link, there from cycle `due`; a full queue leaves it in the network (R337) -/
  | net (due : Nat)
  /-- in its requester's queue at the link, as number `n` of the order in which requests came (R337, R341) -/
  | queue (n : Nat)
  /-- served; its data slot or write completion is at the link's controller from cycle `slot` on, the reply at the requester from cycle
  `ready` -/
  | served (slot ready : Nat)
  /-- served before a retraining cut off its reply: its command is sent again after training (R347) -/
  | resend
deriving DecidableEq, Repr

/-- How a drawer request ended. -/
inductive ReqEnd
  | ok (data : List (BitVec 8))
  /-- access-table violation (R323) -/
  | denied
  | poisoned
  /-- frame offline at the drawer, type 6 (R313) -/
  | offline
  /-- its fresh translation failed (R311, R313) -/
  | failed (type lev : Nat) (entry : Word)
  /-- returned unserved, 0x18 (R348) -/
  | stalled
  /-- returned with the 0x18 of another access of its tile (R348) -/
  | returned
deriving DecidableEq, Repr

/-- A drawer request: one aligned 64-byte block's part of an access (R337). `core` is the tile, or 0x1_0000 + port for a
host; `mid` its master (R322), `rq` its requester class (R341); `va` the virtual address of its first byte. -/
structure Req where
  id : Nat
  core : Nat
  mid : Nat
  rq : Nat
  owner : ReqOwner
  addr : Nat
  va : Word
  write : Option (List (BitVec 8))
  len : Nat
  place : ReqPlace
  res : Option ReqEnd
  /-- waits for its link without limit: side-log replay, fault records, save-area traffic (R348) -/
  patient : Bool
  /-- cycles it has waited for a link that is not up (R348) -/
  waited : Nat
deriving DecidableEq, Repr

/-- What a memory unit's transfer is for (R316, R341). -/
inductive JobOwner
  /-- access `id` of the tile, to be sent with fresh addresses -/
  | load (id : Nat)
  /-- chunk `n` of its copy, likewise -/
  | chunk (n : Nat)
  /-- a request held back by a freeze -/
  | request (id : Nat)
  /-- the side-log entry whose turn it is in class `cls` -/
  | replay (cls : Nat)
  /-- the group table of its M or N queue's head -/
  | group (matrix : Bool)
  /-- the entry of queue `q` that waits under `name` -/
  | spillOut (q name : Nat)
  | spillIn (q : Nat)
  | stage (q : Nat)
  /-- part `n` of the image and loop table of launch `l` -/
  | image (l n : Nat)
  /-- part `n` of the image of saved gang `g` -/
  | reload (g n : Nat)
  /-- the record of the member set aside -/
  | recall
  /-- a record of the fault unit -/
  | record
  /-- a side-log entry's copy in its log slot -/
  | logSlot
  /-- a tile's record -/
  | save
  /-- the head of a save area -/
  | saveHead
deriving DecidableEq, Repr

/-- How a transfer ended. -/
inductive JobEnd
  | done (data : List (BitVec 8))
  | fault (type lev : Nat) (entry va : Word)
  | cause (code : Nat) (info : Word)
deriving DecidableEq, Repr

/-- A transfer of a memory unit: it translates its blocks through cache `cache`, sends a request for each to its link and ends when all
have (R303, R316, R341). -/
structure Job where
  id : Nat
  /-- the tile it is for; 0x1_0000 for a unit of the module -/
  core : Nat
  who : JobOwner
  cache : Nat
  ctx : Nat
  mid : Nat
  va : Word
  write : Option (List (BitVec 8))
  /-- it only translates: the tile sends the requests -/
  plain : Bool
  /-- checks the leaf's permissions -/
  strict : Bool
  patient : Bool
  /-- blocks still to be translated: offset and length -/
  todo : List (Nat × Nat)
  /-- blocks translated: offset, length and physical address -/
  pas : List (Nat × Nat × Nat)
  /-- the leaf used last, and the walk awaited -/
  leaf : Option Leaf
  walk : Option Nat
  sent : Bool
  ended : Option JobEnd
deriving DecidableEq, Repr

/-- A drawer link (R332, R341, R346): `slot` is the next outbound slot of this training. -/
structure Link where
  st : BitVec 2
  lat : Nat
  retr : Nat
  t0 : Nat
  slot : Nat
  last : Nat
deriving DecidableEq, Repr

/-- A link before its first training (R346). -/
def Link.fresh : Link := { st := 0, lat := 0, retr := 0, t0 := 0, slot := 0, last := 64 }

/-- A fault record (R313). -/
structure FaultRec where
  vaddr : Word
  stamp : BitVec 16
  type : Nat
  level : Nat
  ctx : Nat
  source : Nat
  link : Nat
  tid : Nat
  opc : Nat
  chunk : Nat
  bitmap : Nat
  cls : Nat
  qid : Nat
  entry : Word
deriving DecidableEq, Repr

/-- A context descriptor (R320). -/
structure Ctx where
  save : BitVec 32
  root : BitVec 32
  quota : BitVec 32
  tgen : BitVec 12
  homen : BitVec 8
  y0 : BitVec 8
  x0 : BitVec 8
  h : BitVec 8
  w : BitVec 8
  st : BitVec 4
  ceil : BitVec 3
  v : Bool
deriving DecidableEq, Repr

/-- A free context (R320). -/
def Ctx.fresh : Ctx :=
  { save := 0, root := 0, quota := 0, tgen := 0, homen := 0, y0 := 0, x0 := 0, h := 0, w := 0, st := 0, ceil := 0, v := false }

/-- What a packet asks for beside its bytes (R232, R241, R283). -/
inductive NetOp
  | deposit
  /-- an atomic request of access `id` (R241) -/
  | atomic (id : Nat) (op : BitVec 8) (w : BitVec 2) (b c : Word)
  /-- its reply: old value, condition, or the cause and its TRAPINFO0 -/
  | reply (id : Nat) (old : Word) (cond : Bool) (bad : Option (Nat × Word)) (fl : Flags)
  /-- a read request for `len` bytes at OFF, to be written at `back` of the tile that asks (R195) -/
  | read (len back : Nat)
  | push (q : Nat)
  | pop (q : Nat) (tag aff : BitVec 16) (fail : Bool)
  | close (q : Nat)
  /-- the outcome of a pop: s56 to s63 and pd (R206) -/
  | popped (words : List Word) (ok : Bool)
deriving DecidableEq, Repr

/-- Where a packet stands (R231, R234). -/
inductive PacketPlace
  /-- on its way, or at its tile and waiting there -/
  | net
  /-- taken in by its tile: its bytes go to `base`, counted at the arrival word `aw` -/
  | taken (base : Nat) (aw : Option Nat)
  /-- on its way to port tile, or there and waiting for the port (R243) -/
  | port (p : Nat)
  /-- beyond the port, until the peer has written and counted it -/
  | peer
deriving DecidableEq, Repr

/-- A packet (R232): header fields, payload, the command that sent it, its costs, and how far its flits have come: `due` is the
cycle in which its header is at the destination's router, unloaded (R228). -/
structure Packet where
  id : Nat
  kind : Nat
  ctx : Nat
  src : Nat
  sch : Nat
  dst : Nat
  dch : Nat
  off : Nat
  aw : Nat
  awv : Bool
  seq : Nat
  /-- LEN -/
  len : Nat
  data : List (BitVec 8)
  flits : Nat
  /-- flit spacing -/
  fs : Nat
  /-- data flits that have entered the network; flits in the ingress buffer of its tile, the header among them; data flits whose
  bank accesses have begun, and data flits whose bytes are written (R200, R228, R234) -/
  sent : Nat
  arrived : Nat
  begun : Nat
  done : Nat
  /-- flits whose credit had gone back when it was sent again (R233, R378) -/
  again : Nat
  /-- number of the order in which headers reached their tiles (R355) -/
  turn : Nat
  /-- takes credit of `sch` at `src` (R233) -/
  credit : Bool
  /-- L of the mirrored route (R233) -/
  back : Nat
  due : Nat
  slot : Slot
  ord : Nat
  opc : CodeIdx
  /-- packet, chunk or row number in its command -/
  index : Nat
  op : NetOp
  /-- for a group send: MOD_ID and gang-relative position it must meet (R269) -/
  expect : Option (Nat × Nat × Nat)
  /-- router ports that it crosses (R377): 2 × link, plus 1 for the way west or north; a link is named 2 × TID + 0 east or 1 south
  of its west or north end. With each the cycle in which its header is at that router, unloaded -/
  links : List (Nat × Nat)
  /-- all segments of its route, and those still to be walked behind an optical hop (R243); for a request that came in by
  such a hop, the route of its reply (R241) -/
  route : List Nat
  segs : List Nat
  /-- may be deposited before earlier ones: crosses the express layer (R231) -/
  anyOrder : Bool
  /-- to be sent again over a detour when the region of its router thaws (R373) -/
  stuck : Bool
  place : PacketPlace
deriving DecidableEq, Repr

/-- An arrival on its way to its bank unit or served there (R210, R236, R238): the tile, its arrival word and the bytes. `chunk`
names the copy chunk of a tile that is complete with it (R192); `src` is the sender. -/
structure Arrival where
  id : Nat
  core : Nat
  aw : Nat
  bytes : Nat
  /-- the tile whose command counts here, that command's issue order and slot (R254) -/
  src : Nat
  ord : Nat
  slot : Slot
  chunk : Option (Nat × Nat)
  /-- the destination channel of the packet that it counts (R355) -/
  ch : Option Nat
deriving DecidableEq, Repr

/-- Credits on their way to a sending channel (R233). -/
structure Credit where
  id : Nat
  core : Nat
  ch : Nat
  flits : Nat
  due : Nat
deriving DecidableEq, Repr

/-- The state of a queue beyond its descriptor (R281, R284, R286): head segment, entries in the spill ring (count taken out,
count put in), staging TAIL and TAKEN, blocked pops and pushes waiting for quota as packets, and whether a fault holds
its spill traffic or its staging reads. -/
structure QueueRec where
  head : List (List (BitVec 8))
  out : Nat
  inn : Nat
  tail : BitVec 32
  taken : BitVec 32
  blocked : List Packet
  waiting : List Packet
  /-- word 0 of every entry in the spill ring, as it was appended (log 104) -/
  keys : List Word
  /-- cycle since which the oldest staging entry waits for quota (R285) -/
  since : Option Nat
  /-- headAt and stale of launches that have gone back to their entries, from the front (R300) -/
  ages : List (Nat × Bool)
  heldSpill : Bool
  heldStage : Bool
deriving DecidableEq, Repr

/-- An empty queue. -/
def QueueRec.fresh : QueueRec :=
  { head := [], out := 0, inn := 0, tail := 0, taken := 0, blocked := [], waiting := [], keys := [], since := none, ages := [],
    heldSpill := false, heldStage := false }

/-- The states of a launch (R294). -/
inductive LaunchState
  | head | eligible | placed | starting | running
deriving DecidableEq, Repr

/-- A launch from the head of its queue on (R289 to R301). `behind` marks a policy-2 claim on held tiles; `firsts`
counts the rounds it stood first among its context's unplaced launches; `hold` is a translation fault that holds its load. -/
structure Launch where
  id : Nat
  qid : Nat
  ctx : Nat
  image : Word
  looptab : Word
  geom : Word
  deps : List Word
  args : List Word
  /-- the status that the check of its record gave, 0 when it passed (R292) -/
  bad : Nat
  st : LaunchState
  headAt : Nat
  stale : Bool
  firsts : Nat
  ox : Nat
  oy : Nat
  behind : Bool
  placedAt : Nat
  loaded : Bool
  /-- the cycle in which its image had been read (R299) -/
  loadedAt : Nat
  hold : Bool
  grant : Nat
  startAt : Nat
  /-- plane cost C of the loaded image (R298) -/
  cost : Nat
  /-- the loaded data section and its address (R76) -/
  data : List (BitVec 8)
  dataAddr : Nat
  /-- members that have received the start token, each with its cycle (R299) -/
  tokens : List (Nat × Nat)
deriving DecidableEq, Repr

/-- A barrier line of a gang (R263, R264): arrivals with votes, the last arrival, and the release once detected. -/
structure Line where
  arrived : List (Nat × Bool)
  lastTid : Nat
  lastAt : Nat
  release : Option Nat
deriving DecidableEq, Repr

/-- A line with no arrival. -/
def Line.fresh : Line := { arrived := [], lastTid := 0, lastAt := 0, release := none }

/-- A gang on its tiles (R259, R263); `launch` keeps its launch. -/
structure Gang where
  id : Nat
  ctx : Nat
  ox : Nat
  oy : Nat
  w : Nat
  h : Nat
  window : Nat
  launch : Launch
  lines : Vector Line 4
  /-- issued its first bundle -/
  started : Bool
  /-- members that have reached their drain point and given up their tile (R297) -/
  left : List Nat
  /-- its launch is complete; what is left are members held after `swap` (R297) -/
  isOver : Bool
deriving DecidableEq, Repr

/-- A gang in the save area (R328 to R330): its tiles' records stay in `State.cores` under numbers from 0x2_0000 up, in gang
index order; `nums` are the numbers of their records. -/
structure SavedGang where
  gang : Gang
  tiles : List Nat
  nums : List Nat
  /-- the state blocks of the records as they were written -/
  blocks : List (List (BitVec 8))
  /-- the origin reserved for it, the planes' image once it is reloaded, and cycle S once its start token is sent (R330) -/
  place : Option (Nat × Nat)
  image : Option (Option Plane)
  startAt : Option Nat
  /-- a translation fault holds the reload of its planes -/
  hold : Bool
deriving DecidableEq, Repr

/-- A drawer-port range (R322, R402). -/
structure Range where
  v : Bool
  base : BitVec 32
  limit : BitVec 32
  rd : Bool
  wr : Bool
deriving DecidableEq, Repr

/-- An unused range. -/
def Range.none : Range := { v := false, base := 0, limit := 0, rd := false, wr := false }

/-- What the repair store holds of a field (R359 to R365): retired rows and columns in entries A and B, holes as 23 × ly + lx,
dead links east and south of such a tile, MAPGEN. -/
structure FieldMap where
  rowA : Option Nat
  rowB : Option Nat
  colA : Option Nat
  colB : Option Nat
  holes : List Nat
  deadE : List Nat
  deadS : List Nat
  gen : BitVec 32
deriving DecidableEq, Repr

/-- A field without repairs. -/
def FieldMap.fresh : FieldMap :=
  { rowA := none, rowB := none, colA := none, colB := none, holes := [], deadE := [], deadS := [], gen := 0 }

/-- A journal entry of the repair store: the command and whether it is pending (R363, R366). -/
structure JournalEntry where
  cmd : Word
  pending : Bool
deriving DecidableEq, Repr

/-- How far a migration has come (R370). -/
inductive MigStage
  | detected | ordered | copied | mapped
deriving DecidableEq, Repr

/-- A migration of a field (R369, R370): the failed tile, kind (row or column), index, E, the region's logical tiles,
its stage, and the tiles whose errors wait for W, each with the physical row and column that failed (R373). -/
structure Migration where
  failed : Nat
  row : Bool
  index : Nat
  e : Nat
  region : List Nat
  stage : MigStage
  next : List (Nat × Nat × Nat)
deriving DecidableEq, Repr

/-- A packet that a router holds for a link: the cycle in which its header is there, whether its tail has been sent, and whether the
downstream router has accepted it (R377). -/
structure Held where
  pkt : Nat
  since : Nat
  out : Bool
  acc : Bool
deriving DecidableEq, Repr

/-- A router port of a mesh link (R377): tails sent, tails accepted, packets held and to come, in order. -/
structure MeshPort where
  tout : BitVec 16
  tin : BitVec 16
  held : List Held
deriving DecidableEq, Repr

/-- A fault-log record (R380); `seq` is 0 until its event is stamped. -/
structure LogRec where
  seq : Nat
  cycle : Nat
  unit : Nat
  kind : Nat
  count : Nat
  place : Nat
  detail : Nat
deriving DecidableEq, Repr

/-- Something the module hands to the outside: the MODEL's record of it (log 3). -/
inductive Output
  /-- a management datagram to a source -/
  | datagram (dst : Nat) (bytes : List (BitVec 8))
  /-- a vector to the cabled peer (R244) -/
  | vector (port lane : Nat) (x : Vec)
  /-- a refusal on its way back to tile `tid` of the module cabled to a port (R269, R323) -/
  | refusal (port tid : Nat) (data : List (BitVec 8))
  /-- a packet to the cabled peer (R243) -/
  | packet (port : Nat) (hdr : BitVec 512) (data : List (BitVec 8))
  /-- the data of a host read -/
  | hostRead (port addr : Nat) (bytes : List (BitVec 8))
  /-- Completer Abort of a host read (R348) -/
  | hostAbort (port addr : Nat)
deriving DecidableEq, Repr

/-- A kept response of the management port (R404). -/
structure Kept where
  src : Nat
  seq : Nat
  resp : List (BitVec 8)
deriving DecidableEq, Repr

/-- A fabric manager's order whose response waits for its event (R405): who asked, the port and the order. -/
structure Awaited where
  src : Nat
  seq : BitVec 32
  port : Nat
  order : Nat
deriving DecidableEq, Repr

/-- An optical port (R407). `hint` is HINT. `waited` is the longest of the waits of what waits at it, each counted in cycles of low power: those
of packets by their numbers, and of vectors by lane, the oldest first (R408). -/
structure Port where
  state : BitVec 2
  bnd : Bool
  bctx : BitVec 6
  pmod : BitVec 10
  pport : BitVec 6
  hint : Bool
  waited : Nat
  packets : Tab Nat
  lanes : List (List Nat)
deriving DecidableEq, Repr

/-- A port before any order (R407). -/
def Port.fresh : Port := { state := 0, bnd := false, bctx := 0, pmod := 0, pport := 0, hint := false, waited := 0, packets := [], lanes := [] }

/-- An event offered to the arbiter and not yet stamped (R381, R382): the cycle of its offer, ORIGIN, WHERE, CTX, CODE,
DATA and MERGED, and the fault log whose newest record it matches (R380). -/
structure Offer where
  since : Nat
  org : Nat
  loc : Nat
  ctx : Nat
  code : Nat
  data : List (BitVec 8)
  merged : Nat
  log : Option Nat
deriving DecidableEq, Repr

/-- How far the boot has come (R406). -/
inductive BootStage
  | reset | started | powered | ready | recovery
deriving DecidableEq, Repr

/-- A throttle step: the governing one and one written and not yet governing (R395). -/
structure Throttle where
  k : Nat
  next : Option Nat
deriving DecidableEq, Repr

/-- A field that switches on: its stage and the cycle the stage began (R389). -/
structure Switching where
  fld : Nat
  stage : Nat
  since : Nat
deriving DecidableEq, Repr

/-- The registers behind 0x800 to 0x85A that hold what software writes (R400), and those that report. -/
structure SysRegs where
  evtLast : Word
  evtAck : Word
  evtMask : Word
  wake : Word
  bbIdx : Word
  bbRd : Vector Word 8
  bbWr : Vector Word 5
  sdVa : Word
  sdCtl : Word
  /-- the word and the address of the shootdown that runs (R310) -/
  sdRun : Word
  sdRunVa : Word
  fbBase : Word
  fgen : BitVec 16
  prod : BitVec 16
  cons : BitVec 16
  slogCfg : Word
  preCtl : Word
  dscSel : Word
  dscD : Vector Word 4
  dscCtl : Word
  atbSel : Word
  atbD0 : Word
  atbD1 : Word
  atbCtl : Word
  lnchAge : Word
  drwCap : Word
  sltAddr : Word
  sltCtl : Word
  lnkSel : Word
  repSel : Word
  optSel : Word
  modRank : Word
  fpwrEn : Word
  fpwrSt : Word
  thermCfg : Word
deriving DecidableEq, Repr

/-- The system registers at reset: the values the spec gives, zero where it gives none (log 8). -/
def SysRegs.fresh : SysRegs :=
  { evtLast := 0, evtAck := 0, evtMask := 0x1FF, wake := 0, bbIdx := 0
    bbRd := Vector.replicate 8 0, bbWr := Vector.replicate 5 0
    sdVa := 0, sdCtl := 0, sdRun := 0, sdRunVa := 0, fbBase := 0, fgen := 0, prod := 0, cons := 0, slogCfg := 0, preCtl := 0
    dscSel := 0, dscD := Vector.replicate 4 0, dscCtl := 0, atbSel := 0, atbD0 := 0, atbD1 := 0, atbCtl := 0
    lnchAge := 0, drwCap := 0, sltAddr := 0, sltCtl := 0, lnkSel := 0, repSel := 0, optSel := 0, modRank := 0
    fpwrEn := 0, fpwrSt := 0, thermCfg := 0x05C00640 }

/-- The state of the module. -/
structure State where
  /-- CYCLE (R10) -/
  cycle : Nat
  /-- the tile-class cores; one not listed is fresh -/
  cores : Tab Core
  /-- the MODEL's own: the core whose bundle or event this is (log 1) -/
  cur : CoreId
  /-- the MODEL's own: events left in this cycle, the machine's and the outside's (log 1) -/
  agenda : List Event
  /-- the MODEL's own: the outside's events to come, each with its cycle (log 3) -/
  tape : List (Nat × Event)
  /-- accesses of the host window that wait for earlier writes of their port, oldest first: the port and the access (R256) -/
  hostWait : List (Nat × Event)
  /-- datagrams that wait at the management port for the response under way, oldest first, each with its sender (R404) -/
  portWait : List (Nat × List (BitVec 8))
  /-- the cycle of the last GO written to PRE_CTL (R327) -/
  preSince : Nat
  /-- the MODEL's own: counter of free values (log 2) -/
  free : Nat
  /-- the MODEL's own: next number of a walk, request, packet, arrival, credit, launch or gang (log 2) -/
  serial : Nat
  env : Env
  outbox : List Output
  boot : BootStage
  /-- fields powered when the boot set the maps: the others stay out of use until the next boot (R390) -/
  bootFields : Word
  /-- a thermal shutdown has opened every field's switches (R394) -/
  shutdown : Bool
  /-- undeliverable traps whose gang abort is to follow (R29) -/
  aborts : List Nat
  sys : SysRegs
  /-- drawer memory (R335) -/
  drawer : Mem
  /-- poisoned 8-byte words of drawer memory -/
  drwPoison : List Nat
  /-- 64 KiB frames the drawer holds offline (R313 type 6) -/
  drwOffline : List Nat
  /-- requests on their way to the drawer, oldest first (R337) -/
  reqs : List Req
  /-- transfers of the memory units (R341) -/
  jobs : List Job
  links : Tab Link
  /-- slot tables by 1,024 × link + slot; an entry not listed is 0x7F (R339) -/
  slotsA : Tab (BitVec 8)
  slotsS : Tab (BitVec 8)
  /-- links that have still to switch (R340) -/
  sltWait : List Nat
  bwc : Tab Word
  /-- BWC values waiting for their refill boundary (R345) -/
  bwcNext : Tab Word
  /-- contexts that sent a metered request since the last refill (R344) -/
  metered : List Nat
  caches : Tab Cache
  /-- tiles yet to acknowledge, each with the accesses it waits for (R310) -/
  sdWait : List (Nat × List Nat)
  /-- records waiting in the fault unit (R312) -/
  fbWait : List FaultRec
  /-- log slots taken (R317) -/
  slogUsed : List Nat
  ctxs : Tab Ctx
  /-- spill-quota units charged, by context (R285) -/
  charged : Tab Nat
  /-- event counters by 1,024 × context + number (R282) -/
  evctr : Tab (BitVec 32)
  saveCount : Tab Nat
  saved : List SavedGang
  /-- the numbers of the records of the tiles that a save writes (R328) -/
  recNums : Tab Nat
  /-- the state blocks that a save has written so far (R329) -/
  recBytes : Tab (List (BitVec 8))
  /-- tiles yet to report halted, or yet to finish their records (R327, R329) -/
  preWait : List Nat
  /-- grants by 128 × TID + MID: bit 0 RD, bit 1 W (R322) -/
  grants : Tab (BitVec 2)
  /-- drawer-port ranges by 8 × MID + number (R322) -/
  ranges : Tab Range
  /-- context sets of the host ports (R322) -/
  hostSets : Vector Word 4
  /-- queue descriptors (R283) -/
  qdesc : Tab (BitVec 256)
  queues : Tab QueueRec
  launches : List Launch
  gangs : List Gang
  net : List Packet
  arrivals : List Arrival
  credits : List Credit
  /-- SEQ counters by 2^32 × source + destination (R231) -/
  seqOut : Tab (BitVec 16)
  seqIn : Tab (BitVec 16)
  /-- pairs of tiles, as in the SEQ tables, with the numbers of ordered packets that were discarded before their turn (R231) -/
  seqGone : List (Nat × Nat)
  meshPorts : Tab MeshPort
  fields : Tab FieldMap
  journal : List JournalEntry
  migrations : Tab Migration
  /-- contexts whose watchdogs a migration suspends (R372) -/
  wdHeld : List Nat
  /-- fault logs, newest first, by selector word (R380, R405) -/
  flogs : Tab (List LogRec)
  ports : Tab Port
  throttles : Tab Throttle
  sens : Tab Word
  /-- the cycle of the next sample of the sensors (R391) -/
  nextSample : Nat
  switching : List Switching
  offered : List Offer
  /-- an event has been stamped in this cycle (R381) -/
  stampedNow : Bool
  /-- black-box records by SEQ mod 4,096 (R382) -/
  bbox : Tab (List (BitVec 8))
  /-- the highest SEQ of each ORIGIN among events whose records have been written over (R398) -/
  evtOver : Tab Nat
  flash : Mem
  kept : List Kept
  /-- orders carried out and not yet answered (R405) -/
  awaited : List Awaited
deriving DecidableEq, Repr

/-- Nothing from outside (log 3). -/
def Env.fresh : Env := { temps := [], sick := [], sickLinks := [], cap := 0, lat := [], lease := none }

/-- The machine right after reset: nothing powered, no core started, CYCLE zero, every table empty but range 0 of
MID 64, which covers all installed memory (R322); the boot is to come (R406). -/
def State.reset : State :=
  { cycle := 0, cores := [], cur := mgmtCore, agenda := [], tape := [], hostWait := [], portWait := [], preSince := 0, free := 0, serial := 0
    env := Env.fresh, outbox := [], boot := .reset, bootFields := 0, shutdown := false, aborts := []
    sys := SysRegs.fresh
    drawer := [], drwPoison := [], drwOffline := [], reqs := [], jobs := [], links := [], slotsA := [], slotsS := [], sltWait := []
    bwc := [], bwcNext := [], metered := [], caches := [], sdWait := [], fbWait := [], slogUsed := []
    ctxs := [], charged := [], evctr := [], saveCount := [], saved := [], recNums := [], recBytes := [], preWait := []
    grants := []
    ranges := [(512, { v := true, base := 0, limit := 0xFFFFFFFF, rd := true, wr := true })]
    hostSets := Vector.replicate 4 0
    qdesc := [], queues := [], launches := [], gangs := []
    net := [], arrivals := [], credits := [], seqOut := [], seqIn := [], seqGone := [], meshPorts := []
    fields := [], journal := [], migrations := [], wdHeld := [], flogs := []
    ports := [], throttles := [], sens := [], nextSample := 12500, switching := []
    offered := [], stampedNow := false, bbox := [], evtOver := [], flash := [], kept := [], awaited := [] }

/-- The reasons to stop with a fault: none. Every trap, halt and refusal the spec describes is a state of the machine. -/
inductive Fault
deriving DecidableEq, Repr

/-- The reasons to give no meaning. -/
inductive Refusal
  /-- raised by an arm of `exec` that has no meaning yet; safe: nothing is claimed of the instruction -/
  | notModelled (mnemonic : String)
deriving DecidableEq, Repr

end Sys2Proof.Machine
end

