-- ==== Sys2Proof/Machine/Ops.lean ====
section
/-! DEFINITION. The named operations over memory, tables, registers and results, taking a trap and returning from one. -/

namespace Sys2Proof.Machine

/-! ### Byte memory in its one canonical form -/

/-- The byte at address `a`; an address not listed reads 0 (log 6). -/
def Mem.read : Mem → Nat → BitVec 8
  | [], _ => 0
  | (k, b) :: r, a => if a = k then b else if a < k then 0 else Mem.read r a

/-- The memory with byte `b` at address `a`; a byte equal to what an unlisted address reads as is not listed. -/
def Mem.write : Mem → Nat → BitVec 8 → Mem
  | [], a, b => if b = 0 then [] else [(a, b)]
  | (k, c) :: r, a, b =>
    if a < k then (if b = 0 then (k, c) :: r else (a, b) :: (k, c) :: r)
    else if a = k then (if b = 0 then r else (a, b) :: r)
    else (k, c) :: Mem.write r a b

/-- The canonical form: addresses strictly rising from `lo` up, and no byte listed that is 0. -/
def Mem.wfFrom : Nat → Mem → Bool
  | _, [] => true
  | lo, (k, b) :: r => decide (lo ≤ k) && b != 0 && Mem.wfFrom (k + 1) r

/-- The canonical form of a memory. -/
def Mem.wf (m : Mem) : Bool := Mem.wfFrom 0 m

/-- `n` bytes from `a` up as a number, little-endian (R2). -/
def Mem.readN (m : Mem) (a : Nat) : Nat → Nat
  | 0 => 0
  | n + 1 => (m.read a).toNat + 256 * Mem.readN m (a + 1) n

/-- The low `n` bytes of `x` written from `a` up, little-endian (R2). -/
def Mem.writeN (m : Mem) (a : Nat) : Nat → Nat → Mem
  | 0, _ => m
  | n + 1, x => Mem.writeN (m.write a (BitVec.ofNat 8 x)) (a + 1) n (x / 256)

/-- Bytes from `a` up, as a list. -/
def Mem.bytes (m : Mem) (a : Nat) : Nat → List (BitVec 8)
  | 0 => []
  | n + 1 => m.read a :: Mem.bytes m (a + 1) n

/-- A list of bytes written from `a` up. -/
def Mem.putBytes (m : Mem) (a : Nat) : List (BitVec 8) → Mem
  | [] => m
  | b :: r => Mem.putBytes (m.write a b) (a + 1) r

/-- A list of bytes as a little-endian number (R2). -/
def bytesNat : List (BitVec 8) → Nat
  | [] => 0
  | b :: r => b.toNat + 256 * bytesNat r

/-! ### Tables by rising key -/

/-- The entry of key `k`. -/
def Tab.get? {α : Type} : Tab α → Nat → Option α
  | [], _ => none
  | (j, x) :: r, k => if k = j then some x else if k < j then none else Tab.get? r k

/-- The table with `x` at key `k`. -/
def Tab.put {α : Type} : Tab α → Nat → α → Tab α
  | [], k, x => [(k, x)]
  | (j, y) :: r, k, x =>
    if k < j then (k, x) :: (j, y) :: r
    else if k = j then (k, x) :: r
    else (j, y) :: Tab.put r k x

/-- The table without key `k`. -/
def Tab.del {α : Type} (t : Tab α) (k : Nat) : Tab α := t.filter (fun e => e.1 != k)

/-- The entry of key `k`, or `d`. -/
def Tab.getD {α : Type} (t : Tab α) (k : Nat) (d : α) : α := (Tab.get? t k).getD d

/-! ### Cores -/

/-- The core of number `id`. A core that nothing has touched is fresh. -/
def State.coreAt (s : State) (id : CoreId) : Core := Tab.getD s.cores id (Core.fresh id)

/-- The core whose turn it is. -/
def State.core (s : State) : Core := s.coreAt s.cur

/-- The state with core `id` replaced. -/
def State.putCore (s : State) (id : CoreId) (c : Core) : State := { s with cores := Tab.put s.cores id c }

/-- The state with the current core replaced. -/
def State.setCore (s : State) (c : Core) : State := s.putCore s.cur c

/-- Is this the Bursel management core? Only its CTX_ID reads 64 (R397). -/
def Core.isMgmt (c : Core) : Bool := c.pos.ctx == 64

/-- SPEND, the scratchpad limit (R149). -/
def Core.spend (c : Core) : Nat := if c.isMgmt then 0x40000 else 0xC0000

/-- Does the core run in system mode? A logical tile never does (R114). -/
def Core.inSystem (c : Core) : Bool := c.isMgmt && c.sysMode

/-- A scalar register; s0 reads 0 (R9). -/
def Core.sreg (c : Core) (r : BitVec 6) : Word := if r = 0 then 0 else c.sregs.get r.toFin

/-- A predicate register; p0 reads true (R9). -/
def Core.preg (c : Core) (r : BitVec 3) : Bool := if r = 0 then true else c.pregs.get r.toFin

/-- A vector register. -/
def Core.vreg (c : Core) (r : BitVec 5) : Vec := c.vregs.get r.toFin

/-- A mask register; m0 reads all ones (R9). -/
def Core.mreg (c : Core) (r : BitVec 4) : Mask := if r = 0 then BitVec.allOnes 128 else c.mregs.get r.toFin

/-- A target register. -/
def Core.treg (c : Core) (r : BitVec 3) : CodeIdx := c.tregs.get r.toFin

/-- A loop counter. -/
def Core.lcreg (c : Core) (r : BitVec 2) : BitVec 32 := c.lcregs.get r.toFin

/-- A handle register. -/
def Core.hreg (c : Core) (r : BitVec 4) : Handle := c.hregs.get r.toFin

/-- A format-table entry (R31). -/
def Core.fmt (c : Core) (r : BitVec 4) : BitVec 32 := c.fmts.get r.toFin

/-- Codebook register `n`, numbered by an entry's CB (R36). -/
def Core.kreg (c : Core) (n : Nat) : BitVec 256 := c.kregs.get (BitVec.ofNat 3 n).toFin

/-- The bits of staging register `n` that its map does not reserve (R116, R180, R189, R198). -/
def stgMask (n : Nat) : Word :=
  if 40 ≤ n then 0x80000000000FFFFF
  else
    match n with
    | 0 => 0x1FFF
    | 1 => 0x3F
    | 2 => 0xFFFFFFFFF
    | 3 => 0xFFF
    | 4 => 0x000FFFFF000FFFFF
    | 5 => 0xFF8FFF
    | 6 => 0xFFFFFFFF
    | 18 => 0x0000FFFFFFFFFFFF
    | 22 => 0xFFFF
    | 23 => 0x0000007F3FFFFFFF
    | 32 => 0xFFFFF
    | 33 => 0xFFFFFFFF
    | 34 => 0xFFFFF
    | 35 => 0xFFFFFFFF
    | 37 => 0xFF0FFF
    | 38 => 0xFFFFF
    | _ => BitVec.allOnes 64

/-- A staging register as it reads: a reserved field reads as zero (R5), while a command that reads the register checks what was
written (R177). Numbers 48 to 63 name none (R116). -/
def Core.stgReg (c : Core) (r : BitVec 6) : Word := c.stg.toList.getD r.toNat 0 &&& stgMask r.toNat

/-- The value of a code by entry `e`, codebooks included (R35, R36). -/
def Core.decode (c : Core) (e : BitVec 32) (code : Nat) : Num := decodeCode c.kreg e code

/-- The current configuration plane. -/
def Core.plane (c : Core) : Plane := if c.curPlane then c.planes.get 1 else c.planes.get 0

/-- Is this register pending (R15)? -/
def Core.isPending (c : Core) (r : PReg) : Bool := c.pend.any (fun e => e.1 == r)

/-- Make a register pending as of this bundle; s0 and p0 never are (R9, R15). -/
def Core.makePending (c : Core) (r : PReg) : Core :=
  if r = .s 0 ∨ r = .p 0 then c
  else { c with pend := (r, c.issueNo) :: c.pend.filter (fun e => e.1 != r) }

/-- The state with the turn at core `t`. -/
def State.at (s : State) (t : CoreId) : State := { s with cur := t }

/-! ### Events for the arbiter -/

/-- The low `n` bytes of a number, least significant first (R2). -/
def leBytes : Nat → Nat → List (BitVec 8)
  | 0, _ => []
  | n + 1, x => BitVec.ofNat 8 x :: leBytes n (x / 256)

/-- Offer an event to the arbiter: in this cycle from a repair controller, in the next from any other source. A source
with 16 events buffered merges an event of its newest one's code into that one (R381). `log` names the fault log whose newest
record it matches (R380). -/
def State.offerLog (s : State) (org loc ctx code : Nat) (data : List (BitVec 8)) (log : Option Nat) : State :=
  let mine := s.offered.filter (fun o => o.org == org && o.loc == loc)
  let fresh : Offer :=
    { since := if org = 1 then s.cycle else s.cycle + 1, org, loc, ctx, code, data, merged := 0, log }
  match mine.getLast? with
  | some o =>
    if 16 ≤ mine.length && o.code == code then
      { s with offered := (s.offered.reverse.replace o { o with merged := o.merged + 1 }).reverse }
    else { s with offered := s.offered ++ [fresh] }
  | none => { s with offered := s.offered ++ [fresh] }

/-- An event that matches no fault log. -/
def State.offer (s : State) (org loc ctx code : Nat) (data : List (BitVec 8)) : State := s.offerLog org loc ctx code data none

/-- *access refused* (R323, R383). -/
def State.refuse (s : State) (org loc ctx mid tgt addr : Nat) : State :=
  s.offer org loc ctx 0x0007 (leBytes 1 mid ++ leBytes 2 tgt ++ leBytes 6 addr)

/-! ### Lockstep results -/

/-- Is a write to this register discarded with its flags (R9, R103, R129)? -/
def Write.discarded : Write → Bool
  | .s r _ => r == 0
  | .p r _ => r == 0
  | .m r _ => r == 0
  | _ => false

/-- Do two writes name the same register (R14, R118)? -/
def Write.same : Write → Write → Bool
  | .s a _, .s b _ => a == b
  | .p a _, .p b _ => a == b
  | .v a _, .v b _ => a == b
  | .m a _, .m b _ => a == b
  | .t a _, .t b _ => a == b
  | .lc a _, .lc b _ => a == b
  | .h a _, .h b _ => a == b
  | .z a _, .z b _ => a == b
  | .k a _, .k b _ => a == b
  | .fmt a _, .fmt b _ => a == b
  | .stg a _, .stg b _ => a == b
  | .ras a _, .ras b _ => a == b
  | .depth _, .depth _ => true
  | .spr a _, .spr b _ => a == b
  | .sys a _, .sys b _ => a == b
  | .acc a r .., .acc b q .. => a == b && r == q
  | _, _ => false

/-- The register a write makes visible, when it is one that can be pending. -/
def Write.preg? : Write → Option PReg
  | .s r _ => some (.s r)
  | .p r _ => some (.p r)
  | .v r _ => some (.v r)
  | _ => none

/-- Put a lockstep result of latency `lat` in flight (R13). -/
def Core.result (c : Core) (slot : Slot) (lat : Nat) (w : Write) (fl : Flags := 0) : Core :=
  if w.discarded then c
  else { c with inflight := c.inflight ++ [{ w, fl, slot, rem := lat, lat, ord := c.issueNo, late := false }] }

/-- Put a drawer-load, atomic or engine result in flight, to land `rem` boundaries on, for the bundle of order `ord`
(R14, R15). -/
def Core.lateResult (c : Core) (slot : Slot) (ord rem : Nat) (w : Write) (fl : Flags := 0) : Core :=
  { c with inflight := c.inflight ++ [{ w, fl, slot, rem, lat := rem, ord, late := true }] }

/-- In-flight lockstep results (R18, R28). -/
def Core.lockstepCount (c : Core) : Nat := (c.inflight.filter (fun r => !r.late)).length

/-- One cycle of counting down for the lockstep results (R13, R17). -/
def Core.countDown (c : Core) : Core :=
  { c with inflight := c.inflight.map (fun r => if r.late then r else { r with rem := r.rem - 1 }) }

/-! ### Traps -/

/-- TRAPINFO1.SLOT (R27). -/
def slotCode : Slot → Nat
  | .h => 0
  | .s0 => 1
  | .s1 => 2
  | .c => 3
  | .v => 4
  | .l => 5
  | .z => 6
  | .m => 7
  | .k => 8
  | .n => 9
  | .none => 15

/-- The content of TRAPINFO1 for a cause (R27). -/
def Cause.info1 (k : Cause) : Word :=
  BitVec.ofNat 64 ((if k.deferred then k.opc.toNat * 2 ^ 51 else 0) + (k.qpos % 64) * 2 ^ 10 +
    (if k.deferred then 16 else 0) + slotCode k.slot)

/-- A precise cause (R24, R26). -/
def precise (slot : Slot) (code : Nat) (info : Word) : Cause :=
  { code, info, slot, deferred := false, opc := 0, qpos := 0, ord := 0, fresh := false }

/-- Reserved field value at a bundle bit (R62). -/
def badField (slot : Slot) (bit : Nat) : Cause := precise slot 0x05 (BitVec.ofNat 64 bit)

/-- The delivery of a cause to the handler (R28): trap registers written, IN set, results and redirects moved to the
snapshot buffer with the PB count, issue from TRAPVEC at cycle `gate`. Results that land at the boundary itself stay.
The management core enters system mode (R397). R23 and R73 name transfers and `eret` alone: a TRAPVEC that names a halfword
inside a literal body is fetched as an ordinary code index (`pcFrom` none; DESIGN CHOICE, log 88). The other deferred causes known at the boundary are held
while the handler runs (R25). -/
def Core.deliver (c : Core) (k : Cause) (trappc : CodeIdx) (gate : Nat) : Core :=
  { c with
    trap := { c.trap with pc := trappc, inH := true, cause := BitVec.ofNat 6 k.code, info0 := k.info, info1 := k.info1 }
    snapTrap :=
      { results := c.inflight.filter (fun r => !r.late && r.rem != 0), redirects := c.redirects, pb := c.pb }
    inflight := c.inflight.filter (fun r => r.late || r.rem == 0)
    redirects := []
    pb := 0
    stall := 0
    pc := c.trap.vec
    pcFrom := none
    pmode := if c.isMgmt then c.sysMode else c.pmode
    sysMode := if c.isMgmt then true else c.sysMode
    held := c.deferred.filter (fun k => !k.fresh)
    waitedV := 0
    waitedL := 0
    waitaRead := false
    waitaSeen := false
    fenceLate := none
    bankLeft := none
    gate := gate }

/-- Taking a trap (R28, R29): delivered when a handler is present and none runs; otherwise the core halts, keeps its trap
registers and the cause, and the gang's abort is to follow. The management core with no gang just halts (R29). -/
def State.takeTrap (s : State) (k : Cause) (gate : Nat) : State :=
  let c := s.core
  if c.trap.en && !c.trap.inH then s.setCore (c.deliver k c.pc gate)
  else
    { s.setCore { c with strand := if c.isMgmt then .coreHalt else .halted, undelivered := some k } with
      aborts := if c.isMgmt then s.aborts else s.aborts ++ [s.cur] }

/-- A precise cause of the bundle due in this cycle (R24, R28). An access refused on the tile itself also sends its
event (R323). -/
def State.trapPrecise (s : State) (k : Cause) : State :=
  let t := s.takeTrap k (s.cycle + 1)
  if k.code = 0x14 then
    t.refuse 0 (k.info.toNat / 2 ^ 48) s.core.pos.ctx.toNat s.core.pos.ctx.toNat (k.info.toNat / 2 ^ 48)
      (k.info.toNat % 2 ^ 48)
  else t

/-- Step 2 to 4 of `eret` (R125): IN cleared, the mode and the PB count restored, the snapshot replayed, issue at
TRAPPC. A redirect of the handler that is still pending goes on counting in the resumed code, and comes first where one of the
snapshot falls due at the same position; one that was due with the `eret` itself is dropped (DESIGN CHOICE, log 89). -/
def Core.resume (c : Core) : Core :=
  { c with
    trap := { c.trap with inH := false }
    sysMode := if c.isMgmt then c.pmode else c.sysMode
    pb := c.snapTrap.pb
    inflight := c.inflight ++ c.snapTrap.results
    redirects := c.redirects.filter (fun r => r.left != 0) ++ c.snapTrap.redirects
    snapTrap := { results := [], redirects := [], pb := 0 }
    eretDrain := false
    pcFrom := some c.pc
    pc := c.trap.pc }

end Sys2Proof.Machine
end

