-- ==== Sys2Proof/Machine/Message.lean ====
section
/-! DEFINITION. Messages of the management port (23 R404). -/

namespace Sys2Proof.Machine

/-! ### CRC-32C -/

/-- One bit of CRC-32C, least significant bit first. -/
def crcBit (c : BitVec 32) : BitVec 32 := if c.getLsbD 0 then (c >>> 1) ^^^ 0x82F63B78 else c >>> 1

/-- One byte of CRC-32C. -/
def crcByte (c : BitVec 32) (b : BitVec 8) : BitVec 32 :=
  (List.range 8).foldl (fun x _ => crcBit x) (c ^^^ b.setWidth 32)

/-- CRC-32C of a list of bytes (R404, R406): the Castagnoli polynomial, all ones at both ends (log 30). -/
def crc32c (bs : List (BitVec 8)) : BitVec 32 := ~~~ (bs.foldl crcByte 0xFFFFFFFF)

/-! ### Messages (R404) -/

/-- `n` bytes of a message from `i` up as a number. -/
def msgField (bs : List (BitVec 8)) (i n : Nat) : Nat := bytesNat ((bs.drop i).take n)

/-- Header, payload and CRC of a message. -/
def message (op seq arg : Nat) (payload : List (BitVec 8)) : List (BitVec 8) :=
  let h := leBytes 2 0x4D59 ++ leBytes 1 1 ++ leBytes 1 op ++ leBytes 4 seq ++ leBytes 2 payload.length ++ leBytes 2 0 ++
    leBytes 4 arg ++ payload
  h ++ leBytes 4 (crc32c h).toNat

/-- Is a datagram answered at all (R404)? -/
def goodDatagram (bs : List (BitVec 8)) : Bool :=
  decide (20 ≤ bs.length) && bs.length == 20 + msgField bs 8 2 && msgField bs 0 2 == 0x4D59 && msgField bs 2 1 == 1 &&
    msgField bs 10 2 == 0 && msgField bs (bs.length - 4) 4 == (crc32c (bs.take (bs.length - 4))).toNat

/-- A request answered: the response goes out and is kept with the last sixteen (R404). -/
def State.respond (s : State) (src op : Nat) (seq : BitVec 32) (status : Nat) (payload : List (BitVec 8)) : State :=
  let m := message (op + 0x80) seq.toNat status payload
  { s with
    outbox := s.outbox ++ [.datagram src m]
    kept := (s.kept ++ ([{ src, seq := seq.toNat, resp := m }] : List Kept)).drop (s.kept.length - 15) }

end Sys2Proof.Machine
end

