-- ==== Sys2Proof/Machine/Geometry.lean ====
section
/-! DEFINITION. Logical coordinates, fields, edge fields, port tiles and link tiles (00 R4, 10 R242, 18 R334). -/

namespace Sys2Proof.Machine

/-- TID of the logical tile (x, y) (R4). -/
def tidOf (x y : Nat) : Nat := y * 184 + x

/-- x of a tile (R4). -/
def tileX (tid : Nat) : Nat := tid % 184

/-- y of a tile (R4). -/
def tileY (tid : Nat) : Nat := tid / 184

/-- The number of logical tiles. -/
def numTiles : Nat := 184 * 184

/-- The field of a tile (R4). -/
def fieldOf (tid : Nat) : Nat := (tileY tid / 23) * 8 + tileX tid / 23

/-- The 28 edge fields, clockwise from the north-west corner (R334). -/
def edgeFields : List Nat :=
  [0, 1, 2, 3, 4, 5, 6, 7, 15, 23, 31, 39, 47, 55, 63, 62, 61, 60, 59, 58, 57, 56, 48, 40, 32, 24, 16, 8]

/-- The tile at an offset along the outer edge of field `f` (R242). -/
def edgeTile (f off : Nat) : Nat :=
  let fx := f % 8
  let fy := f / 8
  if fy = 0 then tidOf (fx * 23 + off) 0
  else if fy = 7 then tidOf (fx * 23 + off) 183
  else if fx = 0 then tidOf 0 (fy * 23 + off)
  else tidOf 183 (fy * 23 + off)

/-- The port tile of optical port `p` (R242). -/
def portTile (p : Nat) : Nat := edgeTile (edgeFields.getD (p / 2) 0) (if p % 2 = 0 then 5 else 17)

/-- The optical port of a tile, if it is a port tile (R242). -/
def portOf (tid : Nat) : Option Nat := (List.range 56).find? (fun p => portTile p == tid)

/-- The link tile of link `n` (R334). -/
def linkTile (n : Nat) : Nat := edgeTile (edgeFields.getD (n / 4) 0) (2 + 6 * (n % 4))

end Sys2Proof.Machine
end

