-- ==== Sys2Proof/Machine/Operands.lean ====
section
/-! DEFINITION. What a slot of a bundle is to the machine, and the operand forms: guards, field checks, type codes,
integer operations, lanes and masks. -/

namespace Sys2Proof.Machine

/-! ### A slot's meaning -/

/-- The meaning of one slot, in the parts that R413 handles one after the other. `wait` answers a state when the slot
holds its bundle in this cycle; `words` are the 8-byte scratchpad words it touches; `eff` is its effect. The checks of
`enc` are made whatever the guard (R62), all else only when the guard is true (R66, R101). -/
structure SlotSem where
  slot : Slot
  guard : Option (BitVec 1 × BitVec 3)
  /-- bundle bit and whether the field is as required (R62) -/
  enc : List (Nat × Bool)
  /-- registers read beside the guard, of those that can be pending (R15) -/
  reads : List PReg
  /-- the opcode is reserved on this core: no field of the slot has a meaning (R102) -/
  absent : State → Option Cause
  /-- a check fails that the description lists before the slot's own wait, so that the slot does not wait (R413) -/
  early : State → Bool
  /-- walks of shot-down handles that start in the first cycle in which the bundle is due (R162, R413) -/
  startWalks : State → State
  wait : State → Option State
  /-- a wait that begins when nothing else holds the bundle any more: the reads of `waita` (R160, R251) -/
  late : State → Option State
  words : State → List Nat
  check : State → Option Cause
  eff : State → State
  /-- a trap precise after effect (R124) -/
  after : State → Option Cause
  /-- its effect is results and redirects alone (R385) -/
  plain : Bool

/-- Is the slot's guard true (R65)? -/
def guardOn (g : Option (BitVec 1 × BitVec 3)) (c : Core) : Bool :=
  match g with
  | none => true
  | some (inv, p) => c.preg p != (inv == 1)

/-- Is the guard's predicate pending (R15)? -/
def guardPending (g : Option (BitVec 1 × BitVec 3)) (c : Core) : Bool :=
  match g with
  | none => false
  | some (_, p) => c.isPending (.p p)

/-- Of the failing checks, the one of lowest cause code, and of lowest TRAPINFO0 among equals (R25; log 12). -/
def lowestCause : List (Bool × Cause) → Option Cause
  | [] => none
  | (ok, k) :: r =>
    match ok, lowestCause r with
    | true, q => q
    | false, none => some k
    | false, some q =>
      if q.code < k.code || (q.code == k.code && q.info.toNat < k.info.toNat) then some q else some k

/-- The checks of a description that lists them, item by item: the first item that fails decides, and within an item that covers
several fields the lowest (R25; log 12). -/
def listedCause : List (List (Bool × Cause)) → Option Cause
  | [] => none
  | g :: r =>
    match lowestCause g with
    | some k => some k
    | none => listedCause r

/-- Of the failing checks, the first of the list, for the instructions whose description orders them (R25). -/
def firstCause : List (Bool × Cause) → Option Cause
  | [] => none
  | (ok, k) :: r => if ok then firstCause r else some k

/-- The lowest bundle bit of a reserved field that is not as required (R62; log 12). -/
def lowestBit : List (Nat × Bool) → Option Nat
  | [] => none
  | (bit, ok) :: r =>
    match ok, lowestBit r with
    | true, q => q
    | false, none => some bit
    | false, some q => some (min q bit)

/-- Does the slot hold its bundle in this cycle (R413 step 2)? While its guard is pending nothing says that the slot uses its
handles, so no walk starts (log 94). -/
def SlotSem.waits (m : SlotSem) (s : State) : Option State :=
  if (m.absent s).isSome then none
  else if guardPending m.guard s.core then some s
  else if !guardOn m.guard s.core then none
  else if m.early s then none
  else if m.reads.any s.core.isPending then some (m.startWalks s)
  else m.wait s

/-- Does the slot still hold its bundle when nothing else does (R413 step 2)? -/
def SlotSem.waitsLate (m : SlotSem) (s : State) : Option State :=
  if (m.absent s).isSome || !guardOn m.guard s.core || m.early s then none else m.late s

/-- The precise cause the slot raises (R413 step 3, R25). -/
def SlotSem.cause (m : SlotSem) (s : State) : Option Cause :=
  match m.absent s with
  | some k => some k
  | none =>
    match lowestBit m.enc with
    | some bit => some (badField m.slot bit)
    | none => if guardOn m.guard s.core then m.check s else none

/-- The slot's effect under its guard. -/
def SlotSem.effect (m : SlotSem) (s : State) : State := if guardOn m.guard s.core then m.eff s else s

/-- The scratchpad words the slot touches, under its guard (R150). -/
def SlotSem.touched (m : SlotSem) (s : State) : List Nat := if guardOn m.guard s.core then m.words s else []

/-- A slot that waits for nothing of its own, touches no word, raises nothing and changes nothing: the base of the
meanings below. -/
def plainSlot (slot : Slot) (guard : Option (BitVec 1 × BitVec 3)) : SlotSem :=
  { slot, guard, enc := [], reads := [], absent := fun _ => none, early := fun _ => false, startWalks := id, wait := fun _ => none
    late := fun _ => none
    words := fun _ => [], check := fun _ => none, eff := id, after := fun _ => none
    plain := match slot with | .s0 | .s1 | .c | .v | .z => true | _ => false }

/-- A change of the current core. -/
def onCore (g : Core → Core) (s : State) : State := s.setCore (g s.core)

/-- What a cycle of waiting adds to a watchdog count of the current core: nothing while a migration suspends its
context's watchdogs (R143, R160, R372). -/
def State.watchTick (s : State) : Nat := if s.wdHeld.contains s.core.pos.ctx.toNat then 0 else 1

/-! ### Integer types (R92, R104) -/

/-- The width of an integer type code. -/
def typeWidth (t : BitVec 4) : Nat := 8 <<< (t.toNat % 4)

/-- Is the type signed (.i8 to .i64)? -/
def typeSigned (t : BitVec 4) : Bool := t.toNat < 4

/-- Is the code one of the eight types? -/
def typeOk (t : BitVec 4) : Bool := t.toNat < 8

/-- A w-bit result extended to 64 bits by its type (R104). -/
def extendType (t : BitVec 4) (res : Nat) : Word :=
  if typeSigned t then BitVec.ofInt 64 (sintOf (typeWidth t) res) else BitVec.ofNat 64 (res % 2 ^ typeWidth t)

/-! ### Integer operations on w-bit values (R30, R105, R131); operands and results are below 2^w -/

/-- An integer taken modulo 2^w. -/
def wrapInt (w : Nat) (i : Int) : Nat := (i % 2 ^ w).toNat

def opAdd (w a b : Nat) : Nat := (a + b) % 2 ^ w
def opSub (w a b : Nat) : Nat := wrapInt w ((a : Int) - b)
def opMul (w a b : Nat) : Nat := a * b % 2 ^ w
/-- bits [2w−1:w] of the signed product -/
def opMulh (w a b : Nat) : Nat := wrapInt w (sintOf w a * sintOf w b / 2 ^ w)
/-- bits [2w−1:w] of the unsigned product -/
def opMulhn (w a b : Nat) : Nat := a * b / 2 ^ w
/-- signed quotient truncated toward zero; by zero all ones (R106) -/
def opDiv (w a b : Nat) : Nat := if b = 0 then 2 ^ w - 1 else wrapInt w (Int.tdiv (sintOf w a) (sintOf w b))
def opDivn (w a b : Nat) : Nat := if b = 0 then 2 ^ w - 1 else a / b
/-- the sign follows the dividend; by zero the dividend (R106) -/
def opRem (w a b : Nat) : Nat := if b = 0 then a else wrapInt w (Int.tmod (sintOf w a) (sintOf w b))
def opRemn (_w a b : Nat) : Nat := if b = 0 then a else a % b
def opAnd (_w a b : Nat) : Nat := a &&& b
def opOr (_w a b : Nat) : Nat := a ||| b
def opXor (_w a b : Nat) : Nat := a ^^^ b
/-- a AND NOT b -/
def opAndn (w a b : Nat) : Nat := a &&& (2 ^ w - 1 - b % 2 ^ w)
def opShl (w a b : Nat) : Nat := a * 2 ^ (b % w) % 2 ^ w
def opShr (w a b : Nat) : Nat := a / 2 ^ (b % w)
def opSra (w a b : Nat) : Nat := wrapInt w (sintOf w a / 2 ^ (b % w))
def opRol (w a b : Nat) : Nat := a * 2 ^ (b % w) % 2 ^ w + a / 2 ^ (w - b % w)
def opMin (w a b : Nat) : Nat := if sintOf w b < sintOf w a then b else a
def opMax (w a b : Nat) : Nat := if sintOf w a < sintOf w b then b else a
def opMinn (_w a b : Nat) : Nat := min a b
def opMaxn (_w a b : Nat) : Nat := max a b
/-- leading zero bits; w for 0 -/
def opClz (w a : Nat) : Nat := if a = 0 then w else w - 1 - a.log2
/-- trailing zero bits among the first `n` -/
def ctzFrom : Nat → Nat → Nat
  | 0, _ => 0
  | n + 1, a => if a % 2 = 1 then 0 else ctzFrom n (a / 2) + 1
/-- trailing zero bits; w for 0 -/
def opCtz (w a : Nat) : Nat := ctzFrom w a
/-- set bits among the first `n` -/
def popFrom : Nat → Nat → Nat
  | 0, _ => 0
  | n + 1, a => a % 2 + popFrom n (a / 2)
def opPopc (w a : Nat) : Nat := popFrom w a
/-- the first `n` bytes in reverse order -/
def bswapFrom : Nat → Nat → Nat
  | 0, _ => 0
  | n + 1, a => (a % 256) * 256 ^ n + bswapFrom n (a / 256)
def opBswap (w a : Nat) : Nat := bswapFrom (w / 8) a
/-- |a| modulo 2^w -/
def opAbs (w a : Nat) : Nat := wrapInt w (sintOf w a).natAbs
def opNeg (w a : Nat) : Nat := wrapInt w (-(a : Int))
/-- an integer clamped to [lo, hi] -/
def clampInt (lo hi i : Int) : Int := if i < lo then lo else if hi < i then hi else i
def opAdds (w a b : Nat) : Nat := wrapInt w (clampInt (-(2 ^ (w - 1))) (2 ^ (w - 1) - 1) (sintOf w a + sintOf w b))
def opAddsn (w a b : Nat) : Nat := wrapInt w (clampInt 0 (2 ^ w - 1) ((a : Int) + b))
def opSubs (w a b : Nat) : Nat := wrapInt w (clampInt (-(2 ^ (w - 1))) (2 ^ (w - 1) - 1) (sintOf w a - sintOf w b))
def opSubsn (w a b : Nat) : Nat := wrapInt w (clampInt 0 (2 ^ w - 1) ((a : Int) - b))

/-- Compare by codes 0 to 9 on w-bit values (R91). -/
def cmpInt (cc w a b : Nat) : Bool :=
  match cc with
  | 0 => a == b
  | 1 => a != b
  | 2 => sintOf w a < sintOf w b
  | 3 => sintOf w a ≤ sintOf w b
  | 4 => sintOf w b < sintOf w a
  | 5 => sintOf w b ≤ sintOf w a
  | 6 => a < b
  | 7 => a ≤ b
  | 8 => b < a
  | _ => b ≤ a

/-- Is this a float comparison code: eq, ne, lt, le, un (R91, R111)? -/
def fcmpOk (cc : Nat) : Bool := cc ≤ 3 || cc == 10

/-! ### Lanes and masks (R96, R128) -/

/-- The lane width of a code. -/
def laneWidth (lw : BitVec 2) : Nat := 8 <<< lw.toNat

/-- Element `i` of width `w` of a vector. -/
def lane (w : Nat) (v : Vec) (i : Nat) : Nat := v.toNat / 2 ^ (w * i) % 2 ^ w

/-- Is lane `i` of width `w` active under a mask (R128)? -/
def laneOn (w : Nat) (m : Mask) (i : Nat) : Bool := m.getLsbD (w / 8 * i)

/-- Elements `i`, `i+1`, … of width `w` packed from bit 0 up, `n` of them. -/
def packFrom (w : Nat) (g : Nat → Nat) : Nat → Nat → Nat
  | 0, _ => 0
  | n + 1, i => g i % 2 ^ w + 2 ^ w * packFrom w g n (i + 1)

/-- The vector whose lane `i` of width `w` is `g i`. -/
def packLanes (w : Nat) (g : Nat → Nat) : Vec := BitVec.ofNat 1024 (packFrom w g (1024 / w) 0)

/-- The vector of `g` on active lanes and of `old` on the others (R128). -/
def mergeLanes (w : Nat) (m : Mask) (old : Vec) (g : Nat → Nat) : Vec :=
  packLanes w (fun i => if laneOn w m i then g i else lane w old i)

/-- The flags of the active elements among `i`, …, ORed. -/
def orFlags (on : Nat → Bool) (g : Nat → Flags) : Nat → Nat → Flags
  | 0, _ => 0
  | n + 1, i => (if on i then g i else 0) ||| orFlags on g n (i + 1)

/-- The mask whose lane `i` of width `w` has all its bits equal to `g i` on active lanes and keeps `old` on the
others (R132). -/
def mergeMask (w : Nat) (m : Mask) (old : Mask) (g : Nat → Bool) : Mask :=
  BitVec.ofNat 128 (packFrom 1 (fun j =>
    let i := j / (w / 8)
    if laneOn w m i then (if g i then 1 else 0) else (if old.getLsbD j then 1 else 0)) 128 0)

end Sys2Proof.Machine
end

