-- ==== Sys2Proof/Machine/Control.lean ====
section
/-! DEFINITION. The C slot (05 R119 to R127), and what the joins of `fence` and `qfence` hold (05 R127, 07 R174). -/

namespace Sys2Proof.Machine

/-! ### Where the next bundles come from (R21, R22, R72) -/

/-- The code halfword at an index; above NCODE the loader's padding (R73). -/
def Plane.half (p : Plane) (i : CodeIdx) : BitVec 16 := Tab.getD p.code i.toNat 0xFFFE

/-- The next sequential PC (R72). -/
def Core.seqPc (c : Core) (i : CodeIdx) : CodeIdx := if c.plane.half i = 0xFFFF then i + 25 else i + 1

/-- The PC of the position after one at `i`, `n` bundles after the current one: the target of a redirect that then takes
effect, or the next sequential PC (R21). -/
def Core.posAfter (c : Core) (i : CodeIdx) (n : Nat) : CodeIdx :=
  match c.redirects.find? (fun r => r.left == n) with
  | some r => r.target
  | none => c.seqPc i

/-- ReturnIndex(): the bundle that would issue at position i + 3 (R22). -/
def Core.returnIndex (c : Core) : CodeIdx := c.posAfter (c.posAfter (c.posAfter c.pc 1) 2) 3

/-- A taken transfer: after this bundle and two more the PC becomes `target` (R21). -/
def Core.redirect (c : Core) (target : CodeIdx) : Core :=
  { c with redirects := c.redirects ++ [{ target, left := 3, src := c.pc }] }

/-! ### Transfers (R120) -/

/-- The C slot with a guard. -/
def cSlot (gi : BitVec 1) (gp : BitVec 3) (enc : List (Nat × Bool)) (check : Core → Option Cause) (eff : Core → Core) :
    SlotSem :=
  { plainSlot .c (some (gi, gp)) with
    enc := enc
    check := fun s => check s.core
    eff := onCore eff }

/-- `br` (R120). -/
def semBr (f : BrForm) : SlotSem :=
  cSlot f.gi f.gp [(240, f.z == 0)] (fun _ => none) (fun c => c.redirect (c.treg f.t))

/-- `call` (R22, R118, R120). -/
def semCall (f : BrForm) : SlotSem :=
  cSlot f.gi f.gp [(240, f.z == 0)] (fun c => if c.depth.toNat < 16 then none else some (precise .c 0x08 16))
    (fun c =>
      ((c.result .c 1 (.ras (field 0 4 c.depth) c.returnIndex) 0).result .c 1 (.depth (c.depth + 1)) 0).redirect
        (c.treg f.t))

/-- Entry `i` of the return-address store. -/
def Core.rasEntry (c : Core) (i : BitVec 4) : CodeIdx := c.ras.get i.toFin

/-- `ret` (R22, R118, R120). -/
def semRet (f : BareForm) : SlotSem :=
  cSlot f.gi f.gp [(240, f.z == 0)] (fun c => if c.depth = 0 then some (precise .c 0x09 0) else none)
    (fun c => (c.result .c 1 (.depth (c.depth - 1)) 0).redirect (c.rasEntry (field 0 4 (c.depth - 1))))

/-- `loop` (R118, R120). -/
def semLoop (f : LoopForm) : SlotSem :=
  cSlot f.gi f.gp [(240, f.z == 0)] (fun _ => none)
    (fun c =>
      let v := c.lcreg f.lc
      if v = 0 then c
      else
        let d := c.result .c 1 (.lc f.lc (v - 1)) 0
        if v = 1 then d else d.redirect (c.treg f.t))

/-! ### Waiting (R121, R122) -/

/-- `wait` (R121). -/
def semWait (f : WaitForm) : SlotSem :=
  { plainSlot .c (some (f.gi, f.gp)) with
    enc := [(260, f.z == 0)]
    wait := fun s =>
      let k := s.core.cnt
      if k.l ≤ f.l.toNat && k.s ≤ f.s.toNat && k.k ≤ f.k.toNat && k.m ≤ f.m.toNat && k.n ≤ f.n.toNat then none
      else some s }

/-- Is the tile (x, y) in a rectangle? -/
def inRect (ox oy w h tid : Nat) : Bool :=
  let x := tid % 184
  let y := tid / 184
  decide (ox ≤ x ∧ x < ox + w ∧ oy ≤ y ∧ y < oy + h) && tid != mgmtCore

/-- Does the gang hold a tile: one of its rectangle that it has not given up (R259, R297)? -/
def Gang.holds (g : Gang) (tid : Nat) : Bool := inRect g.ox g.oy g.w g.h tid && !g.left.contains tid

/-- The tiles of a rectangle, row by row: in the order of their gang index (R259). -/
def rectTiles (ox oy w h : Nat) : List Nat :=
  (List.range h).flatMap (fun j => (List.range w).map (fun i => tidOf (ox + i) (oy + j)))

/-- The tiles of a gang's rectangle. -/
def Gang.tiles (g : Gang) : List Nat := rectTiles g.ox g.oy g.w g.h

/-- W of GEOM (R290). -/
def geomW (g : Word) : Nat := (field 0 8 g).toNat
/-- H of GEOM (R290). -/
def geomH (g : Word) : Nat := (field 8 8 g).toNat

/-- The members' tiles of a launch that has its rectangle. -/
def Launch.tiles (l : Launch) : List Nat := rectTiles l.ox l.oy (geomW l.geom) (geomH l.geom)

/-- The gang that holds a tile, if one does. -/
def State.gangOf (s : State) (tid : Nat) : Option Gang := s.gangs.find? (·.holds tid)

/-- The state with gang `g.id` replaced by `g`. -/
def State.putGang (s : State) (g : Gang) : State := { s with gangs := s.gangs.map (fun x => if x.id = g.id then g else x) }

/-- An arrival with its vote on line `bl` of the current core's gang (R122, R264). -/
def State.vote (s : State) (bl : BitVec 2) (v : Bool) : State :=
  match s.gangOf s.cur with
  | none => s
  | some g =>
    let l := g.lines.get bl.toFin
    s.putGang { g with
      lines := g.lines.set bl.toFin
        { l with arrived := l.arrived ++ [(s.cur, v)], lastTid := s.cur, lastAt := s.cycle } }

/-- `sync` (R122): the vote at issue, then the wait for the release. -/
def semSync (f : SyncForm) : SlotSem :=
  { plainSlot .c (some (f.gi, f.gp)) with
    enc := [(240, f.z == 0)]
    reads := [.p f.pv]
    eff := fun s =>
      let v := s.core.preg f.pv
      let t := s.setCore { s.core with strand := .sync f.bl f.pr }
      t.vote f.bl v }

/-! ### Ending, trapping and returning (R123 to R126) -/

/-- The strand ends with this bundle (R123). -/
def Core.endStrand (c : Core) (swap : Bool) : Core := { c with strand := .ended swap, redirects := [] }

/-- `done` (R123). -/
def semDone (f : BareForm) : SlotSem := cSlot f.gi f.gp [(240, f.z == 0)] (fun _ => none) (·.endStrand false)

/-- `swap` (R123). -/
def semSwap (f : BareForm) : SlotSem := cSlot f.gi f.gp [(240, f.z == 0)] (fun _ => none) (·.endStrand true)

/-- A trap precise after effect (R124). -/
def trapSlot (f : TrapForm) (code : Nat) : SlotSem :=
  { plainSlot .c (some (f.gi, f.gp)) with
    enc := [(256, f.z == 0)]
    after := fun _ => some (precise .c code (f.imm.setWidth 64)) }

/-- `trap` (R124). -/
def semTrap (f : TrapForm) : SlotSem := trapSlot f 0x19

/-- `brk` (R124). -/
def semBrk (f : TrapForm) : SlotSem := trapSlot f 0x1A

/-- Is a command in execution failing: its cause is known when the work it had issued is over (R178)? -/
def MExec.fails (e : Option MExec) : Bool := match e with | some x => x.failed.isSome | none => false

/-- `eret` (R125): the drain begins; the strand resumes when it ends. Engines resume but for those whose cause is still
held or still to be known (R25, R178). -/
def semEret (f : BareForm) : SlotSem :=
  cSlot f.gi f.gp [(240, f.z == 0)] (fun _ => none) (fun c =>
    { c with
      eretDrain := true
      mat := { c.mat with stopped := (c.deferred ++ c.failing).any (·.slot == .m) || [c.mat.exec, c.mat.epi].any MExec.fails }
      cpy := { c.cpy with stopped := (c.deferred ++ c.failing).any (·.slot == .k) || (match c.cpy.exec with | some e => e.failed.isSome | none => false) }
      chn := { c.chn with stopped := (c.deferred ++ c.failing).any (·.slot == .n) } })

/-- System instruction in user mode, with the opcode (R102). -/
def userOnly (slot : Slot) (op : Nat) (c : Core) : Option Cause :=
  if c.inSystem then none else some (precise slot 0x1B (BitVec.ofNat 64 op))

/-- `idle` (R126, R398). -/
def semIdle (f : BareForm) : SlotSem :=
  cSlot f.gi f.gp [(240, f.z == 0)] (userOnly .c 0x0A) (fun c => { c with strand := .coreIdle })

/-- `halt` (R126). -/
def semHalt (f : BareForm) : SlotSem :=
  cSlot f.gi f.gp [(240, f.z == 0)] (userOnly .c 0x0D) (fun c => { c with strand := .coreHalt })

/-! ### Queue joins (R127) -/

/-- Has a copy a drawer side (R127)? -/
def Cmd.drawerSide (k : Cmd) : Bool :=
  let cx6 := k.stg.getD 6 0
  (match k.kind with | .kcpy | .kfill | .kdec | .kzero => true | _ => false) && (cx6.getLsbD 4 || cx6.getLsbD 9)

/-- The commands of a join's queues that have not performed, by queue bit: 0 L, 1 N, 2 K, 3 M (R127). A copy's place in L ends with
its last drawer access (R191). R127 and R172 do not say when a command of the N or M queue performs: here when it has left its
queue and its execution (DESIGN CHOICE, log 99). A triggered send is ordered at its firing: before it is no operation of the queue (R250;
DEDUCED, log 99). -/
def Core.openOps (c : Core) : Nat → List Nat
  | 0 =>
    ((c.dacc.filter (fun a => a.st != .performed && (match a.kind with | .atomic .. => false | _ => true))).map (·.ord)) ++
      ((c.cpy.queue ++ (match c.cpy.exec with | some k => if k.drawerDone then [] else [k.cmd] | none => [])).filter
        Cmd.drawerSide).map (·.ord)
  | 1 =>
    (c.chn.queue.filter (fun k => k.kind != .nsendt) ++ (match c.chn.exec with | some k => [k.cmd] | none => []) ++ c.chn.fired ++
      (match c.chn.waiting with | some k => [k] | none => [])).map (·.ord)
  | 2 => (c.cpy.queue ++ (match c.cpy.exec with | some k => [k.cmd] | none => [])).map (·.ord)
  | _ =>
    (c.mat.queue ++ (match c.mat.exec with | some k => [k.cmd] | none => []) ++
      (match c.mat.epi with | some k => [k.cmd] | none => [])).map (·.ord)

/-- The triggered sends that have not fired (R250, R254). -/
def Core.unfired (c : Core) : List Nat :=
  (c.chn.armed.map (·.ord)) ++ (c.chn.queue.filter (fun k => k.kind == .nsendt)).map (·.ord)

/-- The name of an operation in a join: its issue order and its queue. -/
def opName (queue ord : Nat) : Nat := 4 * ord + queue

/-- The name of a triggered send that a join found unfired: it is behind the join when it fires (R250). -/
def lateName (ord : Nat) : Nat := 2 ^ 64 + ord

/-- Every operation of the queues in `mask` that has not performed. -/
def Core.openIn (c : Core) (mask : BitVec 4) : List Nat :=
  ((List.range 4).filter (fun q => mask.getLsbD q)).flatMap (fun q => (c.openOps q).map (opName q))

/-- Does a `qfence` hold the operation of order `ord` in queue `q`: one it waits for has not performed (R127)? -/
def Core.qHeld (c : Core) (q ord : Nat) : Bool :=
  let now := c.openIn 15
  c.qfences.any (fun j => j.mask.getLsbD q && decide (j.ord ≤ ord) && j.waits.any now.contains)

/-- Does a `qfence` that named N hold the triggered send of order `ord`, which had not fired when it issued (R127, R250)? -/
def Core.firedHeld (c : Core) (ord : Nat) : Bool :=
  let now := c.openIn 15
  c.qfences.any (fun j => j.waits.contains (lateName ord) && j.waits.any now.contains)

/-- Does a mask name more than one queue, so that its join adds an order (R127)? -/
def joinsQueues (mask : BitVec 4) : Bool := 2 ≤ ((List.range 4).filter (fun q => mask.getLsbD q)).length

/-- `qfence`: the operations that entered before this bundle, for those of this bundle and later (R127; log 18). A mask of one
queue adds nothing to that queue's own order. -/
def semQfence (f : QfenceForm) : SlotSem :=
  cSlot f.gi f.gp [(244, f.z == 0)] (fun _ => none)
    (fun c => if !joinsQueues f.mask then c else
      let before := (c.openIn f.mask).filter (fun n => decide (n / 4 < c.issueNo))
      let late := if f.mask.getLsbD 1 then (c.unfired.filter (· < c.issueNo)).map lateName else []
      { c with qfences := c.qfences ++ [{ mask := f.mask.setWidth 16, waits := before ++ late, ord := c.issueNo }] })

end Sys2Proof.Machine
end

