-- ==== Sys2Proof/Machine/Banks.lean ====
section
/-! DEFINITION. The bank units of a scratchpad: five ports in turn, one word a cycle (07 R150, 09 R209, R210, R247); an operation on
an arrival word takes both of its words in one cycle (R239). Port 1 is the strand, 2 the matrix engine, 3 the copy engine, 4 the
channel engine with incoming deposits and arrival words, 5 the remote-access port: `kput`'s bytes, atomics, the reads of `kloc` and
those of dependences. The reply of a `kloc` is written through port 3 (R195
names no port; DESIGN CHOICE, log 100). -/

namespace Sys2Proof.Machine

/-! ### Bytes and words of the scratchpad (R150, R151, R209, R239) -/

/-- The numbers of the 8-byte words from address `a`, `n` bytes (R150). -/
def wordsOf (a n : Nat) : List Nat :=
  if n = 0 then [] else (List.range ((a + n - 1) / 8 - a / 8 + 1)).map (fun i => a / 8 + i)

/-- A store as the bytes it writes, in order. -/
abbrev ByteWrites := List (Nat × BitVec 8)

/-- The bytes of an `n`-byte little-endian value at `a`. -/
def storeAt (a : Nat) (n x : Nat) : ByteWrites := (leBytes n x).zipIdx.map (fun p => (a + p.2, p.1))

/-- Does a store write all eight bytes of a word? -/
def coversWord (bs : ByteWrites) (w : Nat) : Bool :=
  (List.range 8).all (fun i => bs.any (fun p => p.1 == 8 * w + i))

/-- Write bytes in order, clearing the poison marks of the words written whole (R151). -/
def Core.store (c : Core) (bs : ByteWrites) : Core :=
  { c with
    spad := bs.foldl (fun m p => m.write p.1 p.2) c.spad
    poison := c.poison.filter (fun w => !coversWord bs w) }

/-- The bank of word `w` (R209). -/
def bankOf (w : Nat) : Nat := w % 384

/-- The name of an arrival word for the bank units: its 8-byte words `w`, even, and `w + 1` are asked for and served as one (R239).
It falls on the bank of `w`. -/
def pairWord (w : Nat) : Nat := 3 * 2 ^ 62 + w

/-- Does a name stand for both words of an arrival word? -/
def isPair (w : Nat) : Bool := decide (3 * 2 ^ 62 ≤ w)

/-- The words that a name stands for. -/
def wordSpan (w : Nat) : List Nat := if isPair w then [w - 3 * 2 ^ 62, w - 3 * 2 ^ 62 + 1] else [w]

/-- The words of an access that is served as a whole: one, or the two halves of an aligned 16 bytes (R247). -/
def wholeWords (a n : Nat) : List Nat := if n = 16 ∧ a % 16 = 0 then [pairWord (a / 8)] else wordsOf a n

/-! ### Turns (R210) -/

/-- Whose a pending word is: the access at a place of `xfers`, or the matrix command in execution for one of its passes. -/
inductive BankDest
  | xfer (i : Nat)
  | pass (p : Nat)
deriving DecidableEq, Repr

/-- A pending word of a port. -/
structure BankWant where
  port : Nat
  word : Nat
  dest : BankDest
deriving DecidableEq, Repr

/-- Is an access one that came to the tile from outside? It is served whatever becomes of the strand. -/
def Xfer.remote (x : Xfer) : Bool := match x.owner with | .packet _ | .arrival _ | .dep .. => true | _ => false

/-- Is an access one of an engine's work under way? A frozen tile serves these alone, until its engines have come to their boundaries
(R179, R258, R370). -/
def Xfer.ofEngine (x : Xfer) : Bool := !x.remote && (match x.owner with | .trigger _ => false | _ => true)

/-- Is an access a row of `mepi` behind another one that is not written yet? Rows are written in order (R250). -/
def Core.rowBefore (c : Core) (x : Xfer) (i : Nat) : Bool :=
  x.owner == .epiRow && (c.xfers.take i).any (fun y => y.owner == .epiRow && !y.todo.isEmpty)

/-- The pending words of ports 2 to 5, the oldest accesses first. -/
def Core.bankWants (c : Core) : List BankWant :=
  c.xfers.zipIdx.flatMap (fun x =>
    if (c.frozen && !x.1.ofEngine) || c.rowBefore x.1 x.2 then [] else x.1.todo.map (fun w => ⟨x.1.port, w, .xfer x.2⟩)) ++
    (match c.mat.exec with
     | some e => e.want.map (fun q => ⟨2, q.2, .pass q.1⟩)
     | none => [])

/-- The first pending port after the one served last (R210). -/
def nextPort (last : Nat) (pending : Nat → Bool) : Option Nat :=
  ((List.range 5).map (fun i => (last + i) % 5 + 1)).find? pending

/-- The port that bank `b` serves in this cycle when the strand asks for `strand` (R210). -/
def Core.bankPort (c : Core) (strand : List Nat) (b : Nat) : Option Nat :=
  nextPort (Tab.getD c.bankLast b 5) (fun p =>
    if p = 1 then strand.any (fun w => bankOf w == b) else c.bankWants.any (fun q => q.port == p && bankOf q.word == b))

/-- The word that port `p` asks of bank `b` first. -/
def Core.portWord (c : Core) (strand : List Nat) (p b : Nat) : Option Nat :=
  if p = 1 then strand.find? (fun w => bankOf w == b)
  else (c.bankWants.find? (fun q => q.port == p && bankOf q.word == b)).map (·.word)

/-- Is bank `b` taken by an operation on an arrival word, which it shares with the bank before it (R239)? Such an operation waits for
its turn at the first of its two banks; the other then serves nothing else in that cycle (DESIGN CHOICE, log 103). -/
def Core.bankTaken (c : Core) (strand : List Nat) (b : Nat) : Bool :=
  b % 2 == 1 &&
    (match c.bankPort strand (b - 1) with
     | some p => (match c.portWord strand p (b - 1) with | some w => isPair w | none => false)
     | none => false)

/-- Of the words `left` that the strand asks for, those served in this cycle (R150). -/
def Core.strandServed (c : Core) (left : List Nat) : List Nat :=
  ((left.map bankOf).eraseDups).filterMap (fun b =>
    if c.bankPort left b = some 1 && !c.bankTaken left b then left.find? (fun w => bankOf w == b) else none)

/-- The strand has asked for words `ws` in this cycle. -/
def Core.asks (c : Core) (ws : List Nat) : Core := if ws = [] then c else { c with bankWant := ws }

/-- Word `w` of an access served: read as `old` holds it, or its bytes on their way to the boundary. -/
def Xfer.serve (x : Xfer) (old : Mem) (w : Nat) : Xfer :=
  { x with
    todo := x.todo.filter (· != w)
    got := if x.write then x.got else (wordSpan w).foldl (fun t v => Tab.put t v (BitVec.ofNat 64 (old.readN (8 * v) 8))) x.got }

/-- A pending word served (R210). -/
def Core.serveWord (c : Core) (old : Mem) (q : BankWant) : Core :=
  match q.dest with
  | .xfer i =>
    match c.xfers[i]? with
    | none => c
    | some x =>
      { c with
        xfers := c.xfers.set i (x.serve old q.word)
        landing := if x.write then c.landing ++ x.put.filter (fun p => (wordSpan q.word).contains (p.1 / 8)) else c.landing }
  | .pass p =>
    match c.mat.exec with
    | none => c
    | some e =>
      let read (t : Tab Word) : Tab Word :=
        (wordSpan q.word).foldl (fun t v => Tab.put t v (BitVec.ofNat 64 (old.readN (8 * v) 8))) t
      let e' : MExec := { e with
        want := e.want.filter (fun x => !(x.1 == p && x.2 == q.word))
        got := if e.cmd.kind == .mma then e.got else read e.got
        passes := e.passes.map (fun ps => if ps.p = p then { ps with got := read ps.got } else ps) }
      { c with mat := { c.mat with exec := some e' } }

/-- Every bank unit serves one word of this cycle (R210); `old` is the scratchpad as the cycle found it. -/
def Core.bankTurn (c : Core) (old : Mem) : Core :=
  let wants := c.bankWants
  ((wants.map (fun q => bankOf q.word) ++ c.bankWant.map bankOf).eraseDups).foldl (fun d b =>
    if c.bankTaken c.bankWant b then d
    else
      match c.bankPort c.bankWant b with
      | none => d
      | some p =>
        let both := match c.portWord c.bankWant p b with | some w => isPair w | none => false
        let e : Core := { d with bankLast := if both then Tab.put (Tab.put d.bankLast b p) (b + 1) p else Tab.put d.bankLast b p }
        if p = 1 then e
        else
          match wants.find? (fun q => q.port == p && bankOf q.word == b) with
          | some q => e.serveWord old q
          | none => e) c

/-- The boundary behind a cycle: bytes whose words were served are written (R210). -/
def Core.landWords (c : Core) : Core := { c.store c.landing with landing := [], bankWant := [] }

/-- An access to the scratchpad begun: the words that it touches become pending at its port. -/
def Core.beginXfer (c : Core) (o : XferOwner) (port : Nat) (put : ByteWrites) (words : List Nat) (write : Bool) : Core :=
  { c with xfers := c.xfers ++ [{ owner := o, port, todo := words, put, write, got := [] }] }

/-- Bytes at their places from address `a` on. -/
def bytesAt (a : Nat) (bs : List (BitVec 8)) : ByteWrites := bs.zipIdx.map (fun p => (a + p.2, p.1))

/-- Bytes to be written at their places. -/
def Core.beginWrite (c : Core) (o : XferOwner) (port : Nat) (bs : ByteWrites) : Core :=
  c.beginXfer o port bs ((bs.map (fun p => p.1 / 8)).eraseDups) true

/-- `n` bytes from `a` to be read. -/
def Core.beginRead (c : Core) (o : XferOwner) (port a n : Nat) : Core := c.beginXfer o port [] (wordsOf a n) false

/-- The accesses of an owner. -/
def Core.xfersOf (c : Core) (o : XferOwner) : List Xfer := c.xfers.filter (fun x => x.owner == o)

/-- Has an owner accesses, all of whose words are served? -/
def Core.xferDone (c : Core) (o : XferOwner) : Bool := !(c.xfersOf o).isEmpty && (c.xfersOf o).all (fun x => x.todo.isEmpty)

/-- The accesses of an owner gone. -/
def Core.endXfer (c : Core) (o : XferOwner) : Core := { c with xfers := c.xfers.filter (fun x => x.owner != o) }

/-- `n` bytes from `a` out of words that were read. -/
def wordBytes (got : Tab Word) (a : Nat) : Nat → List (BitVec 8)
  | 0 => []
  | n + 1 => BitVec.ofNat 8 ((Tab.getD got (a / 8) 0).toNat / 256 ^ (a % 8)) :: wordBytes got (a + 1) n

/-- The bytes that an owner's read has brought. -/
def Core.xferBytes (c : Core) (o : XferOwner) (a n : Nat) : List (BitVec 8) :=
  wordBytes ((c.xfersOf o).flatMap (·.got) |>.foldl (fun t e => Tab.put t e.1 e.2) []) a n

end Sys2Proof.Machine
end

