-- ==== Sys2Proof/Machine/Scalar.lean ====
section
/-! DEFINITION. The S-slot instructions 0x01 to 0x4D and 0x50 to 0x5B but for `get` and `set` (05 R103 to R117). -/

namespace Sys2Proof.Machine

/-- The slot an S instruction sits in. -/
def sSlot (s1 : Bool) : Slot := if s1 then .s1 else .s0

/-- The bundle bit of bit 0 of an S slot (R60). -/
def sBase (s1 : Bool) : Nat := if s1 then 272 else 320

/-! ### Shapes -/

/-- A form-R instruction: guard, field checks, registers read, further checks, and the result it puts in flight. -/
def rSlot (f : RForm) (enc : List (Nat × Bool)) (reads : List PReg) (check : Core → Option Cause) (lat : Nat)
    (res : Core → Write × Flags) : SlotSem :=
  { plainSlot (sSlot f.s1) (some (f.gi, f.gp)) with
    enc := enc.map (fun e => (sBase f.s1 + e.1, e.2))
    reads := reads
    check := fun s => check s.core
    eff := onCore (fun c => c.result (sSlot f.s1) lat (res c).1 (res c).2) }

/-- A form-I instruction. -/
def iSlot (f : IForm) (enc : List (Nat × Bool)) (reads : List PReg) (check : Core → Option Cause) (lat : Nat)
    (res : Core → Write × Flags) : SlotSem :=
  { plainSlot (sSlot f.s1) (some (f.gi, f.gp)) with
    enc := enc.map (fun e => (sBase f.s1 + e.1, e.2))
    reads := reads
    check := fun s => check s.core
    eff := onCore (fun c => c.result (sSlot f.s1) lat (res c).1 (res c).2) }

/-- A form-L instruction. -/
def lSlot (f : LForm) (enc : List (Nat × Bool)) (reads : List PReg) (lat : Nat) (res : Core → Write × Flags) :
    SlotSem :=
  { plainSlot (sSlot f.s1) (some (f.gi, f.gp)) with
    enc := enc.map (fun e => (sBase f.s1 + e.1, e.2))
    reads := reads
    eff := onCore (fun c => c.result (sSlot f.s1) lat (res c).1 (res c).2) }

/-- A reserved field value in an S slot at slot bit `bit`. -/
def sBad (s1 : Bool) (bit : Nat) : Cause := badField (sSlot s1) (sBase s1 + bit)

/-- A typed integer instruction of two sources (R104, R105): the type in X [3:0], X [11:4] and C zero. -/
def typed2 (f : RForm) (lat : Nat) (op : Nat → Nat → Nat → Nat) : SlotSem :=
  rSlot f [(12, f.c == 0), (4, field 4 8 f.x == 0)] [.s f.a, .s f.b]
    (fun _ => if typeOk (field 0 4 f.x) then none else some (sBad f.s1 0)) lat
    (fun c =>
      let t : BitVec 4 := field 0 4 f.x
      let w := typeWidth t
      (.s f.d (extendType t (op w ((c.sreg f.a).toNat % 2 ^ w) ((c.sreg f.b).toNat % 2 ^ w))), 0))

/-- A shift or rotate: the amount is the whole of b modulo the width (R105). -/
def typedShift (f : RForm) (op : Nat → Nat → Nat → Nat) : SlotSem :=
  rSlot f [(12, f.c == 0), (4, field 4 8 f.x == 0)] [.s f.a, .s f.b]
    (fun _ => if typeOk (field 0 4 f.x) then none else some (sBad f.s1 0)) 1
    (fun c =>
      let t : BitVec 4 := field 0 4 f.x
      let w := typeWidth t
      (.s f.d (extendType t (op w ((c.sreg f.a).toNat % 2 ^ w) (c.sreg f.b).toNat)), 0))

/-- A typed integer instruction of one source; B is unused (R105). -/
def typed1 (f : RForm) (op : Nat → Nat → Nat) : SlotSem :=
  rSlot f [(18, f.b == 0), (12, f.c == 0), (4, field 4 8 f.x == 0)] [.s f.a]
    (fun _ => if typeOk (field 0 4 f.x) then none else some (sBad f.s1 0)) 1
    (fun c =>
      let t : BitVec 4 := field 0 4 f.x
      let w := typeWidth t
      (.s f.d (extendType t (op w ((c.sreg f.a).toNat % 2 ^ w))), 0))

/-- An immediate instruction d := op a imm, with the immediate sign-extended (R107). -/
def imm2 (f : IForm) (lat : Nat) (op : Word → Word → Word) : SlotSem :=
  iSlot f [(18, f.b == 0)] [.s f.a] (fun _ => none) lat
    (fun c => (.s f.d (op (c.sreg f.a) (f.imm.signExtend 64)), 0))

/-- An immediate shift; IMM18 [17:6] is zero (R107). -/
def immShift (f : IForm) (op : Word → Nat → Word) : SlotSem :=
  iSlot f [(18, f.b == 0), (6, field 6 12 f.imm == 0)] [.s f.a] (fun _ => none) 1
    (fun c => (.s f.d (op (c.sreg f.a) (field 0 6 f.imm).toNat), 0))

/-! ### Integer arithmetic and logic, 0x01 to 0x1E (R105, R106) -/

/-- `add`: aw + bw (R105). -/
def semAdd (f : RForm) : SlotSem := typed2 f 1 opAdd

/-- `sub`: aw − bw (R105). -/
def semSub (f : RForm) : SlotSem := typed2 f 1 opSub

/-- `mul`: low w bits of aw × bw (R105). -/
def semMul (f : RForm) : SlotSem := typed2 f 3 opMul

/-- `mulh`: high w bits of the signed product (R105). -/
def semMulh (f : RForm) : SlotSem := typed2 f 3 opMulh

/-- `mulhn`: high w bits of the unsigned product (R105). -/
def semMulhn (f : RForm) : SlotSem := typed2 f 3 opMulhn

/-- `div`: signed quotient (R105). -/
def semDiv (f : RForm) : SlotSem := typed2 f 24 opDiv

/-- `divn`: unsigned quotient (R105). -/
def semDivn (f : RForm) : SlotSem := typed2 f 24 opDivn

/-- `rem`: signed remainder (R105). -/
def semRem (f : RForm) : SlotSem := typed2 f 24 opRem

/-- `remn`: unsigned remainder (R105). -/
def semRemn (f : RForm) : SlotSem := typed2 f 24 opRemn

/-- `and`: AND (R105). -/
def semAnd (f : RForm) : SlotSem := typed2 f 1 opAnd

/-- `or`: OR (R105). -/
def semOr (f : RForm) : SlotSem := typed2 f 1 opOr

/-- `xor`: XOR (R105). -/
def semXor (f : RForm) : SlotSem := typed2 f 1 opXor

/-- `andn`: aw AND NOT bw (R105). -/
def semAndn (f : RForm) : SlotSem := typed2 f 1 opAndn

/-- `min`: signed minimum (R105). -/
def semMin (f : RForm) : SlotSem := typed2 f 1 opMin

/-- `max`: signed maximum (R105). -/
def semMax (f : RForm) : SlotSem := typed2 f 1 opMax

/-- `minn`: unsigned minimum (R105). -/
def semMinn (f : RForm) : SlotSem := typed2 f 1 opMinn

/-- `maxn`: unsigned maximum (R105). -/
def semMaxn (f : RForm) : SlotSem := typed2 f 1 opMaxn

/-- `shl`: shifted left (R105). -/
def semShl (f : RForm) : SlotSem := typedShift f opShl

/-- `shr`: shifted right, logically (R105). -/
def semShr (f : RForm) : SlotSem := typedShift f opShr

/-- `sra`: shifted right, arithmetically (R105). -/
def semSra (f : RForm) : SlotSem := typedShift f opSra

/-- `rol`: shifted left, rotating (R105). -/
def semRol (f : RForm) : SlotSem := typedShift f opRol

/-- `clz`: leading zero bits (R105). -/
def semClz (f : RForm) : SlotSem := typed1 f opClz

/-- `ctz`: trailing zero bits (R105). -/
def semCtz (f : RForm) : SlotSem := typed1 f opCtz

/-- `popc`: set bits (R105). -/
def semPopc (f : RForm) : SlotSem := typed1 f opPopc

/-- `bswap`: bytes in reverse order (R105). -/
def semBswap (f : RForm) : SlotSem := typed1 f opBswap

/-- pos of `exts`, `extz` and `ins`, X [11:6] (R105). -/
def bfPos (f : RForm) : Nat := (field 6 6 f.x).toNat

/-- len of `exts`, `extz` and `ins`, X [5:0] plus 1 (R105). -/
def bfLen (f : RForm) : Nat := (field 0 6 f.x).toNat + 1

/-- pos + len above 64 is a reserved field value at X [0] (R106). -/
def bfCheck (f : RForm) : Option Cause := if bfPos f + bfLen f ≤ 64 then none else some (sBad f.s1 0)

/-- `exts`: a bit field of a, sign-extended (R105). -/
def semExts (f : RForm) : SlotSem :=
  rSlot f [(18, f.b == 0), (12, f.c == 0)] [.s f.a] (fun _ => bfCheck f) 1
    (fun c => (.s f.d (BitVec.ofInt 64 (sintOf (bfLen f) ((c.sreg f.a).toNat / 2 ^ bfPos f))), 0))

/-- `extz`: a bit field of a, zero-extended (R105). -/
def semExtz (f : RForm) : SlotSem :=
  rSlot f [(18, f.b == 0), (12, f.c == 0)] [.s f.a] (fun _ => bfCheck f) 1
    (fun c => (.s f.d (BitVec.ofNat 64 ((c.sreg f.a).toNat / 2 ^ bfPos f % 2 ^ bfLen f)), 0))

/-- `ins`: b with a bit field replaced by the low bits of a (R105). -/
def semIns (f : RForm) : SlotSem :=
  rSlot f [(12, f.c == 0)] [.s f.a, .s f.b] (fun _ => bfCheck f) 1
    (fun c =>
      let hole : Word := BitVec.ofNat 64 ((2 ^ bfLen f - 1) * 2 ^ bfPos f)
      let part : Word := BitVec.ofNat 64 ((c.sreg f.a).toNat % 2 ^ bfLen f * 2 ^ bfPos f)
      (.s f.d ((c.sreg f.b &&& ~~~hole) ||| part), 0))

/-- `sel`: a if the predicate of C [2:0] is true, else b (R105). -/
def semSel (f : RForm) : SlotSem :=
  rSlot f [(15, field 3 3 f.c == 0), (0, f.x == 0)] [.p (field 0 3 f.c), .s f.a, .s f.b] (fun _ => none) 1
    (fun c => (.s f.d (if c.preg (field 0 3 f.c) then c.sreg f.a else c.sreg f.b), 0))

/-- `lea`: a + b × 2^sh (R105). -/
def semLea (f : RForm) : SlotSem :=
  rSlot f [(12, f.c == 0), (3, field 3 9 f.x == 0)] [.s f.a, .s f.b] (fun _ => none) 1
    (fun c => (.s f.d (c.sreg f.a + c.sreg f.b <<< (field 0 3 f.x).toNat), 0))

/-! ### Immediate forms, 0x20 to 0x29 (R107) -/

/-- `addi`: a + imm (R107). -/
def semAddi (f : IForm) : SlotSem := imm2 f 1 (fun x y => x + y)

/-- `andi`: AND (R107). -/
def semAndi (f : IForm) : SlotSem := imm2 f 1 (fun x y => x &&& y)

/-- `ori`: OR (R107). -/
def semOri (f : IForm) : SlotSem := imm2 f 1 (fun x y => x ||| y)

/-- `xori`: XOR (R107). -/
def semXori (f : IForm) : SlotSem := imm2 f 1 (fun x y => x ^^^ y)

/-- `muli`: a × imm (R107). -/
def semMuli (f : IForm) : SlotSem := imm2 f 3 (fun x y => x * y)

/-- `mini`: signed minimum (R107). -/
def semMini (f : IForm) : SlotSem := imm2 f 1 (fun x y => if y.toInt < x.toInt then y else x)

/-- `maxi`: signed maximum (R107). -/
def semMaxi (f : IForm) : SlotSem := imm2 f 1 (fun x y => if x.toInt < y.toInt then y else x)

/-- `shli`: shifted left by n (R107). -/
def semShli (f : IForm) : SlotSem := immShift f (fun x n => x <<< n)

/-- `shri`: shifted right logically by n (R107). -/
def semShri (f : IForm) : SlotSem := immShift f (fun x n => x >>> n)

/-- `srai`: shifted right arithmetically by n (R107). -/
def semSrai (f : IForm) : SlotSem := immShift f (fun x n => x.sshiftRight n)

/-! ### Constants and code indices, 0x2A to 0x2E, 0x51 (R108, R113) -/

/-- `movi`: IMM30 sign-extended (R108). -/
def semMovi (f : LForm) : SlotSem := lSlot f [] [] 1 (fun _ => (.s f.d (f.imm.signExtend 64), 0))

/-- `moviz`: IMM30 zero-extended (R108). -/
def semMoviz (f : LForm) : SlotSem := lSlot f [] [] 1 (fun _ => (.s f.d (f.imm.setWidth 64), 0))

/-- `movm`: d[59:30] replaced (R108). -/
def semMovm (f : LForm) : SlotSem :=
  lSlot f [] [.s f.d] 1
    (fun c => (.s f.d (field 60 4 (c.sreg f.d) ++ f.imm ++ field 0 30 (c.sreg f.d)), 0))

/-- `movt`: d[63:60] replaced; IMM30 [29:4] zero (R108). -/
def semMovt (f : LForm) : SlotSem :=
  lSlot f [(4, field 4 26 f.imm == 0)] [.s f.d] 1
    (fun c => (.s f.d (field 0 4 f.imm ++ field 0 60 (c.sreg f.d)), 0))

/-- PC plus a signed immediate modulo 8,192 (R108, R113). -/
def pcRel (c : Core) (imm : BitVec 30) : CodeIdx := c.pc + imm.setWidth 13

/-- `addpc` (R108). -/
def semAddpc (f : LForm) : SlotSem := lSlot f [] [] 1 (fun c => (.s f.d ((pcRel c f.imm).setWidth 64), 0))

/-- `prepr`: a target register from the PC; D names t0 to t7 (R113). -/
def semPrepr (f : LForm) : SlotSem :=
  lSlot f [(33, field 3 3 f.d == 0)] [] 1 (fun c => (.t (field 0 3 f.d) (pcRel c f.imm), 0))

/-- `prep`: a target register from a scalar (R113). Of a register field with unused high bits the lowest of those is reported (R62, R103;
DESIGN CHOICE, log 123). -/
def semPrep (f : RForm) : SlotSem :=
  rSlot f [(33, field 3 3 f.d == 0), (18, f.b == 0), (12, f.c == 0), (0, f.x == 0)] [.s f.a] (fun _ => none) 1
    (fun c => (.t (field 0 3 f.d) (field 0 13 (c.sreg f.a)), 0))

/-! ### Comparisons and predicates, 0x30 to 0x38 (R109) -/

/-- The predicate destination of form P, [35:33] (R66). -/
def pdR (f : RForm) : BitVec 3 := field 3 3 f.d
/-- The predicate destination of form P with layout I (R66). -/
def pdI (f : IForm) : BitVec 3 := field 3 3 f.d

/-- `cmp` (R109): codes 0 to 9. -/
def semCmp (f : RForm) : SlotSem :=
  rSlot f [(30, field 0 3 f.d == 0), (12, f.c == 0), (4, field 4 8 f.x == 0)] [.s f.a, .s f.b]
    (fun _ => if (field 0 4 f.x).toNat ≤ 9 then none else some (sBad f.s1 0)) 1
    (fun c => (.p (pdR f) (cmpInt (field 0 4 f.x).toNat 64 (c.sreg f.a).toNat (c.sreg f.b).toNat), 0))

/-- `cmpi` (R109): the code in B [21:18]. -/
def semCmpi (f : IForm) : SlotSem :=
  iSlot f [(30, field 0 3 f.d == 0), (22, field 4 2 f.b == 0)] [.s f.a]
    (fun _ => if (field 0 4 f.b).toNat ≤ 9 then none else some (sBad f.s1 18)) 1
    (fun c => (.p (pdI f) (cmpInt (field 0 4 f.b).toNat 64 (c.sreg f.a).toNat (f.imm.signExtend 64).toNat), 0))

/-- `pand`, `por`, `pxor`: X [1] inverts the first source and X [0] the second (R109). C, which no description names, is required zero
(DESIGN CHOICE, log 96). -/
def predLogic (f : RForm) (op : Bool → Bool → Bool) : SlotSem :=
  rSlot f [(30, field 0 3 f.d == 0), (27, field 3 3 f.a == 0), (21, field 3 3 f.b == 0), (12, f.c == 0),
      (2, field 2 10 f.x == 0)]
    [.p (field 0 3 f.a), .p (field 0 3 f.b)] (fun _ => none) 1
    (fun c => (.p (pdR f)
      (op (c.preg (field 0 3 f.a) != f.x.getLsbD 1) (c.preg (field 0 3 f.b) != f.x.getLsbD 0)), 0))

/-- `pand` (R109). -/
def semPand (f : RForm) : SlotSem := predLogic f (fun x y => x && y)

/-- `por` (R109). -/
def semPor (f : RForm) : SlotSem := predLogic f (fun x y => x || y)

/-- `pxor` (R109). -/
def semPxor (f : RForm) : SlotSem := predLogic f (fun x y => x != y)

/-- `pmov` (R109). -/
def semPmov (f : RForm) : SlotSem :=
  rSlot f [(30, field 0 3 f.d == 0), (27, field 3 3 f.a == 0), (18, f.b == 0), (12, f.c == 0),
      (0, field 0 1 f.x == 0), (2, field 2 10 f.x == 0)]
    [.p (field 0 3 f.a)] (fun _ => none) 1
    (fun c => (.p (pdR f) (c.preg (field 0 3 f.a) != f.x.getLsbD 1), 0))

/-- `ptos`: 1 for true, 0 for false (R109). -/
def semPtos (f : RForm) : SlotSem :=
  rSlot f [(27, field 3 3 f.a == 0), (18, f.b == 0), (12, f.c == 0), (0, f.x == 0)] [.p (field 0 3 f.a)]
    (fun _ => none) 1 (fun c => (.s f.d (if c.preg (field 0 3 f.a) then 1 else 0), 0))

/-- `pset`: IMM18 [0] (R109). -/
def semPset (f : IForm) : SlotSem :=
  iSlot f [(30, field 0 3 f.d == 0), (24, f.a == 0), (18, f.b == 0), (1, field 1 17 f.imm == 0)] []
    (fun _ => none) 1 (fun _ => (.p (pdI f) (f.imm.getLsbD 0), 0))

/-- `ptst`: (a AND imm) ≠ 0 (R109). -/
def semPtst (f : IForm) : SlotSem :=
  iSlot f [(30, field 0 3 f.d == 0), (18, f.b == 0)] [.s f.a] (fun _ => none) 1
    (fun c => (.p (pdI f) ((c.sreg f.a &&& f.imm.signExtend 64) != 0), 0))

/-! ### Scalar floating point, 0x40 to 0x4D (R110 to R112) -/

/-- The format entry F of X [11:8]. -/
def fEnt (f : RForm) : BitVec 4 := field 8 4 f.x
/-- The rounding mode of X [7:5]. -/
def fRnd (f : RForm) : BitVec 3 := field 5 3 f.x
/-- The saturate bit X [4]. -/
def fSat (f : RForm) : Bool := f.x.getLsbD 4

/-- Use of an invalid format entry (R32). -/
def badEntry (slot : Slot) (e : Nat) : Cause := precise slot 0x07 (BitVec.ofNat 64 e)

/-- The checks of a float operation: rounding code, entry valid, of KIND 0 to 2 (R38, R32, R45). -/
def floatChecks (f : RForm) (c : Core) : List (Bool × Cause) :=
  let e := c.fmt (fEnt f)
  [((fRnd f).toNat ≤ 4, sBad f.s1 5), (fmtV e, badEntry (sSlot f.s1) (fEnt f).toNat),
    (!fmtV e || fmtIsFloat e, sBad f.s1 8)]

/-- A rounded float operation (R110): the value of a register operand is its low STORE bits, the result's code is
zero-extended. -/
def floatOp (f : RForm) (lat : Nat) (enc : List (Nat × Bool)) (reads : List PReg)
    (op : (BitVec 6 → Num) → Pre) : SlotSem :=
  rSlot f ((0, field 0 4 f.x == 0) :: enc) reads (fun c => lowestCause (floatChecks f c)) lat
    (fun c =>
      let e := c.fmt (fEnt f)
      let r := roundTo e (fRnd f) (fSat f) (op (fun q => c.decode e (c.sreg q).toNat))
      (.s f.d (BitVec.ofNat 64 r.1), r.2))

/-- `fadd` (R111). -/
def semFadd (f : RForm) : SlotSem :=
  floatOp f 4 [(12, f.c == 0)] [.s f.a, .s f.b] (fun v => preAdd (fRnd f) (v f.a) (v f.b))

/-- `fsub` (R111). -/
def semFsub (f : RForm) : SlotSem :=
  floatOp f 4 [(12, f.c == 0)] [.s f.a, .s f.b] (fun v => preAdd (fRnd f) (v f.a) (v f.b).neg)

/-- `fmul` (R111). -/
def semFmul (f : RForm) : SlotSem :=
  floatOp f 4 [(12, f.c == 0)] [.s f.a, .s f.b] (fun v => preMul (v f.a) (v f.b))

/-- `ffma` (R111). -/
def semFfma (f : RForm) : SlotSem :=
  floatOp f 4 [] [.s f.a, .s f.b, .s f.c] (fun v => preFma (fRnd f) (v f.a) (v f.b) (v f.c))

/-- `fdiv` (R111). -/
def semFdiv (f : RForm) : SlotSem :=
  floatOp f 16 [(12, f.c == 0)] [.s f.a, .s f.b] (fun v => preDiv (v f.a) (v f.b))

/-- `fsqrt` (R111). -/
def semFsqrt (f : RForm) : SlotSem :=
  floatOp f 16 [(12, f.c == 0), (18, f.b == 0)] [.s f.a] (fun v => preSqrt (v f.a))

/-- RND and SAT of an operation that does not round are zero (R90). -/
def noRound (f : RForm) : List (Nat × Bool) := [(5, fRnd f == 0), (4, !fSat f)]

/-- `fmin` and `fmax`: the chosen operand's value, written exactly (R44, R111). -/
def floatMinMax (f : RForm) (mx : Bool) : SlotSem :=
  rSlot f ((0, field 0 4 f.x == 0) :: (12, f.c == 0) :: noRound f) [.s f.a, .s f.b]
    (fun c => lowestCause (floatChecks f c)) 4
    (fun c =>
      let e := c.fmt (fEnt f)
      let r := roundTo e 0 false (minMaxNum mx (c.decode e (c.sreg f.a).toNat) (c.decode e (c.sreg f.b).toNat)).pre
      (.s f.d (BitVec.ofNat 64 r.1), r.2))

/-- `fmin` (R111). -/
def semFmin (f : RForm) : SlotSem := floatMinMax f false

/-- `fmax` (R111). -/
def semFmax (f : RForm) : SlotSem := floatMinMax f true

/-- `fcmp` (R46, R111). -/
def semFcmp (f : RForm) : SlotSem :=
  rSlot f ((30, field 0 3 f.d == 0) :: (12, f.c == 0) :: noRound f) [.s f.a, .s f.b]
    (fun c => lowestCause ((fcmpOk (field 0 4 f.x).toNat, sBad f.s1 0) :: floatChecks f c)) 4
    (fun c =>
      let e := c.fmt (fEnt f)
      let r := cmpNum (field 0 4 f.x).toNat (c.decode e (c.sreg f.a).toNat) (c.decode e (c.sreg f.b).toNat)
      (.p (pdR f) r.1, r.2))

/-- `fclass` (R111). -/
def semFclass (f : RForm) : SlotSem :=
  rSlot f ((0, field 0 4 f.x == 0) :: (18, f.b == 0) :: (12, f.c == 0) :: noRound f) [.s f.a]
    (fun c => lowestCause (floatChecks f c)) 4
    (fun c =>
      let e := c.fmt (fEnt f)
      (.s f.d (BitVec.ofNat 64 (2 ^ classNum e (c.decode e (c.sreg f.a).toNat))), 0))

/-- `fsgn`: a sign operation on codes; fn in X [1:0] (R111). -/
def semFsgn (f : RForm) : SlotSem :=
  rSlot f ((2, field 2 2 f.x == 0) :: (12, f.c == 0) :: noRound f) [.s f.a, .s f.b]
    (fun c => lowestCause (((field 0 2 f.x).toNat ≤ 2, sBad f.s1 0) :: floatChecks f c)) 4
    (fun c =>
      let e := c.fmt (fEnt f)
      let w := fmtStore e
      let a := (c.sreg f.a).toNat % 2 ^ w
      let sa := a / 2 ^ (w - 1) == 1
      let sb := (c.sreg f.b).toNat / 2 ^ (w - 1) % 2 == 1
      let s := match (field 0 2 f.x).toNat with
        | 0 => sb
        | 1 => !sb
        | _ => sa != sb
      let r := if fmtSgn e then a % 2 ^ (w - 1) + (if s then 2 ^ (w - 1) else 0) else a
      (.s f.d (BitVec.ofNat 64 r), 0))

/-- `fcvt`: D in X [11:8], S in C [3:0] (R112). -/
def semFcvt (f : RForm) : SlotSem :=
  rSlot f [(0, field 0 4 f.x == 0), (18, f.b == 0), (16, field 4 2 f.c == 0)] [.s f.a]
    (fun c =>
      let d := c.fmt (fEnt f)
      let e := c.fmt (field 0 4 f.c)
      lowestCause [((fRnd f).toNat ≤ 4, sBad f.s1 5), (fmtV d, badEntry (sSlot f.s1) (fEnt f).toNat),
        (fmtV e, badEntry (sSlot f.s1) (field 0 4 f.c).toNat), (!fmtV d || fmtKind d ≤ 4, sBad f.s1 8)]) 4
    (fun c =>
      let r := roundTo (c.fmt (fEnt f)) (fRnd f) (fSat f)
        (c.decode (c.fmt (field 0 4 f.c)) (c.sreg f.a).toNat).pre
      (.s f.d (BitVec.ofNat 64 r.1), r.2))

/-- `fcvti`: into the integer type of X [3:0], extended by R104 (R112). -/
def semFcvti (f : RForm) : SlotSem :=
  rSlot f [(18, f.b == 0), (12, f.c == 0)] [.s f.a]
    (fun c =>
      let e := c.fmt (fEnt f)
      lowestCause [((fRnd f).toNat ≤ 4, sBad f.s1 5), (typeOk (field 0 4 f.x), sBad f.s1 0),
        (fmtV e, badEntry (sSlot f.s1) (fEnt f).toNat)]) 4
    (fun c =>
      let t : BitVec 4 := field 0 4 f.x
      let w := typeWidth t
      let x := (c.decode (c.fmt (fEnt f)) (c.sreg f.a).toNat).pre
      let r := if typeSigned t then roundInt (-(2 ^ (w - 1))) (2 ^ (w - 1) - 1) (fRnd f) x
               else roundInt 0 (2 ^ w - 1) (fRnd f) x
      (.s f.d (extendType t (wrapInt w r.1)), r.2))

/-- `icvtf`: from the integer type of X [3:0] (R112). -/
def semIcvtf (f : RForm) : SlotSem :=
  rSlot f [(18, f.b == 0), (12, f.c == 0)] [.s f.a]
    (fun c =>
      let e := c.fmt (fEnt f)
      lowestCause [((fRnd f).toNat ≤ 4, sBad f.s1 5), (typeOk (field 0 4 f.x), sBad f.s1 0),
        (fmtV e, badEntry (sSlot f.s1) (fEnt f).toNat), (!fmtV e || fmtKind e ≤ 4, sBad f.s1 8)]) 4
    (fun c =>
      let t : BitVec 4 := field 0 4 f.x
      let w := typeWidth t
      let i : Int := if typeSigned t then sintOf w (c.sreg f.a).toNat else ((c.sreg f.a).toNat % 2 ^ w : Nat)
      let r := roundTo (c.fmt (fEnt f)) (fRnd f) (fSat f) (Num.ofInt i).pre
      (.s f.d (BitVec.ofNat 64 r.1), r.2))

/-! ### Format table, staging registers, loop counters and the return-address store (R115 to R117) -/

/-- `setfmt`: checked by R32 at issue (R115). -/
def semSetfmt (f : IForm) : SlotSem :=
  iSlot f [(30, f.d == 0), (18, f.b == 0), (4, field 4 14 f.imm == 0)] [.s f.a]
    (fun c =>
      let w : BitVec 32 := field 0 32 (c.sreg f.a)
      if 4 ≤ (field 0 4 f.imm).toNat && fmtLegal w then none
      else some (precise (sSlot f.s1) 0x06 (w.setWidth 64))) 1
    (fun c => (.fmt (field 0 4 f.imm) (field 0 32 (c.sreg f.a)), 0))

/-- `getfmt` (R115). -/
def semGetfmt (f : IForm) : SlotSem :=
  iSlot f [(24, f.a == 0), (18, f.b == 0), (4, field 4 14 f.imm == 0)] [] (fun _ => none) 1
    (fun c => (.s f.d ((c.fmt (field 0 4 f.imm)).setWidth 64), 0))

/-- Staging numbers 48 to 63 are reserved (R116). -/
def stgCheck (f : IForm) : Option Cause := if (field 0 6 f.imm).toNat < 48 then none else some (sBad f.s1 0)

/-- `stg` (R116). -/
def semStg (f : IForm) : SlotSem :=
  iSlot f [(30, f.d == 0), (18, f.b == 0), (6, field 6 12 f.imm == 0)] [.s f.a] (fun _ => stgCheck f) 1
    (fun c => (.stg (field 0 6 f.imm) (c.sreg f.a), 0))

/-- `gtg` (R116). -/
def semGtg (f : IForm) : SlotSem :=
  iSlot f [(24, f.a == 0), (18, f.b == 0), (6, field 6 12 f.imm == 0)] [] (fun _ => stgCheck f) 1
    (fun c => (.s f.d (c.stgReg (field 0 6 f.imm)), 0))

/-- `lcset`: D names the counter (R117). -/
def semLcset (f : IForm) : SlotSem :=
  iSlot f [(32, field 2 4 f.d == 0), (18, f.b == 0), (0, f.imm == 0)] [.s f.a] (fun _ => none) 1
    (fun c => (.lc (field 0 2 f.d) (field 0 32 (c.sreg f.a)), 0))

/-- `lcget`: A names the counter (R117). -/
def semLcget (f : IForm) : SlotSem :=
  iSlot f [(26, field 2 4 f.a == 0), (18, f.b == 0), (0, f.imm == 0)] [] (fun _ => none) 1
    (fun c => (.s f.d ((c.lcreg (field 0 2 f.a)).setWidth 64), 0))

/-- `rasrd` (R117). IMM18 [17:4] is required zero (DESIGN CHOICE, log 96), in `raswr` too. -/
def semRasrd (f : IForm) : SlotSem :=
  iSlot f [(24, f.a == 0), (18, f.b == 0), (4, field 4 14 f.imm == 0)] [] (fun _ => none) 1
    (fun c => (.s f.d ((c.ras.get (field 0 4 f.imm).toFin).setWidth 64), 0))

/-- `raswr` (R117). -/
def semRaswr (f : IForm) : SlotSem :=
  iSlot f [(30, f.d == 0), (18, f.b == 0), (4, field 4 14 f.imm == 0)] [.s f.a] (fun _ => none) 1
    (fun c => (.ras (field 0 4 f.imm) (field 0 13 (c.sreg f.a)), 0))

end Sys2Proof.Machine
end

