-- ==== Sys2Proof/Machine/Vector.lean ====
section
/-! DEFINITION. The V-slot instructions (06 R128 to R145). -/

namespace Sys2Proof.Machine

/-! ### Operands and field checks -/

/-- The scalar named in [20:15] (R68). -/
def vScalar (f : VForm) : BitVec 6 := field 15 6 f.fn

/-- SB: the scalar replaces vb (R129). -/
def vSb (f : VForm) : Bool := f.sb == 1

/-- The lane width (R128). -/
def vw (f : VForm) : Nat := laneWidth f.lw

/-- The number of lanes (R128). -/
def vn (f : VForm) : Nat := 1024 / vw f

/-- Lane `i` of the vb operand: the scalar's low bits with SB = 1 (R129). -/
def vbLane (f : VForm) (c : Core) (i : Nat) : Nat :=
  if vSb f then (c.sreg (vScalar f)).toNat % 2 ^ vw f else lane (vw f) (c.vreg f.vb) i

/-- Lane `i` of va. -/
def vaLane (f : VForm) (c : Core) (i : Nat) : Nat := lane (vw f) (c.vreg f.va) i

/-- The registers of the vb operand. -/
def vbReads (f : VForm) : List PReg := if vSb f then [.s (vScalar f)] else [.v f.vb]

/-- A masked instruction reads its destination (R128). -/
def vdReads (f : VForm) : List PReg := if f.mg = 0 then [] else [.v f.vd]

/-- FMT, RND and SAT zero (R95). -/
def zeroFrs (f : VForm) : List (Nat × Bool) := [(224, f.fmt == 0), (221, f.rnd == 0), (220, f.sat == 0)]

/-- A function field whose used low bits are `lo` in number: with a vb operand the bits above them are zero up to the
scalar of SB = 1 (R62). R131 and R133 require only [14:0] zero, and R68 leaves [20:15] to the function field: that those six are
zero too when SB = 0, as bits without a use, is the model's choice (DESIGN CHOICE, log 96). -/
def fnUnused (f : VForm) (lo : Nat) : Nat × Bool :=
  (176 + lo, f.fn.toNat % (if vSb f then 2 ^ 15 else 2 ^ 21) / 2 ^ lo == 0)

/-- The vb operand's fields: VB zero with SB = 1 (R68). -/
def vbField (f : VForm) : Nat × Bool := (203, !vSb f || f.vb == 0)

/-- No vb operand: VB and SB zero (R95). -/
def noVb (f : VForm) : List (Nat × Bool) := [(203, f.vb == 0), (197, f.sb == 0)]

/-- A V instruction that puts one result in flight. -/
def vSlot (_f : VForm) (enc : List (Nat × Bool)) (reads : List PReg) (check : Core → Option Cause) (lat : Nat)
    (res : Core → Write × Flags) : SlotSem :=
  { plainSlot .v none with
    enc := enc
    reads := reads
    check := fun s => check s.core
    eff := onCore (fun c => c.result .v lat (res c).1 (res c).2) }

/-- The merged result vd of a lane function (R128). -/
def vdMerge (f : VForm) (c : Core) (g : Nat → Nat) : Write :=
  .v f.vd (mergeLanes (vw f) (c.mreg f.mg) (c.vreg f.vd) g)

/-- Is lane `i` active under MG? -/
def vOn (f : VForm) (c : Core) (i : Nat) : Bool := laneOn (vw f) (c.mreg f.mg) i

/-- A reserved field value in the V slot at a bundle bit. -/
def vBad (bit : Nat) : Cause := badField .v bit

/-! ### Integer and logic instructions (R131, R132) -/

/-- An integer instruction of two sources. -/
def vInt2 (f : VForm) (op : Nat → Nat → Nat → Nat) : SlotSem :=
  vSlot f (zeroFrs f ++ [vbField f, (198, f.vc == 0), fnUnused f 0]) (.v f.va :: vbReads f ++ vdReads f)
    (fun _ => none) 2
    (fun c => (vdMerge f c (fun i => op (vw f) (vaLane f c i) (vbLane f c i)), 0))

/-- An integer instruction of one source; VB and SB are zero. -/
def vInt1 (f : VForm) (op : Nat → Nat → Nat) : SlotSem :=
  vSlot f (zeroFrs f ++ noVb f ++ [(198, f.vc == 0), (176, f.fn == 0)]) (.v f.va :: vdReads f)
    (fun _ => none) 2 (fun c => (vdMerge f c (fun i => op (vw f) (vaLane f c i)), 0))

/-- `vadd` (R131). -/
def semVadd (f : VForm) : SlotSem := vInt2 f opAdd

/-- `vsub` (R131). -/
def semVsub (f : VForm) : SlotSem := vInt2 f opSub

/-- `vmul` (R131). -/
def semVmul (f : VForm) : SlotSem := vInt2 f opMul

/-- `vmulh` (R131). -/
def semVmulh (f : VForm) : SlotSem := vInt2 f opMulh

/-- `vmulhn` (R131). -/
def semVmulhn (f : VForm) : SlotSem := vInt2 f opMulhn

/-- `vmin` (R131). -/
def semVmin (f : VForm) : SlotSem := vInt2 f opMin

/-- `vmax` (R131). -/
def semVmax (f : VForm) : SlotSem := vInt2 f opMax

/-- `vminn` (R131). -/
def semVminn (f : VForm) : SlotSem := vInt2 f opMinn

/-- `vmaxn` (R131). -/
def semVmaxn (f : VForm) : SlotSem := vInt2 f opMaxn

/-- `vand` (R131). -/
def semVand (f : VForm) : SlotSem := vInt2 f opAnd

/-- `vor` (R131). -/
def semVor (f : VForm) : SlotSem := vInt2 f opOr

/-- `vxor` (R131). -/
def semVxor (f : VForm) : SlotSem := vInt2 f opXor

/-- `vandn` (R131). -/
def semVandn (f : VForm) : SlotSem := vInt2 f opAndn

/-- `vshl` (R131). -/
def semVshl (f : VForm) : SlotSem := vInt2 f opShl

/-- `vshr` (R131). -/
def semVshr (f : VForm) : SlotSem := vInt2 f opShr

/-- `vsra` (R131). -/
def semVsra (f : VForm) : SlotSem := vInt2 f opSra

/-- `vadds` (R131). -/
def semVadds (f : VForm) : SlotSem := vInt2 f opAdds

/-- `vaddsn` (R131). -/
def semVaddsn (f : VForm) : SlotSem := vInt2 f opAddsn

/-- `vsubs` (R131). -/
def semVsubs (f : VForm) : SlotSem := vInt2 f opSubs

/-- `vsubsn` (R131). -/
def semVsubsn (f : VForm) : SlotSem := vInt2 f opSubsn

/-- `vabs` (R131). -/
def semVabs (f : VForm) : SlotSem := vInt1 f opAbs

/-- `vneg` (R131). -/
def semVneg (f : VForm) : SlotSem := vInt1 f opNeg

/-- `vclz` (R131). -/
def semVclz (f : VForm) : SlotSem := vInt1 f opClz

/-- `vpopc` (R131). -/
def semVpopc (f : VForm) : SlotSem := vInt1 f opPopc

/-- `vsel`: a where the mask of VC [3:0] is set, else b (R132). -/
def semVsel (f : VForm) : SlotSem :=
  vSlot f (zeroFrs f ++ [vbField f, (202, field 4 1 f.vc == 0), fnUnused f 0]) (.v f.va :: vbReads f ++ vdReads f)
    (fun _ => none) 2
    (fun c => (vdMerge f c (fun i =>
      if laneOn (vw f) (c.mreg (field 0 4 f.vc)) i then vaLane f c i else vbLane f c i), 0))

/-- `vcmp`: codes 0 to 9 into the mask of VD [3:0] (R132). -/
def semVcmp (f : VForm) : SlotSem :=
  vSlot f (zeroFrs f ++ [vbField f, (217, field 4 1 f.vd == 0), (198, f.vc == 0), fnUnused f 4])
    (.v f.va :: vbReads f)
    (fun _ => if (field 0 4 f.fn).toNat ≤ 9 then none else some (vBad 176)) 2
    (fun c =>
      let md : BitVec 4 := field 0 4 f.vd
      (.m md (mergeMask (vw f) (c.mreg f.mg) (c.mreg md)
        (fun i => cmpInt (field 0 4 f.fn).toNat (vw f) (vaLane f c i) (vbLane f c i))), 0))

/-! ### Floating-point instructions (R133, R134) -/

/-- The checks of a float entry in FMT: valid, KIND 0 to 2, and then LW its storage width (R25, R32, R45, R133). -/
def vFloatChecks (f : VForm) (c : Core) : List (Bool × Cause) :=
  let e := c.fmt f.fmt
  [(f.rnd.toNat ≤ 4, vBad 221), (fmtV e, badEntry .v f.fmt.toNat), (!fmtV e || fmtIsFloat e, vBad 224),
    (!(fmtV e && fmtIsFloat e) || vw f == fmtStore e, vBad 218)]

/-- A float instruction whose active lanes each answer a code and flags. -/
def vFloat (f : VForm) (lat : Nat) (enc : List (Nat × Bool)) (reads : List PReg) (more : Core → List (Bool × Cause))
    (g : Core → Nat → Nat × Flags) : SlotSem :=
  vSlot f enc (reads ++ vdReads f) (fun c => lowestCause (more c ++ vFloatChecks f c)) lat
    (fun c => (vdMerge f c (fun i => (g c i).1), orFlags (vOn f c) (fun i => (g c i).2) (vn f) 0))

/-- A rounded operation of two sources. -/
def vFloat2 (f : VForm) (lat : Nat) (op : Num → Num → Pre) : SlotSem :=
  vFloat f lat [vbField f, (198, f.vc == 0), fnUnused f 0] (.v f.va :: vbReads f) (fun _ => [])
    (fun c i =>
      let e := c.fmt f.fmt
      roundTo e f.rnd (f.sat == 1) (op (c.decode e (vaLane f c i)) (c.decode e (vbLane f c i))))

/-- A rounded operation of one source. -/
def vFloat1 (f : VForm) (lat : Nat) (op : Num → Pre) : SlotSem :=
  vFloat f lat (noVb f ++ [(198, f.vc == 0), (176, f.fn == 0)]) [.v f.va] (fun _ => [])
    (fun c i =>
      let e := c.fmt f.fmt
      roundTo e f.rnd (f.sat == 1) (op (c.decode e (vaLane f c i))))

/-- `vfadd` (R133). -/
def semVfadd (f : VForm) : SlotSem := vFloat2 f 4 (preAdd f.rnd)

/-- `vfsub` (R133). -/
def semVfsub (f : VForm) : SlotSem := vFloat2 f 4 (fun a b => preAdd f.rnd a b.neg)

/-- `vfmul` (R133). -/
def semVfmul (f : VForm) : SlotSem := vFloat2 f 4 preMul

/-- `vfma`: one rounding (R133). -/
def semVfma (f : VForm) : SlotSem :=
  vFloat f 4 [vbField f, fnUnused f 0] (.v f.va :: .v f.vc :: vbReads f) (fun _ => [])
    (fun c i =>
      let e := c.fmt f.fmt
      roundTo e f.rnd (f.sat == 1) (preFma f.rnd (c.decode e (vaLane f c i)) (c.decode e (vbLane f c i))
        (c.decode e (lane (vw f) (c.vreg f.vc) i))))

/-- `vfmin` and `vfmax`: RND is checked and SAT ignored (R133). -/
def vMinMax (f : VForm) (mx : Bool) : SlotSem :=
  vFloat f 4 [vbField f, (198, f.vc == 0), fnUnused f 0] (.v f.va :: vbReads f) (fun _ => [])
    (fun c i =>
      let e := c.fmt f.fmt
      roundTo e 0 false (minMaxNum mx (c.decode e (vaLane f c i)) (c.decode e (vbLane f c i))).pre)

/-- `vfmin` (R133). -/
def semVfmin (f : VForm) : SlotSem := vMinMax f false

/-- `vfmax` (R133). -/
def semVfmax (f : VForm) : SlotSem := vMinMax f true

/-- `vfdiv` (R133). -/
def semVfdiv (f : VForm) : SlotSem := vFloat2 f 12 preDiv

/-- `vfsqrt` (R133). -/
def semVfsqrt (f : VForm) : SlotSem := vFloat1 f 12 preSqrt

/-- `vfexp2` (R133). -/
def semVfexp2 (f : VForm) : SlotSem := vFloat1 f 12 preExp2

/-- `vflog2` (R133). -/
def semVflog2 (f : VForm) : SlotSem := vFloat1 f 12 preLog2

/-- `vfrcp` (R133). -/
def semVfrcp (f : VForm) : SlotSem := vFloat1 f 12 preRcp

/-- `vfrsq` (R133). -/
def semVfrsq (f : VForm) : SlotSem := vFloat1 f 12 preRsq

/-- RND and SAT zero (R95). -/
def zeroRs (f : VForm) : List (Nat × Bool) := [(221, f.rnd == 0), (220, f.sat == 0)]

/-- A sign operation on codes. -/
def vSignOp (f : VForm) (more : Core → List (Bool × Cause)) (g : BitVec 32 → Nat → Nat) : SlotSem :=
  vFloat f 4 (zeroRs f ++ noVb f ++ [(198, f.vc == 0), (176, f.fn == 0)]) [.v f.va] more
    (fun c i => (g (c.fmt f.fmt) (vaLane f c i), 0))

/-- `vfabs`: the sign bit cleared (R134). -/
def semVfabs (f : VForm) : SlotSem :=
  vSignOp f (fun _ => []) (fun e a => if fmtSgn e then a % 2 ^ (fmtStore e - 1) else a)

/-- `vfneg`: the sign bit inverted; a format without sign is a reserved field value (R134). -/
def semVfneg (f : VForm) : SlotSem :=
  vSignOp f (fun c => let e := c.fmt f.fmt; [(!fmtV e || !fmtIsFloat e || fmtSgn e, vBad 224)])
    (fun e a => opXor 0 a (2 ^ (fmtStore e - 1)))

/-- `vfcmp` (R46, R134). -/
def semVfcmp (f : VForm) : SlotSem :=
  vSlot f (zeroRs f ++ [vbField f, (217, field 4 1 f.vd == 0), (198, f.vc == 0), fnUnused f 4])
    (.v f.va :: vbReads f)
    (fun c => lowestCause ((fcmpOk (field 0 4 f.fn).toNat, vBad 176) :: vFloatChecks f c)) 4
    (fun c =>
      let e := c.fmt f.fmt
      let md : BitVec 4 := field 0 4 f.vd
      let g := fun i => cmpNum (field 0 4 f.fn).toNat (c.decode e (vaLane f c i)) (c.decode e (vbLane f c i))
      (.m md (mergeMask (vw f) (c.mreg f.mg) (c.mreg md) (fun i => (g i).1)),
        orFlags (vOn f c) (fun i => (g i).2) (vn f) 0))

/-- `vfclass`: the class number of `fclass` (R134). -/
def semVfclass (f : VForm) : SlotSem :=
  vSignOp f (fun _ => []) (fun e a => classNum e (decodeFloat e a))

/-! ### Conversions and quantisation (R135, R136) -/

/-- The entry S of FN [3:0]. -/
def cvS (f : VForm) : BitVec 4 := field 0 4 f.fn
/-- PART, FN [7:5]. -/
def cvPart (f : VForm) : Nat := (field 5 3 f.fn).toNat

/-- The checks of R135, in its order: KIND 5 of D, an invalid entry, LW, PART. -/
def cvChecks (f : VForm) (c : Core) : List (Bool × Cause) :=
  let d := c.fmt f.fmt
  let s := c.fmt (cvS f)
  let ok := fmtV d && fmtV s
  let wide := max (fmtStore d) (fmtStore s)
  [(f.rnd.toNat ≤ 4, vBad 221), (!fmtV d || fmtKind d ≤ 4, vBad 224),
    (fmtV d, badEntry .v f.fmt.toNat), (fmtV s, badEntry .v (cvS f).toNat),
    (!ok || (vw f == wide && 8 ≤ wide && wide ≤ 32), vBad 218),
    (!ok || cvPart f < wide / min (fmtStore d) (fmtStore s), vBad 181)]

/-- Does a conversion leave bits of vd, so that it reads vd: under a mask, or writing one segment of several (R135)? -/
def cvKeeps (f : VForm) (c : Core) : Bool :=
  f.mg != 0 || decide (fmtStore (c.fmt f.fmt) < fmtStore (c.fmt (cvS f)))

/-- The result of a conversion: element i of the source segment through `g` into element i of the destination segment (R135). -/
def cvResult (f : VForm) (g : Core → Nat → Num → Pre) (c : Core) : Write × Flags :=
  let d := c.fmt f.fmt
  let s := c.fmt (cvS f)
  let wd := fmtStore d
  let ws := fmtStore s
  let wide := max wd ws
  let n := 1024 / wide
  let m := c.mreg f.mg
  let src := fun i => if ws < wd then cvPart f * n + i else i
  let first := if wd < ws then cvPart f * n else 0
  let out := fun i =>
    roundTo d f.rnd (f.sat == 1) (g c i (c.decode s (lane ws (c.vreg f.va) (src i))))
  (.v f.vd (packLanes wd (fun k =>
    if first ≤ k && k < first + n && laneOn wide m (k - first) then (out (k - first)).1
    else lane wd (c.vreg f.vd) k)),
    orFlags (laneOn wide m) (fun i => (out i).2) n 0)

/-- A conversion (R135, R136). -/
def vConv (f : VForm) (enc : List (Nat × Bool)) (reads : List PReg) (g : Core → Nat → Num → Pre) : SlotSem :=
  { vSlot f enc (.v f.va :: reads) (fun c => firstCause (cvChecks f c)) 4 (cvResult f g) with
    wait := fun s => if cvKeeps f s.core && s.core.isPending (.v f.vd) then some s else none }

/-- The scale of element `i` for `vqnt` and `vdqnt`: FP32, from the scalar or from lane i div (n ÷ 32) of vb (R136). -/
def cvScale (f : VForm) (c : Core) (i : Nat) : Num :=
  let n := 1024 / max (fmtStore (c.fmt f.fmt)) (fmtStore (c.fmt (cvS f)))
  decodeFloat fmtFp32
    (if vSb f then (c.sreg (vScalar f)).toNat % 2 ^ 32 else lane 32 (c.vreg f.vb) (i / (n / 32)))

/-- `vcvt` (R136). -/
def semVcvt (f : VForm) : SlotSem :=
  vConv f (noVb f ++ [(198, f.vc == 0), (180, field 4 1 f.fn == 0), (184, field 8 13 f.fn == 0)]) []
    (fun _ _ x => x.pre)

/-- `vqnt`: the exact quotient, rounded once (R50, R136). -/
def semVqnt (f : VForm) : SlotSem :=
  vConv f [vbField f, (198, f.vc == 0), (180, field 4 1 f.fn == 0), fnUnused f 8] (vbReads f)
    (fun c i x => preDiv x (cvScale f c i))

/-- `vdqnt`: the exact product, rounded once (R50, R136). -/
def semVdqnt (f : VForm) : SlotSem :=
  vConv f [vbField f, (198, f.vc == 0), (180, field 4 1 f.fn == 0), fnUnused f 8] (vbReads f)
    (fun c i x => preMul x (cvScale f c i))

/-! ### Reductions (R51, R137) -/

/-- One level of the tree: neighbours combined. -/
def pairUp {α : Type} (g : α → α → α) : List α → List α
  | a :: b :: r => g a b :: pairUp g r
  | l => l

/-- `levels` levels of the tree. -/
def treeFold {α : Type} (g : α → α → α) : Nat → List α → List α
  | 0, l => l
  | n + 1, l => treeFold g n (pairUp g l)

/-- A node of a float tree: a code, or nothing for the identity, and the flags below it. -/
abbrev RNode := Option Nat × Flags

/-- Combine of two float nodes: an identity of both is the identity, and so is one that the operation answers with, which raises
no flag (R51). `mx`: the operation is the maximum, which answers with the identity beside a NaN (R44). -/
def rCombine (mx : Bool) (ident : Num) (dec : Nat → Num) (g : Num → Num → Nat × Flags) (a b : RNode) : RNode :=
  match a.1, b.1 with
  | none, none => (none, a.2 ||| b.2)
  | none, some y =>
    if mx && (dec y).isNan then (none, a.2 ||| b.2)
    else
      let r := g ident (dec y)
      (some r.1, a.2 ||| b.2 ||| r.2)
  | some x, none =>
    if mx && (dec x).isNan then (none, a.2 ||| b.2)
    else
      let r := g (dec x) ident
      (some r.1, a.2 ||| b.2 ||| r.2)
  | some x, some y =>
    let r := g (dec x) (dec y)
    (some r.1, a.2 ||| b.2 ||| r.2)

/-- A float reduction: the tree over the active lanes, its root in lane 0 and zeros above (R51, R137). -/
def vFloatRed (f : VForm) (mx : Bool) (ident : Num) (root : BitVec 32 → Nat) (g : BitVec 32 → Num → Num → Nat × Flags) :
    SlotSem :=
  vSlot f (noVb f ++ [(198, f.vc == 0), (176, f.fn == 0)]) [.v f.va] (fun c => lowestCause (vFloatChecks f c)) 6
    (fun c =>
      let e := c.fmt f.fmt
      let leaves : List RNode :=
        (List.range (vn f)).map (fun i => (if vOn f c i then some (vaLane f c i) else none, 0))
      let top := ((treeFold (rCombine mx ident (c.decode e) (g e)) (vn f).log2 leaves).head?).getD (none, 0)
      (.v f.vd (BitVec.ofNat 1024 (top.1.getD (root e))), top.2))

/-- `vfredadd` (R137): identity −0. -/
def semVfredadd (f : VForm) : SlotSem :=
  vFloatRed f false (.zero true) (fun e => encodeFloat e (.zero true))
    (fun e a b => roundTo e f.rnd (f.sat == 1) (preAdd f.rnd a b))

/-- `vfredmax` (R137): identity −∞, which a format without infinities or without sign writes as its most negative
finite value. -/
def semVfredmax (f : VForm) : SlotSem :=
  vFloatRed f true (.inf true)
    (fun e =>
      let t := fmtTarget e
      if !fmtSgn e then 0
      else if fmtKind e == 0 then encodeFloat e (.inf true) else encodeFloat e (.fin true t.maxM t.maxE))
    (fun e a b => roundTo e 0 false (minMaxNum true a b).pre)

/-- An integer reduction; FN [0] = 1 is unsigned (R137). -/
def vIntRed (f : VForm) (enc : List (Nat × Bool)) (ident : Nat) (g : Nat → Nat → Nat) : SlotSem :=
  vSlot f (enc ++ noVb f ++ [(198, f.vc == 0), (177, field 1 20 f.fn == 0)]) [.v f.va] (fun _ => none) 6
    (fun c =>
      let leaves := (List.range (vn f)).map (fun i => if vOn f c i then vaLane f c i else ident)
      (.v f.vd (BitVec.ofNat 1024 (((treeFold g (vn f).log2 leaves).head?).getD 0)), 0))

/-- `vredadd`: wrapping, or clamped at every node with SAT (R137). -/
def semVredadd (f : VForm) : SlotSem :=
  vIntRed f [(224, f.fmt == 0), (221, f.rnd == 0)] 0
    (fun a b =>
      if f.sat == 1 then (if f.fn.getLsbD 0 then opAddsn (vw f) a b else opAdds (vw f) a b) else opAdd (vw f) a b)

/-- `vredmax` (R137). -/
def semVredmax (f : VForm) : SlotSem :=
  vIntRed f (zeroFrs f) (if f.fn.getLsbD 0 then 0 else 2 ^ (vw f - 1))
    (fun a b => if f.fn.getLsbD 0 then opMaxn (vw f) a b else opMax (vw f) a b)

/-! ### Moves, permutes and slides (R138) -/

/-- A move whose active lanes take `g`. -/
def vMove (f : VForm) (enc : List (Nat × Bool)) (reads : List PReg) (check : Option Cause)
    (g : Core → Nat → Nat) : SlotSem :=
  vSlot f (zeroFrs f ++ enc) (reads ++ vdReads f) (fun _ => check) 2 (fun c => (vdMerge f c (g c), 0))

/-- `vmov` (R138). -/
def semVmov (f : VForm) : SlotSem :=
  vMove f (noVb f ++ [(198, f.vc == 0), (176, f.fn == 0)]) [.v f.va] none (fun c i => vaLane f c i)

/-- A lane number in FN [6:0]. -/
def vIdx (f : VForm) : Nat := (field 0 7 f.fn).toNat

/-- A lane number at or above n is a reserved field value at bit 176 (R138). -/
def idxCheck (f : VForm) : Option Cause := if vIdx f < vn f then none else some (vBad 176)

/-- `vsplat`: a lane of vb, or a scalar (R138). -/
def semVsplat (f : VForm) : SlotSem :=
  vMove f [vbField f, (208, f.va == 0), (198, f.vc == 0), fnUnused f 7, (176, !vSb f || field 0 7 f.fn == 0)]
    (vbReads f) (if vSb f then none else idxCheck f) (fun c _ => vbLane f c (vIdx f))

/-- `vsplati` (R138). -/
def semVsplati (f : VForm) : SlotSem :=
  vMove f (noVb f ++ [(208, f.va == 0), (198, f.vc == 0), (192, field 16 5 f.fn == 0)]) [] none
    (fun _ _ => wrapInt (vw f) (field 0 16 f.fn).toInt)

/-- `vextr`: a lane to a scalar register (R138). -/
def semVextr (f : VForm) : SlotSem :=
  vSlot f (zeroFrs f ++ noVb f ++
      [(228, f.mg == 0), (213, f.vd == 0), (198, f.vc == 0), (184, field 8 7 f.fn == 0)])
    [.v f.va] (fun _ => idxCheck f) 2
    (fun c =>
      let x := vaLane f c (vIdx f)
      (.s (vScalar f) (if f.fn.getLsbD 7 then BitVec.ofInt 64 (sintOf (vw f) x) else BitVec.ofNat 64 x), 0))

/-- `vinsr`: one lane replaced (R138). -/
def semVinsr (f : VForm) : SlotSem :=
  vSlot f (zeroFrs f ++ noVb f ++ [(208, f.va == 0), (198, f.vc == 0), (183, field 7 8 f.fn == 0)])
    [.s (vScalar f), .v f.vd] (fun _ => idxCheck f) 2
    (fun c =>
      (.v f.vd (packLanes (vw f) (fun i =>
        if i == vIdx f && vOn f c i then (c.sreg (vScalar f)).toNat % 2 ^ vw f
        else lane (vw f) (c.vreg f.vd) i)), 0))

/-- A permutation by the lanes of vb, over va, or over va and vc (R138). -/
def vPermute (f : VForm) (two : Bool) : SlotSem :=
  vMove f [vbField f, (198, two || f.vc == 0), fnUnused f 1]
    (.v f.va :: (if two then [.v f.vc] else []) ++ vbReads f) none
    (fun c i =>
      let j := vbLane f c i % (if two then 2 * vn f else vn f)
      if j < vn f then vaLane f c j else lane (vw f) (c.vreg f.vc) (j - vn f))

/-- `vperm`: T2 is FN [0] (R138). -/
def semVperm (f : VForm) : SlotSem := vPermute f (f.fn.getLsbD 0)

/-- `vperm2`: 0x45 with T2 = 1 (R138). -/
def semVperm2 (f : VForm) : SlotSem := vPermute f true

/-- The pattern of `vshuf`. -/
def shufPat (f : VForm) : Nat := (field 0 3 f.fn).toNat

/-- `vshuf` (R138): zip low, zip high, even, odd, swap pairs. -/
def semVshuf (f : VForm) : SlotSem :=
  vMove f [(203, !(vSb f || shufPat f == 4) || f.vb == 0), (197, shufPat f != 4 || f.sb == 0), (198, f.vc == 0),
      fnUnused f 3]
    (.v f.va :: (if shufPat f = 4 then [] else vbReads f))
    (if shufPat f ≤ 4 then none else some (vBad 176))
    (fun c i =>
      let h := vn f / 2
      match shufPat f with
      | 0 => if i % 2 = 0 then vaLane f c (i / 2) else vbLane f c (i / 2)
      | 1 => if i % 2 = 0 then vaLane f c (h + i / 2) else vbLane f c (h + i / 2)
      | 2 => if i < h then vaLane f c (2 * i) else vbLane f c (2 * (i - h))
      | 3 => if i < h then vaLane f c (2 * i + 1) else vbLane f c (2 * (i - h) + 1)
      | _ => vaLane f c (if i % 2 = 0 then i + 1 else i - 1))

/-- `vslide` (R138): a window into the two registers, downward over va, vb or upward over vb, va. -/
def semVslide (f : VForm) : SlotSem :=
  vMove f [vbField f, (198, f.vc == 0), fnUnused f 8] (.v f.va :: vbReads f) (idxCheck f)
    (fun c i =>
      let n := vn f
      if f.fn.getLsbD 7 then
        let j := n + i - vIdx f
        if j < n then vbLane f c j else vaLane f c (j - n)
      else
        let j := i + vIdx f
        if j < n then vaLane f c j else vbLane f c (j - n))

/-- `viota` (R138): a base plus the lane number. -/
def semViota (f : VForm) : SlotSem :=
  vMove f [(203, f.vb == 0), (208, f.va == 0), (198, f.vc == 0), fnUnused f 0]
    (if vSb f then [.s (vScalar f)] else []) none
    (fun c i => opAdd (vw f) (if vSb f then (c.sreg (vScalar f)).toNat % 2 ^ vw f else 0) i)

/-! ### Accumulator rows (R139 to R141) -/

/-- The management core has no matrix array: the opcode is reserved there (R102). -/
def noArray (slot : Slot) (op : Nat) (s : State) : Option Cause :=
  if s.core.isMgmt then some (precise slot 0x04 (BitVec.ofNat 64 op)) else none

/-- The accumulator of FN [5:4]. -/
def vAcc (f : VForm) : BitVec 2 := field 4 2 f.fn
/-- The row of FN [3:0]. -/
def vRow (f : VForm) : BitVec 4 := field 0 4 f.fn

/-- The checks of the vector side's entry: valid, KIND 0 to 4 of 8, 16 or 32 bits, and then LW its width (R25, R140). -/
def accChecks (f : VForm) (c : Core) : List (Bool × Cause) :=
  let e := c.fmt f.fmt
  [(f.rnd.toNat ≤ 4, vBad 221), (fmtV e, badEntry .v f.fmt.toNat),
    (!fmtV e || (fmtKind e ≤ 4 && 8 ≤ fmtStore e), vBad 224),
    (!(fmtV e && fmtKind e ≤ 4 && 8 ≤ fmtStore e) || vw f == fmtStore e, vBad 218)]

/-- Element (row, j) of an accumulator. -/
def Core.accElem (c : Core) (a : BitVec 2) (row j : Nat) : BitVec 96 :=
  (c.accs.get a.toFin).toList.getD (16 * row + j) 0

/-- `vacc`: an accumulator row converted to lanes; it waits while the row is not below the watermark (R140, R143). -/
def semVacc (f : VForm) : SlotSem :=
  { vSlot f (noVb f ++ [(208, f.va == 0), (198, f.vc == 0), (182, field 6 15 f.fn == 0)]) (vdReads f)
      (fun c => lowestCause (accChecks f c)) 4
      (fun c =>
        let e := c.fmt f.fmt
        let g := fun j => roundTo e f.rnd (f.sat == 1) (decodeWide (c.accElem (vAcc f) (vRow f).toNat j)).pre
        let nf := fun j => if (decodeWide (c.accElem (vAcc f) (vRow f).toNat j)).nonFinite then flNF else 0
        (.v f.vd (packLanes (vw f) (fun j =>
          if 16 ≤ j then 0 else if vOn f c j then (g j).1 else lane (vw f) (c.vreg f.vd) j)),
          orFlags (vOn f c) (fun j => (g j).2 ||| nf j) 16 0)) with
    absent := noArray .v 0x48
    wait := fun s => if s.core.wmarks.get (vAcc f).toFin ≤ (vRow f).toNat then some s else none }

/-- `vaccw`: lanes 0 to 15 into an accumulator row; it waits while the owner set is not empty (R141, R143). -/
def semVaccw (f : VForm) : SlotSem :=
  { vSlot f (noVb f ++ [(213, f.vd == 0), (198, f.vc == 0), (182, field 6 15 f.fn == 0)]) [.v f.va]
      (fun c => lowestCause (accChecks f c)) 4
      (fun c =>
        let e := c.fmt f.fmt
        let g := fun j => roundWide (c.decode e (vaLane f c j)).pre
        (.acc (vAcc f) (vRow f)
          (BitVec.ofNat 16 (packFrom 1 (fun j => if vOn f c j then 1 else 0) 16 0))
          (BitVec.ofNat 1536 (packFrom 96 (fun j => (g j).1.toNat) 16 0)) (c.vreg f.va) f.fmt e,
          orFlags (vOn f c) (fun j => (g j).2) 16 0)) with
    absent := noArray .v 0x49
    wait := fun s => if (s.core.owners.get (vAcc f).toFin).isEmpty then none else some s }

/-! ### Optical stream registers (R142, R143, R244) -/

/-- A core without stream registers: the opcode is reserved there (R102). -/
def noStream (op : Nat) (s : State) : Option Cause :=
  if s.core.isMgmt || (portOf s.cur).isNone then some (precise .v 0x04 (BitVec.ofNat 64 op)) else none

/-- The port of the current tile. -/
def State.port (s : State) : Port := Tab.getD s.ports ((portOf s.cur).getD 0) Port.fresh

/-- The strand's context is not the one the port's binding names, or there is no binding: access-table violation,
TGT the port tile and ADDR the register (R244). The watchdog's cause joins the checks (R143). -/
def streamCheck (f : VForm) (s : State) : Option Cause :=
  let c := s.core
  let o := (field 0 2 f.fn).toNat
  lowestCause
    [(!decide (max 1024 c.wdog.toNat ≤ c.waitedV), precise .v 0x11 (BitVec.ofNat 64 o)),
      (s.port.bnd && s.port.bctx.toNat == c.pos.ctx.toNat,
        precise .v 0x14 (BitVec.ofNat 64 (s.cur * 2 ^ 48 + o)))]

/-- A wait under the watchdog WDOG: one more cycle waited, unless the watchdog has expired (R10, R143). -/
def streamWait (full : Bool) (s : State) : Option State :=
  let c := s.core
  if full && decide (c.waitedV < max 1024 c.wdog.toNat) then some (s.setCore { c with waitedV := c.waitedV + s.watchTick })
  else none

/-- `vsin`: the oldest vector of a receive buffer (R142). -/
def semVsin (f : VForm) : SlotSem :=
  { plainSlot .v none with
    enc := zeroFrs f ++ noVb f ++ [(208, f.va == 0), (198, f.vc == 0), (178, field 2 19 f.fn == 0)]
    reads := vdReads f
    absent := noStream 0x4A
    wait := fun s => streamWait (s.core.orx.get (field 0 2 f.fn : BitVec 2).toFin).isEmpty s
    check := streamCheck f
    eff := onCore (fun c =>
      let o : BitVec 2 := field 0 2 f.fn
      match c.orx.get o.toFin with
      | [] => c
      | x :: r =>
        ({ c with orx := c.orx.set o.toFin r } : Core).result .v 2
          (vdMerge f c (fun i => lane (vw f) x i)) 0) }

/-- `vsout`: a vector into a transmit buffer of 64 (R142). R95 leaves its LW to the description, which names none: every LW is
accepted and has no effect (DESIGN CHOICE, log 97). -/
def semVsout (f : VForm) : SlotSem :=
  { plainSlot .v none with
    enc := zeroFrs f ++ noVb f ++
      [(228, f.mg == 0), (213, f.vd == 0), (198, f.vc == 0), (178, field 2 19 f.fn == 0)]
    reads := [.v f.va]
    absent := noStream 0x4B
    wait := fun s => streamWait (decide (64 ≤ (s.core.otx.get (field 0 2 f.fn : BitVec 2).toFin).length)) s
    check := streamCheck f
    eff := onCore (fun c =>
      let o : BitVec 2 := field 0 2 f.fn
      { c with otx := c.otx.set o.toFin (c.otx.get o.toFin ++ [c.vreg f.va]) }) }

/-! ### Masks and votes (R144, R145) -/

/-- A mask register named by the low bits of a vector field. -/
def mOf (x : BitVec 5) : BitVec 4 := field 0 4 x

/-- A mask destination gated bit by bit by MG (R144). -/
def maskGate (f : VForm) (c : Core) (g : Nat → Bool) : Mask :=
  BitVec.ofNat 128 (packFrom 1 (fun j =>
    if (if (c.mreg f.mg).getLsbD j then g j else (c.mreg (mOf f.vd)).getLsbD j) then 1 else 0) 128 0)

/-- Mask logic of up to two masks. -/
def maskLogic (f : VForm) (two : Bool) (g : Bool → Bool → Bool) : SlotSem :=
  vSlot f (zeroFrs f ++ [(218, f.lw == 0), (217, field 4 1 f.vd == 0), (212, field 4 1 f.va == 0),
      (if two then 207 else 203, if two then field 4 1 f.vb == 0 else f.vb == 0), (198, f.vc == 0), (197, f.sb == 0),
      (176, f.fn == 0)]) [] (fun _ => none) 2
    (fun c => (.m (mOf f.vd) (maskGate f c (fun j =>
      g ((c.mreg (mOf f.va)).getLsbD j) ((c.mreg (mOf f.vb)).getLsbD j))), 0))

/-- `mand` (R144). -/
def semMand (f : VForm) : SlotSem := maskLogic f true (fun x y => x && y)

/-- `mor` (R144). -/
def semMor (f : VForm) : SlotSem := maskLogic f true (fun x y => x || y)

/-- `mxor` (R144). -/
def semMxor (f : VForm) : SlotSem := maskLogic f true (fun x y => x != y)

/-- `mnot` (R144). -/
def semMnot (f : VForm) : SlotSem := maskLogic f false (fun x _ => !x)

/-- `mset`: 1 where a byte of va is not zero (R144). -/
def semMset (f : VForm) : SlotSem :=
  vSlot f (zeroFrs f ++ [(218, f.lw == 0), (217, field 4 1 f.vd == 0), (203, f.vb == 0), (198, f.vc == 0),
      (197, f.sb == 0), (176, f.fn == 0)]) [.v f.va] (fun _ => none) 2
    (fun c => (.m (mOf f.vd) (maskGate f c (fun j => lane 8 (c.vreg f.va) j != 0)), 0))

/-- `mget`: bytes of 0xFF where a mask is set (R144). -/
def semMget (f : VForm) : SlotSem :=
  vSlot f (zeroFrs f ++ [(218, f.lw == 0), (212, field 4 1 f.va == 0), (203, f.vb == 0), (198, f.vc == 0),
      (197, f.sb == 0), (176, f.fn == 0)]) (vdReads f) (fun _ => none) 2
    (fun c => (.v f.vd (mergeLanes 8 (c.mreg f.mg) (c.vreg f.vd)
      (fun j => if (c.mreg (mOf f.va)).getLsbD j then 255 else 0)), 0))

/-- The lanes counted by a mask reduction: the mask's governing bit set and the lane active (R145). -/
def countedLanes (f : VForm) (c : Core) : List Nat :=
  (List.range (vn f)).filter (fun i => laneOn (vw f) (c.mreg (mOf f.va)) i && vOn f c i)

/-- The active lanes. -/
def activeLanes (f : VForm) (c : Core) : List Nat := (List.range (vn f)).filter (vOn f c)

/-- A mask reduction into a predicate. -/
def maskVote (f : VForm) (g : Core → Bool) : SlotSem :=
  vSlot f (zeroFrs f ++ [(216, field 3 2 f.vd == 0), (212, field 4 1 f.va == 0), (203, f.vb == 0), (198, f.vc == 0),
      (197, f.sb == 0), (176, f.fn == 0)]) [] (fun _ => none) 2
    (fun c => (.p (field 0 3 f.vd) (g c), 0))

/-- `vany` (R145). -/
def semVany (f : VForm) : SlotSem := maskVote f (fun c => !(countedLanes f c).isEmpty)

/-- `vall` (R145). -/
def semVall (f : VForm) : SlotSem :=
  maskVote f (fun c => (activeLanes f c).all (fun i => laneOn (vw f) (c.mreg (mOf f.va)) i))

/-- `mpopc`: the count of counted lanes to the scalar of [20:15] (R145). -/
def semMpopc (f : VForm) : SlotSem :=
  vSlot f (zeroFrs f ++ [(213, f.vd == 0), (212, field 4 1 f.va == 0), (203, f.vb == 0), (198, f.vc == 0),
      (197, f.sb == 0), (176, field 0 15 f.fn == 0)]) [] (fun _ => none) 2
    (fun c => (.s (vScalar f) (BitVec.ofNat 64 (countedLanes f c).length), 0))

end Sys2Proof.Machine
end

