-- ==== Sys2Proof/Machine/LoadStore.lean ====
section
/-! DEFINITION. The Z slot, and the L-slot instructions on scratchpad, arrival words and spill memory
(06 R146 to R148, 07 R149 to R161). -/

namespace Sys2Proof.Machine

/-! ### Scratchpad accesses (R149 to R151) -/

/-- One access of a strand: effective address, size and alignment in bytes. -/
structure Touch where
  ea : Word
  size : Nat
  align : Nat
deriving DecidableEq, Repr

/-- The words of several accesses. -/
def touchWords (ts : List Touch) : List Nat := (ts.map (fun t => wordsOf t.ea.toNat t.size)).flatten

/-- Misalignment of any access before any range fault, each at the lowest lane (R149). -/
def touchCause (c : Core) (ts : List Touch) : Option Cause :=
  match ts.find? (fun t => t.ea.toNat % t.align != 0) with
  | some t => some (precise .l 0x0A t.ea)
  | none =>
    match ts.find? (fun t => decide (c.spend < t.ea.toNat + t.size)) with
    | some t => some (precise .l 0x0B t.ea)
    | none => none

/-- Poisoned data of a read (R151): the first poisoned word in lane order (DESIGN CHOICE, log 124). -/
def poisonRead (c : Core) (slot : Slot) (ws : List Nat) : Option Cause :=
  match ws.find? (fun w => c.poison.contains w) with
  | some w => some (precise slot 0x15 (BitVec.ofNat 64 (8 * w)))
  | none => none

/-- Poisoned data of a store: a poisoned word of which it writes only part; one of which it writes nothing is not checked
(R151, R157). -/
def poisonWrite (c : Core) (slot : Slot) (ws : List Nat) (bs : ByteWrites) : Option Cause :=
  match ws.find? (fun w => c.poison.contains w && bs.any (fun p => p.1 / 8 == w) && !coversWord bs w) with
  | some w => some (precise slot 0x15 (BitVec.ofNat 64 (8 * w)))
  | none => none

/-- Is an access an atomic? -/
def Access.isAtomic (a : Access) : Bool := match a.kind with | .atomic .. => true | _ => false

/-- Is an access a load? -/
def Access.isLoad (a : Access) : Bool := match a.kind with | .ldh .. => true | .ldvh _ => true | _ => false

/-- Has an atomic a success predicate (R168)? -/
def atPred (op : BitVec 8) : Bool := op == 0x39 || op == 0x3A || op == 0x3C || op == 0x3D

/-- The registers an access makes pending. -/
def Access.dests (a : Access) : List PReg :=
  match a.kind with
  | .ldh d _ => [.s d]
  | .ldvh d => [.v d]
  | .atomic op _ d pd .. => if atPred op then [.s d, .p pd] else [.s d]
  | _ => []

/-- The access with its state changed, in its core. -/
def Core.setAccess (c : Core) (id : Nat) (st : AccState) : Core :=
  { c with dacc := c.dacc.map (fun a => if a.id = id then { a with st } else a) }

/-- An access gone from its core. -/
def Core.dropAccess (c : Core) (id : Nat) : Core := { c with dacc := c.dacc.filter (fun a => a.id != id) }

/-- An access's register stops being pending with its value kept (R166, R171). -/
def Core.unpend (c : Core) (ord : Nat) (rs : List PReg) : Core :=
  { c with pend := c.pend.filter (fun e => !(e.2 == ord && rs.contains e.1)) }

/-- An access of the strand's drawer path that has not performed (R173). -/
def Access.open (a : Access) : Bool := a.st != .performed

/-- Is an earlier access of this class still to perform, of the strand or of a copy in execution, or does a fence hold
the class (R173, R174)? -/
def Core.classHeld (c : Core) (cls : BitVec 4) : Bool :=
  let unperformed := fun id => c.dacc.any (fun a => a.id == id && a.open)
  c.dacc.any (fun a => a.cls == cls && a.open) ||
  c.fences.any (fun j => j.mask.getLsbD cls.toNat && j.waits.any unperformed) ||
  (match c.cpy.exec with
   | some k =>
     let cx6 := (k.cmd.stg.getD 6 0)
     (cx6.getLsbD 4 || cx6.getLsbD 9) && field 12 4 cx6 == cls &&
       !k.drawerDone
   | none => false)

/-- The wait of a scratchpad access of class `cls`. -/
def classWait (cls : BitVec 4) (s : State) : Option State := if s.core.classHeld cls then some s else none

/-! ### The Z slot (R146, R147) -/

/-- The address of a Z load: ZBASE + 32 × OFF (R146). -/
def zAddr (f : ZForm) (c : Core) : Word := c.zbase + (f.off.setWidth 64) <<< 5

/-- A Z-slot load of `size` bytes, in class 0 (R146). -/
def zLoad (f : ZForm) (enc : List (Nat × Bool)) (size : Nat) (w : Core → Nat → Write) : SlotSem :=
  { plainSlot .z none with
    enc := enc
    wait := classWait 0
    words := fun s => wordsOf (zAddr f s.core).toNat size
    check := fun s =>
      let c := s.core
      let a := zAddr f c
      if c.spend < a.toNat + size then some (precise .z 0x0B a)
      else poisonRead c .z (wordsOf a.toNat size)
    eff := onCore (fun c => c.result .z 4 (w c (c.spad.readN (zAddr f c).toNat size)) 0) }

/-- `zld`: 16 FP32 codes (R147). -/
def semZld (f : ZForm) : SlotSem := zLoad f [] 64 (fun _ x => .z f.d (BitVec.ofNat 512 x))

/-- `zldh`: 16 BF16 codes as FP32 (R147). -/
def semZldh (f : ZForm) : SlotSem :=
  zLoad f [] 32 (fun _ x =>
    .z f.d (BitVec.ofNat 512 (packFrom 32 (fun j => x / 2 ^ (16 * j) % 2 ^ 16 * 2 ^ 16) 16 0)))

/-- 2^e as FP32, for e a signed byte (R147). -/
def pow2Fp32 (b : Nat) : Nat :=
  let e := sintOf 8 b
  if e = -128 then 0x00200000 else if e = -127 then 0x00400000 else (e + 127).toNat * 2 ^ 23

/-- `zldb`: 16 signed exponents (R147). -/
def semZldb (f : ZForm) : SlotSem :=
  zLoad f [] 16 (fun _ x =>
    .z f.d (BitVec.ofNat 512 (packFrom 32 (fun j => pow2Fp32 (x / 2 ^ (8 * j) % 256)) 16 0)))

/-- `kld`: a codebook register; D [3] is zero (R147). -/
def semKld (f : ZForm) : SlotSem :=
  zLoad f [(122, field 3 1 f.d == 0)] 32 (fun _ x => .k (field 0 3 f.d) (BitVec.ofNat 256 x))

/-- `zfromv`: half of a vector register (R147). -/
def semZfromv (f : ZForm) : SlotSem :=
  { plainSlot .z none with
    enc := [(110, field 6 9 f.off == 0)]
    reads := [.v (field 0 5 f.off)]
    eff := onCore (fun c =>
      c.result .z 4
        (.z f.d (if f.off.getLsbD 5 then field 512 512 (c.vreg (field 0 5 f.off))
                 else field 0 512 (c.vreg (field 0 5 f.off)))) 0) }

/-! ### Shapes of the L slot -/

/-- A reserved field value in the L slot at a bundle bit. -/
def lBad (bit : Nat) : Cause := badField .l bit

/-- The guard of an L form. -/
abbrev LGuard := BitVec 1 × BitVec 3

/-- A scratchpad load: its accesses, and the result it puts in flight (R149 to R151). -/
def loadSlot (g : LGuard) (cls : BitVec 4) (enc : List (Nat × Bool)) (reads : List PReg) (bad : Option Cause)
    (lat : Nat) (touches : Core → List Touch) (w : Core → Write) : SlotSem :=
  { plainSlot .l (some g) with
    enc := enc
    reads := reads
    wait := classWait cls
    words := fun s => touchWords (touches s.core)
    check := fun s =>
      match bad with
      | some k => some k
      | none =>
        match touchCause s.core (touches s.core) with
        | some k => some k
        | none => poisonRead s.core .l (touchWords (touches s.core))
    eff := onCore (fun c => c.result .l lat (w c) 0)
    plain := true }

/-- A scratchpad store: its accesses, and the bytes it writes (R149 to R151). -/
def storeSlot (g : LGuard) (cls : BitVec 4) (enc : List (Nat × Bool)) (reads : List PReg) (bad : Option Cause)
    (touches : Core → List Touch) (bytes : Core → ByteWrites) : SlotSem :=
  { plainSlot .l (some g) with
    enc := enc
    reads := reads
    wait := classWait cls
    words := fun s => touchWords (touches s.core)
    check := fun s =>
      match bad with
      | some k => some k
      | none =>
        match touchCause s.core (touches s.core) with
        | some k => some k
        | none => poisonWrite s.core .l (touchWords (touches s.core)) (bytes s.core)
    eff := onCore (fun c => c.store (bytes c)) }

/-! ### Scalar and vector loads and stores (R153 to R157) -/

/-- EA of form LS (R153). -/
def lsEa (f : LsForm) (c : Core) : Word := c.sreg f.a + f.disp.signExtend 64

/-- The size in bytes of form LS's type. -/
def lsSize (f : LsForm) : Nat := typeWidth f.t / 8

/-- A type code of 8 to 15 is a reserved field value at bit 144 (R153). -/
def lsBad (f : LsForm) : Option Cause := if typeOk f.t then none else some (lBad 144)

/-- `lds` (R153). -/
def semLds (f : LsForm) : SlotSem :=
  loadSlot (f.gi, f.gp) f.cls [] [.s f.a] (lsBad f) 6 (fun c => [⟨lsEa f c, lsSize f, lsSize f⟩])
    (fun c => .s f.d (extendType f.t (c.spad.readN (lsEa f c).toNat (lsSize f))))

/-- `sts` (R153). -/
def semSts (f : LsForm) : SlotSem :=
  storeSlot (f.gi, f.gp) f.cls [] [.s f.a, .s f.d] (lsBad f) (fun c => [⟨lsEa f c, lsSize f, lsSize f⟩])
    (fun c => storeAt (lsEa f c).toNat (lsSize f) (c.sreg f.d).toNat)

/-- EA of form LV (R154). -/
def lvEa (f : LvForm) (c : Core) : Word := c.sreg f.a + f.disp.signExtend 64

/-- `ldv` (R154). -/
def semLdv (f : LvForm) : SlotSem :=
  loadSlot (f.gi, f.gp) f.cls [(144, f.z == 0)] [.s f.a] none 6 (fun c => [⟨lvEa f c, 128, 8⟩])
    (fun c => .v f.v (BitVec.ofNat 1024 (c.spad.readN (lvEa f c).toNat 128)))

/-- `stv` (R154). -/
def semStv (f : LvForm) : SlotSem :=
  storeSlot (f.gi, f.gp) f.cls [(144, f.z == 0)] [.s f.a, .v f.v] none (fun c => [⟨lvEa f c, 128, 8⟩])
    (fun c => storeAt (lvEa f c).toNat 128 (c.vreg f.v).toNat)

/-- EA of lane `i` of form LVS (R155). -/
def lvsEa (f : LvsForm) (c : Core) (i : Nat) : Word :=
  c.sreg f.a + f.disp.signExtend 64 + BitVec.ofNat 64 i * c.sreg f.s

/-- The accesses of form LVS. -/
def lvsTouches (f : LvsForm) (c : Core) : List Touch :=
  let b := laneWidth f.lw / 8
  (List.range (128 / b)).map (fun i => ⟨lvsEa f c i, b, b⟩)

/-- `ldvs` (R155). -/
def semLdvs (f : LvsForm) : SlotSem :=
  loadSlot (f.gi, f.gp) f.cls [] [.s f.a, .s f.s] none 6 (lvsTouches f)
    (fun c =>
      let w := laneWidth f.lw
      .v f.v (packLanes w (fun i => c.spad.readN (lvsEa f c i).toNat (w / 8))))

/-- `stvs`: lanes in order, so the higher-numbered lane's bytes stand (R155). -/
def semStvs (f : LvsForm) : SlotSem :=
  storeSlot (f.gi, f.gp) f.cls [] [.s f.a, .s f.s, .v f.v] none (lvsTouches f)
    (fun c =>
      let w := laneWidth f.lw
      ((List.range (1024 / w)).map (fun i => storeAt (lvsEa f c i).toNat (w / 8) (lane w (c.vreg f.v) i))).flatten)

/-- EA of lane `i` of form LVG (R156). -/
def lvgEa (f : LvgForm) (c : Core) (i : Nat) : Word :=
  c.sreg f.a + BitVec.ofNat 64 (lane (laneWidth f.lw) (c.vreg f.vi) i * 2 ^ f.sc.toNat)

/-- The active lanes of form LVG. -/
def lvgLanes (f : LvgForm) (c : Core) : List Nat :=
  let w := laneWidth f.lw
  (List.range (1024 / w)).filter (laneOn w (c.mreg f.m))

/-- The accesses of form LVG: active lanes only (R156). -/
def lvgTouches (f : LvgForm) (c : Core) : List Touch :=
  let b := laneWidth f.lw / 8
  (lvgLanes f c).map (fun i => ⟨lvgEa f c i, b, b⟩)

/-- `ldvg`: inactive lanes keep vd as at issue (R156). -/
def semLdvg (f : LvgForm) : SlotSem :=
  loadSlot (f.gi, f.gp) f.cls [(128, f.z == 0)] [.s f.a, .v f.vi, .v f.v] none 10 (lvgTouches f)
    (fun c =>
      let w := laneWidth f.lw
      .v f.v (mergeLanes w (c.mreg f.m) (c.vreg f.v) (fun i => c.spad.readN (lvgEa f c i).toNat (w / 8))))

/-- `stvg`: the higher-numbered of colliding lanes stands (R156). -/
def semStvg (f : LvgForm) : SlotSem :=
  storeSlot (f.gi, f.gp) f.cls [(128, f.z == 0)] [.s f.a, .v f.vi, .v f.v] none (lvgTouches f)
    (fun c =>
      let w := laneWidth f.lw
      ((lvgLanes f c).map (fun i => storeAt (lvgEa f c i).toNat (w / 8) (lane w (c.vreg f.v) i))).flatten)

/-- EA of `stvm` (R157). -/
def stvmEa (f : StvmForm) (c : Core) : Word := c.sreg f.a + f.disp.signExtend 64

/-- `stvm`: the active lanes of va in the contiguous 128 bytes (R157). -/
def semStvm (f : StvmForm) : SlotSem :=
  storeSlot (f.gi, f.gp) f.cls [] [.s f.a, .v f.v] none (fun c => [⟨stvmEa f c, 128, 8⟩])
    (fun c =>
      let w := laneWidth f.lw
      (((List.range (1024 / w)).filter (laneOn w (c.mreg f.m))).map (fun i =>
        storeAt ((stvmEa f c).toNat + i * (w / 8)) (w / 8) (lane w (c.vreg f.v) i))).flatten)

/-! ### Arrival words (R158 to R160, R237) -/

/-- EA of form AW (R158). -/
def awEa (f : AwForm) (c : Core) : Word := c.sreg f.a + f.disp.signExtend 64

/-- The arrival word of `waita` or `setaw` as the bank units know it (R239). -/
def awWord (f : AwForm) (c : Core) : Nat := pairWord ((awEa f c).toNat / 8)

/-- `setaw`: TARGET, COUNT 0, GEN and FLAGS 0 in one operation (R159, R239). -/
def semSetaw (f : AwForm) : SlotSem :=
  { storeSlot (f.gi, f.gp) f.cls [] [.s f.a, .s f.r1, .s f.r2] none (fun c => [⟨awEa f c, 16, 16⟩])
      (fun c => storeAt (awEa f c).toNat 16
        ((c.sreg f.r1).toNat % 2 ^ 32 + (c.sreg f.r2).toNat % 2 ^ 32 * 2 ^ 64)) with
    words := fun s => [awWord f s.core] }

/-- GEN of the arrival word at `a` (R237). -/
def genAt (c : Core) (a : Nat) : BitVec 32 := BitVec.ofNat 32 (c.spad.readN (a + 8) 4)

/-- Has generation `g` reached `want` (R160)? -/
def genReached (g want : BitVec 32) : Bool := decide ((g - want).toNat < 2 ^ 31)

/-- The watchdog limit: WDOG, at least 1,024 (R10). -/
def Core.watchLimit (c : Core) : Nat := max 1024 c.wdog.toNat

/-- The read of `waita` in a cycle in which nothing else holds its bundle: is GEN served by the bank units, and has it then reached the
generation (R160, R239)? -/
def awReads (f : AwForm) (c : Core) : Bool × Bool :=
  let served := (c.strandServed [awWord f c]).contains (awWord f c)
  (served, served && genReached (genAt c (awEa f c).toNat) (field 0 32 (c.sreg f.r1)))

/-- `waita`: holds its bundle until the generation is reached. GEN is read at its bank units once nothing else holds the bundle; the
bundle issues in the cycle of the first read when that satisfies, else in the cycle after the read that does, and reads no more then
(R160, R251). A read that satisfies in the cycle in which the watchdog would expire ends the wait (DESIGN CHOICE, log 85). A slot that
fails alignment or range does not wait (R413). -/
def semWaita (f : AwForm) : SlotSem :=
  { plainSlot .l (some (f.gi, f.gp)) with
    enc := [(142, f.r2 == 0)]
    reads := [.s f.a, .s f.r1]
    words := fun s => if s.core.waitaSeen then [] else [awWord f s.core]
    early := fun s => !s.core.isPending (.s f.a) && (touchCause s.core [⟨awEa f s.core, 16, 16⟩]).isSome
    wait := classWait f.cls
    late := fun s =>
      let c := s.core
      let (served, reached) := awReads f c
      if c.waitaSeen || (reached && !c.waitaRead) then none
      else if !reached && decide (c.watchLimit ≤ c.waitedL) then none
      else
        some (s.setCore (({ c with
          waitaRead := c.waitaRead || served, waitaSeen := reached
          waitedL := if c.waitaRead || served then c.waitedL + s.watchTick else c.waitedL } : Core).asks [awWord f c]))
    check := fun s =>
      let c := s.core
      match touchCause c [⟨awEa f c, 16, 16⟩] with
      | some k => some k
      | none =>
        if !c.waitaSeen && decide (c.watchLimit ≤ c.waitedL) then some (precise .l 0x12 (awEa f c))
        else poisonRead c .l [(awEa f c).toNat / 8 + 1] }

/-! ### Spill memory (R161) -/

/-- Word `i` of spill memory. -/
def Core.spillWord (c : Core) (i : Nat) : Word := c.spill.toList.getD i 0

/-- Spill words from `i` on replaced. -/
def setSpill (v : Vector Word 512) : Nat → List Word → Vector Word 512
  | _, [] => v
  | i, x :: r => setSpill (v.setIfInBounds i x) (i + 1) r

/-- `spl` (R161). -/
def semSpl (f : SpForm) : SlotSem :=
  { plainSlot .l (some (f.gi, f.gp)) with
    enc := [(160, f.cls == 0), (137, f.z == 0)]
    reads := [.s f.d]
    eff := onCore (fun c => { c with spill := setSpill c.spill f.off.toNat [c.sreg f.d] }) }

/-- `fil` (R161). -/
def semFil (f : SpForm) : SlotSem :=
  { plainSlot .l (some (f.gi, f.gp)) with
    enc := [(160, f.cls == 0), (137, f.z == 0)]
    eff := onCore (fun c => c.result .l 1 (.s f.d (c.spillWord f.off.toNat)) 0)
    plain := true }

/-- OFF above 496 is a reserved field value at bit 128 (R161). -/
def spvCheck (f : SpvForm) : Option Cause := if f.off.toNat ≤ 496 then none else some (lBad 128)

/-- `splv` (R161). -/
def semSplv (f : SpvForm) : SlotSem :=
  { plainSlot .l (some (f.gi, f.gp)) with
    enc := [(160, f.cls == 0), (137, f.z == 0)]
    reads := [.v f.v]
    check := fun _ => spvCheck f
    eff := onCore (fun c =>
      let ws := (List.range 16).map (fun i => BitVec.ofNat 64 (lane 64 (c.vreg f.v) i))
      { c with spill := setSpill c.spill f.off.toNat ws }) }

/-- `filv` (R161). -/
def semFilv (f : SpvForm) : SlotSem :=
  { plainSlot .l (some (f.gi, f.gp)) with
    enc := [(160, f.cls == 0), (137, f.z == 0)]
    check := fun _ => spvCheck f
    eff := onCore (fun c =>
      c.result .l 1 (.v f.v (packLanes 64 (fun i => (c.spillWord (f.off.toNat + i)).toNat))) 0)
    plain := true }

end Sys2Proof.Machine
end

