-- ==== Sys2Proof/Machine/Translation.lean ====
section
/-! DEFINITION. Drawer addresses, page-table walks, translation caches and handles over time (16 R303 to R308, 18 R336). -/

namespace Sys2Proof.Machine

/-- The next number of the model's own naming (log 2). -/
def State.fresh (s : State) : Nat × State := (s.serial, { s with serial := s.serial + 1 })

/-- The next free value's argument (log 2). -/
def State.draw (s : State) : Nat × State := (s.free, { s with free := s.free + 1 })

/-! ### Drawer addresses -/

/-- Nibbles 0 to `n` of `b`, XORed. -/
def xorNibbles : Nat → Nat → Nat
  | 0, _ => 0
  | n + 1, b => (b % 16) ^^^ xorNibbles n (b / 16)

/-- Link(PA) (R336). -/
def linkOf (pa : Nat) : Nat := 16 * (pa / 4096 % 2 ^ 36 % 7) + xorNibbles 9 (pa / 4096 % 2 ^ 36)

/-- Link `n` as it stands. -/
def State.link (s : State) (n : Nat) : Link := Tab.getD s.links n Link.fresh

/-- Is link `n` up (R346)? -/
def State.linkUp (s : State) (n : Nat) : Bool := (s.link n).st == 2

/-- CAP, the installed drawer bytes (R304, R335). -/
def State.cap (s : State) : Nat := s.sys.drwCap.toNat

/-- The context descriptor `c` (R320). -/
def State.ctx (s : State) (c : Nat) : Ctx := Tab.getD s.ctxs c Ctx.fresh

/-! ### Walks -/

/-- Index(va, l) (R303). -/
def walkIndex (va : Nat) (lev : Nat) : Nat := va / 2 ^ (64 - 12 * lev) % 4096

/-- The tag of a path entry of level `lev`: the bits of va from 63 down to that level's index (R306). -/
def pathTag (va : Nat) (lev : Nat) : Nat := va / 2 ^ (64 - 12 * lev)

/-- What an entry means to a walk (R304). -/
inductive EntryMeans
  | table (a : Nat)
  | ends (e : WalkEnd)
deriving DecidableEq, Repr

/-- R304 on entry `e`, read at level `lev`; `ps` are the path entries met. -/
def State.entryMeans (s : State) (ctx va lev e : Nat) (ps : List PathEntry) : EntryMeans :=
  let frame := e / 2 ^ 16 % 2 ^ 32 * 2 ^ 16
  let size := e / 2 ^ 61 % 4
  let leaf (big : Bool) : WalkEnd :=
    let bytes := if big then 2 ^ 28 else 2 ^ 16
    if s.cap < frame + bytes then .fault 3 lev 0 ps
    else .leaf { ctx, big, page := va / bytes * bytes, base := frame, rd := e.testBit 59, wr := e.testBit 60,
                  gen := (s.ctx ctx).tgen } ps
  if !e.testBit 63 then .ends (.fault 1 lev (BitVec.ofNat 64 e) ps)
  else if e / 2 ^ 48 % 2 ^ 11 != 0 || e % 2 ^ 16 != 0 then .ends (.fault 2 lev (BitVec.ofNat 64 e) ps)
  else if size = 0 ∧ lev < 4 then .table frame
  else if size = 1 ∧ lev = 4 then .ends (leaf false)
  else if size = 2 ∧ lev = 3 ∧ e / 2 ^ 16 % 2 ^ 12 = 0 then .ends (leaf true)
  else .ends (.fault 2 lev (BitVec.ofNat 64 e) ps)

/-- The cache that serves core `id` (R306). -/
def cacheKey (id : CoreId) : Nat := if id = mgmtCore then 64 else fieldOf id

/-- Translation cache `k`. -/
def State.cache (s : State) (k : Nat) : Cache := Tab.getD s.caches k { leaves := [], paths := [], walks := [] }

/-- The state with cache `k` replaced. -/
def State.putCache (s : State) (k : Nat) (c : Cache) : State := { s with caches := Tab.put s.caches k c }

/-- The deepest level of `levs` whose path entry is in the cache and still there (R306). -/
def State.deepest (s : State) (k ctx va : Nat) : List Nat → Option PathEntry × State
  | [] => (none, s)
  | lev :: r =>
    match (s.cache k).paths.find? (fun p => p.ctx == ctx && p.lev == lev && p.tag == pathTag va lev) with
    | none => s.deepest k ctx va r
    | some p =>
      let (n, t) := s.draw
      if Config.retained n then (some p, t) else t.deepest k ctx va r

/-- Root(c) (R304): 0 for a context without tables; the management core has no descriptor and so no root (log 17). -/
def State.root (s : State) (ctx : Nat) : Nat := if ctx = 64 then 0 else (s.ctx ctx).root.toNat * 2 ^ 16

/-- Does a leaf hold the page of `va`? -/
def Leaf.holds (l : Leaf) (ctx : Nat) (va : Word) : Bool :=
  let bytes := if l.big then 2 ^ 28 else 2 ^ 16
  l.ctx == ctx && va.toNat / bytes * bytes == l.page

/-- What a walk met goes into the cache; no cache keeps a fault (R305, R307). -/
def State.fill (s : State) (k : Nat) : WalkEnd → State
  | .leaf l ps =>
    let c := s.cache k
    s.putCache k { c with
      leaves := l :: c.leaves.filter (fun x => !(x.ctx == l.ctx && x.big == l.big && x.page == l.page)), paths := ps ++ c.paths.filter (fun p => !ps.contains p) }
  | .fault _ _ _ ps =>
    let c := s.cache k
    s.putCache k { c with paths := ps ++ c.paths.filter (fun p => !ps.contains p) }

/-! ### Handles -/

/-- The handle a leaf gives, with the generation captured at its walk (R162, R304). -/
def Leaf.handle (l : Leaf) : Handle :=
  { Handle.empty with
    v := true, tp := true, rd := l.rd, wr := l.wr, sz := l.big, gen := l.gen, base := BitVec.ofNat 48 l.base
    vpage := BitVec.ofNat 64 l.page }

/-- The 64 KiB page of an address (R162). -/
def page64 (va : Word) : Word := BitVec.ofNat 64 (va.toNat / 2 ^ 16 * 2 ^ 16)

/-- The handle of a page whose walk runs (R162). -/
def pendingHandle (va : Word) (walk : Nat) : Handle :=
  { Handle.empty with p := true, tp := true, vpage := page64 va, walk }

/-- The handle that a failed walk leaves: the page size the fault leaves possible (R162). For type 5, `entry` is the
link. -/
def faultedHandle (va : Word) (type lev : Nat) (entry : Word) : Handle :=
  let big := type == 5 || lev ≤ 3
  { Handle.empty with
    f := true, tp := true, sz := big
    vpage := if big then BitVec.ofNat 64 (va.toNat / 2 ^ 28 * 2 ^ 28) else page64 va
    ftype := type, flevel := lev, fentry := entry }

/-- A handle withdrawn by a shootdown, a flush, a restore or a migration (R308): only the tag and its page size stay, RD, W and GEN read
0 (R162; DESIGN CHOICE, log 125). -/
def Handle.shot (h : Handle) : Handle := { Handle.empty with tp := true, sz := h.sz, vpage := h.vpage }

/-- Is a handle empty (R162)? -/
def Handle.isEmpty (h : Handle) : Bool := !h.v && !h.p && !h.f && !h.tp

/-- Is a handle shot down (R162)? -/
def Handle.isShot (h : Handle) : Bool := !h.v && !h.p && !h.f && h.tp

/-- The bytes of a handle's page (R162). -/
def Handle.pageBytes (h : Handle) : Nat := if h.sz then 2 ^ 28 else 2 ^ 16

/-- A change of every handle a core holds: `g` of its registers, `f` of results in flight and in both snapshots (R308). -/
def Core.mapHandlesBy (g f : Handle → Handle) (c : Core) : Core :=
  let w : Res → Res := fun r => match r.w with
    | .h n x => { r with w := .h n (f x) }
    | _ => r
  { c with
    hregs := c.hregs.map g
    inflight := c.inflight.map w
    snapTrap := { c.snapTrap with results := c.snapTrap.results.map w }
    snapPre := { c.snapPre with results := c.snapPre.results.map w } }

/-- The same change of every handle a core holds. -/
def Core.mapHandles (g : Handle → Handle) (c : Core) : Core := c.mapHandlesBy g g

/-- A change of every listed core. A core that is not listed holds no handle. -/
def State.mapCores (s : State) (g : CoreId → Core → Core) : State :=
  { s with cores := s.cores.map (fun e => (e.1, g e.1 e.2)) }

/-- A walk that waits for its turn. -/
def Walk.begin (id ctx : Nat) (va : Word) : Walk :=
  { id, ctx, va := page64 va, marked := false, since := 0, lev := 0, table := 0, paths := [], req := none, readAt := 0, stalled := false
    ending := none }

/-- The number of the walk for the page of `va`: the running one, or a new one (R306, R307). -/
def State.startWalk (s : State) (k ctx : Nat) (va : Word) : Nat × State :=
  match (s.cache k).walks.find? (fun w => w.ctx == ctx && page64 w.va == page64 va) with
  | some w => (w.id, s)
  | none =>
    let (n, t) := s.fresh
    let c := t.cache k
    (n, t.putCache k { c with walks := c.walks ++ [Walk.begin n ctx va] })

/-- The leaf of cache `k` for an address, when the cache still holds it (R306). -/
def State.leafFor (s : State) (k ctx : Nat) (va : Word) : Option Leaf × State :=
  match (s.cache k).leaves.find? (·.holds ctx va) with
  | none => (none, s)
  | some l =>
    let (n, t) := s.draw
    if Config.retained n then (some l, t)
    else (none, t.putCache k { t.cache k with leaves := (t.cache k).leaves.filter (· != l) })

/-- The lookup of `xlate` (R307): valid on a hit; otherwise pending, with a walk. -/
def State.lookup (s : State) (id : CoreId) (ctx : Nat) (va : Word) : Handle × State :=
  match s.leafFor (cacheKey id) ctx va with
  | (some l, t) => (l.handle, t)
  | (none, t) =>
    let (n, u) := t.startWalk (cacheKey id) ctx va
    (pendingHandle va n, u)

/-- A shot-down handle of the current core that a due bundle uses: a new walk, and the handle is pending (R162, R308). -/
def State.heal (s : State) (r : BitVec 4) : State :=
  let h := s.core.hreg r
  let (n, t) := s.startWalk (cacheKey s.cur) s.core.pos.ctx.toNat h.vpage
  t.setCore { t.core with hregs := t.core.hregs.set r.toFin { pendingHandle h.vpage n with vpage := h.vpage } }

/-- A due bundle of the current core uses handle `r`: a shot-down one starts its walk (R162, R413). -/
def State.useHandle (s : State) (r : BitVec 4) : State := if (s.core.hreg r).isShot then s.heal r else s

/-- Does a use of handle `r` hold the bundle (R162)? A shot-down one starts its walk. -/
def State.handleWait (s : State) (r : BitVec 4) : Option State :=
  let h := s.core.hreg r
  if h.p then some s else if h.isShot then some (s.heal r) else none

/-! ### Walks over time (R303, R306, R307) -/

/-- Walk `id` of cache `k` replaced. -/
def State.putWalk (s : State) (k : Nat) (w : Walk) : State :=
  s.putCache k { s.cache k with walks := (s.cache k).walks.map (fun x => if x.id = w.id then w else x) }

/-- What a reply to a walker's read gives (R304): the entry, or how the walk ends. A table in a frame that is offline gives type 6 at
its level (DEDUCED, log 105). -/
def readEnds (lev link : Nat) (ps : List PathEntry) : ReqEnd → Nat ⊕ WalkEnd
  | .ok d => .inl (bytesNat d)
  | .denied => .inr (.fault 3 lev 0 ps)
  | .poisoned => .inr (.fault 4 lev 0 ps)
  | .offline => .inr (.fault 6 lev 0 ps)
  | .failed ty _ e => .inr (.fault ty lev e ps)
  | .stalled | .returned => .inr (.fault 5 lev (BitVec.ofNat 64 link) ps)

/-- The next read of a walk leaves for its link as traffic of its context, checked as master 64 (R303, R304, R341). -/
def State.readTable (s : State) (k : Nat) (w : Walk) : State :=
  if s.cap < w.table + 32768 then s.putWalk k { w with ending := some (.fault 3 w.lev 0 w.paths) }
  else
    let (n, t) := s.fresh
    let r : Req :=
      { id := n, core := 0x10000 + 0x100 + k, mid := 64, rq := w.ctx, owner := .walk w.id
        addr := w.table + 8 * walkIndex w.va.toNat w.lev, va := w.va, write := none, len := 8, place := .net s.cycle
        res := none, patient := false, waited := 0 }
    { t.putWalk k { w with req := some n, readAt := s.cycle } with reqs := t.reqs ++ [r] }

/-- A walk begins at the deepest level whose path entry is there (R306). -/
def State.beginWalk (s : State) (k : Nat) (w : Walk) : State :=
  match s.deepest k w.ctx w.va.toNat [3, 2, 1] with
  | (some p, t) => t.readTable k { w with since := s.cycle, lev := p.lev + 1, table := p.table }
  | (none, t) =>
    if t.root w.ctx = 0 then t.putWalk k { w with since := s.cycle, ending := some (.fault 1 1 0 []) }
    else t.readTable k { w with since := s.cycle, lev := 1, table := t.root w.ctx }

/-- The walk a cycle on: it begins, or takes in the reply to its read (R303, R307). -/
def State.stepWalk (s : State) (k : Nat) (w : Walk) : State :=
  if w.marked || w.ending.isSome then s
  else if w.lev = 0 then s.beginWalk k w
  else
    match w.req.bind (fun n => s.reqs.find? (fun r => r.id == n)) with
    | none => s
    | some r =>
      let gone : State := { s with reqs := s.reqs.filter (fun q => q.id != r.id) }
      match r.place, r.res with
      | .served _ d, some e =>
        if s.cycle < d then s
        else
          match readEnds w.lev (linkOf r.addr) w.paths e with
          | .inr x => gone.putWalk k { w with req := none, ending := some x }
          | .inl v =>
            match s.entryMeans w.ctx w.va.toNat w.lev v w.paths with
            | .ends x => gone.putWalk k { w with req := none, ending := some x }
            | .table a =>
              gone.readTable k { w with
                lev := w.lev + 1, table := a, req := none
                paths := w.paths ++ [{ ctx := w.ctx, lev := w.lev, tag := pathTag w.va.toNat w.lev, table := a }] }
      | _, _ =>
        if !s.linkUp (linkOf r.addr) then s.putWalk k { w with stalled := true } else s

/-- Must a read of a walk go in the next slot of its link, to be back 600 tc after it began? The bound holds for every read of a walk
that has met no link out of use (R307), whatever else waits for the link; so such a read goes before the requester that the slot
table names (DESIGN CHOICE, log 116). -/
def State.urgent (s : State) (r : Req) : Bool :=
  match r.owner with
  | .walk id =>
    s.caches.any (fun e => e.2.walks.any (fun w => w.id == id && w.req == some r.id && !w.stalled &&
      decide (w.readAt + 600 ≤ s.cycle + 2 + 5 * (s.link (linkOf r.addr)).lat / 14)))
  | _ => false

/-- The walks of a cache a cycle on: sixteen run, the others wait in order (R306). -/
def State.stepWalks (s : State) : State :=
  s.caches.foldl (fun t e =>
    ((t.cache e.1).walks.take 16).foldl (fun u w => u.stepWalk e.1 w) t) s

/-- What the end of walk `id` brings to a transfer that awaits it: the leaf, or the failure at its address (R316). -/
def Job.walkEnded (j : Job) (id : Nat) : WalkEnd → Job
  | .leaf l _ => if j.walk = some id then { j with walk := none, leaf := some l } else j
  | .fault ty lev e _ =>
    if j.walk = some id then
      { j with walk := none, ended := some (.fault ty lev e (j.va + BitVec.ofNat 64 (match j.todo with | b :: _ => b.1 | [] => 0))) }
    else j

/-- HANDLE_WALK_END (R307): walk `id` of cache `k` has ended. The cache takes what it met; handles and transfers that await it
change. One marked for restart does not end (R310). -/
def State.walkEnd (s : State) (k id : Nat) : State :=
  match ((s.cache k).walks.take 16).find? (fun w => w.id == id) with
  | none => s
  | some w =>
    match w.marked, w.ending with
    | false, some e =>
      let finish (h : Handle) : State :=
        let u := s.fill k e
        let c := u.cache k
        let v := (u.putCache k { c with walks := c.walks.filter (fun x => x.id != id) }).mapCores (fun _ core =>
          core.mapHandles (fun x => if x.p && x.walk == id then h else x))
        { v with jobs := v.jobs.map (fun j => j.walkEnded id e) }
      match e with
      | .leaf l _ => finish l.handle
      | .fault ty lev entry _ => finish (faultedHandle w.va ty lev entry)
    | _, _ => s

/-- Does a walk end for a link that stayed out of use (R307)? -/
def Walk.endsStalled (w : Walk) : Bool := match w.ending with | some (.fault 5 ..) => true | _ => false

/-- A walk to be made again from the start (R308, R310). -/
def Walk.restart (w : Walk) : Walk := { Walk.begin w.id w.ctx w.va with va := w.va }

end Sys2Proof.Machine
end

