-- ==== Sys2Proof/Machine/Drawer.lean ====
section
/-! DEFINITION. Handles, drawer accesses, atomics and fences in the L slot (07 R162 to R175). -/

namespace Sys2Proof.Machine

/-! ### Handle instructions (R163) -/

/-- `xlate` (R163, R307). -/
def semXlate (f : XlateForm) : SlotSem :=
  { plainSlot .l (some (f.gi, f.gp)) with
    enc := [(160, f.cls == 0), (154, f.z1 == 0), (128, f.z2 == 0)]
    reads := [.s f.a]
    eff := fun s =>
      let (h, t) := s.lookup s.cur s.core.pos.ctx.toNat (s.core.sreg f.a)
      t.setCore (t.core.result .l 48 (.h f.h h) 0) }

/-- `hinv` (R163). -/
def semHinv (f : HinvForm) : SlotSem :=
  { plainSlot .l (some (f.gi, f.gp)) with
    enc := [(160, f.cls == 0), (128, f.z == 0)]
    eff := onCore (fun c => c.result .l 1 (.h f.h Handle.empty) 0)
    plain := true }

/-- The word that `hget` reports with SEL 0 (R162). -/
def Handle.word (h : Handle) : Word :=
  let b (x : Bool) (n : Nat) : Nat := if x then 2 ^ n else 0
  BitVec.ofNat 64 (b h.v 0 + b h.p 1 + b h.f 2 + b h.sz 3 + b h.rd 4 + b h.wr 5 + h.gen.toNat * 2 ^ 16)

/-- `hget` (R163): SEL 1 and 2 of a pending handle wait; SEL 1 reports a base of a valid handle only. -/
def semHget (f : HgetForm) : SlotSem :=
  { plainSlot .l (some (f.gi, f.gp)) with
    enc := [(160, f.cls == 0), (130, f.z == 0)]
    wait := fun s => if (f.sel = 1 ∨ f.sel = 2) ∧ (s.core.hreg f.h).p then some s else none
    check := fun _ => if f.sel = 3 then some (lBad 128) else none
    eff := onCore (fun c =>
      let h := c.hreg f.h
      let x : Word :=
        if f.sel = 0 then h.word
        else if f.sel = 1 then (if h.v then h.base.setWidth 64 else 0)
        else if h.isEmpty then 0 else h.vpage
      c.result .l 1 (.s f.d x) 0)
    plain := true }

/-! ### Drawer loads and stores (R165 to R167) -/

/-- The checks of a drawer access at issue, in R165's order, after the type code and the empty handle. -/
def drawerCheck (h : Handle) (hi : BitVec 4) (write : Bool) (off : Word) (size align : Nat) : Option Cause :=
  firstCause
    [(!h.isEmpty, precise .l 0x0C (hi.setWidth 64)),
      (!h.v || (if write then h.wr else h.rd), precise .l 0x0D (hi.setWidth 64)),
      (decide (off.toNat + size ≤ h.pageBytes), precise .l 0x0E off),
      (decide (off.toNat % align = 0), precise .l 0x0A off)]

/-- Is a load in fault service, so that issue freezes (R166, R252)? -/
def Core.holdsLoad (c : Core) : Bool := c.dacc.any (fun a => a.isLoad && a.again)

/-- A drawer access: form fields, size and alignment, whether it writes, and the access it makes (R165 to R167). Its handle
must not be pending, its counter not at 63, and for a store the side log not full. -/
def drawerSlot (g : LGuard) (cls : BitVec 4) (enc : List (Nat × Bool)) (bad : Option Cause) (reads : List PReg)
    (hi i : BitVec 4 × BitVec 6) (disp : BitVec 12) (write : Bool) (size align : Nat) (kind : Core → AccKind)
    (dest : Option PReg) : SlotSem :=
  let off (c : Core) : Word := c.sreg i.2 + disp.setWidth 64
  { plainSlot .l (some g) with
    enc := enc
    reads := .s i.2 :: reads
    early := fun s => bad.isSome || (s.core.hreg hi.1).isEmpty
    startWalks := fun s => s.useHandle hi.1
    wait := fun s =>
      let c := s.core
      match s.handleWait hi.1 with
      | some t => some t
      | none =>
        if 63 ≤ (if write then c.cnt.s else c.cnt.l) || (write && decide (256 ≤ c.slog.length)) then some s else none
    check := fun s =>
      match bad with
      | some k => some k
      | none => drawerCheck (s.core.hreg hi.1) hi.1 write (off s.core) size align
    eff := onCore (fun c =>
      let a : Access :=
        { id := c.nextAcc, ord := c.issueNo, opc := c.pc, cls, kind := kind c, h := c.hreg hi.1, off := off c
          st := .queued, after := [], again := false, fresh := false }
      let d := { c with
        dacc := c.dacc ++ [a]
        nextAcc := c.nextAcc + 1
        cnt := if write then { c.cnt with s := c.cnt.s + 1 } else { c.cnt with l := c.cnt.l + 1 } }
      match dest with
      | some r => d.makePending r
      | none => d) }

/-- A reserved type code of `ldh` and `sth` (R165). -/
def ldhBad (f : LdhForm) : Option Cause := if typeOk f.t then none else some (lBad 140)

/-- `ldh` (R165, R166). -/
def semLdh (f : LdhForm) : SlotSem :=
  drawerSlot (f.gi, f.gp) f.cls [] (ldhBad f) [] (f.h, 0) (0, f.i) f.disp false (typeWidth f.t / 8) (typeWidth f.t / 8)
    (fun _ => .ldh f.d f.t) (some (.s f.d))

/-- `sth` (R165, R167). -/
def semSth (f : LdhForm) : SlotSem :=
  drawerSlot (f.gi, f.gp) f.cls [] (ldhBad f) [.s f.d] (f.h, 0) (0, f.i) f.disp true (typeWidth f.t / 8)
    (typeWidth f.t / 8) (fun c => .sth (c.sreg f.d) (typeWidth f.t / 8)) none

/-- `ldvh` (R165, R166). -/
def semLdvh (f : LdvhForm) : SlotSem :=
  drawerSlot (f.gi, f.gp) f.cls [(140, f.z == 0)] none [] (f.h, 0) (0, f.i) f.disp false 128 8 (fun _ => .ldvh f.v)
    (some (.v f.v))

/-- `stvh` (R165, R167). -/
def semStvh (f : LdvhForm) : SlotSem :=
  drawerSlot (f.gi, f.gp) f.cls [(140, f.z == 0)] none [.v f.v] (f.h, 0) (0, f.i) f.disp true 128 8
    (fun c => .stvh (c.vreg f.v)) none

/-! ### Atomics (R168 to R171) -/

/-- The width in bits of code W (R168). -/
def atWidth (w : BitVec 2) : Nat := 32 <<< w.toNat

/-- The indivisible step (R170): new X, the condition, and the flags of `afadd`. -/
def atomicStep (op w x y b c : Nat) : Nat × Bool × Flags :=
  match op with
  | 0x30 => ((x + b) % 2 ^ w, false, 0)
  | 0x31 => (opMin w x b, false, 0)
  | 0x32 => (opMax w x b, false, 0)
  | 0x33 => (min x b, false, 0)
  | 0x34 => (max x b, false, 0)
  | 0x35 => (x &&& b, false, 0)
  | 0x36 => (x ||| b, false, 0)
  | 0x37 => (x ^^^ b, false, 0)
  | 0x38 => (b, false, 0)
  | 0x39 => (if x = c then b else x, x == c, 0)
  | 0x3A => (if x = y then x else (x + 1) % 2 ^ w, x != y, 0)
  | 0x3B => (if y ≠ 0 ∧ y ≤ x + 1 then 0 else (x + 1) % 2 ^ w, false, 0)
  | 0x3C => (if x ≠ 0 then x - 1 else x, x != 0, 0)
  | 0x3D => (if x + b ≤ y then x + b else x, decide (x + b ≤ y), 0)
  | _ =>
    let d := fun n => decodeFloat fmtFp32 n
    let r := roundTo fmtFp32 0 false (preAdd 0 (d x) (d b))
    (r.1, false, r.2)

/-- Does an atomic read the neighbouring word (R170)? -/
def atPair (op : BitVec 8) : Bool := op == 0x3A || op == 0x3B || op == 0x3D

/-- Is an address remote (R169)? -/
def isRemote (a : Word) : Bool := a.getLsbD 63

/-- The bytes an atomic must be aligned to (R170). -/
def atAlign (op : BitVec 8) (w : BitVec 2) : Nat := atWidth w / 8 * (if atPair op then 2 else 1)

/-- The access of a local atomic. -/
def atTouch (op : BitVec 8) (w : BitVec 2) (a : Word) : Touch :=
  ⟨a, atWidth w / 8 * (if atPair op then 2 else 1), atAlign op w⟩

/-- The checks of an atomic at issue (R168 to R170). -/
def atCheck (f : AtForm) (op : BitVec 8) (c : Core) : Option Cause :=
  let a := c.sreg f.a
  if 2 ≤ f.w.toNat || (op = 0x3E && f.w != 0) then some (lBad 134)
  else if isRemote a then
    firstCause
      [(field 54 9 a == 0 && field 20 24 a == 0, precise .l 0x0B a),
        (decide ((field 0 20 a).toNat % atAlign op f.w = 0), precise .l 0x0A a)]
  else
    match touchCause c [atTouch op f.w a] with
    | some k => some k
    | none => poisonRead c .l (touchWords [atTouch op f.w a])

/-- Remote atomics in flight (R171). -/
def Core.atomicsOut (c : Core) : Nat :=
  (c.dacc.filter (fun a => match a.kind with | .atomic .. => true | _ => false)).length

/-- An atomic of opcode `op`: local ones perform in the issue cycle, remote ones travel; d and pd are pending (R171).
Zero fields: C but for `acas`, PD without a predicate, B where no operand is taken (R168, R170). -/
def atSlot (f : AtForm) (op : BitVec 8) : SlotSem :=
  { plainSlot .l (some (f.gi, f.gp)) with
    enc := [(128, f.z == 0), (136, op == 0x39 || f.c == 0), (131, atPred op || f.pd == 0),
      (142, !(op == 0x3A || op == 0x3B || op == 0x3C) || f.b == 0)]
    reads := [.s f.a, .s f.b, .s f.c]
    wait := fun s =>
      let c := s.core
      if isRemote (c.sreg f.a) then (if 16 ≤ c.atomicsOut then some s else none) else classWait f.cls s
    words := fun s =>
      let a := s.core.sreg f.a
      if isRemote a then [] else touchWords [atTouch op f.w a]
    check := fun s => atCheck f op s.core
    eff := onCore (fun c =>
      let a := c.sreg f.a
      let w := atWidth f.w
      let b := (c.sreg f.b).toNat % 2 ^ w
      let cc := (c.sreg f.c).toNat % 2 ^ w
      let c1 := c.makePending (.s f.d)
      let c2 := if atPred op then c1.makePending (.p f.pd) else c1
      if isRemote a then
        let acc : Access :=
          { id := c.nextAcc, ord := c.issueNo, opc := c.pc, cls := f.cls
            kind := .atomic op f.w f.d f.pd (c.sreg f.b) (c.sreg f.c) a
            h := Handle.empty, off := (field 0 20 a).setWidth 64, st := .queued, after := [], again := false
            fresh := false }
        { c2 with dacc := c2.dacc ++ [acc], nextAcc := c2.nextAcc + 1 }
      else
        let x := c.spad.readN a.toNat (w / 8)
        let y := c.spad.readN (a.toNat + w / 8) (w / 8)
        let (n, ok, fl) := atomicStep op.toNat w x y b cc
        let c3 := (c2.store (storeAt a.toNat (w / 8) n)).lateResult .l c.issueNo 6 (.s f.d (BitVec.ofNat 64 x)) fl
        if atPred op then c3.lateResult .l c.issueNo 6 (.p f.pd ok) 0 else c3) }

/-- `aadd` (R170). -/
def semAadd (f : AtForm) : SlotSem := atSlot f 0x30
/-- `amin` (R170). -/
def semAmin (f : AtForm) : SlotSem := atSlot f 0x31
/-- `amax` (R170). -/
def semAmax (f : AtForm) : SlotSem := atSlot f 0x32
/-- `aminn` (R170). -/
def semAminn (f : AtForm) : SlotSem := atSlot f 0x33
/-- `amaxn` (R170). -/
def semAmaxn (f : AtForm) : SlotSem := atSlot f 0x34
/-- `aand` (R170). -/
def semAand (f : AtForm) : SlotSem := atSlot f 0x35
/-- `aor` (R170). -/
def semAor (f : AtForm) : SlotSem := atSlot f 0x36
/-- `axor` (R170). -/
def semAxor (f : AtForm) : SlotSem := atSlot f 0x37
/-- `aswp` (R170). -/
def semAswp (f : AtForm) : SlotSem := atSlot f 0x38
/-- `acas` (R170). -/
def semAcas (f : AtForm) : SlotSem := atSlot f 0x39
/-- `aincb` (R170). -/
def semAincb (f : AtForm) : SlotSem := atSlot f 0x3A
/-- `aincw` (R170). -/
def semAincw (f : AtForm) : SlotSem := atSlot f 0x3B
/-- `adecp` (R170). -/
def semAdecp (f : AtForm) : SlotSem := atSlot f 0x3C
/-- `afal` (R170). -/
def semAfal (f : AtForm) : SlotSem := atSlot f 0x3D
/-- `afadd` (R170). -/
def semAfadd (f : AtForm) : SlotSem := atSlot f 0x3E

/-! ### Fences (R174, R175, R254) -/

/-- The accesses of the classes in `mask` that have not performed (R174). -/
def Core.openAccesses (c : Core) (mask : BitVec 16) : List Nat :=
  (c.dacc.filter (fun a => a.open && mask.getLsbD a.cls.toNat)).map (·.id)

/-- `fence` (R174). -/
def semFence (f : FenceForm) : SlotSem :=
  { plainSlot .l (some (f.gi, f.gp)) with
    enc := [(160, f.cls == 0), (144, f.z == 0)]
    eff := onCore (fun c =>
      { c with fences := c.fences ++ [{ mask := f.mask, waits := c.openAccesses f.mask, ord := c.issueNo }] }) }

/-- Is a command a send for R254: `nsend`, `nrot`, `ngsend`, or a fired `nsendt`? -/
def Cmd.isSend (k : Cmd) : Bool :=
  match k.kind with
  | .nsend | .nrot | .ngsend => true
  | _ => false

/-- What a `fence.sc` waits for beside the strand's accesses (R254): the tile's copies, sends, `msend` rows and `kloc` requests with their
counts, but for sends that had not fired when it began to wait. Packets beyond an optical port are waited for in scope 4. -/
def State.fenceBusy (s : State) (scope : BitVec 3) (late : List Nat) : Bool :=
  let c := s.core
  let old (n : Nat) : Bool := !late.contains n
  let sent (n : Nat) (slot : Slot) : Bool := slot != .n || old n
  c.cnt.k != 0 || c.chn.queue.any Cmd.isSend || (match c.chn.exec with | some e => old e.cmd.ord | none => false) ||
    c.chn.fired.any (fun k => old k.ord) || c.mat.queue.any (fun k => k.kind == .msend) ||
    (match c.mat.epi with | some e => e.cmd.kind == .msend | none => false) ||
    s.net.any (fun p => p.src == s.cur && (p.kind ≤ 1 || p.kind == 5) && sent p.ord p.slot && (p.place != .peer || scope == 4)) ||
    s.arrivals.any (fun a => a.src == s.cur && sent a.ord a.slot)

/-- `fence.sc` (R175, R254). -/
def semFenceSc (f : FenceScForm) : SlotSem :=
  { plainSlot .l (some (f.gi, f.gp)) with
    enc := [(160, f.cls == 0), (131, f.z == 0)]
    wait := fun s =>
      let late := s.core.fenceLate.getD s.core.unfired
      if s.core.dacc.any Access.open || (f.scope != 0 && s.fenceBusy f.scope late) then
        some (s.setCore { s.core with fenceLate := some late })
      else none
    check := fun _ => if 5 ≤ f.scope.toNat then some (lBad 128) else none }

end Sys2Proof.Machine
end

