-- ==== Sys2Proof/Machine/EngineCmds.lean ====
section
/-! DEFINITION. The M, K and N slots: capture, the checks at enqueue and enqueue itself (08 R176 to R206). -/

namespace Sys2Proof.Machine

/-! ### Capture and the queues (R7, R8, R176) -/

/-- The number of engine commands a queue holds (R7). -/
def queueDepth : Nat := 16

/-- The first staging register of an engine's sixteen (R116). -/
def stgBase : Slot → Nat
  | .k => 16
  | .n => 32
  | _ => 0

/-- Staging register `i` of an engine as it stands. -/
def Core.stgOf (c : Core) (sl : Slot) (i : Nat) : Word := c.stg.toList.getD (stgBase sl + i) 0

/-- A command with all that it captures at enqueue (R8, R176), GTAB among it (DESIGN CHOICE, log 127). -/
def Core.capture (c : Core) (sl : Slot) (kind : CmdKind) (ops : BitVec 27) (fa fb : BitVec 4) : Cmd :=
  let cx6 := c.stgOf .k 6
  { ord := c.issueNo, opc := c.pc, kind, ops
    stg := (List.range 16).map (c.stgOf sl)
    fa := c.fmt fa, fb := c.fmt fb, gd := c.gd.toList, gtab := c.gtab
    sh := c.hreg (field 0 4 cx6), dh := c.hreg (field 5 4 cx6) }

/-- Staging register `i` as a command captured it. -/
def Cmd.reg (k : Cmd) (i : Nat) : Word := k.stg.getD i 0

/-- SD of a copy (R189). -/
def Cmd.sd (k : Cmd) : Bool := (k.reg 6).getLsbD 4

/-- DD of a copy (R189). -/
def Cmd.dd (k : Cmd) : Bool := (k.reg 6).getLsbD 9

/-- CLS of a copy's drawer accesses (R189). -/
def Cmd.cls (k : Cmd) : BitVec 4 := field 12 4 (k.reg 6)

/-- The queue of an engine slot. -/
def Core.queueOf (c : Core) : Slot → List Cmd
  | .m => c.mat.queue
  | .k => c.cpy.queue
  | .n => c.chn.queue
  | _ => []

/-- A command at the end of its engine's queue. -/
def Core.enqueue (c : Core) (sl : Slot) (k : Cmd) : Core :=
  match sl with
  | .m => { c with mat := { c.mat with queue := c.mat.queue ++ [k] } }
  | .k => { c with cpy := { c.cpy with queue := c.cpy.queue ++ [k] } }
  | .n => { c with chn := { c.chn with queue := c.chn.queue ++ [k] } }
  | _ => c

/-- TRAPINFO0 of a staging register's value: register `n` of R116's numbering, bit `b` (R177). -/
def stgBad (sl : Slot) (n b : Nat) : Cause := precise sl 0x05 (BitVec.ofNat 64 (0x400 + 64 * (stgBase sl + n) + b))

/-- Bits `lo` up, `n` of them, of a staging register are zero. -/
def resv (x : Word) (lo n : Nat) : Bool := x.toNat / 2 ^ lo % 2 ^ n == 0

/-- An engine slot: field checks, counter, check at enqueue and the effect on the core; it waits while its queue is full
or its counter stands at 63 (R7, R20). -/
def cmdSlot (sl : Slot) (enc : List (Nat × Bool)) (count : Counters → Nat) (check : State → Option Cause)
    (wait : State → Option State) (eff : Core → Core) : SlotSem :=
  { plainSlot sl none with
    enc := enc
    wait := fun s =>
      let c := s.core
      match wait s with
      | some t => some t
      | none => if queueDepth ≤ (c.queueOf sl).length || 63 ≤ count c.cnt then some s else none
    check := check
    eff := onCore eff }

/-! ### Group relations (R180, R266) -/

/-- The lowest bit of a group descriptor's first bad field, if any (R266). -/
def gdBad (g : Word) : Option Nat :=
  lowestBit
    [(0, (field 0 2 g).toNat ≤ 1), (2, resv g 2 3),
      (5, decide (1 ≤ (field 5 8 g).toNat ∧ (field 5 8 g).toNat ≤ 184)),
      (13, decide (1 ≤ (field 13 8 g).toNat ∧ (field 13 8 g).toNat ≤ 184)),
      (21, decide (1 ≤ (field 21 8 g).toNat ∧ (field 21 8 g).toNat ≤ 184)),
      (29, decide (1 ≤ (field 29 8 g).toNat ∧ (field 29 8 g).toNat ≤ 184)),
      (37, decide (1 ≤ (field 37 10 g).toNat)),
      (47, decide (1 ≤ (field 47 11 g).toNat ∧ (field 47 11 g).toNat ≤ 1024)), (58, resv g 58 6)]

/-- Is RELC a relation (R180)? -/
def relcOk (r : Nat) : Bool := r ≤ 2 || (16 ≤ r && r ≤ 31)

/-- Is SRC a descriptor or the group table (R180)? -/
def srcOk (r : Nat) : Bool := r ≤ 3 || r == 8

/-- The checks of a relation word (mx5, nx5): RELC, SRC and the descriptor SRC names (R180, R198, R266). -/
def relChecks (sl : Slot) (n : Nat) (x : Word) (gd : List Word) : List (Bool × Cause) :=
  let src := (field 8 4 x).toNat
  [(relcOk (field 0 8 x).toNat, stgBad sl n 0), (srcOk src, stgBad sl n 8),
    (!(src ≤ 3) || (gdBad (gd.getD src 0)).isNone,
      precise sl 0x05 (BitVec.ofNat 64 (0x1000 + 64 * src + (gdBad (gd.getD src 0)).getD 0)))]

/-! ### M commands (R180 to R188) -/

/-- The accumulator an M command names, [26:25] (R181). -/
def accOf (ops : BitVec 27) : BitVec 2 := field 25 2 ops

/-- A command joins its accumulator's owner set; one that changes elements sets the watermark to 0 (R139). -/
def Core.own (c : Core) (a : BitVec 2) (changes : Bool) : Core :=
  { c with
    owners := c.owners.set a.toFin (c.owners.get a.toFin ++ [(c.issueNo, changes)])
    wmarks := if changes then c.wmarks.set a.toFin 0 else c.wmarks }

/-- The M counter raised (R20). -/
def Core.raiseM (c : Core) : Core := { c with cnt := { c.cnt with m := c.cnt.m + 1 } }
/-- The K counter raised (R20). -/
def Core.raiseK (c : Core) : Core := { c with cnt := { c.cnt with k := c.cnt.k + 1 } }
/-- The N counter raised (R20). -/
def Core.raiseN (c : Core) : Core := { c with cnt := { c.cnt with n := c.cnt.n + 1 } }

/-- An M command: absent on the management core (R102). -/
def mSlot (op : Nat) (enc : List (Nat × Bool)) (check : Core → Option Cause) (eff : Core → Core) : SlotSem :=
  { cmdSlot .m enc Counters.m (fun s => check s.core) (fun _ => none) (fun c => (eff c).raiseM) with
    absent := noArray .m op }

/-- 2^e exactly represented in BF16's range: is a float entry exact to BF16 (R54)? -/
def exactBf16 (e : BitVec 32) : Bool :=
  let t := fmtTarget e
  fmtIsFloat e && fmtFW e ≤ 7 && decide ((t.maxM.log2 : Int) + t.maxE ≤ 127) &&
    decide (-133 ≤ 1 - fmtBias e - (fmtFW e : Int))

/-- May an entry feed B (R55)? -/
def bFormatOk (e : BitVec 32) : Bool :=
  (exactBf16 e && fmtStoreCode e ≤ 2) || ((fmtKind e == 3 || fmtKind e == 4) && fmtStoreCode e == 0) ||
    fmtKind e == 5

/-- The B slot bytes of an `mma` (R182). -/
def bBytes (e : BitVec 32) (sp gx : Bool) (n : Nat) : Nat :=
  if fmtStore e = 16 then 2048
  else if fmtStore e = 8 then 1024
  else if sp then 128 + 8 * n
  else if gx then 528 else 512

/-- The checks of `mma`, in R182's order; reserved bits of a register that it names come before what R182 says of the register (DESIGN
CHOICE, log 129). -/
def mmaCheck (ops : BitVec 27) (c : Core) : Option Cause :=
  let fa := c.fmt (field 15 4 ops)
  let fb := c.fmt (field 11 4 ops)
  let sp := ops.getLsbD 9
  let gx := ops.getLsbD 8
  let mx0 := c.stgOf .m 0
  let mx1 := c.stgOf .m 1
  let p := (field 0 13 mx0).toNat
  let n := (field 0 6 mx1).toNat
  let ga : BitVec 3 := field 22 3 ops
  let gb : BitVec 3 := field 19 3 ops
  let ra := c.rings.get ga.toFin
  let rb := c.rings.get gb.toFin
  let bad (bit : Nat) : Cause := badField .m bit
  let misuse (g : BitVec 3) : Cause := precise .m 0x10 (g.setWidth 64)
  firstCause
    [((field 4 4 ops).toNat ≤ 3, bad 76),
      (fmtV fa, badEntry .m (field 15 4 ops).toNat), (fmtV fb, badEntry .m (field 11 4 ops).toNat),
      (exactBf16 fa && fmtStore fa == 16, bad 87), (bFormatOk fb, bad 83),
      (!sp || fmtStore fb == 4, bad 81),
      (!gx || (fmtStore fb == 4 && !sp), bad 80),
      (resv mx0 13 51, stgBad .m 0 13),
      (1 ≤ p && p ≤ 4096, stgBad .m 0 0),
      (!sp || resv mx1 6 58, stgBad .m 1 6),
      (!sp || n == 8 || n == 16 || n == 32, stgBad .m 1 0),
      (ra.count != 0, misuse ga), (rb.count != 0, misuse gb), (ga != gb, misuse ga),
      (decide (2048 ≤ ra.size * 128), misuse ga),
      (decide (bBytes fb sp gx n ≤ rb.size * 128), misuse gb)]

/-- `mma` (R181, R182). -/
def semMma (f : MForm) : SlotSem :=
  mSlot 1 [(72, field 0 4 f.ops == 0)] (mmaCheck f.ops)
    (fun c => (c.enqueue .m (c.capture .m .mma f.ops (field 15 4 f.ops) (field 11 4 f.ops))).own (accOf f.ops) true)

/-- `mepi` (R59, R181, R185). -/
def semMepi (f : MForm) : SlotSem :=
  mSlot 2 [(91, field 19 6 f.ops == 0), (72, field 0 6 f.ops == 0)]
    (fun c =>
      let e := c.fmt (field 15 4 f.ops)
      lowestCause
        [((field 12 3 f.ops).toNat ≤ 4, badField .m 84), (fmtV e, badEntry .m (field 15 4 f.ops).toNat),
          (!fmtV e || (fmtKind e ≤ 4 && 8 ≤ fmtStore e), badField .m 87), (resv (c.stgOf .m 2) 36 28, stgBad .m 2 36)])
    (fun c => (c.enqueue .m (c.capture .m .mepi f.ops (field 15 4 f.ops) 0)).own (accOf f.ops) false)

/-- `msend` (R181, R186). -/
def semMsend (f : MForm) : SlotSem :=
  mSlot 3 [(72, field 0 25 f.ops == 0)]
    (fun c =>
      let mx3 := c.stgOf .m 3
      let mx4 := c.stgOf .m 4
      let mx5 := c.stgOf .m 5
      let rel := if mx5.getLsbD 15 then
          relChecks .m 5 mx5 c.gd.toList ++ [(resv mx5 12 3, stgBad .m 5 12), (resv mx5 24 40, stgBad .m 5 24)]
        else []
      lowestCause ([(field 10 2 mx3 != 3, stgBad .m 3 10), (resv mx3 12 52, stgBad .m 3 12),
        (resv mx4 20 12, stgBad .m 4 20), (resv mx4 52 12, stgBad .m 4 52)] ++ rel))
    (fun c => (c.enqueue .m (c.capture .m .msend f.ops 0 0)).own (accOf f.ops) false)

/-- `mred` (R181, R187). -/
def semMred (f : MForm) : SlotSem :=
  mSlot 4 [(72, field 0 23 f.ops == 0)]
    (fun c =>
      lowestCause [(field 23 2 f.ops != 3, badField .m 95), (resv (c.stgOf .m 4) 20 12, stgBad .m 4 20),
        (resv (c.stgOf .m 4) 52 12, stgBad .m 4 52), (resv (c.stgOf .m 6) 32 32, stgBad .m 6 32)])
    (fun c => (c.enqueue .m (c.capture .m .mred f.ops 0 0)).own (accOf f.ops) true)

/-- `mclr` (R181, R188). -/
def semMclr (f : MForm) : SlotSem :=
  mSlot 5 [(72, field 0 25 f.ops == 0)] (fun _ => none)
    (fun c => (c.enqueue .m (c.capture .m .mclr f.ops 0 0)).own (accOf f.ops) true)

/-- `mstat`: d is pending from enqueue (R188). -/
def semMstat (f : MForm) : SlotSem :=
  mSlot 6 [(72, field 0 21 f.ops == 0)] (fun _ => none)
    (fun c => (c.enqueue .m (c.capture .m .mstat f.ops 0 0)).makePending (.s (field 21 6 f.ops)))

/-! ### K commands (R189 to R197) -/

/-- The bits of a K command below its opcode. -/
def kOps (f : KForm) : BitVec 27 := f.aws ++ f.ring ++ f.swz ++ f.ops

/-- The shot-down handles that a K command names start their walks (R162, R413). -/
def kWalks (s : State) : State :=
  let cx6 := s.core.stgOf .k 6
  let t := if cx6.getLsbD 4 then s.useHandle (field 0 4 cx6) else s
  if cx6.getLsbD 9 then t.useHandle (field 5 4 cx6) else t

/-- A K command that names a pending handle waits; shot-down ones start their walks (R162, R176). -/
def kPending (s : State) : Option State :=
  let cx6 := s.core.stgOf .k 6
  let t := kWalks s
  if (cx6.getLsbD 4 && (t.core.hreg (field 0 4 cx6)).p) || (cx6.getLsbD 9 && (t.core.hreg (field 5 4 cx6)).p) then some t
  else none

/-- The checks of R190 in its order: the reserved bits `resvs` of the registers read and those of cx6, SD and DD as the command
allows them, CFG, then the ranges of its operands. -/
def kChecks (sdOk ddOk cfgOk : Bool) (resvs ranges : List (Bool × Cause)) (c : Core) : List (List (Bool × Cause)) :=
  let cx6 := c.stgOf .k 6
  [(resv cx6 16 48, stgBad .k 6 16) :: resvs,
    [(sdOk || !cx6.getLsbD 4, stgBad .k 6 4), (ddOk || !cx6.getLsbD 9, stgBad .k 6 9)],
    [(cfgOk || !cx6.getLsbD 11, stgBad .k 6 11)], ranges]

/-- The reserved bits of cx2 (R189). -/
def kResv (c : Core) : List (Bool × Cause) := [(resv (c.stgOf .k 2) 48 16, stgBad .k 2 48)]

/-- Rows and bytes in range (R189, R190). -/
def kShape (c : Core) : List (Bool × Cause) :=
  let cx2 := c.stgOf .k 2
  [(field 32 16 cx2 != 0, stgBad .k 2 32),
    (1 ≤ (field 0 32 cx2).toNat && (field 0 32 cx2).toNat ≤ 1048576, stgBad .k 2 0)]

/-- A K command. -/
def kSlot (f : KForm) (kind : CmdKind) (enc : List (Nat × Bool)) (check : Core → List (List (Bool × Cause))) : SlotSem :=
  { cmdSlot .k enc Counters.k (fun s => listedCause (check s.core)) kPending
      (fun c => (c.enqueue .k (c.capture .k kind (kOps f) 0 0)).raiseK) with
    startWalks := kWalks }

/-- RING and SWZ zero (R100). -/
def kZero (f : KForm) : List (Nat × Bool) := [(61, f.ring == 0), (57, f.swz == 0)]

/-- `kcpy` (R190). -/
def semKcpy (f : KForm) : SlotSem :=
  kSlot f .kcpy (kZero f ++ [(40, f.ops == 0)]) (fun c => kChecks true true false (kResv c) (kShape c) c)

/-- `kput`: the channel in K [16:7] (R190). -/
def semKput (f : KForm) : SlotSem :=
  kSlot f .kput (kZero f ++ [(40, field 0 7 f.ops == 0)]) (fun c => kChecks false false false (kResv c) (kShape c) c)

/-- `kloc`: the channel in K [16:7] (R190). -/
def semKloc (f : KForm) : SlotSem :=
  kSlot f .kloc (kZero f ++ [(40, field 0 7 f.ops == 0)]) (fun c => kChecks false false false (kResv c) (kShape c) c)

/-- `kzero`: no source (R190). -/
def semKzero (f : KForm) : SlotSem :=
  kSlot f .kzero (kZero f ++ [(40, f.ops == 0)]) (fun c => kChecks false true false (kResv c) (kShape c) c)

/-- The canonical code of `kdec`: the value of `code` after lengths 1 to 12 (R197). -/
def kdecFinal (len : Word) : Nat :=
  (List.range 12).foldl (fun code i =>
    (code + ((List.range 16).filter (fun s => (field (4 * s) 4 len).toNat == i + 1)).length) * 2) 0

/-- `kdec`: NR 1, COUNT at least 1, code lengths at most 12 that form a complete code (R190, R197). -/
def semKdec (f : KForm) : SlotSem :=
  kSlot f .kdec (kZero f ++ [(40, f.ops == 0)])
    (fun c =>
      let cx2 := c.stgOf .k 2
      let cx5 := c.stgOf .k 5
      let cx7 := c.stgOf .k 7
      let long := (List.range 16).find? (fun s => decide (12 < (field (4 * s) 4 cx5).toNat))
      kChecks true false false ((resv cx7 20 44, stgBad .k 7 20) :: kResv c)
          [(field 32 16 cx2 == 1, stgBad .k 2 32), (field 0 20 cx7 != 0, stgBad .k 7 0)] c ++
        [[(long.isNone, stgBad .k 5 (4 * long.getD 0))], [(kdecFinal cx5 == 8192, stgBad .k 5 0)]])

/-- Does a command name ring `g`? -/
def Cmd.namesRing (k : Cmd) (g : BitVec 3) : Bool :=
  match k.kind with
  | .mma => field 22 3 k.ops == g || field 19 3 k.ops == g
  | .kfill => field 21 3 k.ops == g
  | _ => false

/-- A command in the M or K queue, or in execution, names ring `g` (R196). -/
def Core.ringBusy (c : Core) (g : BitVec 3) : Bool :=
  c.mat.queue.any (·.namesRing g) || c.cpy.queue.any (·.namesRing g) ||
    (match c.mat.exec with | some e => e.cmd.namesRing g | none => false) ||
    (match c.cpy.exec with | some e => e.cmd.namesRing g | none => false)

/-- CFG of cx6. -/
def Core.cfg (c : Core) : Bool := (c.stgOf .k 6).getLsbD 11

/-- The checks of a `kfill` with CFG: the new geometry's bounds and a ring that nothing uses (R196). -/
def kfillCfgCheck (f : KForm) (c : Core) : Option Cause :=
  let cx7 := c.stgOf .k 7
  let base := (field 0 20 cx7).toNat
  let size := (field 20 10 cx7).toNat
  let count := (field 32 7 cx7).toNat
  let r := c.rings.get f.ring.toFin
  let geo : List (Bool × Cause) :=
    if count = 0 then []
    else
      (match firstCause
          [(decide (1 ≤ size ∧ size ≤ 512), stgBad .k 7 20), (decide (count ≤ 64), stgBad .k 7 32),
            (decide (base % 128 = 0), stgBad .k 7 0),
            (decide (base + size * 128 * count ≤ c.spend), stgBad .k 7 0)] with
        | some k => [(false, k)]
        | none => [])
  listedCause ([(decide (f.swz.toNat ≤ 3), badField .k 57)] ::
    kChecks true false true [(resv cx7 39 25, stgBad .k 7 39), (resv cx7 30 2, stgBad .k 7 30)] [] c ++
    [[(r.fill == 0 && !c.ringBusy f.ring, precise .k 0x10 (f.ring.setWidth 64))], geo])

/-- Ring `g` configured from cx7: head and tail 0, empty, tags 0 (R196, R211). -/
def Core.configureRing (c : Core) (g : BitVec 3) : Core :=
  let cx7 := c.stgOf .k 7
  let count := (field 32 7 cx7).toNat
  { c with
    rings := c.rings.set g.toFin
      { Ring.empty with
        count := count
        size := if count = 0 then 0 else (field 20 10 cx7).toNat
        base := if count = 0 then 0 else (field 0 20 cx7).toNat } }

/-- The checks of a `kfill` without CFG (R190, R196, R100). -/
def kfillCheck (f : KForm) (c : Core) : Option Cause :=
  let cx2 := c.stgOf .k 2
  let r := c.rings.get f.ring.toFin
  listedCause ([(decide (f.swz.toNat ≤ 3), badField .k 57)] :: kChecks true false true (kResv c) (kShape c) c ++
    [[(r.count != 0 && decide ((field 32 16 cx2).toNat * (field 0 32 cx2).toNat ≤ r.size * 128),
      precise .k 0x10 (f.ring.setWidth 64))]])

/-- `kfill`: a fill, or with CFG = 1 a configuration at the boundary that begins issue + 1 (R196). -/
def kfillSlot (f : KForm) : SlotSem :=
  { cmdSlot .k [(40, f.ops == 0)] Counters.k
      (fun s => if s.core.cfg then kfillCfgCheck f s.core else kfillCheck f s.core) kPending
      (fun c =>
        let d := (c.enqueue .k (c.capture .k .kfill (kOps f) 0 0)).raiseK
        if c.cfg then d.configureRing f.ring else d) with
    startWalks := kWalks }

/-- `kfill` (R196). -/
def semKfill (f : KForm) : SlotSem := kfillSlot f

/-- The CFG = 1 form of `kfill` (R196); with CFG = 0 the same words are a fill. -/
def semKfillConfigure (f : KForm) : SlotSem := kfillSlot f

/-! ### N commands (R198 to R206) -/

/-- The bits of an N command below its opcode. -/
def nOps (f : NForm) : BitVec 27 := f.ch ++ f.aws ++ f.pm ++ f.ops

/-- The arrival-word register nx8 to nx15 of AWS. -/
def nAw (f : NForm) : Nat := 8 + f.aws.toNat

/-- An N command; `counts` when it raises N, `check` in the order of R199. -/
def nSlot (f : NForm) (kind : CmdKind) (counts : Bool) (enc : List (Nat × Bool))
    (check : Core → List (List (Bool × Cause))) (post : Core → Core := id) : SlotSem :=
  cmdSlot .n enc (fun k => if counts then k.n else 0) (fun s => listedCause (check s.core)) (fun _ => none)
    (fun c =>
      let d := c.enqueue .n (c.capture .n kind (nOps f) 0 0)
      post (if counts then d.raiseN else d))

/-- PM and bits [11:0] zero (R100). -/
def nPlain (f : NForm) : List (Nat × Bool) := [(20, f.pm == 0), (8, f.ops == 0)]

/-- CH and AWS zero (R100). -/
def nNoCh (f : NForm) : List (Nat × Bool) := [(25, f.ch == 0), (22, f.aws == 0)]

/-- LADDR's reserved bits. -/
def nLaddr (c : Core) : Bool × Cause := (resv (c.stgOf .n 0) 20 44, stgBad .n 0 20)

/-- The reserved bits of the registers that every send reads: nx0, nx1, nx6 and nxA (R198). -/
def nSendResv (f : NForm) (c : Core) : List (Bool × Cause) :=
  [nLaddr c, (resv (c.stgOf .n 1) 32 32, stgBad .n 1 32), (resv (c.stgOf .n 6) 20 44, stgBad .n 6 20),
    (resv (c.stgOf .n (nAw f)) 20 43, stgBad .n (nAw f) 20)]

/-- BYTES of a send in range (R199). -/
def nSendBytes (c : Core) : List (Bool × Cause) :=
  let n := (field 0 32 (c.stgOf .n 1)).toNat
  [(1 ≤ n && n ≤ 1048576, stgBad .n 1 0)]

/-- EN of nxA is required (R199). -/
def nAwRequired (f : NForm) (c : Core) : Bool × Cause :=
  ((c.stgOf .n (nAw f)).getLsbD 63, stgBad .n (nAw f) 63)

/-- QID in range (R199). -/
def nQid (c : Core) : Bool × Cause :=
  (decide ((c.stgOf .n 4).toNat < 131072), precise .n 0x1C (c.stgOf .n 4))

/-- `nsend` (R199, R200). -/
def semNsend (f : NForm) : SlotSem := nSlot f .nsend true (nPlain f) (fun c => [nSendResv f c, nSendBytes c])

/-- `nsendt` (R199, R202). -/
def semNsendt (f : NForm) : SlotSem :=
  nSlot f .nsendt true (nPlain f) (fun c =>
    [nSendResv f c ++ [(resv (c.stgOf .n 2) 20 44, stgBad .n 2 20), (resv (c.stgOf .n 3) 32 32, stgBad .n 3 32)],
      nSendBytes c])

/-- `npost`: with BYTES 0 nxA is not read (R199, R201). -/
def semNpost (f : NForm) : SlotSem :=
  nSlot f .npost false (nPlain f) (fun c =>
    let nx1 := c.stgOf .n 1
    let reads := field 0 32 nx1 != 0
    [[nLaddr c, (resv nx1 32 32, stgBad .n 1 32), (!reads || resv (c.stgOf .n (nAw f)) 20 43, stgBad .n (nAw f) 20)],
      [(!reads || (nAwRequired f c).1, (nAwRequired f c).2)],
      [(decide ((field 0 32 nx1).toNat ≤ 0xC0000), stgBad .n 1 0)]])

/-- `npush` (R199, R205). -/
def semNpush (f : NForm) : SlotSem := nSlot f .npush true (nPlain f ++ nNoCh f) (fun c => [[nQid c], [nLaddr c]])

/-- `npop`: pd in [11:9]; s56 to s63 and pd are pending from enqueue (R199, R206). -/
def semNpop (f : NForm) : SlotSem :=
  nSlot f .npop false (nNoCh f ++ [(8, field 0 9 f.ops == 0)])
    (fun c => [[(decide (f.pm.toNat ≤ 1), badField .n 20)], [nQid c]])
    (fun c => ((List.range 8).foldl (fun d i => d.makePending (.s (BitVec.ofNat 6 (56 + i)))) c).makePending
      (.p (field 9 3 f.ops)))

/-- `nrot` (R199, R203). -/
def semNrot (f : NForm) : SlotSem :=
  nSlot f .nrot true (nPlain f) (fun c => [nSendResv f c, [nAwRequired f c], nSendBytes c])

/-- `ngsend` (R199, R204). -/
def semNgsend (f : NForm) : SlotSem :=
  nSlot f .ngsend true (nPlain f) (fun c =>
    let nx5 := c.stgOf .n 5
    [nSendResv f c ++ [(resv nx5 12 4, stgBad .n 5 12), (resv nx5 24 40, stgBad .n 5 24)],
      relChecks .n 5 nx5 c.gd.toList, nSendBytes c])

/-- `nclose` (R199, R205). -/
def semNclose (f : NForm) : SlotSem := nSlot f .nclose false (nPlain f ++ nNoCh f) (fun c => [[nQid c]])

/-- `ndisarm` (R199, R202). -/
def semNdisarm (f : NForm) : SlotSem := nSlot f .ndisarm false (nPlain f ++ [(22, f.aws == 0)]) (fun _ => [])

end Sys2Proof.Machine
end

