-- ==== Sys2Proof/Machine/Special.lean ====
section
/-! DEFINITION. Special registers: what a read answers, and `get`, `set`, `gets` and `sets` (01 R10, 05 R114, 23 R400).
What a write of a system register does is in SysRegs. -/

namespace Sys2Proof.Machine

/-! ### User special registers (R10) -/

/-- The map of field `f` (R359). -/
def State.fieldMap (s : State) (f : Nat) : FieldMap := Tab.getD s.fields f FieldMap.fresh

/-- CNTS (R20). -/
def Counters.word (k : Counters) : Word :=
  BitVec.ofNat 64 (min 63 k.l + min 63 k.s * 2 ^ 6 + min 63 k.k * 2 ^ 12 + min 63 k.m * 2 ^ 18 + min 63 k.n * 2 ^ 24)

/-- TRAPCAUSE (R10). -/
def TrapRegs.causeWord (t : TrapRegs) : Word := (if t.inH then 128 else 0) + t.cause.setWidth 64

/-- TRAPVEC (R10). -/
def TrapRegs.vecWord (t : TrapRegs) : Word := (if t.en then 0x8000 else 0) + t.vec.setWidth 64

/-- The value of user special register `n` on the current core; `none` for an unassigned number (R10, R397). -/
def State.readUser (s : State) (n : Nat) : Option Word :=
  let c := s.core
  let p := c.pos
  if 0x010 ≤ n ∧ n ≤ 0x017 then some ((p.loopc.toList.getD (n - 0x010) 0).setWidth 64)
  else if 0x018 ≤ n ∧ n ≤ 0x01F then some ((p.loopt.toList.getD (n - 0x018) 0).setWidth 64)
  else if 0x040 ≤ n ∧ n ≤ 0x043 then some (c.gd.toList.getD (n - 0x040) 0 &&& 0x03FFFFFFFFFFFFE3)
  else
    match n with
    | 0x000 => some (p.x.setWidth 64)
    | 0x001 => some (p.y.setWidth 64)
    | 0x002 => some (field 0 10 s.sys.modRank |>.setWidth 64)
    | 0x003 => some (p.ctx.setWidth 64)
    | 0x004 => some (if c.isMgmt then 0xFFFF else BitVec.ofNat 64 (tidOf p.x.toNat p.y.toNat))
    | 0x005 => some (p.gangW.setWidth 64)
    | 0x006 => some (p.gangH.setWidth 64)
    | 0x007 => some (BitVec.ofNat 64 (p.orgX.toNat + p.orgY.toNat * 256))
    | 0x020 => some (BitVec.ofNat 64 s.cycle)
    | 0x021 => some (c.fstat.setWidth 64)
    | 0x022 => some c.zbase
    | 0x023 => some (c.depth.setWidth 64)
    | 0x024 => some c.cnt.word
    | 0x030 => some c.trap.vecWord
    | 0x031 => some (c.trap.pc.setWidth 64)
    | 0x032 => some c.trap.causeWord
    | 0x033 => some c.trap.info0
    | 0x034 => some c.trap.info1
    | 0x044 => some c.gtab
    | 0x050 => some c.wdog
    | 0x051 => some (if c.isMgmt then 0 else (s.fieldMap (fieldOf s.cur)).gen.setWidth 64)
    | _ => none

/-- May `set` write user special register `n` (R10)? -/
def userWritable (n : Nat) : Bool :=
  n == 0x021 || n == 0x022 || n == 0x023 || n == 0x030 || n == 0x031 || (decide (0x040 ≤ n) && decide (n ≤ 0x044)) ||
    n == 0x050

/-- A `set` that lands: each register keeps its writable fields (R10, R114). -/
def Core.writeUser (c : Core) (n : Nat) (x : Word) : Core :=
  match n with
  | 0x021 => { c with fstat := field 0 7 x }
  | 0x022 => { c with zbase := x &&& ~~~31 }
  | 0x023 => { c with depth := field 0 5 x }
  | 0x030 => { c with trap := { c.trap with en := x.getLsbD 15, vec := field 0 13 x } }
  | 0x031 => { c with trap := { c.trap with pc := field 0 13 x } }
  | 0x040 => { c with gd := c.gd.set 0 x }
  | 0x041 => { c with gd := c.gd.set 1 x }
  | 0x042 => { c with gd := c.gd.set 2 x }
  | 0x043 => { c with gd := c.gd.set 3 x }
  | 0x044 => { c with gtab := x }
  | 0x050 => { c with wdog := x }
  | _ => c

/-! ### System registers, read (R400) -/

/-- Optional row or column as a valid bit and its number (R360). -/
def mapEntry : Option Nat → Nat
  | some p => 32 + p
  | none => 0

/-- FMAP of the selected field (R360). -/
def FieldMap.word (m : FieldMap) : Word :=
  BitVec.ofNat 64 (mapEntry m.colA + mapEntry m.colB * 2 ^ 8 + mapEntry m.rowA * 2 ^ 16 + mapEntry m.rowB * 2 ^ 24 +
    m.gen.toNat * 2 ^ 32)

/-- The bits of local row `ly` of a list of field-local tiles, 23 × ly + lx (R361, R362). -/
def rowBits (l : List Nat) (ly : Nat) : Nat :=
  ((List.range 23).filter (fun lx => l.contains (23 * ly + lx))).foldl (fun a lx => a + 2 ^ lx) 0

/-- Entry `i` of a link's slot table, active or shadow bank; 0x7F until written (R339). -/
def State.slotEntry (s : State) (active : Bool) (link i : Nat) : BitVec 8 :=
  Tab.getD (if active then s.slotsA else s.slotsS) (1024 * link + i) 0x7F

/-- The reserved bits of DSC_D0 to DSC_D3 while a context descriptor is selected, or a queue descriptor: they read as zero (R5, R283,
R320). -/
def dscReserved (ctx : Bool) : List Word :=
  if ctx then [0x00000000FFFFF01E, 0xFFFFFFFFFFFFFFFF, 0x00000000000FFF00, 0] else [0xFFFFFFFFFFFFFC00, 0xFFC0000000000000, 0, 0]

/-- The bits of DSC_D0 to DSC_D3 that a write leaves alone while a context descriptor is selected: STATE and TGEN (R5, R320). -/
def dscReadOnly (ctx : Bool) : List Word := if ctx then [0x0000000000000F00, 0, 0x00000000FFF00000, 0] else [0, 0, 0, 0]

/-- SLT_DATA as SLT_ADDR selects it (R340); bit 7 of an entry is reserved and reads as zero (R5, R339). -/
def State.sltData (s : State) : Word :=
  let a := s.sys.sltAddr
  let link := (field 16 7 a).toNat
  if 112 ≤ link then 0
  else BitVec.ofNat 64 (packFrom 8 (fun k => (s.slotEntry (a.getLsbD 23) link (8 * (field 0 7 a).toNat + k)).toNat % 128) 8 0)

/-- LNK_STAT as LNK_SEL selects it (R346). -/
def State.lnkStat (s : State) : Word :=
  let n := (field 0 7 s.sys.lnkSel).toNat
  if 112 ≤ n then 0
  else
    let l := s.link n
    BitVec.ofNat 64 (l.st.toNat + l.lat % 2 ^ 11 * 2 ^ 32 + l.retr * 2 ^ 48)

/-- Optical port `p` as it stands. -/
def State.portAt (s : State) (p : Nat) : Port := Tab.getD s.ports p Port.fresh

/-- OPT_STAT as OPT_SEL selects it (R407). -/
def State.optStat (s : State) : Word :=
  let n := (field 0 6 s.sys.optSel).toNat
  if 56 ≤ n then 0
  else
    let p := s.portAt n
    BitVec.ofNat 64 (p.state.toNat + (if p.hint then 4 else 0) + p.bctx.toNat * 2 ^ 8 +
      (if p.bnd then 2 ^ 14 else 0) + p.pmod.toNat * 2 ^ 16 + p.pport.toNat * 2 ^ 26)

/-- EVT_LAST as it can be seen: an event stamped in this cycle is visible from the next (R381). -/
def State.visibleLast (s : State) : Word := if s.stampedNow then s.sys.evtLast - 1 else s.sys.evtLast

/-- FB_PTR (R312). -/
def SysRegs.fbPtr (r : SysRegs) : Word :=
  BitVec.ofNat 64 (r.cons.toNat + r.prod.toNat * 2 ^ 16 + r.fgen.toNat * 2 ^ 48)

/-- BWCnn as it reads: the newest written value (R342). -/
def State.bwcRead (s : State) (n : Nat) : Word :=
  match Tab.get? s.bwcNext n with
  | some x => x
  | none => Tab.getD s.bwc n 0

/-- THROT_Fnn as it reads (R395). -/
def State.throttleRead (s : State) (f : Nat) : Word :=
  let t := Tab.getD s.throttles f { k := 0, next := none }
  BitVec.ofNat 64 (t.next.getD t.k)

/-- The value of system register `n`; `none` for an unassigned number (R400). Write-only registers read 0. -/
def State.readSys (s : State) (n : Nat) : Option Word :=
  let r := s.sys
  let core := s.coreAt mgmtCore
  let sel := (field 0 6 r.repSel).toNat
  let lrow := (field 8 5 r.repSel).toNat
  if 0x810 ≤ n ∧ n ≤ 0x817 then some (r.bbRd.toList.getD (n - 0x810) 0)
  else if 0x818 ≤ n ∧ n ≤ 0x81C then some (r.bbWr.toList.getD (n - 0x818) 0)
  else if 0x831 ≤ n ∧ n ≤ 0x834 then some (r.dscD.toList.getD (n - 0x831) 0 &&& ~~~(dscReserved (r.dscSel.getLsbD 63)).getD (n - 0x831) 0)
  else if 0x880 ≤ n ∧ n ≤ 0x8BF then some (s.bwcRead (n - 0x880))
  else if 0x8C0 ≤ n ∧ n ≤ 0x8FF then some (s.throttleRead (n - 0x8C0))
  else if 0x900 ≤ n ∧ n ≤ 0x93F then some (Tab.getD s.sens (n - 0x900) 0)
  else
    match n with
    | 0x800 => some ((if core.sysMode then 1 else 0) + (if core.pmode then 2 else 0))
    | 0x801 => some s.visibleLast
    | 0x802 => some r.evtAck
    | 0x803 => some r.evtMask
    | 0x804 => some r.wake
    | 0x808 => some r.bbIdx
    | 0x81D => some 0
    | 0x820 => some r.sdVa
    | 0x821 => some r.sdCtl
    | 0x824 => some r.fbBase
    | 0x825 => some r.fbPtr
    | 0x826 => some 0
    | 0x828 => some r.slogCfg
    | 0x82C => some r.preCtl
    | 0x830 => some r.dscSel
    | 0x835 => some r.dscCtl
    | 0x838 => some r.atbSel
    | 0x839 => some r.atbD0
    | 0x83A => some r.atbD1
    | 0x83B => some r.atbCtl
    | 0x83C => some r.lnchAge
    | 0x840 => some r.drwCap
    | 0x841 => some r.sltAddr
    | 0x842 => some s.sltData
    | 0x843 => some r.sltCtl
    | 0x844 => some r.lnkSel
    | 0x845 => some s.lnkStat
    | 0x848 => some r.repSel
    | 0x849 => some (s.fieldMap sel).word
    | 0x84A => some (if 23 ≤ lrow then 0 else BitVec.ofNat 64 (rowBits (s.fieldMap sel).holes lrow))
    | 0x84B =>
      some (if 23 ≤ lrow then 0
        else BitVec.ofNat 64 (rowBits (s.fieldMap sel).deadE lrow + rowBits (s.fieldMap sel).deadS lrow * 2 ^ 32))
    | 0x84C => some 0
    | 0x850 => some r.optSel
    | 0x851 => some s.optStat
    | 0x852 => some r.modRank
    | 0x858 => some r.fpwrEn
    | 0x859 => some r.fpwrSt
    | 0x85A => some r.thermCfg
    | _ => none

/-- The value of any special register on the current core (R114). -/
def State.readSpecial (s : State) (n : Nat) : Option Word := if n < 0x800 then s.readUser n else s.readSys n

/-! ### The instructions (R114) -/

/-- The number in IMM18 [11:0]. -/
def sprNum (f : IForm) : BitVec 12 := field 0 12 f.imm

/-- Field checks of the four: IMM18 [17:12] and B zero, and the field the instruction does not use. -/
def sprEnc (f : IForm) (read : Bool) : List (Nat × Bool) :=
  [(sBase f.s1 + 12, field 12 6 f.imm == 0), (sBase f.s1 + 18, f.b == 0),
    if read then (sBase f.s1 + 24, f.a == 0) else (sBase f.s1 + 30, f.d == 0)]

/-- The number and mode checks of `get` and `set` (R10, R114). -/
def getCheck (f : IForm) (s : State) : Option Cause :=
  let n := (sprNum f).toNat
  if 0x800 ≤ n ∧ !s.core.inSystem then some (precise (sSlot f.s1) 0x1B (BitVec.ofNat 64 n))
  else if (s.readSpecial n).isNone then some (sBad f.s1 0)
  else none

/-- The number and mode checks of `gets` and `sets`, in R114's order. -/
def getsCheck (f : IForm) (op : Nat) (s : State) : Option Cause :=
  firstCause
    [((s.readSpecial (sprNum f).toNat).isSome, sBad f.s1 0),
      (s.core.inSystem, precise (sSlot f.s1) 0x1B (BitVec.ofNat 64 op))]

/-- A RASDEPTH above 16 is a reserved value of field A (R22). -/
def depthCheck (f : IForm) (s : State) : Option Cause :=
  if (sprNum f).toNat = 0x023 ∧ 16 < (s.core.sreg f.a).toNat then some (sBad f.s1 24) else none

/-- A read: the value at the start of the issue cycle, latency 2. -/
def sprRead (f : IForm) (check : State → Option Cause) : SlotSem :=
  { plainSlot (sSlot f.s1) (some (f.gi, f.gp)) with
    enc := sprEnc f true
    check := check
    eff := fun s => s.setCore (s.core.result (sSlot f.s1) 2 (.s f.d ((s.readSpecial (sprNum f).toNat).getD 0)) 0) }

/-- A write, latency 1; a register that cannot be written is left alone. -/
def sprWrite (f : IForm) (check : State → Option Cause) : SlotSem :=
  { plainSlot (sSlot f.s1) (some (f.gi, f.gp)) with
    enc := sprEnc f false
    reads := [.s f.a]
    check := fun s => match check s with
      | some k => some k
      | none => depthCheck f s
    eff := onCore (fun c =>
      let n := sprNum f
      if n.toNat < 0x800 then
        (if userWritable n.toNat then
          c.result (sSlot f.s1) 1 (if n.toNat = 0x023 then .depth (field 0 5 (c.sreg f.a)) else .spr n (c.sreg f.a)) 0
        else c)
      else c.result (sSlot f.s1) 1 (.sys n (c.sreg f.a)) 0) }

/-- `get` (R114). -/
def semGet (f : IForm) : SlotSem := sprRead f (getCheck f)
/-- `set` (R114). -/
def semSet (f : IForm) : SlotSem := sprWrite f (getCheck f)
/-- `gets` (R114). -/
def semGets (f : IForm) : SlotSem := sprRead f (getsCheck f 0x60)
/-- `sets` (R114). -/
def semSets (f : IForm) : SlotSem := sprWrite f (getsCheck f 0x61)

end Sys2Proof.Machine
end

