-- ==== Sys2Proof/Machine/Landing.lean ====
section
/-! DEFINITION. Results that land at a boundary: which is kept, what becomes of pending registers, and the flags
(01 R13 to R16, 02 R49, 05 R118). Also the delivery of deferred and imposed causes (01 R24, R25, R28, R29). -/

namespace Sys2Proof.Machine

/-- The rank of a slot among lockstep results: L, V, S1, S0, C (R14). -/
def landRank : Slot → Nat
  | .l => 5
  | .v => 4
  | .s1 => 3
  | .s0 => 2
  | .c => 1
  | _ => 0

/-- Is result `a` kept before `b`, both lockstep (R14)? -/
def Res.beats (a b : Res) : Bool :=
  decide (landRank b.slot < landRank a.slot) || (landRank a.slot == landRank b.slot && decide (b.ord ≤ a.ord))

/-- The lockstep result kept among several of one register (R14). -/
def bestRes : List Res → Option Res
  | [] => none
  | r :: rs =>
    match bestRes rs with
    | none => some r
    | some q => if r.beats q then some r else some q

/-- The lanes `act` of accumulator `a`'s row written with `x` (R141). -/
def Core.writeRow (c : Core) (a : BitVec 2) (row : BitVec 4) (act : BitVec 16) (x : BitVec 1536) : Core :=
  let old := c.accs.get a.toFin
  let new : Vector (BitVec 96) 256 :=
    (List.range 16).foldl (fun v j =>
      if act.getLsbD j then v.setIfInBounds (16 * row.toNat + j) (x.extractLsb' (96 * j) 96) else v) old
  { c with accs := c.accs.set a.toFin new }

/-- A write made visible. Writes of system registers are the module's (`State.writeSys`). -/
def Core.apply (c : Core) (w : Write) : Core :=
  match w with
  | .s r x => { c with sregs := c.sregs.set r.toFin x }
  | .p r x => { c with pregs := c.pregs.set r.toFin x }
  | .v r x => { c with vregs := c.vregs.set r.toFin x }
  | .m r x => { c with mregs := c.mregs.set r.toFin x }
  | .t r x => { c with tregs := c.tregs.set r.toFin x }
  | .lc r x => { c with lcregs := c.lcregs.set r.toFin x }
  | .h r x => { c with hregs := c.hregs.set r.toFin x }
  | .z r x => { c with zregs := c.zregs.set r.toFin x }
  | .k r x => { c with kregs := c.kregs.set r.toFin x }
  | .fmt r x => { c with fmts := c.fmts.set r.toFin x }
  | .stg r x => { c with stg := c.stg.setIfInBounds r.toNat x }
  | .ras r x => { c with ras := c.ras.set r.toFin x }
  | .depth x => { c with depth := x }
  | .spr n x => c.writeUser n.toNat x
  | .sys _ _ => c
  | .acc a r act x _ _ _ => c.writeRow a r act x

/-- The results of one register that meet at a boundary: the one kept, whether one was discarded, and whether the register
stops being pending (R14, R16). `pend` is the order that made it pending; `tie` settles equal orders of a lockstep and a late
result (log 13). Of two late results of one bundle the first to return is kept, or the first of the list when both land at
one boundary (DESIGN CHOICE, log 87). -/
def settle (pend : Option Nat) (tie : Bool) (rs : List Res) : Option Res × Bool × Bool :=
  let locks := rs.filter (fun r => !r.late)
  let lates := rs.filter (·.late)
  match pend with
  | none =>
    match bestRes locks with
    | some r => (some r, decide (1 < rs.length), false)
    | none => (none, !lates.isEmpty, false)
  | some p =>
    let own := lates.find? (fun r => r.ord == p)
    let later := locks.filter (fun r => own.isSome || decide (p < r.ord) || (r.ord == p && tie))
    match bestRes later with
    | some r => (some r, decide (1 < rs.length), true)
    | none =>
      match own with
      | some r => (some r, decide (1 < rs.length), true)
      | none => (none, !rs.isEmpty, false)

/-- The groups of results by register, in order of first appearance. -/
def groupRes : List Res → List (List Res)
  | [] => []
  | r :: rs =>
    let gs := groupRes rs
    if gs.any (fun g => match g with | q :: _ => q.w.same r.w | [] => false) then
      gs.map (fun g => match g with | q :: _ => if q.w.same r.w then r :: g else g | [] => g)
    else [r] :: gs

/-- One register's results landed on the core, the kept value before WC (R49); writes of system registers are answered
beside it. -/
def Core.landGroup (c : Core) (tie : Bool) (g : List Res) : Core × List (Nat × Word) :=
  match g with
  | [] => (c, [])
  | r0 :: _ =>
    let reg := r0.w.preg?
    let pend := match reg with
      | some r => (c.pend.find? (fun e => e.1 == r)).map (·.2)
      | none => none
    let (kept, lost, ends) := settle pend tie g
    let c1 : Core := if ends then { c with pend := c.pend.filter (fun e => some e.1 != reg) } else c
    let (c2, ws) : Core × List (Nat × Word) :=
      match kept with
      | none => (c1, [])
      | some r =>
        match r.w with
        | .sys n x => (c1, [(n.toNat, x)])
        | w => (c1.apply w, [])
    (if lost then { c2 with fstat := c2.fstat ||| flWC } else c2, ws)

/-- Groups landed in turn. A `set` of FSTAT comes before any flag or WC of the boundary (R49). -/
def Core.landAll (c : Core) (tie : Bool) : List (List Res) → Core × List (Nat × Word)
  | [] => (c, [])
  | g :: gs =>
    let (d, ws) := c.landGroup tie g
    let (e, vs) := d.landAll tie gs
    (e, ws ++ vs)

/-- Is this group a `set` of FSTAT? -/
def isFstatGroup : List Res → Bool
  | r :: _ => r.w.same (.spr 0x021 0)
  | [] => false

/-- A core's cycle begins: M is lowered for commands that retired at the boundary before, S for stores that performed in the
cycle before (R20). -/
def Core.beginCycle (c : Core) : Core :=
  { c with
    cnt := { c.cnt with m := c.cnt.m - c.mat.retired, s := c.cnt.s - c.sFalls }, sFalls := 0, mat := { c.mat with retired := 0 }
    slogWait := false
    haltNew := false
    deferred := c.deferred.map (fun k => { k with fresh := false })
    failing := c.failing.map (fun k => { k with fresh := false }) }

/-- The router has accepted the last data flit of the message of the `npush` at the queue's head: N falls (R20). -/
def Core.acceptPush (c : Core) (now : Nat) : Core :=
  match c.chn.accept with
  | some (d + 1) =>
    if d < now then { c with cnt := { c.cnt with n := c.cnt.n - 1 }, chn := { c.chn with accept := some 0 } } else c
  | _ => c

/-- The boundary of a core: late results a cycle on, every due result landed, their flags in FSTAT (R13, R49). A result for
s0, p0 or m0 meets no other and sets no register (R9, R129); an S instruction's was never put in flight (R103). -/
def Core.land (c : Core) (tie : Bool) : Core × List (Nat × Word) :=
  let fl := c.inflight.map (fun r => if r.late then { r with rem := r.rem - 1 } else r)
  let due := fl.filter (fun r => r.rem == 0)
  let gs := groupRes (due.filter (fun r => !r.w.discarded))
  let base : Core := { c with inflight := fl.filter (fun r => r.rem != 0), mat := { c.mat with fl := 0 } }
  let (d, ws) := base.landAll tie (gs.filter isFstatGroup ++ gs.filter (fun g => !isFstatGroup g))
  ({ d with fstat := due.foldl (fun f r => f ||| r.fl) (d.fstat ||| c.mat.fl) }, ws)

/-! ### Deferred and imposed causes -/

/-- The rank of a deferred cause's slot among equals: L, M, K, N (R25). -/
def deferRank : Slot → Nat
  | .l => 0
  | .m => 1
  | .k => 2
  | _ => 3

/-- Of two deferred causes, is `a` delivered first (R25)? -/
def Cause.before (a b : Cause) : Bool :=
  decide (a.ord < b.ord) || (a.ord == b.ord && decide (deferRank a.slot ≤ deferRank b.slot))

/-- The deferred cause delivered first (R25). -/
def firstDeferred : List Cause → Option Cause
  | [] => none
  | k :: r =>
    match firstDeferred r with
    | none => some k
    | some q => if k.before q then some k else some q

/-- A deferred cause becomes known (R24). -/
def Core.defer (c : Core) (k : Cause) : Core := { c with deferred := c.deferred ++ [k] }

/-- A deferred cause of a command or access (R24, R27). An access's is known at the boundary that brings its reply (R166, R171),
an engine's in the cycle, and so is taken from the next boundary on. -/
def deferredCause (slot : Slot) (code : Nat) (info : Word) (opc : CodeIdx) (ord : Nat) : Cause :=
  { code, info, slot, deferred := true, opc, qpos := 0, ord, fresh := slot != .l }

/-- The watermark of an accumulator whose owner set no longer holds a command that changes elements reads 16 (R139). -/
def Core.freeMarks (c : Core) : Core :=
  { c with wmarks := (c.wmarks.zip c.owners).map (fun p => if p.2.any (·.2) then p.1 else 16) }

/-- Is register `r` still the destination of a drawer load or atomic or of an `mstat` of order `ord`, of whose bundle an
`npop` failed (R15)? -/
def Core.awaits (c : Core) (r : PReg) (ord : Nat) : Bool :=
  c.dacc.any (fun a => a.ord == ord && (match a.kind with
    | .ldh d _ => r == .s d
    | .ldvh d => r == .v d
    | .atomic _ _ d pd _ _ _ => r == .s d || r == .p pd
    | _ => false)) ||
  (c.mat.queue ++ (match c.mat.exec with | some e => [e.cmd] | none => [])).any (fun k =>
    k.ord == ord && k.kind == .mstat && r == .s (field 21 6 k.ops)) ||
  c.inflight.any (fun x => x.late && x.ord == ord && x.slot != .n && x.w.preg? == some r)

/-- Delivery removes the failing command and lowers its counter; one that has already retired has neither (R178). A drawer
access's counter was lowered on its return. A removed `mma` leaves its PASSES and the flags of its passes (R183, R188); a removed
`mepi`, `msend` or `mred` leaves the flags of the rows it has done, which R49 ties to a retirement that does not come (DESIGN
CHOICE, log 90). The registers of a failed `npop` stop being pending (R15, R206). -/
def Core.dropFailed (c : Core) (k : Cause) : Core :=
  match k.slot with
  | .m =>
    let mine (o : Option MExec) : Option MExec := match o with | some e => if e.cmd.ord = k.ord then o else none | none => none
    let others (o : Option MExec) : Option MExec := match o with | some e => if e.cmd.ord = k.ord then none else o | none => none
    let out := if (mine c.mat.exec).isSome then mine c.mat.exec else mine c.mat.epi
    match out with
    | none => c
    | some e =>
      Core.freeMarks { c with
        mat := { c.mat with
          exec := others c.mat.exec, epi := others c.mat.epi
          passes := if e.cmd.kind == .mma then e.pass else c.mat.passes }
        fstat := c.fstat ||| e.fl
        cnt := { c.cnt with m := c.cnt.m - 1 }
        owners := c.owners.map (fun l => l.filter (fun x => x.1 != k.ord)) }
  | .k =>
    match c.cpy.exec with
    | some e =>
      if e.cmd.ord = k.ord then { c with cpy := { c.cpy with exec := none }, cnt := { c.cnt with k := c.cnt.k - 1 } } else c
    | none => c
  | .n =>
    let counts := fun (q : Cmd) => match q.kind with | .npost | .npop | .nclose | .ndisarm => false | _ => true
    let mine := (c.chn.queue ++ c.chn.fired ++ (match c.chn.exec with | some e => [e.cmd] | none => [])).find?
      (fun q => q.ord == k.ord)
    let end0 : Core :=
      { c with
        chn := { c.chn with
          exec := (match c.chn.exec with | some e => if e.cmd.ord = k.ord then none else some e | none => none)
          waiting := (match c.chn.waiting with | some q => if q.ord = k.ord then none else some q | none => none)
          accept := (match c.chn.waiting with | some q => if q.ord = k.ord then none else c.chn.accept | none => none)
          queue := c.chn.queue.filter (·.ord != k.ord)
          fired := c.chn.fired.filter (·.ord != k.ord) } }
    match mine with
    | some q =>
      if q.kind == .npush && c.chn.accept == some 0 then end0
      else if counts q then { end0 with cnt := { end0.cnt with n := end0.cnt.n - 1 } }
      else if q.kind == .npop then { end0 with pend := end0.pend.filter (fun e => e.2 != k.ord || c.awaits e.1 k.ord) }
      else end0
    | none => end0
  | _ => c

/-- Causes of commands none of whose packets or rows is still on its way become known (R178). -/
def Core.knowFailing (c : Core) (net : List Packet) (id : CoreId) : Core :=
  let rows := c.xfers.any (fun x => x.owner == .epiRow) || (match c.mat.epi with | some e => !e.out.isEmpty | none => false)
  let busy (k : Cause) : Bool :=
    k.fresh || net.any (fun p => p.src == id && p.slot == k.slot && p.ord == k.ord) || (k.slot == .m && rows)
  if c.failing.isEmpty then c
  else { c with deferred := c.deferred ++ c.failing.filter (fun k => !busy k), failing := c.failing.filter busy }

/-- TRAP_DELIVERY on the current core (R24, R25, R28): at a bundle boundary of a running strand the first
known deferred cause is taken; in a handler those that were known when it was entered are held, and another is raised there, which halts
the tile (a strand in `sync` or `idle` has none until it goes on, log 19; the drain of an `eret` has no
boundary before the bundle at TRAPPC, log 91); after `done` or `swap` it cannot be delivered (R29, R123). The cause of a `trap`
or `brk` that issued in the cycle before comes first: its bundle has taken its effects (R124, log 91). -/
def State.trapDelivery (s : State) : State :=
  let c := s.core.knowFailing s.net s.cur
  match c.trapAfter with
  | some k => if c.frozen then s.setCore c else (s.setCore { c with trapAfter := none }).takeTrap k (s.cycle + 1)
  | none =>
    match firstDeferred (c.deferred.filter (fun k => !k.fresh && !(c.trap.inH && c.held.contains k))) with
    | none => s.setCore c
    | some k =>
      let d : Core := ({ c with deferred := c.deferred.filter (· != k) } : Core).dropFailed k
      match c.strand with
      | .running =>
        if c.stall != 0 || c.eretDrain || c.frozen then s.setCore c else (s.setCore d).takeTrap k (s.cycle + 1)
      | .ended _ => { s.setCore { d with strand := .halted, undelivered := some k } with aborts := s.aborts ++ [s.cur] }
      | _ => s.setCore c

/-- TRAP_DELIVERY (R28). -/
def execTrapDelivery (t : Nat) (s : State) : Host.Outcome State Fault Refusal :=
  .next ({ s with cur := t } : State).trapDelivery

end Sys2Proof.Machine
end

