-- ==== Sys2Proof/Machine/Units.lean ====
section
/-! DEFINITION. Transfers of the memory units: retries of held loads, copy chunks and side-log entries, the reads and writes of queue,
staging, launch and group-table units, fault records, log slots and save areas (16 R303, R312, R316 to R319, 18 R341, R348). -/

namespace Sys2Proof.Machine

/-- The 64-byte blocks of `n` bytes at `a`: the part of each, as offset from `a` and length (R247). -/
def blocksOf (a n : Nat) : List (Nat × Nat) :=
  if n = 0 then []
  else
    ((List.range ((a + n - 1) / 64 - a / 64 + 1)).map (fun i =>
      let lo := max a (64 * (a / 64 + i))
      let hi := min (a + n) (64 * (a / 64 + i) + 64)
      (lo - a, hi - lo)))

/-- TRAPINFO0 of 0x14 with a target and an address (R323). -/
def targetInfo (tgt addr : Nat) : Word := BitVec.ofNat 64 (tgt * 2 ^ 48 + addr % 2 ^ 48)

/-- The first request of a list that failed, with its cause code and TRAPINFO0 (R166). -/
def firstBad : List Req → Option (Nat × Word)
  | [] => none
  | r :: rs =>
    match r.res with
    | some .denied => some (0x14, targetInfo 0xFFFE r.addr)
    | some .poisoned => some (0x15, r.va)
    | some .stalled => some (0x18, BitVec.ofNat 64 (linkOf r.addr))
    | _ => firstBad rs

/-- How a request failed whose translation or frame did: type, level and entry (R311, R313). -/
def Req.faulted (r : Req) : Option (Nat × Nat × Word) :=
  match r.res with
  | some .offline => some (6, 0, 0)
  | some (.failed ty lev e) => some (ty, lev, e)
  | _ => none

/-- The first of them in a list, with its address. -/
def firstFault (rs : List Req) : Option (Nat × Nat × Word × Word) :=
  rs.findSome? (fun r => r.faulted.map (fun x => (x.1, x.2.1, x.2.2, r.va)))

/-- The bytes of a list of served reads. -/
def reqBytes (rs : List Req) : List (BitVec 8) :=
  rs.flatMap (fun r => match r.res with | some (.ok d) => d | _ => [])

/-! ### A transfer over time -/

/-- Transfer `j` put in the place of the one of its number. -/
def State.putJob (s : State) (j : Job) : State := { s with jobs := s.jobs.map (fun x => if x.id = j.id then j else x) }

/-- The transfer of an owner. -/
def State.job? (s : State) (core : Nat) (who : JobOwner) : Option Job := s.jobs.find? (fun j => j.core == core && j.who == who)

/-- A request whose requester is gone: what has not left its tile goes with it; the rest is served and its result discarded (R349). -/
def Req.orphan (r : Req) (now : Nat) : Option Req :=
  match r.place with
  | .port | .stale => none
  | .served d _ => if r.write.isSome ∧ now < d then some { r with owner := .past } else none
  | .resend => if r.res.isSome ∧ r.write.isNone then none else some { r with owner := .past }
  | _ => some { r with owner := .past }

/-- The requests that `mine` picks without their requester. -/
def State.orphanReqs (s : State) (mine : Req → Bool) : State :=
  { s with reqs := s.reqs.filterMap (fun r => if mine r then r.orphan s.cycle else some r) }

/-- The transfers of a core that `p` picks gone. -/
def State.dropJobs (s : State) (core : Nat) (p : JobOwner → Bool) : State :=
  let gone := (s.jobs.filter (fun j => j.core == core && p j.who)).map (·.id)
  ({ s with jobs := s.jobs.filter (fun j => !(j.core == core && p j.who)) } : State).orphanReqs
    (fun r => match r.owner with | .job n => gone.contains n | _ => false)

/-- Does a transfer translate for a retried access of a tile (R316)? -/
def JobOwner.retries : JobOwner → Bool
  | .load _ | .chunk _ | .request _ | .replay _ => true
  | _ => false

/-- A walk that a retry begins while a shootdown of its context runs: it is made again when that is over (R319). -/
def State.holdWalk (s : State) (k ctx id : Nat) : State :=
  if s.sys.sdCtl.getLsbD 62 && (field 52 6 s.sys.sdRun).toNat == ctx then
    s.putCache k { s.cache k with walks := (s.cache k).walks.map (fun w => if w.id = id then { w with marked := true } else w) }
  else s

/-- The blocks of a transfer translated, as far as the cache holds their pages; a miss starts or joins a walk (R306, R316). A unit of
the module needs the leaf's permission (R323, log 36). -/
def State.resolve (s : State) (j : Job) : List (Nat × Nat) → Job × State
  | [] => ({ j with todo := [] }, s)
  | (off, n) :: r =>
    let a := j.va + BitVec.ofNat 64 off
    let use (l : Leaf) (t : State) : Job × State :=
      if j.strict && !(if j.write.isSome then l.wr else l.rd) then ({ j with todo := [], ended := some (.cause 0x0D a) }, t)
      else t.resolve { j with leaf := some l, pas := j.pas ++ [(off, n, l.base + (a.toNat - l.page))] } r
    match j.leaf.filter (fun l => l.holds j.ctx a) with
    | some l => use l s
    | none =>
      match s.leafFor j.cache j.ctx a with
      | (some l, t) => use l t
      | (none, t) =>
        let (w, u) := t.startWalk j.cache j.ctx a
        ({ j with todo := (off, n) :: r, walk := some w }, if j.who.retries && t.serial != u.serial then u.holdWalk j.cache j.ctx w else u)

/-- The requests of a transfer, one for each block; they enter their links' queues at once (R337, R341). -/
def Job.requests (j : Job) (first now : Nat) : List Req :=
  j.pas.zipIdx.map (fun b =>
    { id := first + b.2, core := j.core, mid := j.mid, rq := j.ctx, owner := .job j.id, addr := b.1.2.2
      va := j.va + BitVec.ofNat 64 b.1.1, write := j.write.map (fun w => (w.drop b.1.1).take b.1.2.1), len := b.1.2.1
      place := .net now, res := none, patient := j.patient, waited := 0 })

/-- How the requests of a transfer have ended, once all have: a read is back, a write is accepted (R172, R316). A link's stall is
a fault of type 5 (R348). -/
def jobEnds (now : Nat) (rs : List Req) : Option JobEnd :=
  let open_ (r : Req) : Bool :=
    r.res.isNone || (r.write.isNone && (match r.place with | .served _ d => decide (now < d) | _ => true))
  if rs.any open_ then none
  else
    match rs.find? (fun r => r.res == some .stalled), firstFault rs with
    | some r, _ => some (.fault 5 0 (BitVec.ofNat 64 (linkOf r.addr)) r.va)
    | none, some (ty, lev, e, va) => some (.fault ty lev e va)
    | none, none =>
      match firstBad rs with
      | some (code, info) => some (.cause code info)
      | none => some (.done (reqBytes rs))

/-- A request that its requester has done with: a write that has performed stands until its completion is at the controller (R347). -/
def Req.leftBy (r : Req) (mine : Req → Bool) (now : Nat) : Option Req :=
  if !mine r then some r
  else
    match r.place, r.write with
    | .served d _, some _ => if now < d then some { r with owner := .past } else none
    | .resend, some _ => some { r with owner := .past }
    | _, _ => none

/-- The requests that `mine` picks done with. -/
def State.leaveReqs (s : State) (mine : Req → Bool) : State :=
  { s with reqs := s.reqs.filterMap (fun r => r.leftBy mine s.cycle) }

/-- Those of nobody whose completion has come gone (R347, R349). -/
def State.dropPast (s : State) : State :=
  { s with reqs := s.reqs.filter (fun r =>
      !(r.owner == .past && (match r.place with | .served d _ => decide (d ≤ s.cycle) | _ => false))) }

/-- Does no one ask how a transfer has ended? -/
def JobOwner.unasked : JobOwner → Bool
  | .logSlot | .saveHead => true
  | _ => false

/-- Is a transfer one for a tile that is frozen? It sends nothing then (R258, R311). -/
def State.jobFrozen (s : State) (j : Job) : Bool := decide (j.core < 0x10000) && (s.coreAt j.core).frozen

/-- A transfer a cycle on. -/
def State.stepJob (s : State) (id : Nat) : State :=
  match s.jobs.find? (fun j => j.id == id) with
  | none => s
  | some j =>
    if j.ended.isSome || j.walk.isSome || (!j.sent && s.jobFrozen j) then s
    else if j.sent then
      let mine (r : Req) : Bool := r.owner == .job j.id
      match jobEnds s.cycle (s.reqs.filter mine) with
      | none => s
      | some e =>
        let t := (s.putJob { j with ended := some e }).leaveReqs mine
        { t with jobs := if j.who.unasked then t.jobs.filter (fun k => k.id != j.id) else t.jobs }
    else
      let (k, t) := s.resolve j j.todo
      if k.ended.isSome || !k.todo.isEmpty then t.putJob k
      else if k.plain then t.putJob { k with ended := some (.done []) }
      else { t.putJob { k with sent := true } with
             reqs := t.reqs ++ k.requests t.serial t.cycle, serial := t.serial + k.pas.length }

/-- Every transfer a cycle on. -/
def State.stepJobs (s : State) : State := s.jobs.foldl (fun t j => t.stepJob j.id) s

/-- A transfer begun. -/
def State.startJob (s : State) (j : Job) : State :=
  let (n, t) := s.fresh
  { t with jobs := t.jobs ++ [{ j with id := n }] }

/-- A transfer of `n` bytes at virtual `va` of context `ctx` through cache `cache`. -/
def newJob (core : Nat) (who : JobOwner) (cache ctx : Nat) (va : Word) (n : Nat) (w : Option (List (BitVec 8))) : Job :=
  { id := 0, core, who, cache, ctx, mid := ctx, va, write := w, plain := false, strict := false, patient := false
    todo := blocksOf va.toNat n, pas := [], leaf := none, walk := none, sent := false, ended := none }

/-- A transfer at physical `pa` on behalf of context `ctx`, as master 64, that waits for its links without limit (R348). -/
def physJob (core : Nat) (who : JobOwner) (ctx pa : Nat) (w : List (BitVec 8)) : Job :=
  { newJob core who 0 ctx (BitVec.ofNat 64 pa) 0 (some w) with
    mid := 64, patient := true, pas := (blocksOf pa w.length).map (fun b => (b.1, b.2, pa + b.1)) }

/-- `n` bytes at physical `pa` to be read on behalf of context `ctx`, likewise. -/
def physRead (core : Nat) (who : JobOwner) (ctx pa n : Nat) : Job :=
  { newJob core who 0 ctx (BitVec.ofNat 64 pa) 0 none with
    mid := 64, patient := true, pas := (blocksOf pa n).map (fun b => (b.1, b.2, pa + b.1)) }

/-! ### What the one that asks is told -/

/-- How the bytes a unit asks for fare, with the state in which they do (R316). -/
inductive Retry
  | done (data : List (BitVec 8)) (s : State)
  | wait (s : State)
  | fault (type lev : Nat) (entry va : Word) (s : State)
  /-- refused or poisoned, or without permission -/
  | cause (code : Nat) (info : Word) (s : State)
deriving DecidableEq, Repr

/-- A transfer asked after: it begins, goes on, or has ended; one that has ended is gone unless `keep`. -/
def State.transfer (s : State) (j : Job) (keep : Bool) : Retry :=
  match s.job? j.core j.who with
  | none => .wait (s.startJob j)
  | some k =>
    let u := s.stepJob k.id
    let t := if keep then u else u.dropJobs j.core (· == j.who)
    match (u.job? j.core j.who).bind (·.ended) with
    | none => .wait u
    | some (.done d) => .done d t
    | some (.fault ty lev e va) => .fault ty lev e va t
    | some (.cause code info) => .cause code info t

/-- The name of a module's unit as one that asks. -/
def moduleUnit : Nat := 0x10000 + 0x200

/-- Bytes read by a unit of the module or of a tile, as an access of the context (R316, R322, R341). -/
def State.unitRead (s : State) (core : Nat) (who : JobOwner) (cache ctx : Nat) (va : Word) (n : Nat) (keep : Bool) : Retry :=
  s.transfer { newJob core who cache ctx va n none with strict := true } keep

/-- Bytes written by a unit of the module. -/
def State.unitWrite (s : State) (who : JobOwner) (cache ctx : Nat) (va : Word) (bs : List (BitVec 8)) : Retry :=
  s.transfer { newJob moduleUnit who cache ctx va bs.length (some bs) with strict := true } false

/-- The addresses of an access translated afresh (R316): offset, length and physical address of each block. -/
def State.freshBlocks (s : State) (core : Nat) (who : JobOwner) (cache ctx : Nat) (va : Word) (n : Nat) :
    Retry × List (Nat × Nat × Nat) :=
  match s.transfer { newJob core who cache ctx va n none with plain := true } true with
  | .done d t => (.done d (t.dropJobs core (· == who)), match t.job? core who with | some k => k.pas | none => [])
  | .fault ty lev e a t => (.fault ty lev e a (t.dropJobs core (· == who)), [])
  | x => (x, [])

end Sys2Proof.Machine
end

