-- ==== Sys2Proof/Machine/Network.lean ====
section
/-! DEFINITION. Routes and their costs, packets, credits, arrivals and group relations (10 R221 to R243, 12 R266 to R269). -/

namespace Sys2Proof.Machine

/-! ### Physical positions and detours (R359, R361, R362, R379) -/

/-- The physical row or column at logical position `l` beside the retired `a` and `b` (R359). -/
def physAt (a b : Option Nat) (l : Nat) : Nat :=
  ((List.range 25).filter (fun p => some p != a && some p != b)).getD l 24

/-- The physical row and column of a logical tile in its field (R359). -/
def State.physOf (s : State) (tid : Nat) : Nat × Nat :=
  let m := s.fieldMap (fieldOf tid)
  (physAt m.rowA m.rowB (tileY tid % 23), physAt m.colA m.colB (tileX tid % 23))

/-- The field-local number of a tile, 23 × ly + lx (R361). -/
def localOf (tid : Nat) : Nat := 23 * (tileY tid % 23) + tileX tid % 23

/-- Is a logical tile a hole (R361)? -/
def State.isHole (s : State) (tid : Nat) : Bool := (s.fieldMap (fieldOf tid)).holes.contains (localOf tid)

/-- The neighbour of a tile in direction 0 N, 1 E, 2 S, 3 W, inside the logical grid. -/
def neighbour (tid d : Nat) : Option Nat :=
  let x := tileX tid
  let y := tileY tid
  match d with
  | 0 => if y = 0 then none else some (tidOf x (y - 1))
  | 1 => if x = 183 then none else some (tidOf (x + 1) y)
  | 2 => if y = 183 then none else some (tidOf x (y + 1))
  | _ => if x = 0 then none else some (tidOf (x - 1) y)

/-- The name of the mesh link between neighbours: 2 × the west or north end, plus 1 for a link south (R362). -/
def linkName (tid d : Nat) : Nat :=
  match d with
  | 0 => 2 * (tid - 184) + 1
  | 1 => 2 * tid
  | 2 => 2 * tid + 1
  | _ => 2 * (tid - 1)

/-- Is a mesh link dead (R362)? -/
def State.meshDead (s : State) (link : Nat) : Bool :=
  let t := link / 2
  let m := s.fieldMap (fieldOf t)
  if link % 2 = 0 then m.deadE.contains (localOf t) else m.deadS.contains (localOf t)

/-- Is one step of a detour clear: inside the grid, to a tile that is no hole, over a link that is not dead (R362)? -/
def State.clearStep (s : State) (tid d : Nat) : Bool :=
  match neighbour tid d with
  | none => false
  | some n => !s.isHole n && !s.meshDead (linkName tid d)

/-- Are the steps of a walk clear, one after the other? -/
def State.clearWalk (s : State) : Nat → List Nat → Bool
  | _, [] => true
  | tid, d :: r =>
    s.clearStep tid d && (match neighbour tid d with | some n => s.clearWalk n r | none => false)

/-- The tile at the end of a walk inside the grid. -/
def walkTile : Nat → List Nat → Option Nat
  | t, [] => some t
  | t, d :: r => (neighbour t d).bind (fun n => walkTile n r)

/-- Is side `sd` clear for a detour from `tid` in direction `d`, with the link of the way back that one hop left uses (R362)? -/
def State.sideClear (s : State) (tid d sd : Nat) : Bool :=
  s.clearWalk tid [sd, d, d, (sd + 2) % 4] &&
    (match walkTile tid [sd, d] with | some n => !s.meshDead (linkName n ((sd + 2) % 4)) | none => false)

/-- The detour prefix of a router's output: 0 clockwise, 1 counter-clockwise, 2 none (R362). -/
def State.detour (s : State) (tid d : Nat) : Nat :=
  if s.sideClear tid d ((d + 1) % 4) then 0 else if s.sideClear tid d ((d + 3) % 4) then 1 else 2

/-! ### Walking a route (R222 to R229, R243) -/

/-- Where a walk has come: the tile, its cost so far, whether it has crossed a seam or the express layer, and the router
ports crossed. -/
structure Walked where
  tid : Nat
  cost : Nat
  seam : Bool
  express : Bool
  ports : List (Nat × Nat)
deriving DecidableEq, Repr

/-- How a walk ends. -/
inductive RouteEnd
  /-- at a tile -/
  | tile (w : Walked)
  /-- leaves through a port (R243), with the segments that the peer walks -/
  | port (p : Nat) (w : Walked) (rest : List Nat)
  /-- refused before any packet leaves (R226) -/
  | refused
  /-- dropped by a router whose prefix is 2 (R379) -/
  | dropped
deriving DecidableEq, Repr

/-- Retired rows or columns that lie behind physical position `p` (`far`) or before it. -/
def retiredPast (a b : Option Nat) (p : Nat) (far : Bool) : Nat :=
  ([a, b].filter (fun r => match r with | some q => if far then decide (p < q) else decide (q < p) | none => false)).length

/-- Retired rows and columns that a hop from `a` to its neighbour `b` of another field crosses on either side of the seam (R228,
R359): a fallow one adds nothing. -/
def State.seamBypass (s : State) (a b : Nat) : Nat :=
  let side (t : Nat) (vert far : Bool) : Nat :=
    let m := s.fieldMap (fieldOf t)
    if vert then retiredPast m.rowA m.rowB (s.physOf t).1 far else retiredPast m.colA m.colB (s.physOf t).2 far
  let vert := tileX a == tileX b
  let up := decide (a < b)
  side a vert up + side b vert (!up)

/-- The cost of one mesh hop, seams and bypasses of retired rows and columns included, and whether it crosses a seam (R228). -/
def State.hopCost (s : State) (a b : Nat) : Nat × Bool :=
  if fieldOf a ≠ fieldOf b then (4 + s.seamBypass a b, true)
  else
    let (ra, ca) := s.physOf a
    let (rb, cb) := s.physOf b
    ((max ra rb - min ra rb) + (max ca cb - min ca cb), false)

/-- The router port of tile `t` in direction `d` (R377). -/
def portName (t d : Nat) : Nat := 2 * linkName t d + (if d = 1 ∨ d = 2 then 0 else 1)

/-- The tile and the direction of router port `n` (R377). -/
def portEnd (n : Nat) : Nat × Nat :=
  let l := n / 2
  if n % 2 = 0 then (l / 2, 1 + l % 2) else ((neighbour (l / 2) (1 + l % 2)).getD (l / 2), (3 + l % 2) % 4)

/-- A walk moved one tile on. -/
def State.stepTo (s : State) (w : Walked) (d n : Nat) : Walked :=
  let (k, sm) := s.hopCost w.tid n
  { w with tid := n, cost := w.cost + k, seam := w.seam || sm, ports := w.ports ++ [(portName w.tid d, w.cost)] }

/-- The ports that steps `ds` from a tile cross, and whether one crosses a seam. -/
def turnPorts : Nat → List Nat → List Nat × Bool
  | _, [] => ([], false)
  | t, d :: r =>
    match neighbour t d with
    | none => ([], false)
    | some n =>
      let (ps, sm) := turnPorts n r
      (portName t d :: ps, sm || decide (fieldOf t ≠ fieldOf n))

/-- A walk `w` taken on to `v`, one or two hops on in direction `d`, by the turn of prefix `pre`: 2 tc more (R228, R229, R379). -/
def detoured (w v : Walked) (d pre : Nat) (steps : List Nat) : Walked :=
  let sd := if pre = 0 then (d + 1) % 4 else (d + 3) % 4
  let (ps, sm) := turnPorts w.tid ([sd] ++ steps ++ [(sd + 2) % 4])
  { v with cost := v.cost + 2, seam := v.seam || sm, ports := w.ports ++ ps.zipIdx.map (fun x => (x.1, w.cost + x.2)) }

/-- The edge through which a port tile's port leaves the grid (R242). -/
def portEdge (tid : Nat) : Nat :=
  let f := fieldOf tid
  if f / 8 = 0 then 0 else if f / 8 = 7 then 2 else if f % 8 = 0 then 3 else 1

/-- A mesh segment of `n` hops in direction `d` (R224, R229). -/
def State.walkMesh (s : State) (d : Nat) : Nat → Nat → Walked → RouteEnd
  | 0, _, w => .tile w
  | _, 0, w => .tile w
  | fuel + 1, n + 1, w =>
    match neighbour w.tid d with
    | none =>
      match portOf w.tid with
      | some p => if n = 0 ∧ d = portEdge w.tid then .port p { w with cost := w.cost + 64, seam := true } [] else .refused
      | none => .refused
    | some m =>
      if s.isHole m || s.meshDead (linkName w.tid d) then
        if s.isHole m && n = 0 then .refused
        else
          let pre := s.detour w.tid d
          if pre = 2 then .dropped
          else if n = 0 then .tile (detoured w (s.stepTo w d m) d pre [d])
          else
            match neighbour m d with
            | none => .refused
            | some m2 =>
              s.walkMesh d fuel (n - 1) (detoured w (s.stepTo (s.stepTo w d m) d m2) d pre [d, d])
      else s.walkMesh d fuel n (s.stepTo w d m)

/-- The segments of a route walked from `w` (R224): a turning point, express landing or end that is a hole is refused. -/
def State.walkSegs (s : State) : Nat → List Nat → Walked → RouteEnd
  | 0, _, w => .tile w
  | _, [], w => .tile w
  | fuel + 1, sg :: r, w =>
    if sg = 0x40 then .tile w
    else if sg = 0x00 then
      match r with
      | [] => .refused
      | off :: r2 =>
        let x := (tileX w.tid + 23 * (off % 8)) % 184
        let y := (tileY w.tid + 23 * (off / 8 % 8)) % 184
        let t := tidOf x y
        if s.isHole t then .refused
        else s.walkSegs fuel r2 { w with tid := t, cost := w.cost + 24, express := true }
    else
      match s.walkMesh (sg / 64) (sg % 64 + 1) (sg % 64) w with
      | .tile v => if s.isHole v.tid then .refused else s.walkSegs fuel r v
      | .port p v _ => .port p v r
      | e => e

/-- A route walked from a tile. -/
def State.route (s : State) (tid : Nat) (segs : List Nat) : RouteEnd :=
  s.walkSegs 8 segs { tid, cost := 0, seam := false, express := false, ports := [] }

/-- The six segments of a route entry (R222). -/
def entrySegs (e : Word) : List Nat := (List.range 6).map (fun i => (field (40 - 8 * i) 8 e).toNat)

/-- DCH of a route entry (R222). -/
def entryDch (e : Word) : Nat := (field 54 10 e).toNat

/-- Route entry `c` of a core's current plane; the loader's immediate end where none was loaded (R225). -/
def Core.routeEntry (c : Core) (ch : Nat) : Word := Tab.getD c.plane.routes ch 0x0000404040404040

/-- The mirrored route: reversed, opposed, express offsets negated (R241). -/
def mirrorSegs : List Nat → List Nat → List Nat
  | [], acc => acc
  | 0x40 :: _, acc => acc
  | 0x00 :: off :: r, acc => mirrorSegs r (0x00 :: ((8 - off / 8 % 8) % 8 * 8 + (8 - off % 8) % 8) :: acc)
  | sg :: r, acc => mirrorSegs r (((sg / 64 + 2) % 4 * 64 + sg % 64) :: acc)

/-- `n` hops toward `up` or `down`, as a segment list. -/
def hopSegs (a b dUp dDown : Nat) : List Nat :=
  if a < b then [dUp * 64 + (b - a)] else if b < a then [dDown * 64 + (a - b)] else []

/-- The computed route (R227). -/
def computedSegs (a b : Nat) : List Nat :=
  let fx (t : Nat) := tileX t / 23
  let fy (t : Nat) := tileY t / 23
  let ex := if fx a = fx b ∧ fy a = fy b then []
    else [0x00, ((fy b + 8 - fy a) % 8) * 8 + (fx b + 8 - fx a) % 8]
  ex ++ hopSegs (tileX a % 23) (tileX b % 23) 1 3 ++ hopSegs (tileY a % 23) (tileY b % 23) 2 0

/-- The unloaded cost of the computed route, 0 when it is refused (R228, R337). -/
def State.computedCost (s : State) (a b : Nat) : Nat :=
  match s.route a (computedSegs a b) with
  | .tile w => w.cost
  | _ => 0

/-! ### Windows and credits (R233) -/

/-- The send window of a core's channels (R233, R290); 32 where no gang gives one. -/
def State.window (s : State) (tid : Nat) : Nat := match s.gangOf tid with | some g => g.window | none => 32

/-- May a packet of `flits` flits leave on channel `ch` (R233)? -/
def State.hasCredit (s : State) (ch flits : Nat) : Bool :=
  let w := s.window s.cur
  decide (Tab.getD s.core.chn.spent ch 0 + min w flits ≤ w)

/-- Flits taken from a channel's credit. -/
def Core.spendCredit (c : Core) (ch flits : Nat) : Core :=
  { c with chn := { c.chn with spent := Tab.put c.chn.spent ch (Tab.getD c.chn.spent ch 0 + flits) } }

/-- Credit of `k` flits of a packet on its way back (R233). -/
def State.returnFlits (s : State) (p : Packet) (k : Nat) : State :=
  if p.credit && k != 0 then
    let (n, t) := s.fresh
    { t with credits := t.credits ++ [{ id := n, core := p.src, ch := p.sch, flits := k, due := s.cycle + p.back }] }
  else s

/-- Flits of a packet whose credit has been returned: the header's goes with the first data flit's (R233; DESIGN CHOICE, log 110). -/
def Packet.returned (p : Packet) : Nat := max p.again (if p.done = 0 then 0 else p.done + 1)

/-- What is left of a packet's credit on its way back. -/
def State.returnCredit (s : State) (p : Packet) : State := s.returnFlits p (p.flits - p.returned)

/-- CREDIT_RETURN (R233). -/
def execCreditReturn (c : Nat) (s : State) : Host.Outcome State Fault Refusal :=
  .next (match s.credits.find? (fun x => x.id == c) with
    | none => s
    | some k =>
      if s.cycle < k.due then s
      else
        let t := { s with credits := s.credits.filter (fun x => x.id != c) }
        let d := t.coreAt k.core
        t.putCore k.core { d with
          chn := { d.chn with spent := Tab.put d.chn.spent k.ch (Tab.getD d.chn.spent k.ch 0 - k.flits) } })

/-! ### Sending (R228, R231, R232) -/

/-- What a packet is to carry; the rest of its header the sending operation fills in. -/
structure Letter where
  kind : Nat
  sch : Nat
  dch : Nat
  off : Nat
  aw : Nat
  awv : Bool
  len : Nat
  data : List (BitVec 8)
  slot : Slot
  ord : Nat
  opc : CodeIdx
  index : Nat
  op : NetOp
  expect : Option (Nat × Nat × Nat)
deriving DecidableEq, Repr

/-- Data flits of a payload: at least one (R232). -/
def dataFlits (n : Nat) : Nat := max 1 ((n + 63) / 64)

/-- Data flits of a letter: a read request carries one, whatever its LEN (R232). -/
def Letter.flits (l : Letter) : Nat := if l.kind = 5 then 1 else dataFlits l.len

/-- LEN of a message whose one data flit holds no bytes of a scratchpad: R232 gives it none (DESIGN CHOICE, log 109). -/
def oneFlit : Nat := 64

/-- Is a KIND ordered by SEQ (R231)? -/
def orderedKind (k : Nat) : Bool := k == 2 || k == 3 || k == 5 || k == 6

/-- The key of a pair of tiles in the SEQ tables. -/
def seqKey (src dst : Nat) : Nat := 0x100000000 * src + dst

/-- The number of a tile of the peer module behind port `p` as a packet's source (R243); no core of this module has one. -/
def peerTile (p tid : Nat) : Nat := 2 ^ 40 + 65536 * p + tid

/-- Does a packet come from another module? -/
def Packet.foreign (p : Packet) : Bool := decide (2 ^ 40 ≤ p.src)

/-- The header flit of a packet that leaves through a port (R232): SEGI names the segment whose last hop is the optical one. -/
def headerFlit (p : Packet) : BitVec 512 :=
  let seg := fun i => p.route.getD i 0x40
  BitVec.ofNat 512
    (p.kind * 2 ^ 508 + p.ctx % 64 * 2 ^ 502 + p.src % 65536 * 2 ^ 486 + p.sch * 2 ^ 476 + p.dst % 65536 * 2 ^ 460 +
      p.dch * 2 ^ 450 + (p.flits - 1) * 2 ^ 445 + p.len * 2 ^ 434 + p.off % 2 ^ 20 * 2 ^ 414 +
      (if p.kind = 1 ∨ p.kind = 4 then p.aw % 2 ^ 20 * 2 ^ 394 + (if p.awv then 2 ^ 393 else 0) else 0) + p.seq * 2 ^ 377 +
      (seg 0 * 2 ^ 40 + seg 1 * 2 ^ 32 + seg 2 * 2 ^ 24 + seg 3 * 2 ^ 16 + seg 4 * 2 ^ 8 + seg 5) * 2 ^ 329 +
      (p.route.length - 1 - p.segs.length) % 8 * 2 ^ 326)

/-- A packet among those that a router holds, by the cycle in which its header is there. -/
def insertHeld (x : Held) : List Held → List Held
  | [] => [x]
  | y :: r => if x.since < y.since then x :: y :: r else y :: insertHeld x r

/-- Packet `n` is held by the routers whose ports it crosses, from the cycle in which its header is at each (R377). -/
def State.heldAt (s : State) (ports : List (Nat × Nat)) (n : Nat) : State :=
  { s with meshPorts := ports.foldl (fun m k =>
      let q := Tab.getD m k.1 { tout := 0, tin := 0, held := [] }
      Tab.put m k.1 { q with held := insertHeld { pkt := n, since := k.2, out := false, acc := false } q.held }) s.meshPorts }

/-- The cycle in which the header of a packet is at the boundary of a region that it enters: at the router of the first port that leads
into it, or at its tile, when it comes there by the express layer (R370). -/
def Packet.entersAt (p : Packet) (region : List Nat) : Option Nat :=
  let into (k : Nat × Nat) : Bool :=
    let (t, d) := portEnd k.1
    !region.contains t && (match neighbour t d with | some n => region.contains n | none => false)
  match p.links.find? into with
  | some k => some k.2
  | none => if p.place == .net && region.contains p.dst && !region.contains p.src && p.anyOrder then some p.due else none

/-- Does a packet wait outside a region whose boundary is closed to it (R370, R372)? The boundary closes with the freeze order, which the
rule's bound of E + 280 admits (DESIGN CHOICE, log 131). -/
def State.barred (s : State) (p : Packet) : Bool :=
  s.migrations.any (fun m => m.2.stage != .detected &&
    (match p.entersAt m.2.region with | some t => decide (s.cycle ≤ t) | none => false))

/-- The way back from a port tile to the sender of a packet that has walked `segs` up to the optical hop, behind which `rest` is left:
the mirrored route without that hop (R233, R241, R243). -/
def portBack (segs rest : List Nat) : List Nat :=
  let gone := segs.take (segs.length - rest.length)
  let last := gone.getLastD 0x40
  mirrorSegs (gone.dropLast ++ (if last % 64 ≤ 1 then [] else [last - 1])) []

/-- A packet of the current core enters the router on a walked route, spending credit of its channel when `credit`. The data flits of a
posted deposit follow one by one (R200). SEQ counts those that leave through a port tile apart from those that end there. -/
def State.launchPacket (s : State) (l : Letter) (segs : List Nat) (credit : Bool) : State :=
  let put (w : Walked) (dst : Nat) (place : PacketPlace) (rest : List Nat) : State :=
    let (n, t) := s.fresh
    let nd := l.flits
    let key := seqKey s.cur (match place with | .port _ => dst + 0x10000 | _ => dst)
    let seq := if orderedKind l.kind then Tab.getD t.seqOut key 0 else 0
    let home := match place with | .port _ => portBack segs rest | _ => mirrorSegs segs []
    let back := match s.route dst home with | .tile v => v.cost | _ => w.cost
    let links := w.ports.map (fun x => (x.1, s.cycle + x.2))
    let p : Packet :=
      { id := n, kind := l.kind, ctx := s.core.pos.ctx.toNat, src := s.cur, sch := l.sch, dst, dch := l.dch, off := l.off
        aw := l.aw, awv := l.awv, seq := seq.toNat, len := l.len, data := l.data, flits := nd + 1, fs := if w.seam then 2 else 1
        sent := if l.kind = 0 then 0 else nd, arrived := 0, begun := 0, done := 0, again := 0, turn := 0, credit, back, due := s.cycle + w.cost
        slot := l.slot, ord := l.ord, opc := l.opc, index := l.index, op := l.op, expect := l.expect, links
        route := segs, segs := rest, anyOrder := w.express, stuck := false, place }
    let u : State := { t.heldAt links n with
      net := t.net ++ [{ p with stuck := t.barred p }]
      seqOut := if orderedKind l.kind then Tab.put t.seqOut key (seq + 1) else t.seqOut }
    if credit then u.setCore (u.core.spendCredit l.sch (nd + 1)) else u
  match s.route s.cur segs with
  | .tile w => put w w.tid .net []
  | .port q w rest => put w w.tid (.port q) rest
  | _ => s

/-- Does a route reach anything (R226)? -/
def State.reaches (s : State) (segs : List Nat) : Bool :=
  match s.route s.cur segs with
  | .tile _ => true
  | .port .. => true
  | _ => false

/-- TRAPINFO0 of 0x14 where no tile is resolved (R226, R323). -/
def noTile (x : Nat) : Word := BitVec.ofNat 64 (0xFFFF * 2 ^ 48 + x)

/-- *access refused* for a command of core `id` that resolves no tile: `x` is its channel or queue (R226, R323). -/
def State.refuseNoTile (s : State) (id : CoreId) (x : Nat) : State :=
  let ctx := (s.coreAt id).pos.ctx.toNat
  s.refuse 0 id ctx ctx 0xFFFF x

/-! ### Failures that return to the sender (R178, R195, R200) -/

/-- A matrix command in execution, marked as failed when it is the one that did. -/
def MExec.mark (e : MExec) (k : Cause) : MExec := if e.cmd.ord = k.ord then { e with failed := some k } else e

/-- A deferred cause of an engine command of core `id`: the engine stops, and the cause is known when the chunks or packets already
issued are done (R178). Of a copy's chunks the lowest that fails gives the cause, since every chunk below it is complete (R195); of
another command the first that fails does. `n` is the number of the chunk. -/
def State.failCommand (s : State) (id : CoreId) (slot : Slot) (code : Nat) (info : Word) (opc : CodeIdx) (ord n : Nat) :
    State :=
  let c := s.coreAt id
  let k := deferredCause slot code info opc ord
  match slot with
  | .k =>
    match c.cpy.exec with
    | some e =>
      if e.cmd.ord = ord ∧ (e.failed.isNone ∨ n < e.failedAt) then
        s.putCore id { c with cpy := { c.cpy with stopped := true, exec := some { e with failed := some k, failedAt := n } } }
      else s
    | none => s
  | .m | .n =>
    if (c.failing ++ c.deferred).any (fun q => q.slot == slot && q.ord == ord) then s
    else if slot == .m then
      s.putCore id { c with
        failing := c.failing ++ [k]
        mat := { c.mat with stopped := true, exec := c.mat.exec.map (·.mark k), epi := c.mat.epi.map (·.mark k) } }
    else s.putCore id { c with failing := c.failing ++ [k], chn := { c.chn with stopped := true } }
  | _ => s.putCore id (c.defer k)

/-- A packet out of the network, with what its flits still ask of the bank units. -/
def State.offNet (s : State) (p : Packet) : State :=
  { s.putCore p.dst ((s.coreAt p.dst).endXfer (.packet p.id)) with net := s.net.filter (fun q => q.id != p.id) }

/-- What comes back to a command of another module whose packet was refused or discarded: its slot, order, bundle and packet number
as they came, the cause code and TRAPINFO0 (R269, R323). It is no packet, and what carries it the spec does not say (log 3). -/
def State.tellPeer (s : State) (p : Packet) (code : Nat) (info : Word) : State :=
  let x := p.src - 2 ^ 40
  { s with outbox := s.outbox ++ [.refusal (x / 65536) (x % 65536)
      (leBytes 1 (slotCode p.slot) ++ leBytes 1 code ++ leBytes 8 info.toNat ++ leBytes 2 p.opc.toNat ++ leBytes 8 p.ord ++
        leBytes 4 p.index ++ leBytes 1 p.kind)] }

/-- A failure of one of its packets told to a core: `n` is the packet's number in its command (R171, R178, R195, R200, R323). -/
def State.tellCore (s : State) (id : CoreId) (slot : Slot) (code : Nat) (info : Word) (opc : CodeIdx) (ord n : Nat) : State :=
  let c := s.coreAt id
  match slot with
  | .l =>
    match c.dacc.find? (fun a => a.ord == ord && a.isAtomic) with
    | some a => s.putCore id (((c.dropAccess a.id).unpend ord a.dests).defer (deferredCause .l code info opc ord))
    | none => s
  | .k =>
    (match c.cpy.exec with
      | some e =>
        if e.cmd.ord = ord then
          s.putCore id { c with cpy := { c.cpy with exec := some { e with chunks := Tab.del e.chunks n } } }
        else s
      | none => s).failCommand id .k code info opc ord n
  | _ => s.failCommand id slot code info opc ord n

/-- A cause of a packet's command told to the tile, or the other module, that issued it: of a reply that is where it goes (R171, R200,
R323). -/
def State.tellOwner (s : State) (p : Packet) (code : Nat) (info : Word) : State :=
  let reply := p.kind == 3 || p.kind == 4 || (match p.op with | .popped .. => true | _ => false)
  let back : Packet := if reply then { p with src := match p.place with | .port q => peerTile q p.dst | _ => p.dst } else p
  if back.foreign then s.tellPeer back code info else s.tellCore back.src p.slot code info p.opc p.ord p.index

/-- A packet discarded with its credit returned, and its command told (R171, R200, R243, R323). -/
def State.discardPacket (s : State) (p : Packet) (code : Nat) (info : Word) : State :=
  ((s.offNet p).returnCredit p).tellOwner p code info

/-- *access refused* for a packet that resolves no tile, by its context (R323). -/
def State.refuseUnresolved (s : State) (p : Packet) : State :=
  s.refuse 0 (if p.foreign then p.dst else p.src) p.ctx p.ctx 0xFFFF p.sch

/-- The reply of the tile that served packet `p` leaves by route `segs`; where that reaches no tile the command that asked is told (R241,
R379). -/
def State.replyTo (s : State) (p : Packet) (l : Letter) (segs : List Nat) : State :=
  let t := s.at p.dst
  if t.reaches segs then (t.launchPacket l segs false).at s.cur
  else ((t.at s.cur).tellOwner p 0x14 (noTile p.sch)).refuseUnresolved p

/-- The grants of a tile to a master (R322). -/
def State.grant (s : State) (tid mid : Nat) : BitVec 2 := Tab.getD s.grants (128 * tid + mid) 0

/-- A packet refused by its target's access table (R323). -/
def State.refusePacket (s : State) (p : Packet) : State :=
  (s.discardPacket p 0x14 (targetInfo p.dst p.off)).refuse 0 p.dst p.ctx p.ctx p.dst p.off

/-- Is a tile a queue home tile of a context: one of the last HOMEN tiles of its rectangle's southern row (R283, R320)? -/
def Ctx.hasHome (d : Ctx) (tid : Nat) : Bool :=
  d.v && tileY tid == d.y0.toNat + d.h.toNat - 1 &&
    decide (d.x0.toNat + d.w.toNat - d.homen.toNat ≤ tileX tid ∧ tileX tid < d.x0.toNat + d.w.toNat)

/-- Is a tile a queue home tile of its context: one of the last HOMEN of the southern row (R283, R320)? -/
def State.isHome (s : State) (tid : Nat) : Bool :=
  s.ctxs.any (fun e => e.2.hasHome tid)

/-! ### Arrival words (R237 to R239) -/

/-- Completed phases: `sum` reduced by TARGET, GEN and the count of phases (R238). -/
def phases (target sum : Nat) : Nat × Nat := if target = 0 then (sum, 0) else (sum % target, sum / target)

/-- Arrive(b) on the arrival word at `a` of a scratchpad (R238). -/
def arriveAt (m : Mem) (a b : Nat) : Mem :=
  let target := m.readN a 4
  let (sum, k) := phases target (m.readN (a + 4) 4 + b)
  let m1 := m.writeN (a + 4) 4 (sum % 2 ^ 32)
  let m2 := m1.writeN (a + 8) 4 ((m.readN (a + 8) 4 + k) % 2 ^ 32)
  if 1 < k then m2.write (a + 12) (m2.read (a + 12) ||| 1) else m2

/-- An arrival on its way (R228, R236): its bytes have been written, and its two words are pending, as one operation, at their bank units
from this cycle on (R239). -/
def State.addArrival (s : State) (core aw bytes src ord : Nat) (slot : Slot) (chunk : Option (Nat × Nat)) (ch : Option Nat) :
    State :=
  let (n, t) := s.fresh
  { t.putCore core ((t.coreAt core).beginXfer (.arrival n) 4 [] [pairWord (aw / 8)] true) with
    arrivals := t.arrivals ++ [{ id := n, core, aw, bytes, src, ord, slot, chunk, ch }] }

/-- Rows of RB bytes in 256-byte chunks: `kdec` has one row, its output of two symbols a byte (R192, R197). -/
def Cmd.rows (k : Cmd) : Nat := if k.kind == .kdec then 1 else (field 32 16 (k.reg 2)).toNat

/-- Bytes of a row of the destination (R191, R197). -/
def Cmd.rowBytes (k : Cmd) : Nat :=
  if k.kind == .kdec then ((field 0 20 (k.reg 7)).toNat + 1) / 2 else (field 0 32 (k.reg 2)).toNat

/-- Chunks of a row. -/
def Cmd.rowChunks (k : Cmd) : Nat := (k.rowBytes + 255) / 256

/-- The CFG form of `kfill`. -/
def Cmd.configures (k : Cmd) : Bool := k.kind == .kfill && (k.reg 6).getLsbD 11

/-- Chunks of a copy (R192). -/
def Cmd.chunkCount (k : Cmd) : Nat := if k.configures then 0 else k.rows * k.rowChunks

/-- Bytes of chunk `n` (R192). -/
def Cmd.chunkLen (k : Cmd) (n : Nat) : Nat := min 256 (k.rowBytes - 256 * (n % k.rowChunks))

/-- AWE of a copy. -/
def Cmd.counts (k : Cmd) : Bool := (k.reg 6).getLsbD 10

/-- The arrival word of a copy, cx8 to cx15 by AWS (R70, R189). -/
def Cmd.copyAw (k : Cmd) : Nat := (field 0 20 (k.reg (8 + (field 24 3 k.ops).toNat))).toNat

/-- Lowest incomplete chunk and the states from there up, complete ones below taken off. -/
def skipDone : Nat → Nat → Tab ChunkState → Nat × Tab ChunkState
  | 0, n, t => (n, t)
  | fuel + 1, n, t => if Tab.get? t n = some .complete then skipDone fuel (n + 1) (Tab.del t n) else (n, t)

/-- The slot that a `kfill` has filled: its tag, the next tail and FILL (R212). -/
def Core.fillDone (c : Core) (k : Cmd) : Core :=
  if k.kind == .kfill && !k.configures then
    let g : BitVec 3 := field 21 3 k.ops
    let r := c.rings.get g.toFin
    { c with
      rings := c.rings.set g.toFin
        { r with tags := r.tags.setIfInBounds r.tail (field 17 4 k.ops |>.setWidth 8), tail := (r.tail + 1) % r.count, fill := r.fill + 1 } }
  else c

/-- The copy in execution retires when every chunk is complete; K is lowered (R20, R192, R196). -/
def Core.retireCopy (c : Core) : Core :=
  match c.cpy.exec with
  | some e =>
    if e.next = e.cmd.chunkCount ∧ e.failed.isNone ∧ !c.cpy.stopped then
      ({ c with cpy := { c.cpy with exec := none }, cnt := { c.cnt with k := c.cnt.k - 1 } } : Core).fillDone e.cmd
    else c
  | none => c

/-- A chunk of a copy of core `id` is complete (R192). -/
def State.chunkDone (s : State) (id n : Nat) : State :=
  let c := s.coreAt id
  match c.cpy.exec with
  | none => s
  | some e =>
    let (next, chunks) := skipDone 9 e.next (Tab.put e.chunks n .complete)
    s.putCore id ({ c with cpy := { c.cpy with exec := some { e with next, chunks } } } : Core).retireCopy

/-- A chunk's bytes are written: it is complete once it is counted, with AWE at the local arrival word (R192). -/
def State.chunkWritten (s : State) (id n : Nat) : State :=
  match (s.coreAt id).cpy.exec with
  | none => s
  | some e => if e.cmd.counts then s.addArrival id e.cmd.copyAw (e.cmd.chunkLen n) id e.cmd.ord .k (some (id, n)) none
    else s.chunkDone id n

/-- ARRIVAL (R238): the boundary behind the cycle in which the bank unit has served it. -/
def execArrival (a : Nat) (s : State) : Host.Outcome State Fault Refusal :=
  .next (match s.arrivals.find? (fun x => x.id == a) with
    | none => s
    | some x =>
      let c := s.coreAt x.core
      if !c.xferDone (.arrival a) then s
      else
        let t := ({ s with arrivals := s.arrivals.filter (fun y => y.id != a) } : State).putCore x.core
          { c.endXfer (.arrival a) with spad := arriveAt c.spad x.aw x.bytes }
        match x.chunk with
        | some (id, n) => t.chunkDone id n
        | none => t)

/-! ### Deposits (R200, R201, R232, R235) -/

/-- A word of a scratchpad write that is poisoned and not written whole (R151). -/
def poisonHit (c : Core) (a n : Nat) : Option Nat :=
  (wordsOf a n).find? (fun w => c.poison.contains w && !(decide (a ≤ 8 * w) && decide (8 * w + 8 ≤ a + n)))

/-- Bytes written into a core's scratchpad by a deposit. -/
def Core.deposit (c : Core) (a : Nat) (bs : List (BitVec 8)) : Core := c.store (bytesAt a bs)

/-- Is a core halted for a save, or halting in a `sync` or after its strand's end (R265, R327)? -/
def Core.halting (c : Core) : Bool :=
  match c.strand with
  | .saved => true
  | .sync .. | .ended _ | .drained _ => c.haltReq
  | _ => false

/-- Does a core serve packets: not frozen and not halted for a save (R234, R257)? -/
def Core.serves (c : Core) : Bool := !c.frozen && !c.halting

/-- Does a core take a packet in: a halting one takes the replies that its own operations wait for (R179, R327). -/
def Core.takes (c : Core) (p : Packet) : Bool :=
  match p.op with
  | .reply .. | .popped .. => !c.frozen
  | _ => if p.kind = 4 then !c.frozen else c.serves

/-! ### Flits (R228, R231, R234) -/

/-- Data flits of a packet. -/
def Packet.nd (p : Packet) : Nat := p.flits - 1

/-- The cycle in which the whole packet is at its destination, unloaded (R228). -/
def Packet.wholeDue (p : Packet) : Nat := p.due + p.nd * p.fs

/-- Has the whole packet come to its tile? -/
def Packet.whole (p : Packet) : Bool := p.arrived == p.flits

/-- Does a packet pass the ingress buffer: the space of a reply is reserved, and a queue message goes to its home tile's queue unit
(R233, R234)? -/
def Packet.buffered (p : Packet) : Bool := p.kind == 0 || p.kind == 1 || p.kind == 2 || p.kind == 5

/-- Is a packet bound for a tile of this module and not yet consumed there? -/
def Packet.here (p : Packet) : Bool := match p.place with | .net => true | .taken .. => true | _ => false

/-- Flits in the ingress buffer of a tile (R234). -/
def State.ingress (s : State) (t : Nat) : Nat :=
  ((s.net.filter (fun p => p.dst == t && p.buffered && p.here)).map (fun p => p.arrived - p.returned)).sum

/-- The next flit of a packet comes in, when it is there and the ingress buffer has room: the header is number 0 (R228, R234). -/
def State.enterFlit (s : State) (p : Packet) : Packet :=
  if !p.stuck && p.arrived < p.flits && decide (p.arrived ≤ p.sent) && decide (p.due + p.arrived * p.fs ≤ s.cycle) &&
      (!p.buffered || decide (s.ingress p.dst < 256)) then { p with arrived := p.arrived + 1 }
  else p

/-- Are two packets of one sending channel between the same tiles, or two read replies of one channel? -/
def Packet.stream (p q : Packet) : Bool :=
  p.src == q.src && p.sch == q.sch && p.dst == q.dst && ((p.buffered && q.buffered) || (p.kind == 4 && q.kind == 4))

/-- May a packet's header come in: on a route without express hop every earlier packet of its channel has come whole (R231)? -/
def State.inOrder (s : State) (p : Packet) : Bool :=
  p.anyOrder || !(s.net.any (fun q => decide (q.id < p.id) && p.stream q && !q.anyOrder && q.here && !q.whole))

/-- Has every earlier packet of its channel and kind been taken in (R231)? One of another kind that waits for its posting does not hold
those behind it (DESIGN CHOICE, log 57). -/
def State.takenBefore (s : State) (p : Packet) : Bool :=
  p.anyOrder || !(s.net.any (fun q => decide (q.id < p.id) && p.stream q && q.kind == p.kind && !q.anyOrder && q.place == .net))

/-- Packet `p` in the place of the one of its number. -/
def State.putPacket (s : State) (p : Packet) : State := { s with net := s.net.map (fun q => if q.id = p.id then p else q) }

/-- Is an ordered packet the next of its pair of tiles (R231)? -/
def State.inSeq (s : State) (p : Packet) : Bool := !orderedKind p.kind || (Tab.getD s.seqIn (seqKey p.src p.dst) 0).toNat == p.seq

/-- The next number from `n` on of a pair of tiles that has not been discarded before its turn. -/
def seqAfter (gone : List (Nat × Nat)) (key : Nat) : Nat → BitVec 16 → BitVec 16
  | 0, n => n
  | k + 1, n => if gone.contains (key, n.toNat) then seqAfter gone key k (n + 1) else n

/-- An ordered packet taken in: the next is the one whose turn it is (R231). -/
def State.tookSeq (s : State) (p : Packet) : State :=
  if orderedKind p.kind then
    let key := seqKey p.src p.dst
    let n := Tab.getD s.seqIn key 0 + 1
    let m := seqAfter s.seqGone key s.seqGone.length n
    { s with
      seqIn := Tab.put s.seqIn key m
      seqGone := s.seqGone.filter (fun g => !(g.1 == key && decide ((BitVec.ofNat 16 g.2 - n).toNat < (m - n).toNat))) }
  else s

/-- An ordered packet that is never taken in does not hold those behind it (R231). -/
def State.skipSeq (s : State) (p : Packet) : State :=
  if !orderedKind p.kind || p.place != .net then s
  else if s.inSeq p then s.tookSeq p
  else { s with seqGone := s.seqGone ++ [(seqKey p.src p.dst, p.seq)] }

/-- Can a reply or a queue message, come whole, be served now? -/
def State.canServe (s : State) (p : Packet) : Bool :=
  decide (p.wholeDue ≤ s.cycle) && !p.stuck && (s.coreAt p.dst).takes p && p.place == .net && s.inSeq p

/-! ### What becomes of a packet at its tile (R200, R201, R235, R241, R269, R322) -/

/-- The fate of a packet whose header is at its tile. -/
inductive Fate
  | waits
  /-- by the access table (R322) -/
  | refused
  | bad (code : Nat) (info : Word)
  | take (base : Nat) (aw : Option Nat)
deriving DecidableEq, Repr

/-- The checks of a deposit of `n` bytes at `base`, counted at `aw`: OFF and AW as TRAPINFO0 names them (R151, R195, R200). -/
def depositFate (c : Core) (p : Packet) (fits : Bool) (base : Nat) (aw : Option Nat) : Fate :=
  if !fits then .bad 0x0B (BitVec.ofNat 64 p.off)
  else if p.kind = 1 && p.awv && decide (c.spend < p.aw + 16) then .bad 0x0B (BitVec.ofNat 64 p.aw)
  else
    match poisonHit c base p.len with
    | some w => .bad 0x15 (BitVec.ofNat 64 (8 * w))
    | none => .take base aw

/-- The bits of a grant that a packet needs: RD 1, W 2 (R241, R322). -/
def Packet.needs (p : Packet) : BitVec 2 := if p.kind = 2 then 3 else if p.kind = 5 then 1 else 2

/-- What becomes of a packet (R235): refused outside its context, and at a queue home tile; waiting for a gang of its context to have
started, and for a posting; refused where it meets another member than its group relation named (R269). -/
def State.fate (s : State) (p : Packet) : Fate :=
  let c := s.coreAt p.dst
  let aw := if p.awv then some p.aw else none
  if p.kind = 4 then .take p.off aw
  else if (s.grant p.dst p.ctx) &&& p.needs != p.needs || s.isHome p.dst then .refused
  else if !(match s.gangOf p.dst with | some g => g.started | none => false) then .waits
  else
    let misplaced := match p.expect with
      | some (m, gx, gy) =>
        (field 0 10 s.sys.modRank).toNat != m || c.pos.x.toNat != c.pos.orgX.toNat + gx ||
          c.pos.y.toNat != c.pos.orgY.toNat + gy
      | none => false
    if misplaced then .bad 0x14 (noTile p.sch)
    else if p.kind = 0 then
      match Tab.get? c.chn.posts p.dch with
      | none => .waits
      | some q => depositFate c p (decide (p.off + p.len ≤ q.bytes)) (q.base + p.off) (some q.aw)
    else if p.kind = 1 then depositFate c p (decide (p.off + p.len ≤ c.spend)) p.off aw
    else .take p.off none

/-- The port of the bank units that a packet's accesses use (R210, R245; a read reply's: DESIGN CHOICE, log 100). -/
def Packet.bankPort (p : Packet) : Nat := if p.kind = 0 then 4 else if p.kind = 4 then 3 else 5

/-- The bytes of data flit `k`, from 1 on. -/
def Packet.flitBytes (p : Packet) (k : Nat) : List (BitVec 8) := (p.data.drop (64 * (k - 1))).take 64

/-- Is it a packet's turn to be written: no other packet of its destination channel that reached the tile before it is there, and none
of that channel is still to be counted (R355; the cycle between the two DESIGN CHOICE, log 114)? -/
def State.channelTurn (s : State) (p : Packet) : Bool :=
  p.kind != 0 ||
    (s.net.all (fun q => !(q.id != p.id && q.kind == 0 && q.dst == p.dst && q.dch == p.dch && q.here && q.arrived != 0 &&
        decide (q.turn < p.turn))) &&
      s.arrivals.all (fun a => !(a.core == p.dst && a.ch == some p.dch)))

/-- The flits that have come of a deposit at `base`, when it is its turn, begin to be written; those whose words the bank units have served are written, and
their credit goes back (R228, R233). -/
def State.moveFlits (s : State) (p : Packet) (base : Nat) : Packet × State :=
  let c := s.coreAt p.dst
  let mine (x : Xfer) : Bool := x.owner == .packet p.id
  let fin := (c.xfers.filter (fun x => mine x && x.todo.isEmpty)).length
  let ks := if s.channelTurn p then (List.range (p.arrived - 1 - p.begun)).map (· + p.begun + 1) else []
  let d : Core := { c with xfers := c.xfers.filter (fun x => !(mine x && x.todo.isEmpty)) }
  let e := ks.foldl (fun (x : Core) k => x.beginWrite (.packet p.id) p.bankPort (bytesAt (base + 64 * (k - 1)) (p.flitBytes k))) d
  let q : Packet := { p with begun := p.begun + ks.length, done := p.done + fin }
  (q, ((s.putCore p.dst e).putPacket q).returnFlits p (q.returned - p.returned))

/-- A deposit written whole: it leaves the network, and the arrival that counts it begins (R228, R236). -/
def State.depositDone (s : State) (p : Packet) (aw : Option Nat) : State :=
  let t := s.offNet p
  let chunk :=
    if p.slot == .k && !p.foreign then some (if p.kind = 4 then p.dst else p.src, p.index)
    else if p.kind = 4 then some (p.dst, p.index) else none
  match aw with
  | some w => t.addArrival p.dst w p.len p.src p.ord p.slot chunk (if p.kind = 0 then some p.dch else none)
  | none => match chunk with | some (id, n) => t.chunkDone id n | none => t

/-- Packet `p` taken in, as fate has it. -/
def State.takeIn (s : State) (p : Packet) : Packet × State :=
  if !s.takenBefore p || !s.inSeq p then (p, s.putPacket p)
  else
    match s.fate p with
    | .take base aw =>
      let q := { p with place := .taken base aw }
      (q, (s.tookSeq p).putPacket q)
    | .waits => (p, s.putPacket p)
    | .refused =>
      (p, if p.kind = 2 then
          let q := { p with place := .taken p.off none }
          (s.tookSeq p).putPacket q
        else (s.tookSeq p).refusePacket p)
    | .bad code info => (p, let t := (s.tookSeq p).discardPacket p code info
                            if code = 0x14 then t.refuseUnresolved p else t)

/-- A flit of a packet comes in, and one that has come to its tile is taken in when it may be (R228, R235). A frozen tile takes none in,
but what is on its way to it inside the closed region drains into its ingress buffer (R370). -/
def State.comeIn (s : State) (p : Packet) : State :=
  let c := s.coreAt p.dst
  let drains := c.frozen && p.buffered
  match p.place with
  | .taken .. => if c.frozen && !drains then s else s.putPacket (s.enterFlit p)
  | .net =>
    if !(c.takes p || drains) || (p.arrived = 0 && !s.inOrder p) then s
    else
      let q := s.enterFlit p
      if q.arrived = 0 then s
      else
        let (r, t) := if p.arrived = 0 then ({ q with turn := s.fresh.1 }, s.fresh.2) else (q, s)
        if drains then t.putPacket r else (t.takeIn r).2
  | _ => s

/-- PACKET_DEPOSIT (R200, R201, R228, R235): a cycle of a deposit at its tile. -/
def State.depositPacket (s : State) (id : Nat) : State :=
  match s.net.find? (fun q => q.id == id) with
  | none => s
  | some p0 =>
    let t := s.comeIn p0
    match t.net.find? (fun q => q.id == id) with
    | none => t
    | some p =>
      match p.place with
      | .taken base aw =>
        if (t.coreAt p.dst).frozen then t
        else
          let (q, u) := t.moveFlits p base
          if q.done = q.nd then u.depositDone q aw else u
      | _ => t

/-- PACKET_DEPOSIT (R228). -/
def execPacketDeposit (p : Nat) (s : State) : Host.Outcome State Fault Refusal :=
  .next (match s.net.find? (fun q => q.id == p) with
    | some q => if q.kind = 0 ∨ q.kind = 1 ∨ q.kind = 4 then s.depositPacket p else s
    | none => s)

/-! ### The drawer ports' checks (R322, R323) -/

/-- Range `i` of master `m` as it reads; range 0 of the management core covers the installed memory (R322). -/
def State.rangeOf (s : State) (m i : Nat) : Range :=
  let r := Tab.getD s.ranges (8 * m + i) Range.none
  if m = 64 ∧ i = 0 then { r with limit := BitVec.ofNat 32 (s.cap / 2 ^ 16 - 1) } else r

/-- Is an access to `n` bytes at `pa` permitted to a master at the drawer ports (R322, R402)? -/
def State.portAllows (s : State) (mid pa n : Nat) (write : Bool) : Bool :=
  (List.range 8).any (fun i =>
    let r := s.rangeOf mid i
    r.v && (if write then r.wr else r.rd) && decide (r.base.toNat * 2 ^ 16 ≤ pa) &&
      decide (pa + n ≤ (r.limit.toNat + 1) * 2 ^ 16))

/-! ### Group relations (R266 to R269) -/

/-- A group as the ranks' geometry: size, the tile's rank, root, and the member of a rank as (module, gx, gy). -/
structure Group where
  size : Nat
  rank : Nat
  root : Nat
  members : List (Int × Int × Int)
deriving DecidableEq, Repr

/-- The member rank that RELC names (R267). -/
def relRank (g : Group) (relc : Nat) : Option Nat :=
  let q := (g.rank + g.size - g.root % g.size) % g.size
  if relc = 0 then some ((g.rank + 1) % g.size)
  else if relc = 1 then some ((g.rank + g.size - 1) % g.size)
  else if relc = 2 then (if q = 0 then none else some ((q - 2 ^ q.log2 + g.root) % g.size))
  else
    let k := relc - 16
    if q < 2 ^ k ∧ q + 2 ^ k < g.size then some ((q + 2 ^ k + g.root) % g.size) else none

/-- The members of a dimension from coordinate `c`: C coordinates of stride S, and the tile's index (R267). -/
def dimMembers (c s n : Nat) : Nat × List Int :=
  let i := c / s % n
  (i, (List.range n).map (fun (j : Nat) => (c : Int) + ((j : Int) - (i : Int)) * (s : Int)))

/-- The group of a descriptor (R266, R267). -/
def descGroup (d : Word) (gx gy m : Nat) : Group :=
  let xs := (field 5 8 d).toNat
  let xc := (field 13 8 d).toNat
  let ys := (field 21 8 d).toNat
  let yc := (field 29 8 d).toNat
  let ms := (field 37 10 d).toNat
  let mc := (field 47 11 d).toNat
  let (ix, xl) := dimMembers gx xs xc
  let (iy, yl) := dimMembers gy ys yc
  let (im, ml) := dimMembers m ms mc
  let xFirst := field 0 2 d == 0
  let rank := if xFirst then ix + xc * (iy + yc * im) else iy + yc * (ix + xc * im)
  let members :=
    if xFirst then ml.flatMap (fun mm => yl.flatMap (fun yy => xl.map (fun xx => (mm, xx, yy))))
    else ml.flatMap (fun mm => xl.flatMap (fun xx => yl.map (fun yy => (mm, xx, yy))))
  { size := xc * yc * mc, rank, root := 0, members }

/-- What a group relation gives. -/
inductive Peer
  /-- no member: the command sends nothing (R267) -/
  | nobody
  /-- module rank and gang-relative position -/
  | member (m gx gy : Nat)
  /-- a deferred 0x14 (R267, R268) -/
  | bad
  /-- the table's translation failed (R268) -/
  | fault (type lev : Nat) (entry va : Word)
  /-- the table cannot be read yet -/
  | wait
  /-- the table's bytes may not be read, or are poisoned: a deferred cause (log 36) -/
  | cause (code : Nat) (info : Word)
deriving DecidableEq, Repr

/-- The group of a table entry's 256 bytes, `none` when it is refused (R268). -/
def tableGroup (bs : List (BitVec 8)) (gx gy m : Nat) : Option Group :=
  let x := bytesNat (bs.take 128)
  let mem := (List.range 1024).filter x.testBit
  let owner := bytesNat ((bs.drop 128).take 2)
  let rest := bytesNat ((bs.drop 130).take 2) + bytesNat (bs.drop 136)
  if rest ≠ 0 ∨ 1024 ≤ owner ∨ !mem.contains m ∨ !mem.contains owner then none
  else
    some { size := mem.length, rank := mem.idxOf m, root := mem.idxOf owner
           members := mem.map (fun (k : Nat) => ((k : Int), (gx : Int), (gy : Int))) }

/-- The peer of relation word `rel` of a command of the current core (R267, R268). A table entry is read through the
context's translation, block by block; until it is there the command waits. -/
def State.groupPeer (s : State) (rel : Word) (cmd : Cmd) : Peer × State :=
  let c := s.core
  let gx := c.pos.x.toNat - c.pos.orgX.toNat
  let gy := c.pos.y.toNat - c.pos.orgY.toNat
  let m := (field 0 10 s.sys.modRank).toNat
  let src := (field 8 4 rel).toNat
  let pick (g : Option Group) : Peer :=
    match g with
    | none => .bad
    | some g =>
      match relRank g (field 0 8 rel).toNat with
      | none => .nobody
      | some r =>
        match g.members[r]? with
        | none => .bad
        | some (mm, xx, yy) =>
          if 0 ≤ mm ∧ mm ≤ 1023 ∧ 0 ≤ xx ∧ xx < c.pos.gangW.toNat ∧ 0 ≤ yy ∧ yy < c.pos.gangH.toNat then
            .member mm.toNat xx.toNat yy.toNat
          else .bad
  if src = 8 then
    let va := cmd.gtab + 256 * (field 16 8 rel).setWidth 64
    match s.unitRead s.cur (.group (cmd.kind == .msend)) (cacheKey s.cur) c.pos.ctx.toNat va 256 false with
    | .done bs t => (pick (tableGroup bs gx gy m), t)
    | .fault ty lev e a t => (.fault ty lev e a, t)
    | .wait t => (.wait, t)
    | .cause code info t => (.cause code info, t)
  else (pick (some (descGroup (cmd.gd.getD src 0) gx gy m)), s)

/-! ### The fault unit's inlet (R312 to R314) -/

/-- A fault record handed to the fault unit, stamped with FGEN (R314). -/
def State.faultRecord (s : State) (r : FaultRec) : State :=
  { s with fbWait := s.fbWait ++ [{ r with stamp := s.sys.fgen }] }

/-- A record of the current core with what does not depend on the access. -/
def State.tileFault (s : State) (vaddr : Word) (type lev source : Nat) (entry : Word) (opc : CodeIdx) (cls : Nat) : FaultRec :=
  { vaddr, stamp := 0, type, level := lev, ctx := s.core.pos.ctx.toNat % 64, source
    link := if type = 5 then entry.toNat else 0xFFFF
    tid := if s.core.isMgmt then 0xFFFF else tidOf s.core.pos.x.toNat s.core.pos.y.toNat
    opc := opc.toNat, chunk := 0, bitmap := 0, cls, qid := 0
    entry := if type = 1 ∨ type = 2 then entry else 0 }

/-! ### Where a command of the current core sends (R186, R204, R226, R227, R268, R269) -/

/-- The outcome of resolving a command's peer at dispatch. -/
inductive Aim
  | go (segs : List Nat) (dch : Nat) (expect : Option (Nat × Nat × Nat))
  /-- the relation names no member -/
  | nobody
  | refused
  | fault (type lev : Nat) (entry va : Word)
  | wait
  | cause (code : Nat) (info : Word)
deriving DecidableEq, Repr

/-- The peer that the route entry of `ch` names (R226). -/
def State.aimRoute (s : State) (ch : Nat) : Aim :=
  let e := s.core.routeEntry ch
  if s.reaches (entrySegs e) then .go (entrySegs e) (entryDch e) none else .refused

/-- The member that relation word `rel` names, on destination channel `ch` (R267 to R269). -/
def State.aimGroup (s : State) (ch : Nat) (rel : Word) (cmd : Cmd) : Aim × State :=
  match s.groupPeer rel cmd with
  | (.nobody, t) => (.nobody, t)
  | (.bad, t) => (.refused, t)
  | (.wait, t) => (.wait, t)
  | (.cause code info, t) => (.cause code info, t)
  | (.fault ty lev e va, t) => (.fault ty lev e va, t)
  | (.member m gx gy, t) =>
    let c := t.core
    let segs :=
      if m = (field 0 10 t.sys.modRank).toNat then
        computedSegs t.cur (tidOf (c.pos.orgX.toNat + gx) (c.pos.orgY.toNat + gy))
      else entrySegs (c.routeEntry ch)
    (if t.reaches segs then .go segs ch (some (m, gx, gy)) else .refused, t)

/-- A fault record of a group-table read of the current core (R268, R313). -/
def State.tableFault (s : State) (cmd : Cmd) (type lev : Nat) (entry va : Word) : State :=
  s.faultRecord (s.tileFault va type lev 7 entry cmd.opc 0)

end Sys2Proof.Machine
end

