-- ==== Sys2Proof/Machine/DrawerPath.lean ====
section
/-! DEFINITION. The tile's drawer path, links and slots, token buckets, held loads and the side log
(07 R166, R167, R173, R174, 11 R248, R252, 16 R315 to R317, 18 R332 to R348). -/

namespace Sys2Proof.Machine

/-! ### Leaving a class queue (R173, R174, R248) -/

/-- Has a drawer port accepted a request (R172, R248)? One that found its frame offline has not performed. -/
def Req.accepted (r : Req) : Bool := (match r.place with | .served _ _ | .resend => true | _ => false) && r.faulted.isNone

/-- Have all of an access's requests been accepted at their ports (R248)? -/
def State.accepted (s : State) (id : CoreId) (a : Access) : Bool :=
  a.st == .performed ||
    (a.st == .sent && s.reqs.all (fun r => !(r.core == id && r.owner == .access a.id) || r.accepted))

/-- Have the drawer accesses of chunk `n` of a copy been accepted: its reads, or, with a drawer destination, its writes (R248)? -/
def State.chunkAccepted (s : State) (id : CoreId) (e : KExec) (n : Nat) : Bool :=
  let rs := s.reqs.filter (fun r => r.core == id && r.owner == .chunk n)
  (s.job? id (.chunk n)).isNone && rs.all Req.accepted && (!e.cmd.dd || rs.any (fun r => r.write.isSome))

/-- Are all drawer accesses of a copy accepted or in the side log (R191, R248)? -/
def State.copyAccepted (s : State) (id : CoreId) (e : KExec) : Bool :=
  decide (e.total ≤ e.next + e.chunks.length) &&
    e.chunks.all (fun x => match x.2 with
      | .complete | .logged => true
      | .flying => s.chunkAccepted id e x.1
      | .faulted .. => false)

/-- Does the order of the drawer path let access number `n` of class `cls`, issue order `ord`, go now (R127, R173, R174, R248)?
Earlier accesses of its class, a dispatched copy's among them, must have been accepted at their ports, or be logged; an atomic waits until
they have performed. -/
def State.mayGo (s : State) (id : CoreId) (n ord : Nat) (cls : BitVec 4) (atomic : Bool) : Bool :=
  let c := s.coreAt id
  let open_ := fun m => c.dacc.any (fun b => b.id == m && b.open)
  c.dacc.all (fun b =>
      b.id ≥ n || b.cls != cls || (if atomic || b.isAtomic then !b.open else s.accepted id b || b.st == .logged)) &&
    !(c.fences.any (fun j => j.mask.getLsbD cls.toNat && decide (j.ord < ord) && j.waits.any open_)) &&
    (atomic || !c.qHeld 0 ord) &&
    (match c.cpy.exec with
     | some e => !(e.cmd.drawerSide && e.cmd.cls == cls && decide (e.mark ≤ n)) || (if atomic then e.drawerDone else s.copyAccepted id e)
     | none => true)

/-- May access `a` of core `id` leave its class queue (R127, R173, R174, R248)? -/
def State.canLeave (s : State) (id : CoreId) (a : Access) : Bool := s.mayGo id a.id a.ord a.cls a.isAtomic

/-- Stands an entry of class `cls` in the side log before access `n` (R167, R252)? A copy's chunk stands before the accesses issued
after its dispatch. -/
def State.loggedBefore (s : State) (id : CoreId) (n : Nat) (cls : BitVec 4) : Bool :=
  let c := s.coreAt id
  c.slog.any (fun e => e.cls == cls && (match e.acc with
    | some m => decide (m < n)
    | none => match c.cpy.exec with | some x => x.cmd.ord != e.ord || decide (x.mark ≤ n) | none => true))

/-! ### Requests (R337) -/

/-- The master and requester class of a core (R322, R341): the core is 64. -/
def State.masterOf (s : State) (id : CoreId) : Nat := if id = mgmtCore then 64 else (s.coreAt id).pos.ctx.toNat

/-- Is a context metered (R342)? -/
def State.isMetered (s : State) (ctx : Nat) : Bool := ctx < 64 && field 0 11 (Tab.getD s.bwc ctx 0) != 0

/-- The requests of an access of core `id` to blocks at known addresses, put at its network port; `w` holds the bytes of a
write (R337). -/
def State.addBlocks (s : State) (id : CoreId) (owner : ReqOwner) (va : Word) (w : Option (List (BitVec 8)))
    (bs : List (Nat × Nat × Nat)) : State :=
  let m := s.masterOf id
  bs.foldl (fun t b =>
    let (k, u) := t.fresh
    { u with
      reqs := u.reqs ++ [{ id := k, core := id, mid := m, rq := m, owner, addr := b.2.2, va := va + BitVec.ofNat 64 b.1
                           write := w.map (fun l => (l.drop b.1).take b.2.1), len := b.2.1, place := .port, res := none
                           patient := false, waited := 0 }] }) s

/-- Requests for `n` bytes at physical `pa`, virtual `va` (R337). -/
def State.addReqs (s : State) (id : CoreId) (owner : ReqOwner) (pa : Nat) (va : Word) (n : Nat)
    (w : Option (List (BitVec 8))) : State :=
  s.addBlocks id owner va w ((blocksOf pa n).map (fun b => (b.1, b.2, pa + b.1)))

/-- The size in bytes of an access. -/
def Access.size (a : Access) : Nat :=
  match a.kind with
  | .ldh _ t => typeWidth t / 8
  | .ldvh _ => 128
  | .sth _ n => n
  | .stvh _ => 128
  | .atomic _ w .. => atWidth w / 8

/-- The bytes a store writes. -/
def Access.bytes (a : Access) : List (BitVec 8) :=
  match a.kind with
  | .sth x n => leBytes n x.toNat
  | .stvh x => leBytes 128 x.toNat
  | _ => []

/-- The virtual address of an access's first byte. -/
def Access.va (a : Access) : Word := a.h.vpage + a.off

/-! ### The side log (R167, R317, R318) -/

/-- A log slot that is free (R317). -/
def State.freeSlot (s : State) : Option Nat :=
  (List.range (field 48 16 s.sys.slogCfg).toNat).find? (fun n => !s.slogUsed.contains n)

/-- Has core `id` a log slot, or can it take one (R317)? -/
def State.canLog (s : State) (id : CoreId) : Bool := (s.coreAt id).slogSlot.isSome || s.freeSlot.isSome

/-- A store or chunk kept in the drawer path until a log slot is free: issue freezes from the next boundary (R317). -/
def State.keepStore (s : State) (id : CoreId) : State := s.putCore id { s.coreAt id with slogWait := true }

/-- A free log slot for a tile whose side log was empty (R317). -/
def State.takeSlot (s : State) (id : CoreId) : State :=
  let c := s.coreAt id
  if c.slogSlot.isSome then s
  else
    match s.freeSlot with
    | some n => { s.putCore id { c with slogSlot := some n, slogWait := false } with slogUsed := s.slogUsed ++ [n] }
    | none => s

/-- The log slot returned when the side log has drained (R317). -/
def State.returnSlot (s : State) (id : CoreId) : State :=
  let c := s.coreAt id
  match c.slog, c.slogSlot with
  | [], some n => { s.putCore id { c with slogSlot := none } with slogUsed := s.slogUsed.filter (· != n) }
  | _, _ => s

/-- The bytes of a side-log entry in its slot (R318). -/
def LogEntry.image (e : LogEntry) (ctx : Nat) : List (BitVec 8) :=
  leBytes 8 e.addr.toNat ++ leBytes 4 e.bytes.length ++ leBytes 1 e.cls.toNat ++
    leBytes 1 (if e.acc.isSome then 1 else 3) ++ leBytes 2 e.opc.toNat ++
    leBytes 4 (if e.acc.isSome then 0 else e.chunk) ++ leBytes 1 (ctx % 64) ++ leBytes 43 0 ++ e.bytes

/-- An entry in the side log of core `id`; its copy goes to its place in the log slot as memory-unit traffic (R167, R194, R317,
R318). -/
def State.logEntry (s : State) (id : CoreId) (e : LogEntry) : State :=
  let t := s.takeSlot id
  let c := t.coreAt id
  let n := ((List.range 256).find? (fun i => !c.slog.any (fun x => x.place == i))).getD 0
  let u := t.putCore id
    { c with slog := c.slog ++ [{ e with place := n }], cnt := { c.cnt with s := c.cnt.s + (if e.acc.isSome then 0 else 1) } }
  match c.slogSlot with
  | some k =>
    u.startJob (physJob id .logSlot c.pos.ctx.toNat
      ((field 16 32 s.sys.slogCfg).toNat * 2 ^ 16 + 81920 * k + 320 * n) (e.image c.pos.ctx.toNat))
  | none => u

/-- Is an entry of this class in the side log (R167)? -/
def Core.logged (c : Core) (cls : BitVec 4) : Bool := c.slog.any (fun e => e.cls == cls)

/-- The fault record of an access of core `id` (R313). -/
def State.accessFault (s : State) (id : CoreId) (a : Access) (type lev : Nat) (entry : Word) (va : Word) : State :=
  s.faultRecord (({ s with cur := id } : State).tileFault va type lev (if a.isLoad then 0 else 1) entry a.opc a.cls.toNat)

/-- A store into the side log, for a fault of its own or behind an earlier entry of its class, when it may be replayed (R167). -/
def State.logStore (s : State) (id : CoreId) (a : Access) (ready : Bool) : State :=
  (s.putCore id ((s.coreAt id).setAccess a.id .logged)).logEntry id
    { cls := a.cls, ord := a.ord, acc := some a.id, chunk := 0, opc := a.opc, addr := a.va, bytes := a.bytes, ready, place := 0 }

/-- A load held for a fault of its own: it goes on after a flush (R166, R315). -/
def Core.holdLoad (c : Core) (id : Nat) : Core :=
  { c with dacc := c.dacc.map (fun b => if b.id = id then { b with st := .held, again := true, h := { b.h with v := false, f := true } } else b) }

/-- An access that leaves with its blocks translated afresh (R162, R316). -/
def Core.sendsFresh (c : Core) (id : Nat) : Core :=
  { c with dacc := c.dacc.map (fun b => if b.id = id then { b with st := .sent, fresh := true } else b) }

/-- An access goes into fault service: a load is held, a store logged, with a record (R166, R167, R313). A store for which there is no
log slot stays where it is (R317). -/
def State.service (s : State) (id : CoreId) (a : Access) (type lev : Nat) (entry va : Word) : State :=
  if a.isLoad then (s.putCore id ((s.coreAt id).holdLoad a.id)).accessFault id a type lev entry va
  else if s.canLog id then (s.logStore id a false).accessFault id a type lev entry va
  else s.keepStore id

/-- An access whose handle is shot down leaves with its blocks translated afresh (R257, R308, R316). -/
def State.sendFresh (s : State) (id : CoreId) (a : Access) : State :=
  match s.freshBlocks id (.load a.id) (cacheKey id) (s.coreAt id).pos.ctx.toNat a.va a.size with
  | (.wait t, _) => t
  | (.fault ty lev e va t, _) => t.service id a ty lev e va
  | (.cause _ _ t, _) => t
  | (.done _ t, bs) =>
    (t.putCore id ((t.coreAt id).sendsFresh a.id)).addBlocks id (.access a.id) a.va
      (if a.isLoad then none else some a.bytes) bs

/-- A queued access of the drawer path in this cycle (R165 to R167, R252): behind a logged entry of its class a load is held and a
store logged; one with a faulted handle goes into service; one whose turn it is leaves as requests. -/
def State.leave (s : State) (id : CoreId) (a : Access) : State :=
  let behind := s.loggedBefore id a.id a.cls
  if a.h.f && (a.isLoad || !behind) then s.service id a a.h.ftype a.h.flevel a.h.fentry a.va
  else if behind then
    if a.isLoad then
      s.putCore id { s.coreAt id with
        dacc := (s.coreAt id).dacc.map (fun b => if b.id = a.id then { b with st := .held, again := true } else b) }
    else if decide ((s.coreAt id).slog.length < 256) then s.logStore id a true
    else s
  else if !s.canLeave id a then s
  else if a.h.isShot then s.sendFresh id a
  else
    (s.putCore id ((s.coreAt id).setAccess a.id .sent)).addReqs id (.access a.id) (a.h.base.toNat + a.off.toNat) a.va a.size
      (if a.isLoad then none else some a.bytes)

/-- Every queued drawer access of core `id`, in issue order (R248). -/
def State.leaveAll (s : State) (id : CoreId) : State :=
  (s.coreAt id).dacc.foldl (fun t a => if a.st == .queued && !a.isAtomic then t.leave id a else t) s

/-! ### The network port (R337, R343) -/

/-- The unloaded way between a requester and the controller of an address's link, or back (R228, R337). A host's requests are taken
to travel as the management core's (DESIGN CHOICE, log 107). -/
def State.linkCost (s : State) (t addr : Nat) (back : Bool) : Nat :=
  let l := linkTile (linkOf addr)
  if t = mgmtCore ∨ 0x10000 ≤ t then 16 else if back then s.computedCost l t else s.computedCost t l

/-- Cycles from the port to the request's link controller: the way and 2 (R337, R338, R351). -/
def State.reachCost (s : State) (t addr : Nat) : Nat := s.linkCost t addr false + 2

/-- Cycles from the start of the inbound slot to the cycle whose opening boundary uses the reply: a load's register is written at the
second boundary behind its arrival, and so are a chunk's bytes, whose words its bank units serve in the cycle before (R338, R351).
A memory unit's transfer pays no way through the mesh (DESIGN CHOICE, log 107). -/
def State.replyCost (s : State) (r : Req) : Nat :=
  match r.owner with
  | .walk _ => 0
  | .job _ => 0
  | .chunk _ => 12 + s.linkCost r.core r.addr true + 1
  | _ => 12 + s.linkCost r.core r.addr true + 2

/-- Request `r` with another place. -/
def State.placeReq (s : State) (r : Req) (p : ReqPlace) : State :=
  { s with reqs := s.reqs.map (fun q => if q.id = r.id then { q with place := p } else q) }

/-- A request held back by a freeze gets a fresh address (R258, R311); a fault of its translation ends it. -/
def State.refreshReq (s : State) (r : Req) : State :=
  match s.freshBlocks r.core (.request r.id) (cacheKey r.core) (s.coreAt r.core).pos.ctx.toNat r.va r.len with
  | (.wait t, _) => t
  | (.done _ t, b :: _) =>
    let place : ReqPlace := match r.owner with | .job _ => .net t.cycle | _ => .port
    { t with reqs := t.reqs.map (fun q => if q.id = r.id then { q with addr := b.2.2, place } else q) }
  | (.done _ t, []) => t
  | (.fault ty lev e _ t, _) =>
    { t with reqs := t.reqs.map (fun q =>
        if q.id = r.id then { q with place := .served t.cycle t.cycle, res := some (.failed ty lev e) } else q) }
  | (.cause _ _ t, _) => t

/-- DRAWER_REQUEST_SEND (R337, R343): accesses that may leave their class queues do; then the oldest request at the network
port of tile or host port `t` leaves, when it needs no token or the bucket is above 0. A host's next request waits until
its earlier ones are served (R256). -/
def State.sendRequest (s : State) (t : Nat) : State :=
  let tile := decide (t < 0x10000)
  if tile && (s.coreAt t).frozen then s
  else
    let u := if tile then s.leaveAll t else s
    let here (r : Req) : Bool :=
      r.core == t && (r.place == .stale || (r.place == .port && (match r.owner with | .job _ | .walk _ => false | _ => true)))
    match u.reqs.find? here with
    | none => u
    | some r =>
      let c := u.coreAt t
      let metered := tile && t != mgmtCore && u.isMetered r.rq
      let hostBusy := u.reqs.any (fun q => q.core == t && (match q.place with | .net _ => true | .queue _ => true | _ => false))
      if r.place == .stale then u.refreshReq r
      else if (metered && decide (c.bucket ≤ 0)) || (!tile && hostBusy) then u
      else
        let v := u.placeReq r (.net (s.cycle + u.reachCost t r.addr))
        if metered then
          { v.putCore t { c with bucket := c.bucket - 1 } with
            metered := if v.metered.contains r.rq then v.metered else v.metered ++ [r.rq] }
        else v

/-- DRAWER_REQUEST_SEND (R343). -/
def execDrawerRequestSend (t : Nat) (s : State) : Host.Outcome State Fault Refusal := .next (s.sendRequest t)

/-! ### Slots (R333, R337, R341) -/

/-- The place of a request in the order of its requester at a link, what is to be sent again first (R337, R341, R347). -/
def Req.turn (r : Req) : Option Nat := match r.place with | .queue n => some (n + 1) | .resend => some 0 | _ => none

/-- Requests of requester `k` that link `n` is to carry: those in its queue, and those to be sent again (R337, R347). -/
def State.queued (s : State) (n k : Nat) : List Req :=
  s.reqs.filter (fun r => r.rq == k && linkOf r.addr == n && r.turn.isSome)

/-- Requests that have come to their links enter their queues, each of 32 entries, in the order in which they came, and are aligned to
the slots 2 tc after they came (R337, R351). -/
def State.enterQueues (s : State) : State :=
  (s.reqs.filter (fun r => match r.place with | .net d => decide (d + 2 ≤ s.cycle) | _ => false)).foldl (fun t r =>
    if ((t.queued (linkOf r.addr) r.rq).filter (·.place != .resend)).length < 32 then
      let (n, u) := t.fresh
      u.placeReq r (.queue n)
    else t) s

/-- The oldest of a list of queued requests (R341). -/
def oldestReq : List Req → Option Req
  | [] => none
  | r :: rs =>
    match oldestReq rs with
    | none => some r
    | some q =>
      match r.turn, q.turn with
      | some a, some b => if b < a then some q else some r
      | _, _ => some r

/-- A request served at its port: refused, offline, poisoned, or done; a write clears the poison of the words it writes
whole (R246, R313, R322). -/
def State.serve (s : State) (r : Req) (slot ready : Nat) : State :=
  let link := linkOf r.addr
  let fin (t : State) (e : ReqEnd) : State :=
    { t with reqs := t.reqs.map (fun q => if q.id = r.id then { q with place := .served slot ready, res := some e } else q) }
  if !s.portAllows r.mid r.addr r.len r.write.isSome then
    (fin s .denied).refuse 3 link (if r.mid < 64 then r.mid else 64) r.mid 0xFFFE r.addr
  else if s.drwOffline.contains (r.addr / 2 ^ 16) then fin s .offline
  else
    match r.write with
    | some bs =>
      let covers := fun w => decide (r.addr ≤ 8 * w) && decide (8 * w + 8 ≤ r.addr + r.len)
      fin { s with drawer := s.drawer.putBytes r.addr bs, drwPoison := s.drwPoison.filter (fun w => !covers w) } (.ok [])
    | none =>
      if (wordsOf r.addr r.len).any s.drwPoison.contains then fin s .poisoned
      else fin s (.ok (s.drawer.bytes r.addr r.len))

/-- The requester an outbound slot is granted to (R341); the flag says the slot was lent. -/
def grantTo (owner : Nat) (valid : Bool) (last : Nat) (ready : Nat → Bool) : Option (Nat × Bool) :=
  let free := owner == 0x7F || !valid
  if !free && ready owner then some (owner, false)
  else if free && ready 64 then some (64, false)
  else ((List.range 65).map (fun i => (last + 1 + i) % 65)).find? ready |>.map (fun r => (r, true))

/-- The cycle in which slot `n` of a link's training starts (R332). -/
def Link.slotCycle (l : Link) (n : Nat) : Nat := l.t0 + 5 * n / 14

/-- Link `n`'s next outbound slot carries request `r`; its data or completion comes in the inbound slot LAT later (R333). What is sent
again after a retraining has performed: the drawer discards a write's repeat, and a read's data comes once (R347). -/
def State.carry (s : State) (l : Link) (r : Req) : State :=
  let slot := l.slotCycle (l.slot + l.lat)
  let ready := slot + s.replyCost r
  if r.res.isSome then s.placeReq r (.served slot ready) else s.serve r slot ready

/-- A walk's read at link `n` that must go in its next slot (R307). -/
def State.urgentAt (s : State) (n : Nat) : Option Req :=
  s.reqs.find? (fun r => linkOf r.addr == n && s.urgent r && (match r.place with | .queue _ => true | .net d => decide (d ≤ s.cycle) | _ => false))

/-- SLOT_GRANT (R341): link `n`'s next outbound slot, in the cycle it starts, carries the oldest request of the requester it is
granted to. -/
def State.slotGrant (s : State) (n : Nat) : State :=
  let l := s.link n
  if l.st != 2 || decide (s.cycle < l.slotCycle l.slot) then s
  else
    let o := (s.slotEntry true n (l.slot % 1024)).toNat
    let on (last : Nat) : State := { s with links := Tab.put s.links n { l with slot := l.slot + 1, last } }
    match s.urgentAt n with
    | some r => (on l.last).carry l r
    | none =>
      match grantTo o (o < 64 && (s.ctx o).v) l.last (fun k => !(s.queued n k).isEmpty) with
      | none => on l.last
      | some (k, lent) =>
        let t := on (if lent then k else l.last)
        match oldestReq (s.queued n k) with
        | none => t
        | some r => t.carry l r

/-- SLOT_GRANT (R341). -/
def execSlotGrant (n : Nat) (s : State) : Host.Outcome State Fault Refusal := .next (s.slotGrant n)

/-! ### Completion (R166, R167, R172) -/

/-- The requests of an access, when every one has ended. -/
def State.accessEnds (s : State) (id : CoreId) (a : Access) : Option (List Req) :=
  let rs := s.reqs.filter (fun r => r.core == id && r.owner == .access a.id)
  if rs.isEmpty || rs.any (fun r => r.res.isNone) then none else some rs

/-- The requests of an access done with (R347). -/
def State.clearReqs (s : State) (id : CoreId) (owner : ReqOwner) : State := s.leaveReqs (fun r => r.core == id && r.owner == owner)

/-- DRAWER_LOAD_RETURN (R166): all blocks are back. Data lands and L falls; a deferred cause ends the load, and so does the 0x18 of
another access of its tile (R348); a fault at the drawer side holds it until a flush (R166, R315). -/
def State.loadReturn (s : State) (id n : Nat) : State :=
  let c := s.coreAt id
  match c.dacc.find? (fun a => a.id == n && a.isLoad && a.st == .sent) with
  | none => s
  | some a =>
    match s.accessEnds id a with
    | none => s
    | some rs =>
      if c.frozen || rs.any (fun r => match r.place with | .served _ d => decide (s.cycle < d) | _ => true) then s
      else
        let t := s.clearReqs id (.access n)
        match firstBad rs with
        | some (code, info) =>
          t.putCore id (((c.dropAccess n).unpend a.ord a.dests).defer (deferredCause .l code info a.opc a.ord) |>
            fun d => { d with cnt := { d.cnt with l := d.cnt.l - 1 } })
        | none =>
          match firstFault rs with
          | some (ty, lev, e, va) => t.service id a ty lev e va
          | none =>
            if rs.any (fun r => r.res == some .returned) then
              t.putCore id (let d := (c.dropAccess n).unpend a.ord a.dests
                            { d with cnt := { d.cnt with l := d.cnt.l - 1 } })
            else
            let x := bytesNat (reqBytes rs)
            let d := c.dropAccess n
            let e := match a.kind with
              | .ldh r ty => d.lateResult .l a.ord 1 (.s r (extendType ty x)) 0
              | .ldvh r => d.lateResult .l a.ord 1 (.v r (BitVec.ofNat 1024 x)) 0
              | _ => d
            t.putCore id { e with cnt := { e.cnt with l := e.cnt.l - 1 } }

/-- DRAWER_LOAD_RETURN (R166). -/
def execDrawerLoadReturn (t a : Nat) (s : State) : Host.Outcome State Fault Refusal := .next (s.loadReturn t a)

/-- DRAWER_STORE_ACCEPT (R167): every block has started its slot: the store has performed and S falls. A fault at the drawer
side logs it; a refusal or a stall is a deferred cause, and one returned with another access's 0x18 is dropped (R348). -/
def State.storeAccept (s : State) (id n : Nat) : State :=
  let c := s.coreAt id
  match c.dacc.find? (fun a => a.id == n && !a.isLoad && !a.isAtomic && a.st == .sent) with
  | none => s
  | some a =>
    match s.accessEnds id a with
    | none => s
    | some rs =>
      if c.frozen then s else
      let t := s.clearReqs id (.access n)
      let lower (d : Core) : Core := { d with sFalls := d.sFalls + 1 }
      match firstBad rs with
      | some (code, info) =>
        t.putCore id ((lower (c.dropAccess n)).defer (deferredCause .l code info a.opc a.ord))
      | none =>
        match if rs.any (fun r => r.res == some .returned) then none else firstFault rs with
        | some (ty, lev, e, va) => if s.canLog id then t.service id a ty lev e va else s.keepStore id
        | none => t.putCore id (lower (c.dropAccess n))

/-- DRAWER_STORE_ACCEPT (R167). -/
def execDrawerStoreAccept (t a : Nat) (s : State) : Host.Outcome State Fault Refusal := .next (s.storeAccept t a)

/-! ### Retry (R316) -/

/-- HELD_LOAD_REISSUE (R316): the oldest held load of tile `id`, released by a flush or with no logged entry of its class left before
it, leaves with its blocks translated afresh, in its place in its class (R173). -/
def State.reissue (s : State) (id : CoreId) : State :=
  let c := s.coreAt id
  match c.dacc.find? (fun a => a.st == .held || a.st == .retry) with
  | none => s
  | some a =>
    if c.frozen || c.halting || (a.st == .held && a.h.f) || s.loggedBefore id a.id a.cls || !s.canLeave id a then s
    else s.sendFresh id a

/-- HELD_LOAD_REISSUE (R316). -/
def execHeldLoadReissue (t : Nat) (s : State) : Host.Outcome State Fault Refusal := .next (s.reissue t)

/-- May the oldest entry of a class be replayed: it is released, and the accesses of its class before it have been accepted
(R173, R316)? -/
def State.mayReplay (s : State) (id : CoreId) (e : LogEntry) : Bool :=
  let c := s.coreAt id
  e.ready && !c.frozen &&
    (match e.acc with
     | some n => s.mayGo id n e.ord e.cls false
     | none =>
       match c.cpy.exec with
       | some x =>
         x.cmd.ord != e.ord || c.dacc.all (fun a => a.cls != e.cls || decide (x.mark ≤ a.id) || s.accepted id a || a.st == .logged)
       | none => true)

/-- SIDE_LOG_REPLAY (R316): the oldest entry of class `cls` of tile `id`, once released, is translated afresh and performs when its
drawer ports accept it; one that faults again stops its class. -/
def State.replay (s : State) (id cls : Nat) : State :=
  match (s.coreAt id).slog.find? (fun e => e.cls.toNat == cls) with
  | none => s
  | some e =>
    if (s.job? id (.replay cls)).isNone && !s.mayReplay id e then s
    else
      let rest (d : Core) : Core := { d with slog := d.slog.filter (· != e), sFalls := d.sFalls + 1 }
      let ctx := (s.coreAt id).pos.ctx.toNat
      let j : Job :=
        { newJob id (.replay cls) (cacheKey id) ctx e.addr e.bytes.length (some e.bytes) with mid := s.masterOf id, patient := true }
      match s.transfer j false with
      | .wait t => t
      | .fault ty lev en va u =>
        let c := u.coreAt id
        let t := u.putCore id { c with slog := c.slog.map (fun x => if x = e then { x with ready := false } else x) }
        t.faultRecord (({ t with cur := id } : State).tileFault va ty lev (if e.acc.isSome then 1 else 3) en e.opc cls)
      | .cause code info u =>
        let t := u.putCore id (rest (u.coreAt id))
        (match e.acc with
          | some n => t.putCore id (((t.coreAt id).dropAccess n).defer (deferredCause .l code info e.opc e.ord))
          | none =>
            match (t.coreAt id).cpy.exec with
            | some x =>
              if x.cmd.ord = e.ord then
                (t.putCore id { t.coreAt id with
                  cpy := { (t.coreAt id).cpy with exec := some { x with chunks := Tab.del x.chunks e.chunk } } }).failCommand id .k
                  code info e.opc e.ord e.chunk
              else t
            | none => t).returnSlot id
      | .done _ t =>
        let u := t.putCore id (rest (t.coreAt id))
        (match e.acc with
          | some n => u.putCore id ((u.coreAt id).dropAccess n)
          | none =>
            match (u.coreAt id).cpy.exec with
            | some x => if x.cmd.ord = e.ord then u.chunkWritten id e.chunk else u
            | none => u).returnSlot id

/-- SIDE_LOG_REPLAY (R316). -/
def execSideLogReplay (t cls : Nat) (s : State) : Host.Outcome State Fault Refusal := .next (s.replay t cls)

/-! ### Links (R346 to R348) -/

/-- Requests served through link `n` whose data slot or write completion has not come, to be sent again after its training (R347). -/
def State.cutOff (s : State) (n : Nat) : State :=
  { s with reqs := s.reqs.map (fun r =>
      match r.place with
      | .served d _ => if linkOf r.addr = n ∧ r.res.isSome ∧ s.cycle < d then { r with place := .resend } else r
      | _ => r) }

/-- LINK_TRAINING (R333, R346): a link that is down or up begins to train; one that trains ends: up with the drawer's LAT, or
down with *link latency* when that is over 1,680. The drawer's capacity is reported with it (R335). -/
def State.train (s : State) (n : Nat) : State :=
  let l := s.link n
  if 112 ≤ n then s
  else
    let state (t : State) (st : BitVec 2) : State := t.offer 3 n 0x40 0x000E (leBytes 1 n ++ leBytes 1 st.toNat)
    if l.st = 1 then
      let lat := Tab.getD s.env.lat n 0
      if lat ≤ 1680 then
        state { s with
          links := Tab.put s.links n { l with st := 2, lat, t0 := s.cycle + 1, slot := 0, last := 64 }
          sys := { s.sys with drwCap := s.env.cap &&& 0x0000FFFFFFFF0000 } } 2
      else
        (state { s with links := Tab.put s.links n { l with st := 0, lat } } 0).offer 3 n 0x40 0x000F
          (leBytes 1 n ++ leBytes 2 lat)
    else
      let again := l.st == 2
      let t := s.cutOff n
      state { t with
        links := Tab.put t.links n { l with st := 1, retr := if again then min 0xFFFF (l.retr + 1) else l.retr } } 1

/-- LINK_TRAINING (R346). -/
def execLinkTraining (n : Nat) (s : State) : Host.Outcome State Fault Refusal := .next (s.train n)

/-- Can a request be returned unserved while its link is not up: it is not served, or it is a read whose reply a retraining cut off
(R347, R348; the latter DEDUCED, log 112)? -/
def State.stranded (s : State) (r : Req) : Bool :=
  !s.linkUp (linkOf r.addr) && !r.patient && (r.res.isNone || (r.place == .resend && r.write.isNone))

/-- A cycle more of waiting for every request whose link is not up (R348). -/
def State.tickLinks (s : State) : State :=
  { s with reqs := s.reqs.map (fun r =>
      let come := match r.place with | .net d => decide (d ≤ s.cycle) | .queue _ | .resend => true | _ => false
      if come && s.stranded r then { r with waited := r.waited + 1 } else r) }

/-- Is a request part of a strand's access? -/
def Req.ofStrand (r : Req) : Bool := match r.owner with | .access _ => true | _ => false

/-- Is a request of a kind for which a tile takes 0x18: part of an access or of a copy's chunk (R348)? -/
def Req.traps (r : Req) : Bool := decide (r.core < 0x10000) && (r.ofStrand || (match r.owner with | .chunk _ => true | _ => false))

/-- A tile takes 0x18: every access and chunk of it that waits for a link for which one of them has waited 62,500 tc is returned. The
strand's accesses share one 0x18, of the first on the lowest of these links; a copy has its own (R348, R349; log 112). -/
def State.tileTimeout (s : State) (tile : Nat) : State :=
  let out := s.reqs.filter (fun r => r.core == tile && r.traps && s.stranded r)
  let late := out.filter (fun r => decide (62500 ≤ r.waited))
  let links := late.map (fun r => linkOf r.addr)
  let low := links.foldl min 112
  let first := late.find? (fun r => linkOf r.addr == low)
  let gone := (out.filter (fun r => links.contains (linkOf r.addr))).map (·.id)
  { s with reqs := s.reqs.map (fun x =>
      if gone.contains x.id then
        { x with place := .served s.cycle s.cycle, res := some (if x.ofStrand && first.map (·.id) != some x.id then .returned else .stalled) }
      else x) }

/-- LINK_WAIT_TIMEOUT (R348): request `r` has waited 62,500 tc and is returned unserved; of a tile's, see `tileTimeout`. A host's reads
end with Completer Abort, its writes are discarded. -/
def State.linkTimeout (s : State) (r : Nat) : State :=
  match s.reqs.find? (fun q => q.id == r) with
  | none => s
  | some q =>
    if q.waited < 62500 || !s.stranded q then s
    else if q.owner == .host then
      let port := q.core - 0x10000
      let t : State := { s with reqs := s.reqs.filter (fun x => x.id != r) }
      ({ t with outbox := if q.write.isSome then t.outbox else t.outbox ++ [.hostAbort port q.addr] } : State).offer 5 port 0x40
        0x0010 (leBytes 8 q.addr)
    else if q.traps then s.tileTimeout q.core
    else { s with reqs := s.reqs.map (fun x => if x.id = r then { x with place := .served s.cycle s.cycle, res := some .stalled } else x) }

/-- LINK_WAIT_TIMEOUT (R348). -/
def execLinkWaitTimeout (r : Nat) (s : State) : Host.Outcome State Fault Refusal := .next (s.linkTimeout r)

/-- A PCIe read or write enters its port's order as requests of the system class, with the port's
master number 65 to 68 (R322). -/
def State.hostAccess (s : State) (port : Nat) (write : Bool) (addr len : Nat) (data : List (BitVec 8)) : State :=
  if 4 ≤ port then s
  else
    (blocksOf addr (if write then data.length else len)).foldl (fun t b =>
      let (k, u) := t.fresh
      { u with
        reqs := u.reqs ++ [{ id := k, core := 0x10000 + port, mid := 65 + port, rq := 64, owner := .host, addr := addr + b.1
                             va := 0, write := if write then some ((data.drop b.1).take b.2) else none, len := b.2
                             place := .port, res := none, patient := false, waited := 0 }] }) s

/-- The replies of host reads handed out when they are there, a refused read as zeros (R323). -/
def State.hostReplies (s : State) : State :=
  let gone (r : Req) : Bool :=
    r.owner == .host && r.res.isSome && (match r.place with | .served _ d => decide (d ≤ s.cycle) | _ => false)
  let out := (s.reqs.filter (fun r => gone r && r.write.isNone)).map (fun r =>
    Output.hostRead (r.core - 0x10000) r.addr
      (match r.res with | some (.ok d) => d | _ => List.replicate r.len 0))
  { s with reqs := s.reqs.filter (fun r => !gone r), outbox := s.outbox ++ out }

/-! ### Buckets (R342 to R345) -/

/-- TQ of a BWC value, at most 1,024 (R342). -/
def bwcTq (x : Word) : Nat := min 1024 (field 0 11 x).toNat

/-- SHW of a BWC value, at most 1,024 (R342). -/
def bwcShw (x : Word) : Nat := min 1024 (field 32 11 x).toNat

/-- The tiles that hold a gang of context `c`, in ascending TID (R297). -/
def State.gangTiles (s : State) (c : Nat) : List Nat :=
  let held := s.gangs.filter (fun g => g.ctx == c)
  let placed := s.launches.filter (fun l => l.ctx == c && (l.st == .placed || l.st == .starting))
  let has (t : Nat) : Bool :=
    held.any (·.holds t) || placed.any (fun l => inRect l.ox l.oy (geomW l.geom) (geomH l.geom) t)
  let mine := ((s.cores.map (·.1)).filter (fun t => t != mgmtCore && has t))
  mine ++ (placed.flatMap Launch.tiles).eraseDups.filter (fun t => !mine.contains t)

/-- Has a tile a request waiting for a token (R344)? -/
def State.starved (s : State) (t : Nat) : Bool :=
  decide ((s.coreAt t).bucket ≤ 0) && s.reqs.any (fun r => r.core == t && (r.place == .port || r.place == .stale) && s.isMetered r.rq)

/-- Is context `c` idle (R344): no tile of it has sent a metered request since the last refill, none has one waiting? -/
def State.idleCtx (s : State) (c : Nat) : Bool :=
  !s.metered.contains c && !s.reqs.any (fun r => r.rq == c && decide (r.core < 0x10000) && (r.place == .port || r.place == .stale))

/-- The refill of context `c`'s tiles (R344): TQ, the tile's part of the bonus, and the cap. -/
def State.refillCtx (s : State) (c bonus : Nat) : State :=
  let tq := bwcTq (Tab.getD s.bwc c 0)
  let tiles := s.gangTiles c
  let hungry := tiles.filter s.starved
  let n := hungry.length
  tiles.foldl (fun t id =>
    let extra := if hungry.contains id then bonus / n + (if hungry.idxOf id < bonus % n then 1 else 0) else 0
    let k := t.coreAt id
    t.putCore id { k with bucket := min (k.bucket + (tq : Int) + (extra : Int)) (2 * (tq : Int)) }) s

/-- TOKEN_REFILL (R344, R345): pending BWC values take effect, buckets are clamped, then refilled. -/
def State.refill (s : State) : State :=
  if s.cycle % 1024 ≠ 0 then s
  else
    let s1 : State := s.bwcNext.foldl (fun (t : State) (e : Nat × Word) =>
      let u : State := { t with bwc := Tab.put t.bwc e.1 e.2 }
      (u.gangTiles e.1).foldl (fun v id =>
        let k := v.coreAt id
        v.putCore id { k with bucket := min k.bucket (2 * (bwcTq e.2 : Int)) }) u) s
    let s2 : State := { s1 with bwcNext := [] }
    let cs := (List.range 64).filter (fun c => s2.isMetered c)
    let idle := s2.idleCtx
    let p := ((cs.filter idle).map (fun c => bwcTq (Tab.getD s2.bwc c 0) * (s2.gangTiles c).length)).sum
    let sh := ((cs.filter (fun c => !idle c)).map (fun c => bwcShw (Tab.getD s2.bwc c 0))).sum
    let s3 := cs.foldl (fun t c =>
      t.refillCtx c (if idle c ∨ sh = 0 then 0 else p * bwcShw (Tab.getD s2.bwc c 0) / sh)) s2
    { s3 with metered := [] }

/-- TOKEN_REFILL (R344). -/
def execTokenRefill (s : State) : Host.Outcome State Fault Refusal := .next s.refill

/-- A BWC value as it is written: reserved bits dropped, larger values as 1,024 (R342). -/
def bwcValue (x : Word) : Word := BitVec.ofNat 64 (bwcTq x + bwcShw x * 2 ^ 32)

/-- BWC_WRITE (R345): the value waits for the next refill boundary. -/
def State.writeBwc (s : State) (n : Nat) (x : Word) : State := { s with bwcNext := Tab.put s.bwcNext n (bwcValue x) }

/-- BWC_WRITE (R345). -/
def execBwcWrite (n : Nat) (x : Word) (s : State) : Host.Outcome State Fault Refusal :=
  .next (if n < 64 then s.writeBwc n x else s)

end Sys2Proof.Machine
end

