-- ==== Sys2Proof/WellFormed.lean ====
section
/-! DEFINITION. Well-formed instructions: every field that is required to be zero is zero, and every sub-code is one the
opcode map or the instruction's description gives (03 R62, 04 R90 to R101, 05 to 08). -/

namespace Sys2Proof

/-- Is the instruction well formed? What depends on the machine's state (a format entry's kind, a staging register's
value, the mode) is not a matter of form. An event is always well formed. -/
def Instr.wf : Instr → Bool
  | .bundleIssue _ => true
  | .lockstepResultLanding _ => true
  | .trapDelivery _ => true
  | .gangAbort _ => true
  | .add f => f.c == 0 && field 4 8 f.x == 0 && (field 0 4 f.x).toNat < 8
  | .sub f => f.c == 0 && field 4 8 f.x == 0 && (field 0 4 f.x).toNat < 8
  | .mul f => f.c == 0 && field 4 8 f.x == 0 && (field 0 4 f.x).toNat < 8
  | .mulh f => f.c == 0 && field 4 8 f.x == 0 && (field 0 4 f.x).toNat < 8
  | .mulhn f => f.c == 0 && field 4 8 f.x == 0 && (field 0 4 f.x).toNat < 8
  | .div f => f.c == 0 && field 4 8 f.x == 0 && (field 0 4 f.x).toNat < 8
  | .divn f => f.c == 0 && field 4 8 f.x == 0 && (field 0 4 f.x).toNat < 8
  | .rem f => f.c == 0 && field 4 8 f.x == 0 && (field 0 4 f.x).toNat < 8
  | .remn f => f.c == 0 && field 4 8 f.x == 0 && (field 0 4 f.x).toNat < 8
  | .and f => f.c == 0 && field 4 8 f.x == 0 && (field 0 4 f.x).toNat < 8
  | .or f => f.c == 0 && field 4 8 f.x == 0 && (field 0 4 f.x).toNat < 8
  | .xor f => f.c == 0 && field 4 8 f.x == 0 && (field 0 4 f.x).toNat < 8
  | .andn f => f.c == 0 && field 4 8 f.x == 0 && (field 0 4 f.x).toNat < 8
  | .shl f => f.c == 0 && field 4 8 f.x == 0 && (field 0 4 f.x).toNat < 8
  | .shr f => f.c == 0 && field 4 8 f.x == 0 && (field 0 4 f.x).toNat < 8
  | .sra f => f.c == 0 && field 4 8 f.x == 0 && (field 0 4 f.x).toNat < 8
  | .rol f => f.c == 0 && field 4 8 f.x == 0 && (field 0 4 f.x).toNat < 8
  | .min f => f.c == 0 && field 4 8 f.x == 0 && (field 0 4 f.x).toNat < 8
  | .max f => f.c == 0 && field 4 8 f.x == 0 && (field 0 4 f.x).toNat < 8
  | .minn f => f.c == 0 && field 4 8 f.x == 0 && (field 0 4 f.x).toNat < 8
  | .maxn f => f.c == 0 && field 4 8 f.x == 0 && (field 0 4 f.x).toNat < 8
  | .clz f => f.b == 0 && f.c == 0 && field 4 8 f.x == 0 && (field 0 4 f.x).toNat < 8
  | .ctz f => f.b == 0 && f.c == 0 && field 4 8 f.x == 0 && (field 0 4 f.x).toNat < 8
  | .popc f => f.b == 0 && f.c == 0 && field 4 8 f.x == 0 && (field 0 4 f.x).toNat < 8
  | .bswap f => f.b == 0 && f.c == 0 && field 4 8 f.x == 0 && (field 0 4 f.x).toNat < 8
  | .exts f => f.b == 0 && f.c == 0 && (field 6 6 f.x).toNat + (field 0 6 f.x).toNat + 1 ≤ 64
  | .extz f => f.b == 0 && f.c == 0 && (field 6 6 f.x).toNat + (field 0 6 f.x).toNat + 1 ≤ 64
  | .ins f => f.c == 0 && (field 6 6 f.x).toNat + (field 0 6 f.x).toNat + 1 ≤ 64
  | .sel f => field 3 3 f.c == 0 && f.x == 0
  | .lea f => f.c == 0 && field 3 9 f.x == 0
  | .addi f => f.b == 0
  | .andi f => f.b == 0
  | .ori f => f.b == 0
  | .xori f => f.b == 0
  | .shli f => f.b == 0 && field 6 12 f.imm == 0
  | .shri f => f.b == 0 && field 6 12 f.imm == 0
  | .srai f => f.b == 0 && field 6 12 f.imm == 0
  | .muli f => f.b == 0
  | .mini f => f.b == 0
  | .maxi f => f.b == 0
  | .movi _ => true
  | .moviz _ => true
  | .movm _ => true
  | .movt f => field 4 26 f.imm == 0
  | .addpc _ => true
  | .cmp f => field 0 3 f.d == 0 && f.c == 0 && field 4 8 f.x == 0 && (field 0 4 f.x).toNat ≤ 9
  | .cmpi f => field 0 3 f.d == 0 && field 4 2 f.b == 0 && (field 0 4 f.b).toNat ≤ 9
  | .pand f => field 0 3 f.d == 0 && field 3 3 f.a == 0 && field 3 3 f.b == 0 && f.c == 0 && field 2 10 f.x == 0
  | .por f => field 0 3 f.d == 0 && field 3 3 f.a == 0 && field 3 3 f.b == 0 && f.c == 0 && field 2 10 f.x == 0
  | .pxor f => field 0 3 f.d == 0 && field 3 3 f.a == 0 && field 3 3 f.b == 0 && f.c == 0 && field 2 10 f.x == 0
  | .pmov f => field 0 3 f.d == 0 && field 3 3 f.a == 0 && f.b == 0 && f.c == 0 && field 0 1 f.x == 0 &&
      field 2 10 f.x == 0
  | .ptos f => field 3 3 f.a == 0 && f.b == 0 && f.c == 0 && f.x == 0
  | .pset f => field 0 3 f.d == 0 && f.a == 0 && f.b == 0 && field 1 17 f.imm == 0
  | .ptst f => field 0 3 f.d == 0 && f.b == 0
  | .fadd f => f.c == 0 && field 0 4 f.x == 0 && (field 5 3 f.x).toNat ≤ 4
  | .fsub f => f.c == 0 && field 0 4 f.x == 0 && (field 5 3 f.x).toNat ≤ 4
  | .fmul f => f.c == 0 && field 0 4 f.x == 0 && (field 5 3 f.x).toNat ≤ 4
  | .ffma f => field 0 4 f.x == 0 && (field 5 3 f.x).toNat ≤ 4
  | .fmin f => f.c == 0 && field 0 8 f.x == 0
  | .fmax f => f.c == 0 && field 0 8 f.x == 0
  | .fdiv f => f.c == 0 && field 0 4 f.x == 0 && (field 5 3 f.x).toNat ≤ 4
  | .fsqrt f => f.b == 0 && f.c == 0 && field 0 4 f.x == 0 && (field 5 3 f.x).toNat ≤ 4
  | .fcmp f => field 0 3 f.d == 0 && f.c == 0 && field 4 4 f.x == 0 &&
      ((field 0 4 f.x).toNat ≤ 3 || field 0 4 f.x == 10)
  | .fclass f => f.b == 0 && f.c == 0 && field 0 8 f.x == 0
  | .fsgn f => f.c == 0 && field 2 6 f.x == 0 && (field 0 2 f.x).toNat ≤ 2
  | .fcvt f => f.b == 0 && field 4 2 f.c == 0 && field 0 4 f.x == 0 && (field 5 3 f.x).toNat ≤ 4
  | .fcvti f => f.b == 0 && f.c == 0 && (field 0 4 f.x).toNat < 8 && (field 5 3 f.x).toNat ≤ 4
  | .icvtf f => f.b == 0 && f.c == 0 && (field 0 4 f.x).toNat < 8 && (field 5 3 f.x).toNat ≤ 4
  | .prep f => field 3 3 f.d == 0 && f.b == 0 && f.c == 0 && f.x == 0
  | .prepr f => field 3 3 f.d == 0
  | .get f => f.a == 0 && f.b == 0 && field 12 6 f.imm == 0
  | .set f => f.d == 0 && f.b == 0 && field 12 6 f.imm == 0
  | .gets f => f.a == 0 && f.b == 0 && field 12 6 f.imm == 0
  | .sets f => f.d == 0 && f.b == 0 && field 12 6 f.imm == 0
  | .setfmt f => f.d == 0 && f.b == 0 && field 4 14 f.imm == 0
  | .getfmt f => f.a == 0 && f.b == 0 && field 4 14 f.imm == 0
  | .stg f => f.d == 0 && f.b == 0 && field 6 12 f.imm == 0 && (field 0 6 f.imm).toNat < 48
  | .gtg f => f.a == 0 && f.b == 0 && field 6 12 f.imm == 0 && (field 0 6 f.imm).toNat < 48
  | .lcset f => field 2 4 f.d == 0 && f.b == 0 && f.imm == 0
  | .lcget f => field 2 4 f.a == 0 && f.b == 0 && f.imm == 0
  | .rasrd f => f.a == 0 && f.b == 0 && field 4 14 f.imm == 0
  | .raswr f => f.d == 0 && f.b == 0 && field 4 14 f.imm == 0
  | .br f => f.z == 0
  | .call f => f.z == 0
  | .ret f => f.z == 0
  | .loop f => f.z == 0
  | .wait f => f.z == 0
  | .sync f => f.z == 0
  | .done f => f.z == 0
  | .swap f => f.z == 0
  | .trap f => f.z == 0
  | .brk f => f.z == 0
  | .eret f => f.z == 0
  | .idle f => f.z == 0
  | .halt f => f.z == 0
  | .qfence f => f.z == 0
  | .vadd f => f.fmt == 0 && f.rnd == 0 && f.sat == 0 && (f.sb == 0 || f.vb == 0) && f.vc == 0 &&
      f.fn.toNat % (if f.sb == 1 then 2 ^ 15 else 2 ^ 21) / 2 ^ 0 == 0
  | .vsub f => f.fmt == 0 && f.rnd == 0 && f.sat == 0 && (f.sb == 0 || f.vb == 0) && f.vc == 0 &&
      f.fn.toNat % (if f.sb == 1 then 2 ^ 15 else 2 ^ 21) / 2 ^ 0 == 0
  | .vmul f => f.fmt == 0 && f.rnd == 0 && f.sat == 0 && (f.sb == 0 || f.vb == 0) && f.vc == 0 &&
      f.fn.toNat % (if f.sb == 1 then 2 ^ 15 else 2 ^ 21) / 2 ^ 0 == 0
  | .vmulh f => f.fmt == 0 && f.rnd == 0 && f.sat == 0 && (f.sb == 0 || f.vb == 0) && f.vc == 0 &&
      f.fn.toNat % (if f.sb == 1 then 2 ^ 15 else 2 ^ 21) / 2 ^ 0 == 0
  | .vmulhn f => f.fmt == 0 && f.rnd == 0 && f.sat == 0 && (f.sb == 0 || f.vb == 0) && f.vc == 0 &&
      f.fn.toNat % (if f.sb == 1 then 2 ^ 15 else 2 ^ 21) / 2 ^ 0 == 0
  | .vmin f => f.fmt == 0 && f.rnd == 0 && f.sat == 0 && (f.sb == 0 || f.vb == 0) && f.vc == 0 &&
      f.fn.toNat % (if f.sb == 1 then 2 ^ 15 else 2 ^ 21) / 2 ^ 0 == 0
  | .vmax f => f.fmt == 0 && f.rnd == 0 && f.sat == 0 && (f.sb == 0 || f.vb == 0) && f.vc == 0 &&
      f.fn.toNat % (if f.sb == 1 then 2 ^ 15 else 2 ^ 21) / 2 ^ 0 == 0
  | .vminn f => f.fmt == 0 && f.rnd == 0 && f.sat == 0 && (f.sb == 0 || f.vb == 0) && f.vc == 0 &&
      f.fn.toNat % (if f.sb == 1 then 2 ^ 15 else 2 ^ 21) / 2 ^ 0 == 0
  | .vmaxn f => f.fmt == 0 && f.rnd == 0 && f.sat == 0 && (f.sb == 0 || f.vb == 0) && f.vc == 0 &&
      f.fn.toNat % (if f.sb == 1 then 2 ^ 15 else 2 ^ 21) / 2 ^ 0 == 0
  | .vand f => f.fmt == 0 && f.rnd == 0 && f.sat == 0 && (f.sb == 0 || f.vb == 0) && f.vc == 0 &&
      f.fn.toNat % (if f.sb == 1 then 2 ^ 15 else 2 ^ 21) / 2 ^ 0 == 0
  | .vor f => f.fmt == 0 && f.rnd == 0 && f.sat == 0 && (f.sb == 0 || f.vb == 0) && f.vc == 0 &&
      f.fn.toNat % (if f.sb == 1 then 2 ^ 15 else 2 ^ 21) / 2 ^ 0 == 0
  | .vxor f => f.fmt == 0 && f.rnd == 0 && f.sat == 0 && (f.sb == 0 || f.vb == 0) && f.vc == 0 &&
      f.fn.toNat % (if f.sb == 1 then 2 ^ 15 else 2 ^ 21) / 2 ^ 0 == 0
  | .vandn f => f.fmt == 0 && f.rnd == 0 && f.sat == 0 && (f.sb == 0 || f.vb == 0) && f.vc == 0 &&
      f.fn.toNat % (if f.sb == 1 then 2 ^ 15 else 2 ^ 21) / 2 ^ 0 == 0
  | .vshl f => f.fmt == 0 && f.rnd == 0 && f.sat == 0 && (f.sb == 0 || f.vb == 0) && f.vc == 0 &&
      f.fn.toNat % (if f.sb == 1 then 2 ^ 15 else 2 ^ 21) / 2 ^ 0 == 0
  | .vshr f => f.fmt == 0 && f.rnd == 0 && f.sat == 0 && (f.sb == 0 || f.vb == 0) && f.vc == 0 &&
      f.fn.toNat % (if f.sb == 1 then 2 ^ 15 else 2 ^ 21) / 2 ^ 0 == 0
  | .vsra f => f.fmt == 0 && f.rnd == 0 && f.sat == 0 && (f.sb == 0 || f.vb == 0) && f.vc == 0 &&
      f.fn.toNat % (if f.sb == 1 then 2 ^ 15 else 2 ^ 21) / 2 ^ 0 == 0
  | .vabs f => f.fmt == 0 && f.rnd == 0 && f.sat == 0 && f.vb == 0 && f.sb == 0 && f.vc == 0 && f.fn == 0
  | .vneg f => f.fmt == 0 && f.rnd == 0 && f.sat == 0 && f.vb == 0 && f.sb == 0 && f.vc == 0 && f.fn == 0
  | .vclz f => f.fmt == 0 && f.rnd == 0 && f.sat == 0 && f.vb == 0 && f.sb == 0 && f.vc == 0 && f.fn == 0
  | .vpopc f => f.fmt == 0 && f.rnd == 0 && f.sat == 0 && f.vb == 0 && f.sb == 0 && f.vc == 0 && f.fn == 0
  | .vadds f => f.fmt == 0 && f.rnd == 0 && f.sat == 0 && (f.sb == 0 || f.vb == 0) && f.vc == 0 &&
      f.fn.toNat % (if f.sb == 1 then 2 ^ 15 else 2 ^ 21) / 2 ^ 0 == 0
  | .vaddsn f => f.fmt == 0 && f.rnd == 0 && f.sat == 0 && (f.sb == 0 || f.vb == 0) && f.vc == 0 &&
      f.fn.toNat % (if f.sb == 1 then 2 ^ 15 else 2 ^ 21) / 2 ^ 0 == 0
  | .vsubs f => f.fmt == 0 && f.rnd == 0 && f.sat == 0 && (f.sb == 0 || f.vb == 0) && f.vc == 0 &&
      f.fn.toNat % (if f.sb == 1 then 2 ^ 15 else 2 ^ 21) / 2 ^ 0 == 0
  | .vsubsn f => f.fmt == 0 && f.rnd == 0 && f.sat == 0 && (f.sb == 0 || f.vb == 0) && f.vc == 0 &&
      f.fn.toNat % (if f.sb == 1 then 2 ^ 15 else 2 ^ 21) / 2 ^ 0 == 0
  | .vsel f => f.fmt == 0 && f.rnd == 0 && f.sat == 0 && (f.sb == 0 || f.vb == 0) && field 4 1 f.vc == 0 &&
      f.fn.toNat % (if f.sb == 1 then 2 ^ 15 else 2 ^ 21) / 2 ^ 0 == 0
  | .vcmp f => f.fmt == 0 && f.rnd == 0 && f.sat == 0 && (f.sb == 0 || f.vb == 0) && field 4 1 f.vd == 0 &&
      f.vc == 0 && f.fn.toNat % (if f.sb == 1 then 2 ^ 15 else 2 ^ 21) / 2 ^ 4 == 0 && (field 0 4 f.fn).toNat ≤ 9
  | .vfadd f => f.rnd.toNat ≤ 4 && (f.sb == 0 || f.vb == 0) && f.vc == 0 &&
      f.fn.toNat % (if f.sb == 1 then 2 ^ 15 else 2 ^ 21) / 2 ^ 0 == 0
  | .vfsub f => f.rnd.toNat ≤ 4 && (f.sb == 0 || f.vb == 0) && f.vc == 0 &&
      f.fn.toNat % (if f.sb == 1 then 2 ^ 15 else 2 ^ 21) / 2 ^ 0 == 0
  | .vfmul f => f.rnd.toNat ≤ 4 && (f.sb == 0 || f.vb == 0) && f.vc == 0 &&
      f.fn.toNat % (if f.sb == 1 then 2 ^ 15 else 2 ^ 21) / 2 ^ 0 == 0
  | .vfma f => f.rnd.toNat ≤ 4 && (f.sb == 0 || f.vb == 0) &&
      f.fn.toNat % (if f.sb == 1 then 2 ^ 15 else 2 ^ 21) / 2 ^ 0 == 0
  | .vfmin f => f.rnd.toNat ≤ 4 && (f.sb == 0 || f.vb == 0) && f.vc == 0 &&
      f.fn.toNat % (if f.sb == 1 then 2 ^ 15 else 2 ^ 21) / 2 ^ 0 == 0
  | .vfmax f => f.rnd.toNat ≤ 4 && (f.sb == 0 || f.vb == 0) && f.vc == 0 &&
      f.fn.toNat % (if f.sb == 1 then 2 ^ 15 else 2 ^ 21) / 2 ^ 0 == 0
  | .vfdiv f => f.rnd.toNat ≤ 4 && (f.sb == 0 || f.vb == 0) && f.vc == 0 &&
      f.fn.toNat % (if f.sb == 1 then 2 ^ 15 else 2 ^ 21) / 2 ^ 0 == 0
  | .vfsqrt f => f.rnd.toNat ≤ 4 && f.vb == 0 && f.sb == 0 && f.vc == 0 && f.fn == 0
  | .vfexp2 f => f.rnd.toNat ≤ 4 && f.vb == 0 && f.sb == 0 && f.vc == 0 && f.fn == 0
  | .vflog2 f => f.rnd.toNat ≤ 4 && f.vb == 0 && f.sb == 0 && f.vc == 0 && f.fn == 0
  | .vfrcp f => f.rnd.toNat ≤ 4 && f.vb == 0 && f.sb == 0 && f.vc == 0 && f.fn == 0
  | .vfrsq f => f.rnd.toNat ≤ 4 && f.vb == 0 && f.sb == 0 && f.vc == 0 && f.fn == 0
  | .vfabs f => f.rnd == 0 && f.sat == 0 && f.vb == 0 && f.sb == 0 && f.vc == 0 && f.fn == 0
  | .vfneg f => f.rnd == 0 && f.sat == 0 && f.vb == 0 && f.sb == 0 && f.vc == 0 && f.fn == 0
  | .vfcmp f => f.rnd == 0 && f.sat == 0 && (f.sb == 0 || f.vb == 0) && field 4 1 f.vd == 0 && f.vc == 0 &&
      f.fn.toNat % (if f.sb == 1 then 2 ^ 15 else 2 ^ 21) / 2 ^ 4 == 0 &&
      ((field 0 4 f.fn).toNat ≤ 3 || field 0 4 f.fn == 10)
  | .vfclass f => f.rnd == 0 && f.sat == 0 && f.vb == 0 && f.sb == 0 && f.vc == 0 && f.fn == 0
  | .vcvt f => f.rnd.toNat ≤ 4 && f.vb == 0 && f.sb == 0 && f.vc == 0 && field 4 1 f.fn == 0 && field 8 13 f.fn == 0
  | .vqnt f => f.rnd.toNat ≤ 4 && (f.sb == 0 || f.vb == 0) && f.vc == 0 && field 4 1 f.fn == 0 &&
      f.fn.toNat % (if f.sb == 1 then 2 ^ 15 else 2 ^ 21) / 2 ^ 8 == 0
  | .vdqnt f => f.rnd.toNat ≤ 4 && (f.sb == 0 || f.vb == 0) && f.vc == 0 && field 4 1 f.fn == 0 &&
      f.fn.toNat % (if f.sb == 1 then 2 ^ 15 else 2 ^ 21) / 2 ^ 8 == 0
  | .vfredadd f => f.rnd.toNat ≤ 4 && f.vb == 0 && f.sb == 0 && f.vc == 0 && f.fn == 0
  | .vfredmax f => f.rnd.toNat ≤ 4 && f.vb == 0 && f.sb == 0 && f.vc == 0 && f.fn == 0
  | .vredadd f => f.fmt == 0 && f.rnd == 0 && f.vb == 0 && f.sb == 0 && f.vc == 0 && field 1 20 f.fn == 0
  | .vredmax f => f.fmt == 0 && f.rnd == 0 && f.sat == 0 && f.vb == 0 && f.sb == 0 && f.vc == 0 &&
      field 1 20 f.fn == 0
  | .vmov f => f.fmt == 0 && f.rnd == 0 && f.sat == 0 && f.vb == 0 && f.sb == 0 && f.vc == 0 && f.fn == 0
  | .vsplat f => f.fmt == 0 && f.rnd == 0 && f.sat == 0 && (f.sb == 0 || f.vb == 0) && f.va == 0 && f.vc == 0 &&
      f.fn.toNat % (if f.sb == 1 then 2 ^ 15 else 2 ^ 21) / 2 ^ 7 == 0 &&
      (if f.sb == 1 then field 0 7 f.fn == 0 else decide ((field 0 7 f.fn).toNat < 1024 / (8 <<< f.lw.toNat)))
  | .vsplati f => f.fmt == 0 && f.rnd == 0 && f.sat == 0 && f.vb == 0 && f.sb == 0 && f.va == 0 && f.vc == 0 &&
      field 16 5 f.fn == 0
  | .vextr f => f.fmt == 0 && f.rnd == 0 && f.sat == 0 && f.vb == 0 && f.sb == 0 && f.mg == 0 && f.vd == 0 &&
      f.vc == 0 && field 8 7 f.fn == 0 && (field 0 7 f.fn).toNat < 1024 / (8 <<< f.lw.toNat)
  | .vinsr f => f.fmt == 0 && f.rnd == 0 && f.sat == 0 && f.vb == 0 && f.sb == 0 && f.va == 0 && f.vc == 0 &&
      field 7 8 f.fn == 0 && (field 0 7 f.fn).toNat < 1024 / (8 <<< f.lw.toNat)
  | .vperm f => f.fmt == 0 && f.rnd == 0 && f.sat == 0 && (f.sb == 0 || f.vb == 0) && f.vc == 0 &&
      f.fn.toNat % (if f.sb == 1 then 2 ^ 15 else 2 ^ 21) / 2 ^ 0 == 0
  | .vperm2 f => f.fmt == 0 && f.rnd == 0 && f.sat == 0 && (f.sb == 0 || f.vb == 0) &&
      f.fn.toNat % (if f.sb == 1 then 2 ^ 15 else 2 ^ 21) / 2 ^ 1 == 0 && f.fn.getLsbD 0
  | .vshuf f => f.fmt == 0 && f.rnd == 0 && f.sat == 0 && (f.sb == 0 || f.vb == 0) && f.vc == 0 &&
      f.fn.toNat % (if f.sb == 1 then 2 ^ 15 else 2 ^ 21) / 2 ^ 3 == 0 && (field 0 3 f.fn).toNat ≤ 4 &&
      (field 0 3 f.fn != 4 || (f.vb == 0 && f.sb == 0))
  | .vslide f => f.fmt == 0 && f.rnd == 0 && f.sat == 0 && (f.sb == 0 || f.vb == 0) && f.vc == 0 &&
      f.fn.toNat % (if f.sb == 1 then 2 ^ 15 else 2 ^ 21) / 2 ^ 8 == 0 &&
      (field 0 7 f.fn).toNat < 1024 / (8 <<< f.lw.toNat)
  | .viota f => f.fmt == 0 && f.rnd == 0 && f.sat == 0 && f.vb == 0 && f.va == 0 && f.vc == 0 &&
      f.fn.toNat % (if f.sb == 1 then 2 ^ 15 else 2 ^ 21) / 2 ^ 0 == 0
  | .vacc f => f.rnd.toNat ≤ 4 && f.vb == 0 && f.sb == 0 && f.va == 0 && f.vc == 0 && field 6 15 f.fn == 0
  | .vaccw f => f.rnd.toNat ≤ 4 && f.vb == 0 && f.sb == 0 && f.vd == 0 && f.vc == 0 && field 6 15 f.fn == 0
  | .vsin f => f.fmt == 0 && f.rnd == 0 && f.sat == 0 && f.vb == 0 && f.sb == 0 && f.va == 0 && f.vc == 0 &&
      field 2 19 f.fn == 0
  | .vsout f => f.fmt == 0 && f.rnd == 0 && f.sat == 0 && f.vb == 0 && f.sb == 0 && f.mg == 0 && f.vd == 0 &&
      f.vc == 0 && field 2 19 f.fn == 0
  | .mand f => f.fmt == 0 && f.rnd == 0 && f.sat == 0 && f.lw == 0 && f.vc == 0 && f.sb == 0 && f.fn == 0 &&
      field 4 1 f.vd == 0 && field 4 1 f.va == 0 && field 4 1 f.vb == 0
  | .mor f => f.fmt == 0 && f.rnd == 0 && f.sat == 0 && f.lw == 0 && f.vc == 0 && f.sb == 0 && f.fn == 0 &&
      field 4 1 f.vd == 0 && field 4 1 f.va == 0 && field 4 1 f.vb == 0
  | .mxor f => f.fmt == 0 && f.rnd == 0 && f.sat == 0 && f.lw == 0 && f.vc == 0 && f.sb == 0 && f.fn == 0 &&
      field 4 1 f.vd == 0 && field 4 1 f.va == 0 && field 4 1 f.vb == 0
  | .mnot f => f.fmt == 0 && f.rnd == 0 && f.sat == 0 && f.lw == 0 && f.vc == 0 && f.sb == 0 && f.fn == 0 &&
      field 4 1 f.vd == 0 && field 4 1 f.va == 0 && f.vb == 0
  | .mset f => f.fmt == 0 && f.rnd == 0 && f.sat == 0 && f.lw == 0 && f.vc == 0 && f.sb == 0 && f.fn == 0 &&
      field 4 1 f.vd == 0 && f.vb == 0
  | .mget f => f.fmt == 0 && f.rnd == 0 && f.sat == 0 && f.lw == 0 && f.vc == 0 && f.sb == 0 && f.fn == 0 &&
      field 4 1 f.va == 0 && f.vb == 0
  | .vany f => f.fmt == 0 && f.rnd == 0 && f.sat == 0 && field 3 2 f.vd == 0 && field 4 1 f.va == 0 && f.vb == 0 &&
      f.sb == 0 && f.vc == 0 && f.fn == 0
  | .vall f => f.fmt == 0 && f.rnd == 0 && f.sat == 0 && field 3 2 f.vd == 0 && field 4 1 f.va == 0 && f.vb == 0 &&
      f.sb == 0 && f.vc == 0 && f.fn == 0
  | .mpopc f => f.fmt == 0 && f.rnd == 0 && f.sat == 0 && f.vd == 0 && field 4 1 f.va == 0 && f.vb == 0 &&
      f.sb == 0 && f.vc == 0 && field 0 15 f.fn == 0
  | .zld _ => true
  | .zldh _ => true
  | .zldb _ => true
  | .kld f => field 3 1 f.d == 0
  | .zfromv f => field 6 9 f.off == 0
  | .lds f => f.t.toNat < 8
  | .sts f => f.t.toNat < 8
  | .ldv f => f.z == 0
  | .stv f => f.z == 0
  | .ldvs _ => true
  | .stvs _ => true
  | .ldvg f => f.z == 0
  | .stvg f => f.z == 0
  | .stvm _ => true
  | .setaw _ => true
  | .waita f => f.r2 == 0
  | .spl f => f.cls == 0 && f.z == 0
  | .fil f => f.cls == 0 && f.z == 0
  | .splv f => f.cls == 0 && f.z == 0 && f.off.toNat ≤ 496
  | .filv f => f.cls == 0 && f.z == 0 && f.off.toNat ≤ 496
  | .xlate f => f.cls == 0 && f.z1 == 0 && f.z2 == 0
  | .hinv f => f.cls == 0 && f.z == 0
  | .hget f => f.cls == 0 && f.z == 0 && f.sel.toNat ≤ 2
  | .ldh f => f.t.toNat < 8
  | .sth f => f.t.toNat < 8
  | .ldvh f => f.z == 0
  | .stvh f => f.z == 0
  | .aadd f => f.z == 0 && f.w.toNat ≤ 1 && f.c == 0 && f.pd == 0
  | .amin f => f.z == 0 && f.w.toNat ≤ 1 && f.c == 0 && f.pd == 0
  | .amax f => f.z == 0 && f.w.toNat ≤ 1 && f.c == 0 && f.pd == 0
  | .aminn f => f.z == 0 && f.w.toNat ≤ 1 && f.c == 0 && f.pd == 0
  | .amaxn f => f.z == 0 && f.w.toNat ≤ 1 && f.c == 0 && f.pd == 0
  | .aand f => f.z == 0 && f.w.toNat ≤ 1 && f.c == 0 && f.pd == 0
  | .aor f => f.z == 0 && f.w.toNat ≤ 1 && f.c == 0 && f.pd == 0
  | .axor f => f.z == 0 && f.w.toNat ≤ 1 && f.c == 0 && f.pd == 0
  | .aswp f => f.z == 0 && f.w.toNat ≤ 1 && f.c == 0 && f.pd == 0
  | .acas f => f.z == 0 && f.w.toNat ≤ 1
  | .aincb f => f.z == 0 && f.w.toNat ≤ 1 && f.b == 0 && f.c == 0
  | .aincw f => f.z == 0 && f.w.toNat ≤ 1 && f.b == 0 && f.c == 0 && f.pd == 0
  | .adecp f => f.z == 0 && f.w.toNat ≤ 1 && f.b == 0 && f.c == 0
  | .afal f => f.z == 0 && f.w.toNat ≤ 1 && f.c == 0
  | .afadd f => f.z == 0 && f.w == 0 && f.c == 0 && f.pd == 0
  | .fence f => f.cls == 0 && f.z == 0
  | .fenceSc f => f.cls == 0 && f.z == 0 && f.scope.toNat ≤ 4
  | .mma f => (field 4 4 f.ops).toNat ≤ 3 && field 0 4 f.ops == 0
  | .mepi f => field 19 6 f.ops == 0 && (field 12 3 f.ops).toNat ≤ 4 && field 0 6 f.ops == 0
  | .msend f => field 0 25 f.ops == 0
  | .mred f => (field 23 2 f.ops).toNat ≤ 2 && field 0 23 f.ops == 0
  | .mclr f => field 0 25 f.ops == 0
  | .mstat f => field 0 21 f.ops == 0
  | .kcpy f => f.ring == 0 && f.swz == 0 && f.ops == 0
  | .kput f => f.ring == 0 && f.swz == 0 && field 0 7 f.ops == 0
  | .kfill f => f.swz.toNat ≤ 3 && f.ops == 0
  | .kfillConfigure f => f.swz.toNat ≤ 3 && f.ops == 0
  | .kdec f => f.ring == 0 && f.swz == 0 && f.ops == 0
  | .kzero f => f.ring == 0 && f.swz == 0 && f.ops == 0
  | .kloc f => f.ring == 0 && f.swz == 0 && field 0 7 f.ops == 0
  | .nsend f => f.pm == 0 && f.ops == 0
  | .nsendt f => f.pm == 0 && f.ops == 0
  | .npost f => f.pm == 0 && f.ops == 0
  | .npush f => f.ch == 0 && f.aws == 0 && f.pm == 0 && f.ops == 0
  | .npop f => f.ch == 0 && f.aws == 0 && f.pm.toNat ≤ 1 && field 0 9 f.ops == 0
  | .nrot f => f.pm == 0 && f.ops == 0
  | .ngsend f => f.pm == 0 && f.ops == 0
  | .nclose f => f.ch == 0 && f.aws == 0 && f.pm == 0 && f.ops == 0
  | .ndisarm f => f.aws == 0 && f.pm == 0 && f.ops == 0
  | .drawerLoadReturn _ _ => true
  | .drawerStoreAccept _ _ => true
  | .heldLoadReissue _ => true
  | .sideLogReplay _ _ => true
  | .remoteAtomicService _ => true
  | .remoteAtomicReply _ => true
  | .handleWalkEnd _ _ _ => true
  | .shootdownRequest _ => true
  | .shootdownAck _ => true
  | .shootdownComplete => true
  | .faultRecordWrite => true
  | .faultBufferFlush _ => true
  | .matrixDispatch _ => true
  | .mmaPassStart _ => true
  | .mmaPassRetire _ => true
  | .accRowFinal _ => true
  | .mepiRowWrite _ => true
  | .msendRowSend _ => true
  | .mredRowAdd _ => true
  | .mclrRowWrite _ => true
  | .copyDispatch _ => true
  | .chunkIssue _ => true
  | .chunkComplete _ _ => true
  | .chunkReadFault _ => true
  | .channelDispatch _ => true
  | .packetSend _ => true
  | .packetDeposit _ => true
  | .arrival _ => true
  | .creditReturn _ => true
  | .triggeredSendFire _ => true
  | .queueAppend _ => true
  | .queuePop _ => true
  | .queueClose _ => true
  | .spillMove _ => true
  | .barrierDetect _ _ => true
  | .barrierRelease _ _ => true
  | .streamRegisterWatchdog _ => true
  | .arrivalWaitWatchdog _ => true
  | .opticalVectorDelivery _ _ _ _ => true
  | .opticalHop _ _ _ _ _ => true
  | .drainPoint _ => true
  | .tailRegisterWrite _ _ _ => true
  | .stagingEntryTake _ => true
  | .eventCounterWrite _ _ _ _ => true
  | .hostDrawerAccess _ _ _ _ _ => true
  | .placementRound => true
  | .dependenceRead _ => true
  | .planeLoad _ => true
  | .launchGrant _ => true
  | .startToken _ _ => true
  | .gangStart _ => true
  | .launchComplete _ => true
  | .staleLaunch _ => true
  | .contextSaveRequest _ => true
  | .contextRestoreRequest _ => true
  | .contextDestroyRequest _ => true
  | .haltToken _ => true
  | .tileHalted _ => true
  | .tileRecordWritten _ => true
  | .gangRestore _ => true
  | .descriptorSelect _ => true
  | .queueDescriptorCommit _ => true
  | .contextDescriptorCommit _ => true
  | .accessTableSelect _ => true
  | .tileGrantCommit _ => true
  | .drawerRangeCommit _ => true
  | .hostContextSetCommit _ => true
  | .drawerRequestSend _ => true
  | .slotGrant _ => true
  | .sltDataWrite _ => true
  | .slotTableCommit _ => true
  | .slotTableSwitch _ => true
  | .tokenRefill => true
  | .bwcWrite _ _ => true
  | .linkTraining _ => true
  | .linkWaitTimeout _ => true
  | .sensorSample => true
  | .throttleWrite _ _ => true
  | .fieldPowerWrite _ => true
  | .fieldPowerStage => true
  | .wakeTimer => true
  | .eventStamp => true
  | .bbIdxWrite _ => true
  | .bbWcodeWrite _ => true
  | .modRankWrite _ => true
  | .systemRegisterWrite _ _ => true
  | .clearRow _ => true
  | .clearColumn _ => true
  | .clearHole _ => true
  | .clearDeadLink _ => true
  | .addRow _ => true
  | .addColumn _ => true
  | .addHole _ => true
  | .containedError _ _ => true
  | .migrationFreezeOrder _ => true
  | .migrationCopy _ => true
  | .mapChange _ => true
  | .migrationThaw _ => true
  | .uncontainedError _ _ => true
  | .poisonMarked _ _ => true
  | .linkFlitRetry _ _ => true
  | .tailAcknowledge _ => true
  | .meshLinkDead _ => true
  | .managementDatagram _ _ => true
  | .systemRegisterReadRequest _ _ _ _ => true
  | .systemRegisterWriteRequest _ _ _ _ => true
  | .faultLogRead _ _ _ _ => true
  | .blackBoxRead _ _ _ _ => true
  | .flashRead _ _ _ _ => true
  | .flashWrite _ _ _ _ => true
  | .moduleReset _ _ => true
  | .recoveryBoot _ _ => true
  | .coreRelease _ _ => true
  | .portBind _ _ => true
  | .portUnbind _ => true
  | .portUp _ => true
  | .portLowPower _ => true
  | .portDown _ => true
  | .wakeHint _ _ => true
  | .boot => true
  | .contextDestroyed _ => true
  | .readRequestService _ => true
  | .npopResultWrite _ => true
  | .opticalPortTrainingEnd _ => true

end Sys2Proof
end

