-- ==== Sys2Proof/Decode.lean ====
section
/-! DEFINITION. The decoder: a bundle cut into its slots, a slot into its instruction, and the encoder back
(03 R60 to R73, 04 R86 to R100). -/

namespace Sys2Proof

/-! ### Bundles -/

/-- A bundle cut into header and slots (R60). -/
structure Bundle where
  h : BitVec 16
  s0 : BitVec 48
  s1 : BitVec 48
  c : BitVec 32
  v : BitVec 64
  l : BitVec 48
  z : BitVec 24
  m : BitVec 32
  k : BitVec 32
  n : BitVec 32
  low : BitVec 8
deriving DecidableEq, Repr

/-- The slots of a bundle word (R60). -/
def splitBundle (b : BundleWord) : Bundle :=
  { h := field 368 16 b, s0 := field 320 48 b, s1 := field 272 48 b, c := field 240 32 b, v := field 176 64 b,
    l := field 128 48 b, z := field 104 24 b, m := field 72 32 b, k := field 40 32 b, n := field 8 32 b,
    low := field 0 8 b }

/-- The bundle word of its slots (R60). -/
def joinBundle (b : Bundle) : BundleWord :=
  b.h ++ b.s0 ++ b.s1 ++ b.c ++ b.v ++ b.l ++ b.z ++ b.m ++ b.k ++ b.n ++ b.low

/-! ### What a slot holds (R87) -/

/-- The fate of a slot: empty, a zero opcode with other bits set, a reserved opcode, or an instruction. -/
inductive SlotRead
  | nop
  | badZero
  | reserved (op : Nat)
  | instr (i : Instr)
deriving DecidableEq, Repr

/-! ### The forms' fields -/

/-- RForm of a slot word. -/
def getRForm (s1 : Bool) (w : BitVec 48) : RForm :=
  { s1 := s1, gi := field 39 1 w, gp := field 36 3 w, d := field 30 6 w, a := field 24 6 w, b := field 18 6 w, c := field 12 6 w, x := field 0 12 w }

/-- The slot word of an opcode and RForm. -/
def putRForm (op : BitVec 8) (f : RForm) : BitVec 48 :=
  op ++ f.gi ++ f.gp ++ f.d ++ f.a ++ f.b ++ f.c ++ f.x

/-- IForm of a slot word. -/
def getIForm (s1 : Bool) (w : BitVec 48) : IForm :=
  { s1 := s1, gi := field 39 1 w, gp := field 36 3 w, d := field 30 6 w, a := field 24 6 w, b := field 18 6 w, imm := field 0 18 w }

/-- The slot word of an opcode and IForm. -/
def putIForm (op : BitVec 8) (f : IForm) : BitVec 48 :=
  op ++ f.gi ++ f.gp ++ f.d ++ f.a ++ f.b ++ f.imm

/-- LForm of a slot word. -/
def getLForm (s1 : Bool) (w : BitVec 48) : LForm :=
  { s1 := s1, gi := field 39 1 w, gp := field 36 3 w, d := field 30 6 w, imm := field 0 30 w }

/-- The slot word of an opcode and LForm. -/
def putLForm (op : BitVec 8) (f : LForm) : BitVec 48 :=
  op ++ f.gi ++ f.gp ++ f.d ++ f.imm

/-- BrForm of a slot word. -/
def getBrForm (w : BitVec 32) : BrForm :=
  { gi := field 25 1 w, gp := field 22 3 w, t := field 19 3 w, z := field 0 19 w }

/-- The slot word of an opcode and BrForm. -/
def putBrForm (op : BitVec 6) (f : BrForm) : BitVec 32 :=
  op ++ f.gi ++ f.gp ++ f.t ++ f.z

/-- BareForm of a slot word. -/
def getBareForm (w : BitVec 32) : BareForm :=
  { gi := field 25 1 w, gp := field 22 3 w, z := field 0 22 w }

/-- The slot word of an opcode and BareForm. -/
def putBareForm (op : BitVec 6) (f : BareForm) : BitVec 32 :=
  op ++ f.gi ++ f.gp ++ f.z

/-- LoopForm of a slot word. -/
def getLoopForm (w : BitVec 32) : LoopForm :=
  { gi := field 25 1 w, gp := field 22 3 w, t := field 19 3 w, lc := field 17 2 w, z := field 0 17 w }

/-- The slot word of an opcode and LoopForm. -/
def putLoopForm (op : BitVec 6) (f : LoopForm) : BitVec 32 :=
  op ++ f.gi ++ f.gp ++ f.t ++ f.lc ++ f.z

/-- WaitForm of a slot word. -/
def getWaitForm (w : BitVec 32) : WaitForm :=
  { gi := field 25 1 w, gp := field 22 3 w, z := field 20 2 w, l := field 16 4 w, s := field 12 4 w, k := field 8 4 w, m := field 4 4 w, n := field 0 4 w }

/-- The slot word of an opcode and WaitForm. -/
def putWaitForm (op : BitVec 6) (f : WaitForm) : BitVec 32 :=
  op ++ f.gi ++ f.gp ++ f.z ++ f.l ++ f.s ++ f.k ++ f.m ++ f.n

/-- SyncForm of a slot word. -/
def getSyncForm (w : BitVec 32) : SyncForm :=
  { gi := field 25 1 w, gp := field 22 3 w, bl := field 20 2 w, pv := field 17 3 w, pr := field 14 3 w, z := field 0 14 w }

/-- The slot word of an opcode and SyncForm. -/
def putSyncForm (op : BitVec 6) (f : SyncForm) : BitVec 32 :=
  op ++ f.gi ++ f.gp ++ f.bl ++ f.pv ++ f.pr ++ f.z

/-- TrapForm of a slot word. -/
def getTrapForm (w : BitVec 32) : TrapForm :=
  { gi := field 25 1 w, gp := field 22 3 w, z := field 16 6 w, imm := field 0 16 w }

/-- The slot word of an opcode and TrapForm. -/
def putTrapForm (op : BitVec 6) (f : TrapForm) : BitVec 32 :=
  op ++ f.gi ++ f.gp ++ f.z ++ f.imm

/-- QfenceForm of a slot word. -/
def getQfenceForm (w : BitVec 32) : QfenceForm :=
  { gi := field 25 1 w, gp := field 22 3 w, z := field 4 18 w, mask := field 0 4 w }

/-- The slot word of an opcode and QfenceForm. -/
def putQfenceForm (op : BitVec 6) (f : QfenceForm) : BitVec 32 :=
  op ++ f.gi ++ f.gp ++ f.z ++ f.mask

/-- VForm of a slot word. -/
def getVForm (w : BitVec 64) : VForm :=
  { mg := field 52 4 w, fmt := field 48 4 w, rnd := field 45 3 w, sat := field 44 1 w, lw := field 42 2 w, vd := field 37 5 w, va := field 32 5 w, vb := field 27 5 w, vc := field 22 5 w, sb := field 21 1 w, fn := field 0 21 w }

/-- The slot word of an opcode and VForm. -/
def putVForm (op : BitVec 8) (f : VForm) : BitVec 64 :=
  op ++ f.mg ++ f.fmt ++ f.rnd ++ f.sat ++ f.lw ++ f.vd ++ f.va ++ f.vb ++ f.vc ++ f.sb ++ f.fn

/-- LsForm of a slot word. -/
def getLsForm (w : BitVec 48) : LsForm :=
  { gi := field 39 1 w, gp := field 36 3 w, cls := field 32 4 w, d := field 26 6 w, a := field 20 6 w, t := field 16 4 w, disp := field 0 16 w }

/-- The slot word of an opcode and LsForm. -/
def putLsForm (op : BitVec 8) (f : LsForm) : BitVec 48 :=
  op ++ f.gi ++ f.gp ++ f.cls ++ f.d ++ f.a ++ f.t ++ f.disp

/-- LvForm of a slot word. -/
def getLvForm (w : BitVec 48) : LvForm :=
  { gi := field 39 1 w, gp := field 36 3 w, cls := field 32 4 w, v := field 27 5 w, a := field 21 6 w, z := field 16 5 w, disp := field 0 16 w }

/-- The slot word of an opcode and LvForm. -/
def putLvForm (op : BitVec 8) (f : LvForm) : BitVec 48 :=
  op ++ f.gi ++ f.gp ++ f.cls ++ f.v ++ f.a ++ f.z ++ f.disp

/-- LvsForm of a slot word. -/
def getLvsForm (w : BitVec 48) : LvsForm :=
  { gi := field 39 1 w, gp := field 36 3 w, cls := field 32 4 w, v := field 27 5 w, a := field 21 6 w, s := field 15 6 w, lw := field 13 2 w, disp := field 0 13 w }

/-- The slot word of an opcode and LvsForm. -/
def putLvsForm (op : BitVec 8) (f : LvsForm) : BitVec 48 :=
  op ++ f.gi ++ f.gp ++ f.cls ++ f.v ++ f.a ++ f.s ++ f.lw ++ f.disp

/-- LvgForm of a slot word. -/
def getLvgForm (w : BitVec 48) : LvgForm :=
  { gi := field 39 1 w, gp := field 36 3 w, cls := field 32 4 w, v := field 27 5 w, a := field 21 6 w, vi := field 16 5 w, lw := field 14 2 w, sc := field 12 2 w, m := field 8 4 w, z := field 0 8 w }

/-- The slot word of an opcode and LvgForm. -/
def putLvgForm (op : BitVec 8) (f : LvgForm) : BitVec 48 :=
  op ++ f.gi ++ f.gp ++ f.cls ++ f.v ++ f.a ++ f.vi ++ f.lw ++ f.sc ++ f.m ++ f.z

/-- StvmForm of a slot word. -/
def getStvmForm (w : BitVec 48) : StvmForm :=
  { gi := field 39 1 w, gp := field 36 3 w, cls := field 32 4 w, v := field 27 5 w, a := field 21 6 w, m := field 17 4 w, lw := field 15 2 w, disp := field 0 15 w }

/-- The slot word of an opcode and StvmForm. -/
def putStvmForm (op : BitVec 8) (f : StvmForm) : BitVec 48 :=
  op ++ f.gi ++ f.gp ++ f.cls ++ f.v ++ f.a ++ f.m ++ f.lw ++ f.disp

/-- AwForm of a slot word. -/
def getAwForm (w : BitVec 48) : AwForm :=
  { gi := field 39 1 w, gp := field 36 3 w, cls := field 32 4 w, r1 := field 26 6 w, a := field 20 6 w, r2 := field 14 6 w, disp := field 0 14 w }

/-- The slot word of an opcode and AwForm. -/
def putAwForm (op : BitVec 8) (f : AwForm) : BitVec 48 :=
  op ++ f.gi ++ f.gp ++ f.cls ++ f.r1 ++ f.a ++ f.r2 ++ f.disp

/-- SpForm of a slot word. -/
def getSpForm (w : BitVec 48) : SpForm :=
  { gi := field 39 1 w, gp := field 36 3 w, cls := field 32 4 w, d := field 26 6 w, z := field 9 17 w, off := field 0 9 w }

/-- The slot word of an opcode and SpForm. -/
def putSpForm (op : BitVec 8) (f : SpForm) : BitVec 48 :=
  op ++ f.gi ++ f.gp ++ f.cls ++ f.d ++ f.z ++ f.off

/-- SpvForm of a slot word. -/
def getSpvForm (w : BitVec 48) : SpvForm :=
  { gi := field 39 1 w, gp := field 36 3 w, cls := field 32 4 w, v := field 27 5 w, z := field 9 18 w, off := field 0 9 w }

/-- The slot word of an opcode and SpvForm. -/
def putSpvForm (op : BitVec 8) (f : SpvForm) : BitVec 48 :=
  op ++ f.gi ++ f.gp ++ f.cls ++ f.v ++ f.z ++ f.off

/-- XlateForm of a slot word. -/
def getXlateForm (w : BitVec 48) : XlateForm :=
  { gi := field 39 1 w, gp := field 36 3 w, cls := field 32 4 w, h := field 28 4 w, z1 := field 26 2 w, a := field 20 6 w, z2 := field 0 20 w }

/-- The slot word of an opcode and XlateForm. -/
def putXlateForm (op : BitVec 8) (f : XlateForm) : BitVec 48 :=
  op ++ f.gi ++ f.gp ++ f.cls ++ f.h ++ f.z1 ++ f.a ++ f.z2

/-- HinvForm of a slot word. -/
def getHinvForm (w : BitVec 48) : HinvForm :=
  { gi := field 39 1 w, gp := field 36 3 w, cls := field 32 4 w, h := field 28 4 w, z := field 0 28 w }

/-- The slot word of an opcode and HinvForm. -/
def putHinvForm (op : BitVec 8) (f : HinvForm) : BitVec 48 :=
  op ++ f.gi ++ f.gp ++ f.cls ++ f.h ++ f.z

/-- HgetForm of a slot word. -/
def getHgetForm (w : BitVec 48) : HgetForm :=
  { gi := field 39 1 w, gp := field 36 3 w, cls := field 32 4 w, d := field 26 6 w, h := field 22 4 w, z := field 2 20 w, sel := field 0 2 w }

/-- The slot word of an opcode and HgetForm. -/
def putHgetForm (op : BitVec 8) (f : HgetForm) : BitVec 48 :=
  op ++ f.gi ++ f.gp ++ f.cls ++ f.d ++ f.h ++ f.z ++ f.sel

/-- LdhForm of a slot word. -/
def getLdhForm (w : BitVec 48) : LdhForm :=
  { gi := field 39 1 w, gp := field 36 3 w, cls := field 32 4 w, d := field 26 6 w, h := field 22 4 w, i := field 16 6 w, t := field 12 4 w, disp := field 0 12 w }

/-- The slot word of an opcode and LdhForm. -/
def putLdhForm (op : BitVec 8) (f : LdhForm) : BitVec 48 :=
  op ++ f.gi ++ f.gp ++ f.cls ++ f.d ++ f.h ++ f.i ++ f.t ++ f.disp

/-- LdvhForm of a slot word. -/
def getLdvhForm (w : BitVec 48) : LdvhForm :=
  { gi := field 39 1 w, gp := field 36 3 w, cls := field 32 4 w, v := field 27 5 w, h := field 23 4 w, i := field 17 6 w, z := field 12 5 w, disp := field 0 12 w }

/-- The slot word of an opcode and LdvhForm. -/
def putLdvhForm (op : BitVec 8) (f : LdvhForm) : BitVec 48 :=
  op ++ f.gi ++ f.gp ++ f.cls ++ f.v ++ f.h ++ f.i ++ f.z ++ f.disp

/-- AtForm of a slot word. -/
def getAtForm (w : BitVec 48) : AtForm :=
  { gi := field 39 1 w, gp := field 36 3 w, cls := field 32 4 w, d := field 26 6 w, a := field 20 6 w, b := field 14 6 w, c := field 8 6 w, w := field 6 2 w, pd := field 3 3 w, z := field 0 3 w }

/-- The slot word of an opcode and AtForm. -/
def putAtForm (op : BitVec 8) (f : AtForm) : BitVec 48 :=
  op ++ f.gi ++ f.gp ++ f.cls ++ f.d ++ f.a ++ f.b ++ f.c ++ f.w ++ f.pd ++ f.z

/-- FenceForm of a slot word. -/
def getFenceForm (w : BitVec 48) : FenceForm :=
  { gi := field 39 1 w, gp := field 36 3 w, cls := field 32 4 w, z := field 16 16 w, mask := field 0 16 w }

/-- The slot word of an opcode and FenceForm. -/
def putFenceForm (op : BitVec 8) (f : FenceForm) : BitVec 48 :=
  op ++ f.gi ++ f.gp ++ f.cls ++ f.z ++ f.mask

/-- FenceScForm of a slot word. -/
def getFenceScForm (w : BitVec 48) : FenceScForm :=
  { gi := field 39 1 w, gp := field 36 3 w, cls := field 32 4 w, z := field 3 29 w, scope := field 0 3 w }

/-- The slot word of an opcode and FenceScForm. -/
def putFenceScForm (op : BitVec 8) (f : FenceScForm) : BitVec 48 :=
  op ++ f.gi ++ f.gp ++ f.cls ++ f.z ++ f.scope

/-- ZForm of a slot word. -/
def getZForm (w : BitVec 24) : ZForm :=
  { d := field 15 4 w, off := field 0 15 w }

/-- The slot word of an opcode and ZForm. -/
def putZForm (op : BitVec 5) (f : ZForm) : BitVec 24 :=
  op ++ f.d ++ f.off

/-- MForm of a slot word. -/
def getMForm (w : BitVec 32) : MForm :=
  { ops := field 0 27 w }

/-- The slot word of an opcode and MForm. -/
def putMForm (op : BitVec 5) (f : MForm) : BitVec 32 :=
  op ++ f.ops

/-- KForm of a slot word. -/
def getKForm (w : BitVec 32) : KForm :=
  { aws := field 24 3 w, ring := field 21 3 w, swz := field 17 4 w, ops := field 0 17 w }

/-- The slot word of an opcode and KForm. -/
def putKForm (op : BitVec 5) (f : KForm) : BitVec 32 :=
  op ++ f.aws ++ f.ring ++ f.swz ++ f.ops

/-- NForm of a slot word. -/
def getNForm (w : BitVec 32) : NForm :=
  { ch := field 17 10 w, aws := field 14 3 w, pm := field 12 2 w, ops := field 0 12 w }

/-- The slot word of an opcode and NForm. -/
def putNForm (op : BitVec 5) (f : NForm) : BitVec 32 :=
  op ++ f.ch ++ f.aws ++ f.pm ++ f.ops

/-! ### The opcode grids (R88, R93, R94, R97, R99) -/

/-- The instruction of an S slot. -/
def decodeS (s1 : Bool) (w : BitVec 48) : SlotRead :=
  match (field 40 8 w).toNat with
  | 0 => if w == 0 then .nop else .badZero
  | 0x01 => .instr (.add (getRForm s1 w))
  | 0x02 => .instr (.sub (getRForm s1 w))
  | 0x03 => .instr (.mul (getRForm s1 w))
  | 0x04 => .instr (.mulh (getRForm s1 w))
  | 0x05 => .instr (.mulhn (getRForm s1 w))
  | 0x06 => .instr (.div (getRForm s1 w))
  | 0x07 => .instr (.divn (getRForm s1 w))
  | 0x08 => .instr (.rem (getRForm s1 w))
  | 0x09 => .instr (.remn (getRForm s1 w))
  | 0x0A => .instr (.and (getRForm s1 w))
  | 0x0B => .instr (.or (getRForm s1 w))
  | 0x0C => .instr (.xor (getRForm s1 w))
  | 0x0D => .instr (.andn (getRForm s1 w))
  | 0x0E => .instr (.shl (getRForm s1 w))
  | 0x0F => .instr (.shr (getRForm s1 w))
  | 0x10 => .instr (.sra (getRForm s1 w))
  | 0x11 => .instr (.rol (getRForm s1 w))
  | 0x12 => .instr (.min (getRForm s1 w))
  | 0x13 => .instr (.max (getRForm s1 w))
  | 0x14 => .instr (.minn (getRForm s1 w))
  | 0x15 => .instr (.maxn (getRForm s1 w))
  | 0x16 => .instr (.clz (getRForm s1 w))
  | 0x17 => .instr (.ctz (getRForm s1 w))
  | 0x18 => .instr (.popc (getRForm s1 w))
  | 0x19 => .instr (.exts (getRForm s1 w))
  | 0x1A => .instr (.extz (getRForm s1 w))
  | 0x1B => .instr (.ins (getRForm s1 w))
  | 0x1C => .instr (.sel (getRForm s1 w))
  | 0x1D => .instr (.lea (getRForm s1 w))
  | 0x1E => .instr (.bswap (getRForm s1 w))
  | 0x20 => .instr (.addi (getIForm s1 w))
  | 0x21 => .instr (.andi (getIForm s1 w))
  | 0x22 => .instr (.ori (getIForm s1 w))
  | 0x23 => .instr (.xori (getIForm s1 w))
  | 0x24 => .instr (.shli (getIForm s1 w))
  | 0x25 => .instr (.shri (getIForm s1 w))
  | 0x26 => .instr (.srai (getIForm s1 w))
  | 0x27 => .instr (.muli (getIForm s1 w))
  | 0x28 => .instr (.mini (getIForm s1 w))
  | 0x29 => .instr (.maxi (getIForm s1 w))
  | 0x2A => .instr (.movi (getLForm s1 w))
  | 0x2B => .instr (.moviz (getLForm s1 w))
  | 0x2C => .instr (.movm (getLForm s1 w))
  | 0x2D => .instr (.movt (getLForm s1 w))
  | 0x2E => .instr (.addpc (getLForm s1 w))
  | 0x30 => .instr (.cmp (getRForm s1 w))
  | 0x31 => .instr (.cmpi (getIForm s1 w))
  | 0x32 => .instr (.pand (getRForm s1 w))
  | 0x33 => .instr (.por (getRForm s1 w))
  | 0x34 => .instr (.pxor (getRForm s1 w))
  | 0x35 => .instr (.pmov (getRForm s1 w))
  | 0x36 => .instr (.ptos (getRForm s1 w))
  | 0x37 => .instr (.pset (getIForm s1 w))
  | 0x38 => .instr (.ptst (getIForm s1 w))
  | 0x40 => .instr (.fadd (getRForm s1 w))
  | 0x41 => .instr (.fsub (getRForm s1 w))
  | 0x42 => .instr (.fmul (getRForm s1 w))
  | 0x43 => .instr (.ffma (getRForm s1 w))
  | 0x44 => .instr (.fmin (getRForm s1 w))
  | 0x45 => .instr (.fmax (getRForm s1 w))
  | 0x46 => .instr (.fdiv (getRForm s1 w))
  | 0x47 => .instr (.fsqrt (getRForm s1 w))
  | 0x48 => .instr (.fcmp (getRForm s1 w))
  | 0x49 => .instr (.fclass (getRForm s1 w))
  | 0x4A => .instr (.fcvt (getRForm s1 w))
  | 0x4B => .instr (.fcvti (getRForm s1 w))
  | 0x4C => .instr (.icvtf (getRForm s1 w))
  | 0x4D => .instr (.fsgn (getRForm s1 w))
  | 0x50 => .instr (.prep (getRForm s1 w))
  | 0x51 => .instr (.prepr (getLForm s1 w))
  | 0x52 => .instr (.get (getIForm s1 w))
  | 0x53 => .instr (.set (getIForm s1 w))
  | 0x54 => .instr (.setfmt (getIForm s1 w))
  | 0x55 => .instr (.getfmt (getIForm s1 w))
  | 0x56 => .instr (.stg (getIForm s1 w))
  | 0x57 => .instr (.gtg (getIForm s1 w))
  | 0x58 => .instr (.lcset (getIForm s1 w))
  | 0x59 => .instr (.lcget (getIForm s1 w))
  | 0x5A => .instr (.rasrd (getIForm s1 w))
  | 0x5B => .instr (.raswr (getIForm s1 w))
  | 0x60 => .instr (.gets (getIForm s1 w))
  | 0x61 => .instr (.sets (getIForm s1 w))
  | op => .reserved op

/-- The instruction of a C slot. -/
def decodeC (w : BitVec 32) : SlotRead :=
  match (field 26 6 w).toNat with
  | 0 => if w == 0 then .nop else .badZero
  | 0x01 => .instr (.br (getBrForm w))
  | 0x02 => .instr (.call (getBrForm w))
  | 0x03 => .instr (.ret (getBareForm w))
  | 0x04 => .instr (.loop (getLoopForm w))
  | 0x05 => .instr (.wait (getWaitForm w))
  | 0x06 => .instr (.sync (getSyncForm w))
  | 0x07 => .instr (.done (getBareForm w))
  | 0x08 => .instr (.trap (getTrapForm w))
  | 0x09 => .instr (.eret (getBareForm w))
  | 0x0A => .instr (.idle (getBareForm w))
  | 0x0B => .instr (.swap (getBareForm w))
  | 0x0C => .instr (.brk (getTrapForm w))
  | 0x0D => .instr (.halt (getBareForm w))
  | 0x0E => .instr (.qfence (getQfenceForm w))
  | op => .reserved op

/-- The instruction of a V slot. -/
def decodeV (w : BitVec 64) : SlotRead :=
  match (field 56 8 w).toNat with
  | 0 => if w == 0 then .nop else .badZero
  | 0x01 => .instr (.vadd (getVForm w))
  | 0x02 => .instr (.vsub (getVForm w))
  | 0x03 => .instr (.vmul (getVForm w))
  | 0x04 => .instr (.vmulh (getVForm w))
  | 0x05 => .instr (.vmulhn (getVForm w))
  | 0x06 => .instr (.vmin (getVForm w))
  | 0x07 => .instr (.vmax (getVForm w))
  | 0x08 => .instr (.vminn (getVForm w))
  | 0x09 => .instr (.vmaxn (getVForm w))
  | 0x0A => .instr (.vand (getVForm w))
  | 0x0B => .instr (.vor (getVForm w))
  | 0x0C => .instr (.vxor (getVForm w))
  | 0x0D => .instr (.vandn (getVForm w))
  | 0x0E => .instr (.vshl (getVForm w))
  | 0x0F => .instr (.vshr (getVForm w))
  | 0x10 => .instr (.vsra (getVForm w))
  | 0x11 => .instr (.vabs (getVForm w))
  | 0x12 => .instr (.vneg (getVForm w))
  | 0x13 => .instr (.vclz (getVForm w))
  | 0x14 => .instr (.vpopc (getVForm w))
  | 0x15 => .instr (.vadds (getVForm w))
  | 0x16 => .instr (.vaddsn (getVForm w))
  | 0x17 => .instr (.vsubs (getVForm w))
  | 0x18 => .instr (.vsubsn (getVForm w))
  | 0x19 => .instr (.vsel (getVForm w))
  | 0x1A => .instr (.vcmp (getVForm w))
  | 0x20 => .instr (.vfadd (getVForm w))
  | 0x21 => .instr (.vfsub (getVForm w))
  | 0x22 => .instr (.vfmul (getVForm w))
  | 0x23 => .instr (.vfma (getVForm w))
  | 0x24 => .instr (.vfmin (getVForm w))
  | 0x25 => .instr (.vfmax (getVForm w))
  | 0x26 => .instr (.vfdiv (getVForm w))
  | 0x27 => .instr (.vfsqrt (getVForm w))
  | 0x28 => .instr (.vfexp2 (getVForm w))
  | 0x29 => .instr (.vflog2 (getVForm w))
  | 0x2A => .instr (.vfrcp (getVForm w))
  | 0x2B => .instr (.vfrsq (getVForm w))
  | 0x2C => .instr (.vfabs (getVForm w))
  | 0x2D => .instr (.vfneg (getVForm w))
  | 0x2E => .instr (.vfcmp (getVForm w))
  | 0x2F => .instr (.vfclass (getVForm w))
  | 0x30 => .instr (.vcvt (getVForm w))
  | 0x31 => .instr (.vqnt (getVForm w))
  | 0x32 => .instr (.vdqnt (getVForm w))
  | 0x33 => .instr (.vfredadd (getVForm w))
  | 0x34 => .instr (.vfredmax (getVForm w))
  | 0x35 => .instr (.vredadd (getVForm w))
  | 0x36 => .instr (.vredmax (getVForm w))
  | 0x40 => .instr (.vmov (getVForm w))
  | 0x41 => .instr (.vsplat (getVForm w))
  | 0x42 => .instr (.vsplati (getVForm w))
  | 0x43 => .instr (.vextr (getVForm w))
  | 0x44 => .instr (.vinsr (getVForm w))
  | 0x45 => if w.getLsbD 0 then .instr (.vperm2 (getVForm w)) else .instr (.vperm (getVForm w))
  | 0x46 => .instr (.vshuf (getVForm w))
  | 0x47 => .instr (.vslide (getVForm w))
  | 0x48 => .instr (.vacc (getVForm w))
  | 0x49 => .instr (.vaccw (getVForm w))
  | 0x4A => .instr (.vsin (getVForm w))
  | 0x4B => .instr (.vsout (getVForm w))
  | 0x4C => .instr (.viota (getVForm w))
  | 0x50 => .instr (.mand (getVForm w))
  | 0x51 => .instr (.mor (getVForm w))
  | 0x52 => .instr (.mxor (getVForm w))
  | 0x53 => .instr (.mnot (getVForm w))
  | 0x54 => .instr (.mset (getVForm w))
  | 0x55 => .instr (.mget (getVForm w))
  | 0x56 => .instr (.vany (getVForm w))
  | 0x57 => .instr (.vall (getVForm w))
  | 0x58 => .instr (.mpopc (getVForm w))
  | op => .reserved op

/-- The instruction of an L slot. -/
def decodeL (w : BitVec 48) : SlotRead :=
  match (field 40 8 w).toNat with
  | 0 => if w == 0 then .nop else .badZero
  | 0x01 => .instr (.lds (getLsForm w))
  | 0x02 => .instr (.sts (getLsForm w))
  | 0x03 => .instr (.ldv (getLvForm w))
  | 0x04 => .instr (.stv (getLvForm w))
  | 0x05 => .instr (.ldvs (getLvsForm w))
  | 0x06 => .instr (.stvs (getLvsForm w))
  | 0x07 => .instr (.ldvg (getLvgForm w))
  | 0x08 => .instr (.stvg (getLvgForm w))
  | 0x09 => .instr (.stvm (getStvmForm w))
  | 0x0A => .instr (.setaw (getAwForm w))
  | 0x0B => .instr (.waita (getAwForm w))
  | 0x10 => .instr (.spl (getSpForm w))
  | 0x11 => .instr (.fil (getSpForm w))
  | 0x12 => .instr (.splv (getSpvForm w))
  | 0x13 => .instr (.filv (getSpvForm w))
  | 0x20 => .instr (.xlate (getXlateForm w))
  | 0x21 => .instr (.hinv (getHinvForm w))
  | 0x22 => .instr (.hget (getHgetForm w))
  | 0x23 => .instr (.ldh (getLdhForm w))
  | 0x24 => .instr (.sth (getLdhForm w))
  | 0x25 => .instr (.ldvh (getLdvhForm w))
  | 0x26 => .instr (.stvh (getLdvhForm w))
  | 0x30 => .instr (.aadd (getAtForm w))
  | 0x31 => .instr (.amin (getAtForm w))
  | 0x32 => .instr (.amax (getAtForm w))
  | 0x33 => .instr (.aminn (getAtForm w))
  | 0x34 => .instr (.amaxn (getAtForm w))
  | 0x35 => .instr (.aand (getAtForm w))
  | 0x36 => .instr (.aor (getAtForm w))
  | 0x37 => .instr (.axor (getAtForm w))
  | 0x38 => .instr (.aswp (getAtForm w))
  | 0x39 => .instr (.acas (getAtForm w))
  | 0x3A => .instr (.aincb (getAtForm w))
  | 0x3B => .instr (.aincw (getAtForm w))
  | 0x3C => .instr (.adecp (getAtForm w))
  | 0x3D => .instr (.afal (getAtForm w))
  | 0x3E => .instr (.afadd (getAtForm w))
  | 0x40 => .instr (.fence (getFenceForm w))
  | 0x41 => .instr (.fenceSc (getFenceScForm w))
  | op => .reserved op

/-- The instruction of a Z slot. -/
def decodeZ (w : BitVec 24) : SlotRead :=
  match (field 19 5 w).toNat with
  | 0 => if w == 0 then .nop else .badZero
  | 0x01 => .instr (.zld (getZForm w))
  | 0x02 => .instr (.zldh (getZForm w))
  | 0x03 => .instr (.zldb (getZForm w))
  | 0x04 => .instr (.kld (getZForm w))
  | 0x05 => .instr (.zfromv (getZForm w))
  | op => .reserved op

/-- The instruction of an M slot. -/
def decodeM (w : BitVec 32) : SlotRead :=
  match (field 27 5 w).toNat with
  | 0 => if w == 0 then .nop else .badZero
  | 0x01 => .instr (.mma (getMForm w))
  | 0x02 => .instr (.mepi (getMForm w))
  | 0x03 => .instr (.msend (getMForm w))
  | 0x04 => .instr (.mred (getMForm w))
  | 0x05 => .instr (.mclr (getMForm w))
  | 0x06 => .instr (.mstat (getMForm w))
  | op => .reserved op

/-- The instruction of a K slot. -/
def decodeK (w : BitVec 32) : SlotRead :=
  match (field 27 5 w).toNat with
  | 0 => if w == 0 then .nop else .badZero
  | 0x01 => .instr (.kcpy (getKForm w))
  | 0x02 => .instr (.kput (getKForm w))
  | 0x03 => .instr (.kfill (getKForm w))
  | 0x04 => .instr (.kdec (getKForm w))
  | 0x05 => .instr (.kzero (getKForm w))
  | 0x06 => .instr (.kloc (getKForm w))
  | op => .reserved op

/-- The instruction of an N slot. -/
def decodeN (w : BitVec 32) : SlotRead :=
  match (field 27 5 w).toNat with
  | 0 => if w == 0 then .nop else .badZero
  | 0x01 => .instr (.nsend (getNForm w))
  | 0x02 => .instr (.nsendt (getNForm w))
  | 0x03 => .instr (.npost (getNForm w))
  | 0x04 => .instr (.npush (getNForm w))
  | 0x05 => .instr (.npop (getNForm w))
  | 0x06 => .instr (.nrot (getNForm w))
  | 0x07 => .instr (.ngsend (getNForm w))
  | 0x08 => .instr (.nclose (getNForm w))
  | 0x09 => .instr (.ndisarm (getNForm w))
  | op => .reserved op

/-- The slot of an instruction, and its slot word as a number (R66 to R70, R86); an event has none. -/
def encode : Instr → Option (Slot × Nat)
  | .bundleIssue _ => none
  | .lockstepResultLanding _ => none
  | .trapDelivery _ => none
  | .gangAbort _ => none
  | .add f => some (if f.s1 then .s1 else .s0, (putRForm 0x01 f).toNat)
  | .sub f => some (if f.s1 then .s1 else .s0, (putRForm 0x02 f).toNat)
  | .mul f => some (if f.s1 then .s1 else .s0, (putRForm 0x03 f).toNat)
  | .mulh f => some (if f.s1 then .s1 else .s0, (putRForm 0x04 f).toNat)
  | .mulhn f => some (if f.s1 then .s1 else .s0, (putRForm 0x05 f).toNat)
  | .div f => some (if f.s1 then .s1 else .s0, (putRForm 0x06 f).toNat)
  | .divn f => some (if f.s1 then .s1 else .s0, (putRForm 0x07 f).toNat)
  | .rem f => some (if f.s1 then .s1 else .s0, (putRForm 0x08 f).toNat)
  | .remn f => some (if f.s1 then .s1 else .s0, (putRForm 0x09 f).toNat)
  | .and f => some (if f.s1 then .s1 else .s0, (putRForm 0x0A f).toNat)
  | .or f => some (if f.s1 then .s1 else .s0, (putRForm 0x0B f).toNat)
  | .xor f => some (if f.s1 then .s1 else .s0, (putRForm 0x0C f).toNat)
  | .andn f => some (if f.s1 then .s1 else .s0, (putRForm 0x0D f).toNat)
  | .shl f => some (if f.s1 then .s1 else .s0, (putRForm 0x0E f).toNat)
  | .shr f => some (if f.s1 then .s1 else .s0, (putRForm 0x0F f).toNat)
  | .sra f => some (if f.s1 then .s1 else .s0, (putRForm 0x10 f).toNat)
  | .rol f => some (if f.s1 then .s1 else .s0, (putRForm 0x11 f).toNat)
  | .min f => some (if f.s1 then .s1 else .s0, (putRForm 0x12 f).toNat)
  | .max f => some (if f.s1 then .s1 else .s0, (putRForm 0x13 f).toNat)
  | .minn f => some (if f.s1 then .s1 else .s0, (putRForm 0x14 f).toNat)
  | .maxn f => some (if f.s1 then .s1 else .s0, (putRForm 0x15 f).toNat)
  | .clz f => some (if f.s1 then .s1 else .s0, (putRForm 0x16 f).toNat)
  | .ctz f => some (if f.s1 then .s1 else .s0, (putRForm 0x17 f).toNat)
  | .popc f => some (if f.s1 then .s1 else .s0, (putRForm 0x18 f).toNat)
  | .bswap f => some (if f.s1 then .s1 else .s0, (putRForm 0x1E f).toNat)
  | .exts f => some (if f.s1 then .s1 else .s0, (putRForm 0x19 f).toNat)
  | .extz f => some (if f.s1 then .s1 else .s0, (putRForm 0x1A f).toNat)
  | .ins f => some (if f.s1 then .s1 else .s0, (putRForm 0x1B f).toNat)
  | .sel f => some (if f.s1 then .s1 else .s0, (putRForm 0x1C f).toNat)
  | .lea f => some (if f.s1 then .s1 else .s0, (putRForm 0x1D f).toNat)
  | .addi f => some (if f.s1 then .s1 else .s0, (putIForm 0x20 f).toNat)
  | .andi f => some (if f.s1 then .s1 else .s0, (putIForm 0x21 f).toNat)
  | .ori f => some (if f.s1 then .s1 else .s0, (putIForm 0x22 f).toNat)
  | .xori f => some (if f.s1 then .s1 else .s0, (putIForm 0x23 f).toNat)
  | .shli f => some (if f.s1 then .s1 else .s0, (putIForm 0x24 f).toNat)
  | .shri f => some (if f.s1 then .s1 else .s0, (putIForm 0x25 f).toNat)
  | .srai f => some (if f.s1 then .s1 else .s0, (putIForm 0x26 f).toNat)
  | .muli f => some (if f.s1 then .s1 else .s0, (putIForm 0x27 f).toNat)
  | .mini f => some (if f.s1 then .s1 else .s0, (putIForm 0x28 f).toNat)
  | .maxi f => some (if f.s1 then .s1 else .s0, (putIForm 0x29 f).toNat)
  | .movi f => some (if f.s1 then .s1 else .s0, (putLForm 0x2A f).toNat)
  | .moviz f => some (if f.s1 then .s1 else .s0, (putLForm 0x2B f).toNat)
  | .movm f => some (if f.s1 then .s1 else .s0, (putLForm 0x2C f).toNat)
  | .movt f => some (if f.s1 then .s1 else .s0, (putLForm 0x2D f).toNat)
  | .addpc f => some (if f.s1 then .s1 else .s0, (putLForm 0x2E f).toNat)
  | .cmp f => some (if f.s1 then .s1 else .s0, (putRForm 0x30 f).toNat)
  | .cmpi f => some (if f.s1 then .s1 else .s0, (putIForm 0x31 f).toNat)
  | .pand f => some (if f.s1 then .s1 else .s0, (putRForm 0x32 f).toNat)
  | .por f => some (if f.s1 then .s1 else .s0, (putRForm 0x33 f).toNat)
  | .pxor f => some (if f.s1 then .s1 else .s0, (putRForm 0x34 f).toNat)
  | .pmov f => some (if f.s1 then .s1 else .s0, (putRForm 0x35 f).toNat)
  | .ptos f => some (if f.s1 then .s1 else .s0, (putRForm 0x36 f).toNat)
  | .pset f => some (if f.s1 then .s1 else .s0, (putIForm 0x37 f).toNat)
  | .ptst f => some (if f.s1 then .s1 else .s0, (putIForm 0x38 f).toNat)
  | .fadd f => some (if f.s1 then .s1 else .s0, (putRForm 0x40 f).toNat)
  | .fsub f => some (if f.s1 then .s1 else .s0, (putRForm 0x41 f).toNat)
  | .fmul f => some (if f.s1 then .s1 else .s0, (putRForm 0x42 f).toNat)
  | .ffma f => some (if f.s1 then .s1 else .s0, (putRForm 0x43 f).toNat)
  | .fmin f => some (if f.s1 then .s1 else .s0, (putRForm 0x44 f).toNat)
  | .fmax f => some (if f.s1 then .s1 else .s0, (putRForm 0x45 f).toNat)
  | .fdiv f => some (if f.s1 then .s1 else .s0, (putRForm 0x46 f).toNat)
  | .fsqrt f => some (if f.s1 then .s1 else .s0, (putRForm 0x47 f).toNat)
  | .fcmp f => some (if f.s1 then .s1 else .s0, (putRForm 0x48 f).toNat)
  | .fclass f => some (if f.s1 then .s1 else .s0, (putRForm 0x49 f).toNat)
  | .fsgn f => some (if f.s1 then .s1 else .s0, (putRForm 0x4D f).toNat)
  | .fcvt f => some (if f.s1 then .s1 else .s0, (putRForm 0x4A f).toNat)
  | .fcvti f => some (if f.s1 then .s1 else .s0, (putRForm 0x4B f).toNat)
  | .icvtf f => some (if f.s1 then .s1 else .s0, (putRForm 0x4C f).toNat)
  | .prep f => some (if f.s1 then .s1 else .s0, (putRForm 0x50 f).toNat)
  | .prepr f => some (if f.s1 then .s1 else .s0, (putLForm 0x51 f).toNat)
  | .get f => some (if f.s1 then .s1 else .s0, (putIForm 0x52 f).toNat)
  | .set f => some (if f.s1 then .s1 else .s0, (putIForm 0x53 f).toNat)
  | .gets f => some (if f.s1 then .s1 else .s0, (putIForm 0x60 f).toNat)
  | .sets f => some (if f.s1 then .s1 else .s0, (putIForm 0x61 f).toNat)
  | .setfmt f => some (if f.s1 then .s1 else .s0, (putIForm 0x54 f).toNat)
  | .getfmt f => some (if f.s1 then .s1 else .s0, (putIForm 0x55 f).toNat)
  | .stg f => some (if f.s1 then .s1 else .s0, (putIForm 0x56 f).toNat)
  | .gtg f => some (if f.s1 then .s1 else .s0, (putIForm 0x57 f).toNat)
  | .lcset f => some (if f.s1 then .s1 else .s0, (putIForm 0x58 f).toNat)
  | .lcget f => some (if f.s1 then .s1 else .s0, (putIForm 0x59 f).toNat)
  | .rasrd f => some (if f.s1 then .s1 else .s0, (putIForm 0x5A f).toNat)
  | .raswr f => some (if f.s1 then .s1 else .s0, (putIForm 0x5B f).toNat)
  | .br f => some (.c, (putBrForm 0x01 f).toNat)
  | .call f => some (.c, (putBrForm 0x02 f).toNat)
  | .ret f => some (.c, (putBareForm 0x03 f).toNat)
  | .loop f => some (.c, (putLoopForm 0x04 f).toNat)
  | .wait f => some (.c, (putWaitForm 0x05 f).toNat)
  | .sync f => some (.c, (putSyncForm 0x06 f).toNat)
  | .done f => some (.c, (putBareForm 0x07 f).toNat)
  | .swap f => some (.c, (putBareForm 0x0B f).toNat)
  | .trap f => some (.c, (putTrapForm 0x08 f).toNat)
  | .brk f => some (.c, (putTrapForm 0x0C f).toNat)
  | .eret f => some (.c, (putBareForm 0x09 f).toNat)
  | .idle f => some (.c, (putBareForm 0x0A f).toNat)
  | .halt f => some (.c, (putBareForm 0x0D f).toNat)
  | .qfence f => some (.c, (putQfenceForm 0x0E f).toNat)
  | .vadd f => some (.v, (putVForm 0x01 f).toNat)
  | .vsub f => some (.v, (putVForm 0x02 f).toNat)
  | .vmul f => some (.v, (putVForm 0x03 f).toNat)
  | .vmulh f => some (.v, (putVForm 0x04 f).toNat)
  | .vmulhn f => some (.v, (putVForm 0x05 f).toNat)
  | .vmin f => some (.v, (putVForm 0x06 f).toNat)
  | .vmax f => some (.v, (putVForm 0x07 f).toNat)
  | .vminn f => some (.v, (putVForm 0x08 f).toNat)
  | .vmaxn f => some (.v, (putVForm 0x09 f).toNat)
  | .vand f => some (.v, (putVForm 0x0A f).toNat)
  | .vor f => some (.v, (putVForm 0x0B f).toNat)
  | .vxor f => some (.v, (putVForm 0x0C f).toNat)
  | .vandn f => some (.v, (putVForm 0x0D f).toNat)
  | .vshl f => some (.v, (putVForm 0x0E f).toNat)
  | .vshr f => some (.v, (putVForm 0x0F f).toNat)
  | .vsra f => some (.v, (putVForm 0x10 f).toNat)
  | .vabs f => some (.v, (putVForm 0x11 f).toNat)
  | .vneg f => some (.v, (putVForm 0x12 f).toNat)
  | .vclz f => some (.v, (putVForm 0x13 f).toNat)
  | .vpopc f => some (.v, (putVForm 0x14 f).toNat)
  | .vadds f => some (.v, (putVForm 0x15 f).toNat)
  | .vaddsn f => some (.v, (putVForm 0x16 f).toNat)
  | .vsubs f => some (.v, (putVForm 0x17 f).toNat)
  | .vsubsn f => some (.v, (putVForm 0x18 f).toNat)
  | .vsel f => some (.v, (putVForm 0x19 f).toNat)
  | .vcmp f => some (.v, (putVForm 0x1A f).toNat)
  | .vfadd f => some (.v, (putVForm 0x20 f).toNat)
  | .vfsub f => some (.v, (putVForm 0x21 f).toNat)
  | .vfmul f => some (.v, (putVForm 0x22 f).toNat)
  | .vfma f => some (.v, (putVForm 0x23 f).toNat)
  | .vfmin f => some (.v, (putVForm 0x24 f).toNat)
  | .vfmax f => some (.v, (putVForm 0x25 f).toNat)
  | .vfdiv f => some (.v, (putVForm 0x26 f).toNat)
  | .vfsqrt f => some (.v, (putVForm 0x27 f).toNat)
  | .vfexp2 f => some (.v, (putVForm 0x28 f).toNat)
  | .vflog2 f => some (.v, (putVForm 0x29 f).toNat)
  | .vfrcp f => some (.v, (putVForm 0x2A f).toNat)
  | .vfrsq f => some (.v, (putVForm 0x2B f).toNat)
  | .vfabs f => some (.v, (putVForm 0x2C f).toNat)
  | .vfneg f => some (.v, (putVForm 0x2D f).toNat)
  | .vfcmp f => some (.v, (putVForm 0x2E f).toNat)
  | .vfclass f => some (.v, (putVForm 0x2F f).toNat)
  | .vcvt f => some (.v, (putVForm 0x30 f).toNat)
  | .vqnt f => some (.v, (putVForm 0x31 f).toNat)
  | .vdqnt f => some (.v, (putVForm 0x32 f).toNat)
  | .vfredadd f => some (.v, (putVForm 0x33 f).toNat)
  | .vfredmax f => some (.v, (putVForm 0x34 f).toNat)
  | .vredadd f => some (.v, (putVForm 0x35 f).toNat)
  | .vredmax f => some (.v, (putVForm 0x36 f).toNat)
  | .vmov f => some (.v, (putVForm 0x40 f).toNat)
  | .vsplat f => some (.v, (putVForm 0x41 f).toNat)
  | .vsplati f => some (.v, (putVForm 0x42 f).toNat)
  | .vextr f => some (.v, (putVForm 0x43 f).toNat)
  | .vinsr f => some (.v, (putVForm 0x44 f).toNat)
  | .vperm f => some (.v, (putVForm 0x45 f).toNat)
  | .vperm2 f => some (.v, (putVForm 0x45 f).toNat)
  | .vshuf f => some (.v, (putVForm 0x46 f).toNat)
  | .vslide f => some (.v, (putVForm 0x47 f).toNat)
  | .viota f => some (.v, (putVForm 0x4C f).toNat)
  | .vacc f => some (.v, (putVForm 0x48 f).toNat)
  | .vaccw f => some (.v, (putVForm 0x49 f).toNat)
  | .vsin f => some (.v, (putVForm 0x4A f).toNat)
  | .vsout f => some (.v, (putVForm 0x4B f).toNat)
  | .mand f => some (.v, (putVForm 0x50 f).toNat)
  | .mor f => some (.v, (putVForm 0x51 f).toNat)
  | .mxor f => some (.v, (putVForm 0x52 f).toNat)
  | .mnot f => some (.v, (putVForm 0x53 f).toNat)
  | .mset f => some (.v, (putVForm 0x54 f).toNat)
  | .mget f => some (.v, (putVForm 0x55 f).toNat)
  | .vany f => some (.v, (putVForm 0x56 f).toNat)
  | .vall f => some (.v, (putVForm 0x57 f).toNat)
  | .mpopc f => some (.v, (putVForm 0x58 f).toNat)
  | .zld f => some (.z, (putZForm 0x01 f).toNat)
  | .zldh f => some (.z, (putZForm 0x02 f).toNat)
  | .zldb f => some (.z, (putZForm 0x03 f).toNat)
  | .kld f => some (.z, (putZForm 0x04 f).toNat)
  | .zfromv f => some (.z, (putZForm 0x05 f).toNat)
  | .lds f => some (.l, (putLsForm 0x01 f).toNat)
  | .sts f => some (.l, (putLsForm 0x02 f).toNat)
  | .ldv f => some (.l, (putLvForm 0x03 f).toNat)
  | .stv f => some (.l, (putLvForm 0x04 f).toNat)
  | .ldvs f => some (.l, (putLvsForm 0x05 f).toNat)
  | .stvs f => some (.l, (putLvsForm 0x06 f).toNat)
  | .ldvg f => some (.l, (putLvgForm 0x07 f).toNat)
  | .stvg f => some (.l, (putLvgForm 0x08 f).toNat)
  | .stvm f => some (.l, (putStvmForm 0x09 f).toNat)
  | .setaw f => some (.l, (putAwForm 0x0A f).toNat)
  | .waita f => some (.l, (putAwForm 0x0B f).toNat)
  | .spl f => some (.l, (putSpForm 0x10 f).toNat)
  | .fil f => some (.l, (putSpForm 0x11 f).toNat)
  | .splv f => some (.l, (putSpvForm 0x12 f).toNat)
  | .filv f => some (.l, (putSpvForm 0x13 f).toNat)
  | .xlate f => some (.l, (putXlateForm 0x20 f).toNat)
  | .hinv f => some (.l, (putHinvForm 0x21 f).toNat)
  | .hget f => some (.l, (putHgetForm 0x22 f).toNat)
  | .ldh f => some (.l, (putLdhForm 0x23 f).toNat)
  | .sth f => some (.l, (putLdhForm 0x24 f).toNat)
  | .ldvh f => some (.l, (putLdvhForm 0x25 f).toNat)
  | .stvh f => some (.l, (putLdvhForm 0x26 f).toNat)
  | .aadd f => some (.l, (putAtForm 0x30 f).toNat)
  | .amin f => some (.l, (putAtForm 0x31 f).toNat)
  | .amax f => some (.l, (putAtForm 0x32 f).toNat)
  | .aminn f => some (.l, (putAtForm 0x33 f).toNat)
  | .amaxn f => some (.l, (putAtForm 0x34 f).toNat)
  | .aand f => some (.l, (putAtForm 0x35 f).toNat)
  | .aor f => some (.l, (putAtForm 0x36 f).toNat)
  | .axor f => some (.l, (putAtForm 0x37 f).toNat)
  | .aswp f => some (.l, (putAtForm 0x38 f).toNat)
  | .acas f => some (.l, (putAtForm 0x39 f).toNat)
  | .aincb f => some (.l, (putAtForm 0x3A f).toNat)
  | .aincw f => some (.l, (putAtForm 0x3B f).toNat)
  | .adecp f => some (.l, (putAtForm 0x3C f).toNat)
  | .afal f => some (.l, (putAtForm 0x3D f).toNat)
  | .afadd f => some (.l, (putAtForm 0x3E f).toNat)
  | .fence f => some (.l, (putFenceForm 0x40 f).toNat)
  | .fenceSc f => some (.l, (putFenceScForm 0x41 f).toNat)
  | .mma f => some (.m, (putMForm 0x01 f).toNat)
  | .mepi f => some (.m, (putMForm 0x02 f).toNat)
  | .msend f => some (.m, (putMForm 0x03 f).toNat)
  | .mred f => some (.m, (putMForm 0x04 f).toNat)
  | .mclr f => some (.m, (putMForm 0x05 f).toNat)
  | .mstat f => some (.m, (putMForm 0x06 f).toNat)
  | .kcpy f => some (.k, (putKForm 0x01 f).toNat)
  | .kput f => some (.k, (putKForm 0x02 f).toNat)
  | .kfill f => some (.k, (putKForm 0x03 f).toNat)
  | .kfillConfigure f => some (.k, (putKForm 0x03 f).toNat)
  | .kdec f => some (.k, (putKForm 0x04 f).toNat)
  | .kzero f => some (.k, (putKForm 0x05 f).toNat)
  | .kloc f => some (.k, (putKForm 0x06 f).toNat)
  | .nsend f => some (.n, (putNForm 0x01 f).toNat)
  | .nsendt f => some (.n, (putNForm 0x02 f).toNat)
  | .npost f => some (.n, (putNForm 0x03 f).toNat)
  | .npush f => some (.n, (putNForm 0x04 f).toNat)
  | .npop f => some (.n, (putNForm 0x05 f).toNat)
  | .nrot f => some (.n, (putNForm 0x06 f).toNat)
  | .ngsend f => some (.n, (putNForm 0x07 f).toNat)
  | .nclose f => some (.n, (putNForm 0x08 f).toNat)
  | .ndisarm f => some (.n, (putNForm 0x09 f).toNat)
  | .drawerLoadReturn _ _ => none
  | .drawerStoreAccept _ _ => none
  | .heldLoadReissue _ => none
  | .sideLogReplay _ _ => none
  | .remoteAtomicService _ => none
  | .remoteAtomicReply _ => none
  | .handleWalkEnd _ _ _ => none
  | .shootdownRequest _ => none
  | .shootdownAck _ => none
  | .shootdownComplete => none
  | .faultRecordWrite => none
  | .faultBufferFlush _ => none
  | .matrixDispatch _ => none
  | .mmaPassStart _ => none
  | .mmaPassRetire _ => none
  | .accRowFinal _ => none
  | .mepiRowWrite _ => none
  | .msendRowSend _ => none
  | .mredRowAdd _ => none
  | .mclrRowWrite _ => none
  | .copyDispatch _ => none
  | .chunkIssue _ => none
  | .chunkComplete _ _ => none
  | .chunkReadFault _ => none
  | .channelDispatch _ => none
  | .packetSend _ => none
  | .packetDeposit _ => none
  | .arrival _ => none
  | .creditReturn _ => none
  | .triggeredSendFire _ => none
  | .queueAppend _ => none
  | .queuePop _ => none
  | .queueClose _ => none
  | .spillMove _ => none
  | .barrierDetect _ _ => none
  | .barrierRelease _ _ => none
  | .streamRegisterWatchdog _ => none
  | .arrivalWaitWatchdog _ => none
  | .opticalVectorDelivery _ _ _ _ => none
  | .opticalHop _ _ _ _ _ => none
  | .drainPoint _ => none
  | .tailRegisterWrite _ _ _ => none
  | .stagingEntryTake _ => none
  | .eventCounterWrite _ _ _ _ => none
  | .hostDrawerAccess _ _ _ _ _ => none
  | .placementRound => none
  | .dependenceRead _ => none
  | .planeLoad _ => none
  | .launchGrant _ => none
  | .startToken _ _ => none
  | .gangStart _ => none
  | .launchComplete _ => none
  | .staleLaunch _ => none
  | .contextSaveRequest _ => none
  | .contextRestoreRequest _ => none
  | .contextDestroyRequest _ => none
  | .haltToken _ => none
  | .tileHalted _ => none
  | .tileRecordWritten _ => none
  | .gangRestore _ => none
  | .descriptorSelect _ => none
  | .queueDescriptorCommit _ => none
  | .contextDescriptorCommit _ => none
  | .accessTableSelect _ => none
  | .tileGrantCommit _ => none
  | .drawerRangeCommit _ => none
  | .hostContextSetCommit _ => none
  | .drawerRequestSend _ => none
  | .slotGrant _ => none
  | .sltDataWrite _ => none
  | .slotTableCommit _ => none
  | .slotTableSwitch _ => none
  | .tokenRefill => none
  | .bwcWrite _ _ => none
  | .linkTraining _ => none
  | .linkWaitTimeout _ => none
  | .sensorSample => none
  | .throttleWrite _ _ => none
  | .fieldPowerWrite _ => none
  | .fieldPowerStage => none
  | .wakeTimer => none
  | .eventStamp => none
  | .bbIdxWrite _ => none
  | .bbWcodeWrite _ => none
  | .modRankWrite _ => none
  | .systemRegisterWrite _ _ => none
  | .clearRow _ => none
  | .clearColumn _ => none
  | .clearHole _ => none
  | .clearDeadLink _ => none
  | .addRow _ => none
  | .addColumn _ => none
  | .addHole _ => none
  | .containedError _ _ => none
  | .migrationFreezeOrder _ => none
  | .migrationCopy _ => none
  | .mapChange _ => none
  | .migrationThaw _ => none
  | .uncontainedError _ _ => none
  | .poisonMarked _ _ => none
  | .linkFlitRetry _ _ => none
  | .tailAcknowledge _ => none
  | .meshLinkDead _ => none
  | .managementDatagram _ _ => none
  | .systemRegisterReadRequest _ _ _ _ => none
  | .systemRegisterWriteRequest _ _ _ _ => none
  | .faultLogRead _ _ _ _ => none
  | .blackBoxRead _ _ _ _ => none
  | .flashRead _ _ _ _ => none
  | .flashWrite _ _ _ _ => none
  | .moduleReset _ _ => none
  | .recoveryBoot _ _ => none
  | .coreRelease _ _ => none
  | .portBind _ _ => none
  | .portUnbind _ => none
  | .portUp _ => none
  | .portLowPower _ => none
  | .portDown _ => none
  | .wakeHint _ _ => none
  | .boot => none
  | .contextDestroyed _ => none
  | .readRequestService _ => none
  | .npopResultWrite _ => none
  | .opticalPortTrainingEnd _ => none

/-- A bundle with one slot filled and a zero header. -/
def slotBundle (sl : Slot) (w : Nat) : Bundle :=
  let e : Bundle := { h := 0, s0 := 0, s1 := 0, c := 0, v := 0, l := 0, z := 0, m := 0, k := 0, n := 0, low := 0 }
  match sl with
  | .h => { e with h := BitVec.ofNat 16 w }
  | .s0 => { e with s0 := BitVec.ofNat 48 w }
  | .s1 => { e with s1 := BitVec.ofNat 48 w }
  | .c => { e with c := BitVec.ofNat 32 w }
  | .v => { e with v := BitVec.ofNat 64 w }
  | .l => { e with l := BitVec.ofNat 48 w }
  | .z => { e with z := BitVec.ofNat 24 w }
  | .m => { e with m := BitVec.ofNat 32 w }
  | .k => { e with k := BitVec.ofNat 32 w }
  | .n => { e with n := BitVec.ofNat 32 w }
  | .none => e

/-- What each slot of a bundle holds, in the order of R25. -/
def decodeBundle (b : Bundle) : List (Slot × SlotRead) :=
  [(.s0, decodeS false b.s0), (.s1, decodeS true b.s1), (.c, decodeC b.c), (.v, decodeV b.v), (.l, decodeL b.l),
    (.z, decodeZ b.z), (.m, decodeM b.m), (.k, decodeK b.k), (.n, decodeN b.n)]

/-- The instructions of a bundle. -/
def bundleInstrs (b : Bundle) : List Instr :=
  (decodeBundle b).filterMap (fun p => match p.2 with | .instr i => some i | _ => none)

/-- The instruction the decoder reads from a 384-bit bundle numbered as R71 numbers it: the one instruction of a bundle
that holds one, with a zero header and nothing that decoding refuses; a bundle of several is the step BUNDLE_ISSUE. -/
def decodeTableWord (_nbits w : Nat) : Option Instr :=
  let b := splitBundle (BitVec.ofNat 384 w)
  if b.h != 0 || b.low != 0 ||
      (decodeBundle b).any (fun p => match p.2 with | .badZero => true | .reserved _ => true | _ => false) then none
  else
    match bundleInstrs b with
    | [i] => some i
    | _ => some (.bundleIssue 0)

end Sys2Proof
end

