-- ==== Sys2Proof/Machine/Issue.lean ====
section
/-! DEFINITION. The issue of a bundle: fetch, waits, precise causes, bank accesses and effects (01 R13 to R29, 03 R60 to R73,
R413), and each slot instruction as a bundle of its own. -/

namespace Sys2Proof.Machine

/-! ### What each slot instruction is -/

/-- The meaning of a slot instruction as a slot of a bundle; none for an event. -/
def slotSem : Instr → Option SlotSem
  | .bundleIssue _ => none
  | .lockstepResultLanding _ => none
  | .trapDelivery _ => none
  | .gangAbort _ => none
  | .add f => some (semAdd f)
  | .sub f => some (semSub f)
  | .mul f => some (semMul f)
  | .mulh f => some (semMulh f)
  | .mulhn f => some (semMulhn f)
  | .div f => some (semDiv f)
  | .divn f => some (semDivn f)
  | .rem f => some (semRem f)
  | .remn f => some (semRemn f)
  | .and f => some (semAnd f)
  | .or f => some (semOr f)
  | .xor f => some (semXor f)
  | .andn f => some (semAndn f)
  | .shl f => some (semShl f)
  | .shr f => some (semShr f)
  | .sra f => some (semSra f)
  | .rol f => some (semRol f)
  | .min f => some (semMin f)
  | .max f => some (semMax f)
  | .minn f => some (semMinn f)
  | .maxn f => some (semMaxn f)
  | .clz f => some (semClz f)
  | .ctz f => some (semCtz f)
  | .popc f => some (semPopc f)
  | .bswap f => some (semBswap f)
  | .exts f => some (semExts f)
  | .extz f => some (semExtz f)
  | .ins f => some (semIns f)
  | .sel f => some (semSel f)
  | .lea f => some (semLea f)
  | .addi f => some (semAddi f)
  | .andi f => some (semAndi f)
  | .ori f => some (semOri f)
  | .xori f => some (semXori f)
  | .shli f => some (semShli f)
  | .shri f => some (semShri f)
  | .srai f => some (semSrai f)
  | .muli f => some (semMuli f)
  | .mini f => some (semMini f)
  | .maxi f => some (semMaxi f)
  | .movi f => some (semMovi f)
  | .moviz f => some (semMoviz f)
  | .movm f => some (semMovm f)
  | .movt f => some (semMovt f)
  | .addpc f => some (semAddpc f)
  | .cmp f => some (semCmp f)
  | .cmpi f => some (semCmpi f)
  | .pand f => some (semPand f)
  | .por f => some (semPor f)
  | .pxor f => some (semPxor f)
  | .pmov f => some (semPmov f)
  | .ptos f => some (semPtos f)
  | .pset f => some (semPset f)
  | .ptst f => some (semPtst f)
  | .fadd f => some (semFadd f)
  | .fsub f => some (semFsub f)
  | .fmul f => some (semFmul f)
  | .ffma f => some (semFfma f)
  | .fmin f => some (semFmin f)
  | .fmax f => some (semFmax f)
  | .fdiv f => some (semFdiv f)
  | .fsqrt f => some (semFsqrt f)
  | .fcmp f => some (semFcmp f)
  | .fclass f => some (semFclass f)
  | .fsgn f => some (semFsgn f)
  | .fcvt f => some (semFcvt f)
  | .fcvti f => some (semFcvti f)
  | .icvtf f => some (semIcvtf f)
  | .prep f => some (semPrep f)
  | .prepr f => some (semPrepr f)
  | .get f => some (semGet f)
  | .set f => some (semSet f)
  | .gets f => some (semGets f)
  | .sets f => some (semSets f)
  | .setfmt f => some (semSetfmt f)
  | .getfmt f => some (semGetfmt f)
  | .stg f => some (semStg f)
  | .gtg f => some (semGtg f)
  | .lcset f => some (semLcset f)
  | .lcget f => some (semLcget f)
  | .rasrd f => some (semRasrd f)
  | .raswr f => some (semRaswr f)
  | .br f => some (semBr f)
  | .call f => some (semCall f)
  | .ret f => some (semRet f)
  | .loop f => some (semLoop f)
  | .wait f => some (semWait f)
  | .sync f => some (semSync f)
  | .done f => some (semDone f)
  | .swap f => some (semSwap f)
  | .trap f => some (semTrap f)
  | .brk f => some (semBrk f)
  | .eret f => some (semEret f)
  | .idle f => some (semIdle f)
  | .halt f => some (semHalt f)
  | .qfence f => some (semQfence f)
  | .vadd f => some (semVadd f)
  | .vsub f => some (semVsub f)
  | .vmul f => some (semVmul f)
  | .vmulh f => some (semVmulh f)
  | .vmulhn f => some (semVmulhn f)
  | .vmin f => some (semVmin f)
  | .vmax f => some (semVmax f)
  | .vminn f => some (semVminn f)
  | .vmaxn f => some (semVmaxn f)
  | .vand f => some (semVand f)
  | .vor f => some (semVor f)
  | .vxor f => some (semVxor f)
  | .vandn f => some (semVandn f)
  | .vshl f => some (semVshl f)
  | .vshr f => some (semVshr f)
  | .vsra f => some (semVsra f)
  | .vabs f => some (semVabs f)
  | .vneg f => some (semVneg f)
  | .vclz f => some (semVclz f)
  | .vpopc f => some (semVpopc f)
  | .vadds f => some (semVadds f)
  | .vaddsn f => some (semVaddsn f)
  | .vsubs f => some (semVsubs f)
  | .vsubsn f => some (semVsubsn f)
  | .vsel f => some (semVsel f)
  | .vcmp f => some (semVcmp f)
  | .vfadd f => some (semVfadd f)
  | .vfsub f => some (semVfsub f)
  | .vfmul f => some (semVfmul f)
  | .vfma f => some (semVfma f)
  | .vfmin f => some (semVfmin f)
  | .vfmax f => some (semVfmax f)
  | .vfdiv f => some (semVfdiv f)
  | .vfsqrt f => some (semVfsqrt f)
  | .vfexp2 f => some (semVfexp2 f)
  | .vflog2 f => some (semVflog2 f)
  | .vfrcp f => some (semVfrcp f)
  | .vfrsq f => some (semVfrsq f)
  | .vfabs f => some (semVfabs f)
  | .vfneg f => some (semVfneg f)
  | .vfcmp f => some (semVfcmp f)
  | .vfclass f => some (semVfclass f)
  | .vcvt f => some (semVcvt f)
  | .vqnt f => some (semVqnt f)
  | .vdqnt f => some (semVdqnt f)
  | .vfredadd f => some (semVfredadd f)
  | .vfredmax f => some (semVfredmax f)
  | .vredadd f => some (semVredadd f)
  | .vredmax f => some (semVredmax f)
  | .vmov f => some (semVmov f)
  | .vsplat f => some (semVsplat f)
  | .vsplati f => some (semVsplati f)
  | .vextr f => some (semVextr f)
  | .vinsr f => some (semVinsr f)
  | .vperm f => some (semVperm f)
  | .vperm2 f => some (semVperm2 f)
  | .vshuf f => some (semVshuf f)
  | .vslide f => some (semVslide f)
  | .viota f => some (semViota f)
  | .vacc f => some (semVacc f)
  | .vaccw f => some (semVaccw f)
  | .vsin f => some (semVsin f)
  | .vsout f => some (semVsout f)
  | .mand f => some (semMand f)
  | .mor f => some (semMor f)
  | .mxor f => some (semMxor f)
  | .mnot f => some (semMnot f)
  | .mset f => some (semMset f)
  | .mget f => some (semMget f)
  | .vany f => some (semVany f)
  | .vall f => some (semVall f)
  | .mpopc f => some (semMpopc f)
  | .zld f => some (semZld f)
  | .zldh f => some (semZldh f)
  | .zldb f => some (semZldb f)
  | .kld f => some (semKld f)
  | .zfromv f => some (semZfromv f)
  | .lds f => some (semLds f)
  | .sts f => some (semSts f)
  | .ldv f => some (semLdv f)
  | .stv f => some (semStv f)
  | .ldvs f => some (semLdvs f)
  | .stvs f => some (semStvs f)
  | .ldvg f => some (semLdvg f)
  | .stvg f => some (semStvg f)
  | .stvm f => some (semStvm f)
  | .setaw f => some (semSetaw f)
  | .waita f => some (semWaita f)
  | .spl f => some (semSpl f)
  | .fil f => some (semFil f)
  | .splv f => some (semSplv f)
  | .filv f => some (semFilv f)
  | .xlate f => some (semXlate f)
  | .hinv f => some (semHinv f)
  | .hget f => some (semHget f)
  | .ldh f => some (semLdh f)
  | .sth f => some (semSth f)
  | .ldvh f => some (semLdvh f)
  | .stvh f => some (semStvh f)
  | .aadd f => some (semAadd f)
  | .amin f => some (semAmin f)
  | .amax f => some (semAmax f)
  | .aminn f => some (semAminn f)
  | .amaxn f => some (semAmaxn f)
  | .aand f => some (semAand f)
  | .aor f => some (semAor f)
  | .axor f => some (semAxor f)
  | .aswp f => some (semAswp f)
  | .acas f => some (semAcas f)
  | .aincb f => some (semAincb f)
  | .aincw f => some (semAincw f)
  | .adecp f => some (semAdecp f)
  | .afal f => some (semAfal f)
  | .afadd f => some (semAfadd f)
  | .fence f => some (semFence f)
  | .fenceSc f => some (semFenceSc f)
  | .mma f => some (semMma f)
  | .mepi f => some (semMepi f)
  | .msend f => some (semMsend f)
  | .mred f => some (semMred f)
  | .mclr f => some (semMclr f)
  | .mstat f => some (semMstat f)
  | .kcpy f => some (semKcpy f)
  | .kput f => some (semKput f)
  | .kfill f => some (semKfill f)
  | .kfillConfigure f => some (semKfillConfigure f)
  | .kdec f => some (semKdec f)
  | .kzero f => some (semKzero f)
  | .kloc f => some (semKloc f)
  | .nsend f => some (semNsend f)
  | .nsendt f => some (semNsendt f)
  | .npost f => some (semNpost f)
  | .npush f => some (semNpush f)
  | .npop f => some (semNpop f)
  | .nrot f => some (semNrot f)
  | .ngsend f => some (semNgsend f)
  | .nclose f => some (semNclose f)
  | .ndisarm f => some (semNdisarm f)
  | .drawerLoadReturn _ _ => none
  | .drawerStoreAccept _ _ => none
  | .heldLoadReissue _ => none
  | .sideLogReplay _ _ => none
  | .remoteAtomicService _ => none
  | .remoteAtomicReply _ => none
  | .handleWalkEnd _ _ _ => none
  | .shootdownRequest _ => none
  | .shootdownAck _ => none
  | .shootdownComplete => none
  | .faultRecordWrite => none
  | .faultBufferFlush _ => none
  | .matrixDispatch _ => none
  | .mmaPassStart _ => none
  | .mmaPassRetire _ => none
  | .accRowFinal _ => none
  | .mepiRowWrite _ => none
  | .msendRowSend _ => none
  | .mredRowAdd _ => none
  | .mclrRowWrite _ => none
  | .copyDispatch _ => none
  | .chunkIssue _ => none
  | .chunkComplete _ _ => none
  | .chunkReadFault _ => none
  | .channelDispatch _ => none
  | .packetSend _ => none
  | .packetDeposit _ => none
  | .arrival _ => none
  | .creditReturn _ => none
  | .triggeredSendFire _ => none
  | .queueAppend _ => none
  | .queuePop _ => none
  | .queueClose _ => none
  | .spillMove _ => none
  | .barrierDetect _ _ => none
  | .barrierRelease _ _ => none
  | .streamRegisterWatchdog _ => none
  | .arrivalWaitWatchdog _ => none
  | .opticalVectorDelivery _ _ _ _ => none
  | .opticalHop _ _ _ _ _ => none
  | .drainPoint _ => none
  | .tailRegisterWrite _ _ _ => none
  | .stagingEntryTake _ => none
  | .eventCounterWrite _ _ _ _ => none
  | .hostDrawerAccess _ _ _ _ _ => none
  | .placementRound => none
  | .dependenceRead _ => none
  | .planeLoad _ => none
  | .launchGrant _ => none
  | .startToken _ _ => none
  | .gangStart _ => none
  | .launchComplete _ => none
  | .staleLaunch _ => none
  | .contextSaveRequest _ => none
  | .contextRestoreRequest _ => none
  | .contextDestroyRequest _ => none
  | .haltToken _ => none
  | .tileHalted _ => none
  | .tileRecordWritten _ => none
  | .gangRestore _ => none
  | .descriptorSelect _ => none
  | .queueDescriptorCommit _ => none
  | .contextDescriptorCommit _ => none
  | .accessTableSelect _ => none
  | .tileGrantCommit _ => none
  | .drawerRangeCommit _ => none
  | .hostContextSetCommit _ => none
  | .drawerRequestSend _ => none
  | .slotGrant _ => none
  | .sltDataWrite _ => none
  | .slotTableCommit _ => none
  | .slotTableSwitch _ => none
  | .tokenRefill => none
  | .bwcWrite _ _ => none
  | .linkTraining _ => none
  | .linkWaitTimeout _ => none
  | .sensorSample => none
  | .throttleWrite _ _ => none
  | .fieldPowerWrite _ => none
  | .fieldPowerStage => none
  | .wakeTimer => none
  | .eventStamp => none
  | .bbIdxWrite _ => none
  | .bbWcodeWrite _ => none
  | .modRankWrite _ => none
  | .systemRegisterWrite _ _ => none
  | .clearRow _ => none
  | .clearColumn _ => none
  | .clearHole _ => none
  | .clearDeadLink _ => none
  | .addRow _ => none
  | .addColumn _ => none
  | .addHole _ => none
  | .containedError _ _ => none
  | .migrationFreezeOrder _ => none
  | .migrationCopy _ => none
  | .mapChange _ => none
  | .migrationThaw _ => none
  | .uncontainedError _ _ => none
  | .poisonMarked _ _ => none
  | .linkFlitRetry _ _ => none
  | .tailAcknowledge _ => none
  | .meshLinkDead _ => none
  | .managementDatagram _ _ => none
  | .systemRegisterReadRequest _ _ _ _ => none
  | .systemRegisterWriteRequest _ _ _ _ => none
  | .faultLogRead _ _ _ _ => none
  | .blackBoxRead _ _ _ _ => none
  | .flashRead _ _ _ _ => none
  | .flashWrite _ _ _ _ => none
  | .moduleReset _ _ => none
  | .recoveryBoot _ _ => none
  | .coreRelease _ _ => none
  | .portBind _ _ => none
  | .portUnbind _ => none
  | .portUp _ => none
  | .portLowPower _ => none
  | .portDown _ => none
  | .wakeHint _ _ => none
  | .boot => none
  | .contextDestroyed _ => none
  | .readRequestService _ => none
  | .npopResultWrite _ => none
  | .opticalPortTrainingEnd _ => none

/-- The place of a slot in a bundle's order (R25). -/
def slotRank : Slot → Nat
  | .h => 0
  | .s0 => 1
  | .s1 => 2
  | .c => 3
  | .v => 4
  | .l => 5
  | .z => 6
  | .m => 7
  | .k => 8
  | .n => 9
  | .none => 10

/-! ### The header (R61) -/

/-- A header as the bundle's issue uses it: STALL, the queues named by SYNC, PB. -/
structure Header where
  stall : Nat
  syncM : Bool
  syncK : Bool
  syncN : Bool
  pb : Bool
deriving DecidableEq, Repr

/-- The fields of the 16 header bits (R61). -/
def headerOf (h : BitVec 16) : Header :=
  { stall := (field 12 4 h).toNat, syncM := h.getLsbD 11, syncK := h.getLsbD 10, syncN := h.getLsbD 9, pb := h.getLsbD 8 }

/-- The zero header. -/
def Header.zero : Header := { stall := 0, syncM := false, syncK := false, syncN := false, pb := false }

/-- Does SYNC hold the bundle: a named queue still has a command (R64)? -/
def Header.holds (h : Header) (c : Core) : Bool :=
  (h.syncM && !c.mat.queue.isEmpty) || (h.syncK && !c.cpy.queue.isEmpty) || (h.syncN && !c.chn.queue.isEmpty)

/-! ### Throttle, bank conflicts, pending work for the core -/

/-- The throttle step that governs the current core's field in this cycle (R395). The management core has none. -/
def State.throttled (s : State) : Bool :=
  if s.core.isMgmt then false
  else
    decide (s.cycle % 8 < (Tab.getD s.throttles (fieldOf s.cur) { k := 0, next := none }).k) &&
      !(match s.gangOf s.cur with | some g => g.launch.startAt == s.cycle | none => false)

/-- Is something pending for the management core (R398)? -/
def State.pendingForCore (s : State) : Bool :=
  let r := s.sys
  (s.bbox.any (fun e =>
      let seq := bytesNat (e.2.take 8)
      decide (r.evtAck.toNat < seq) && decide (seq ≤ s.visibleLast.toNat) && r.evtMask.getLsbD (e.2.getD 18 0).toNat)) ||
    s.evtOver.any (fun e => decide (r.evtAck.toNat < e.2) && r.evtMask.getLsbD e.1) ||
    (r.wake.getLsbD 63 && decide ((field 0 63 r.wake).toNat ≤ s.cycle))

/-! ### Issue (R413 steps 2 to 4) -/

/-- All the slots' waits: the state after them, and whether one holds the bundle. -/
def runWaits (s : State) : List SlotSem → State × Bool
  | [] => (s, false)
  | m :: r =>
    match m.waits s with
    | some t => ((runWaits t r).1, true)
    | none => runWaits s r

/-- The wait of the first slot that still holds the bundle when nothing else does (R160, R251). -/
def lateWait (s : State) : List SlotSem → Option State
  | [] => none
  | m :: r =>
    match m.waitsLate s with
    | some t => some t
    | none => lateWait s r

/-- The first slot's precise cause, in the order of the list (R25). -/
def firstSlotCause (s : State) : List SlotSem → Option Cause
  | [] => none
  | m :: r =>
    match m.cause s with
    | some k => some k
    | none => firstSlotCause s r

/-- The slots' effects, Z before L so that its read is before L's store, and C last (R150). -/
def runEffects (s : State) : List SlotSem → State
  | [] => s
  | m :: r => runEffects (m.effect s) r

/-- The order in which `issueSlots` runs the effects. -/
def effectOrder (ms : List SlotSem) : List SlotSem :=
  ms.filter (fun m => slotRank m.slot ≤ 2) ++ ms.filter (fun m => m.slot == .v) ++ ms.filter (fun m => m.slot == .z) ++
    ms.filter (fun m => m.slot == .l) ++ ms.filter (fun m => 7 ≤ slotRank m.slot) ++ ms.filter (fun m => m.slot == .c)

/-- What follows an issued bundle: the next PC and the redirects that come due (R21, R72), the PB count (R65), STALL (R63), the
issue order, and a cycle off every result's count (R13). `eret` does not advance the PC (R125). -/
def Core.finish (c : Core) (h : Header) : Core :=
  let rs := c.redirects.map (fun r => { r with left := r.left - 1 })
  let due := rs.find? (fun r => r.left == 0)
  let d : Core :=
    if c.eretDrain then { c with redirects := rs }
    else
      { c with
        redirects := rs.filter (fun r => r.left != 0)
        pc := (match due with | some r => r.target | none => c.seqPc c.pc)
        pcFrom := (match due with | some r => some r.src | none => none) }
  ({ d with
      stall := h.stall, pb := if h.pb then d.pb + 1 else 0, issueNo := d.issueNo + 1
      waitedV := 0, waitedL := 0, waitaRead := false, waitaSeen := false, fenceLate := none, bankLeft := none } : Core).countDown

/-- What a contained error needs to stop a bundle that has issued from core `c` and left `d`: there is nothing to stop when it began no
result, or did more than begin results and redirects, which `plain` denies of its slots (R368, R385). -/
def Core.undoOf (c d : Core) (plain : Bool) : Option Undo :=
  let n := d.inflight.countP (fun r => r.ord == c.issueNo)
  if n != 0 && plain && d.strand == c.strand && d.eretDrain == c.eretDrain &&
      d.orx == c.orx && d.otx == c.otx then
    some { pc := c.pc, pcFrom := c.pcFrom, redirects := c.redirects, pb := c.pb, ord := c.issueNo, results := n }
  else none

/-- The last bundle stopped before any of its results has landed: it is due again (R385). -/
def Core.stopLast (c : Core) : Core :=
  match c.undo with
  | some x =>
    if c.strand == .running && c.issueNo == x.ord + 1 && c.inflight.countP (fun r => r.ord == x.ord) == x.results then
      { c with
        pc := x.pc, pcFrom := x.pcFrom, redirects := x.redirects, pb := x.pb, stall := 0, undo := none
        inflight := c.inflight.filter (fun r => r.ord != x.ord), pend := c.pend.filter (fun e => e.2 != x.ord)
        waitedV := 0, waitedL := 0, waitaRead := false, waitaSeen := false, fenceLate := none, bankLeft := none }
    else c
  | none => c

/-- The first trap after effect among the slots (R124). -/
def afterTrap (s : State) : List SlotSem → Option Cause
  | [] => none
  | m :: r => if guardOn m.guard s.core then (match m.after s with | some k => some k | none => afterTrap s r) else afterTrap s r

/-- Do causes of the tile as a whole freeze issue in this cycle: a held load, a store that waits for a log slot, the
throttle (R18, R317, R395)? -/
def State.issueFrozen (s : State) : Bool :=
  s.core.holdsLoad || s.core.slogWait || s.throttled

/-- A cycle in which a due bundle of slots `ms` is held before issue, with what becomes of the state; `none` when nothing holds it (R18,
R413 step 2). The cycles of the snapshot limit count results down; `waita` reads when nothing else holds the bundle (R251). -/
def State.waitOut (s : State) (h : Header) (ms : List SlotSem) : Option State :=
  let (t, held) := runWaits s ms
  if held || h.holds s.core || s.issueFrozen then some t
  else
    let n := (runEffects s (effectOrder ms)).core.lockstepCount
    if decide (32 < n) && decide (s.core.lockstepCount < n) then some (s.setCore s.core.countDown)
    else lateWait s ms

/-- A due bundle of slots `ms`, in the order of R25, under header `h`: waits, then precise causes, bank conflicts and effects (R413). A
conflict leaves a read of `waita` made (R160). A `trap` or `brk` leaves its cause for the boundary that follows (R28). While a `wait` that is
due freezes, no result counts down (R18), where R276's last row has one land (DEDUCED, log 120). -/
def State.issueSlots (s : State) (h : Header) (ms : List SlotSem) : State :=
  match s.waitOut h ms with
  | some t => t
  | none =>
    match firstSlotCause s ms with
    | some k => s.trapPrecise k
    | none =>
      let left := match s.core.bankLeft with | some l => l | none => (ms.flatMap (fun m => m.touched s)).eraseDups
      let rest := left.filter (fun w => !(s.core.strandServed left).contains w)
      if !rest.isEmpty then s.setCore (({ s.core with bankLeft := some rest, waitaSeen := true } : Core).asks left)
      else
        let u := runEffects s (effectOrder ms)
        let v := u.setCore (({ u.core.finish h with undo := s.core.undoOf u.core (ms.all (fun m => m.plain || !guardOn m.guard s.core)) } : Core).asks left)
        match afterTrap s ms with
        | some k => v.setCore { v.core with trapAfter := some k, stall := 0, undo := none }
        | none => v

/-! ### Fetch (R62, R72, R73) -/

/-- What stands at the PC: a bundle, or the illegal index. -/
def Core.fetch (c : Core) : BundleWord ⊕ BitVec 16 :=
  let p := c.plane
  let i := p.half c.pc
  if i = 0xFFFF then
    .inl (BitVec.ofNat 384 (packFrom 16 (fun j => (p.half (c.pc + 1 + BitVec.ofNat 13 j)).toNat) 24 0))
  else if i.toNat < 0x400 ∧ i.toNat < p.ndict then .inl (Tab.getD p.dict i.toNat 0)
  else .inr i

/-- The meaning of what a slot holds (R62, R87). -/
def readSem (p : Slot × SlotRead) : Option SlotSem :=
  match p.2 with
  | .nop => none
  | .badZero =>
    let bit := match p.1 with
      | .s0 => 360 | .s1 => 312 | .c => 266 | .v => 232 | .l => 168 | .z => 123 | .m => 99 | .k => 67 | _ => 35
    some { plainSlot p.1 none with enc := [(bit, false)] }
  | .reserved op => some { plainSlot p.1 none with absent := fun _ => some (precise p.1 0x04 (BitVec.ofNat 64 op)) }
  | .instr i => slotSem i

/-- The slots of a bundle that hold something. -/
def bundleSems (b : Bundle) : List SlotSem := (decodeBundle b).filterMap readSem

/-- The bundle-level cause of the bundle due, in the order of R25 and R413 step 1: illegal branch target, illegal code index,
illegal bundle, PB overrun. -/
def Core.bundleCause (c : Core) : Option Cause :=
  match c.pcFrom, c.plane.marks.contains c.pc.toNat with
  | some src, true => some (precise .none 0x03 (src.setWidth 64))
  | _, _ =>
    match c.fetch with
    | .inr i => some (precise .h 0x02 (i.setWidth 64))
    | .inl w =>
      let b := splitBundle w
      if field 0 8 b.h != 0 || b.low != 0 then some (precise .h 0x01 (b.h.setWidth 64))
      else if b.h.getLsbD 8 && decide (64 ≤ c.pb) then some (precise .h 0x17 65)
      else none

/-- Is the boundary before the due bundle under PB (R65)? -/
def Core.underPB (c : Core) : Bool :=
  match c.fetch with
  | .inl w => (splitBundle w).h.getLsbD 8
  | .inr _ => false

/-- The strand stops for a save: results in flight and redirects go to the pre-emption snapshot (R324, R327). -/
def Core.saveStop (c : Core) : Core :=
  { c with
    strand := .saved
    snapPre := { results := c.inflight.filter (fun r => !r.late), redirects := c.redirects, pb := c.pb }
    inflight := c.inflight.filter (·.late)
    redirects := []
    waitedV := 0, waitedL := 0, waitaRead := false, waitaSeen := false, fenceLate := none, bankLeft := none }

/-- Fetch and issue of the bundle due. -/
def State.issueDue (s : State) : State :=
  let c := s.core
  match c.bundleCause with
  | some k => s.trapPrecise k
  | none =>
    match c.fetch with
    | .inr _ => s
    | .inl w =>
      let b := splitBundle w
      s.issueSlots (headerOf b.h) (bundleSems b)

/-- A drain cycle of `eret` (R125): results count down; the STALL cycles of its bundle run at the same time (log 92). -/
def State.drainCycle (s : State) : State :=
  let c := s.core
  s.setCore ({ c with stall := if s.issueFrozen then c.stall else c.stall - 1 } : Core).countDown

/-- A cycle of a running strand (R17, R18, R63, R125, R327). The STALL cycles of an `eret` bundle follow its issue directly, so
TRAPPC's bundle issues in the first cycle after them that has no result in flight, and the replay counts from that cycle
(DESIGN CHOICE, log 92). -/
def State.runCycle (s : State) : State :=
  let c := s.core
  if c.frozen || decide (s.cycle < c.gate) then s
  else if c.eretDrain && (c.lockstepCount != 0 || c.stall != 0) then s.drainCycle
  else
    let s := if c.eretDrain then (s.setCore c.resume).trapDelivery else s
    let c := s.core
    if decide (s.cycle < c.gate) then s
    else if 0 < c.stall then
      (if s.issueFrozen then s else s.setCore ({ c with stall := c.stall - 1 } : Core).countDown)
    else if c.haltReq && !c.haltNew && !c.underPB then s.setCore c.saveStop
    else s.issueDue

/-- BUNDLE_ISSUE on the current core (R413): a running strand issues or waits; an ended one lets its results land (R123); an
idle core wakes when something is pending (R398); a member in `sync` that must halt is halted there (R265). After `halt` no cycle
counts a result down: those in flight keep their counts (R126 does not say; DESIGN CHOICE, log 93). -/
def State.bundleCycle (s : State) : State :=
  let c := s.core
  match c.strand with
  | .running => s.runCycle
  | .ended _ => if c.frozen || s.issueFrozen then s else s.setCore c.countDown
  | .coreIdle => if s.pendingForCore then (s.setCore { c with strand := .running }).runCycle else s
  | _ => s

/-- A bundle of one slot under a zero header, due on the current core. -/
def State.issueOne (s : State) (m : SlotSem) : State := s.issueSlots Header.zero [m]

/-- A cycle of core `t`'s strand, and of its bank units with the words that the cycle asks for (R210, R413). -/
def State.coreCycle (s : State) (t : CoreId) : State :=
  let u := (s.at t).bundleCycle
  u.setCore (u.core.bankTurn (s.coreAt t).spad)

/-- BUNDLE_ISSUE (R413). -/
def execBundleIssue (t : Nat) (s : State) : Host.Outcome State Fault Refusal := .next (s.coreCycle t)

/-- The slot cause that the bundle due on the current core raises in this cycle, if it raises one. -/
def State.dueCause (s : State) : Option Cause :=
  let c := s.core
  if c.strand != .running || c.frozen || decide (s.cycle < c.gate) || c.eretDrain || c.stall != 0 ||
      c.bundleCause.isSome then none
  else
    match c.fetch with
    | .inr _ => none
    | .inl w =>
      let b := splitBundle w
      let ms := bundleSems b
      match s.waitOut (headerOf b.h) ms with
      | some _ => none
      | none => firstSlotCause s ms

/-- STREAM_REGISTER_WATCHDOG (R143): the bundle due whose `vsin` or `vsout` has waited out traps with 0x11. -/
def execStreamRegisterWatchdog (t : Nat) (s : State) : Host.Outcome State Fault Refusal :=
  .next (match (s.at t).dueCause with
    | some k => if k.code = 0x11 then (s.at t).trapPrecise k else s
    | none => s)

/-- ARRIVAL_WAIT_WATCHDOG (R160): the bundle due whose `waita` has waited out traps with 0x12. -/
def execArrivalWaitWatchdog (t : Nat) (s : State) : Host.Outcome State Fault Refusal :=
  .next (match (s.at t).dueCause with
    | some k => if k.code = 0x12 then (s.at t).trapPrecise k else s
    | none => s)

/-! ### The slot instructions as steps

Executing a slot instruction is issuing the bundle that holds it alone under a zero header. -/

/-- `add` alone in its bundle (R105, R413). -/
def execAdd (f : RForm) (s : State) : Host.Outcome State Fault Refusal := .next (s.issueOne (semAdd f))

/-- `sub` alone in its bundle (R105, R413). -/
def execSub (f : RForm) (s : State) : Host.Outcome State Fault Refusal := .next (s.issueOne (semSub f))

/-- `mul` alone in its bundle (R105, R413). -/
def execMul (f : RForm) (s : State) : Host.Outcome State Fault Refusal := .next (s.issueOne (semMul f))

/-- `mulh` alone in its bundle (R105, R413). -/
def execMulh (f : RForm) (s : State) : Host.Outcome State Fault Refusal := .next (s.issueOne (semMulh f))

/-- `mulhn` alone in its bundle (R105, R413). -/
def execMulhn (f : RForm) (s : State) : Host.Outcome State Fault Refusal := .next (s.issueOne (semMulhn f))

/-- `div` alone in its bundle (R105, R413). -/
def execDiv (f : RForm) (s : State) : Host.Outcome State Fault Refusal := .next (s.issueOne (semDiv f))

/-- `divn` alone in its bundle (R105, R413). -/
def execDivn (f : RForm) (s : State) : Host.Outcome State Fault Refusal := .next (s.issueOne (semDivn f))

/-- `rem` alone in its bundle (R105, R413). -/
def execRem (f : RForm) (s : State) : Host.Outcome State Fault Refusal := .next (s.issueOne (semRem f))

/-- `remn` alone in its bundle (R105, R413). -/
def execRemn (f : RForm) (s : State) : Host.Outcome State Fault Refusal := .next (s.issueOne (semRemn f))

/-- `and` alone in its bundle (R105, R413). -/
def execAnd (f : RForm) (s : State) : Host.Outcome State Fault Refusal := .next (s.issueOne (semAnd f))

/-- `or` alone in its bundle (R105, R413). -/
def execOr (f : RForm) (s : State) : Host.Outcome State Fault Refusal := .next (s.issueOne (semOr f))

/-- `xor` alone in its bundle (R105, R413). -/
def execXor (f : RForm) (s : State) : Host.Outcome State Fault Refusal := .next (s.issueOne (semXor f))

/-- `andn` alone in its bundle (R105, R413). -/
def execAndn (f : RForm) (s : State) : Host.Outcome State Fault Refusal := .next (s.issueOne (semAndn f))

/-- `shl` alone in its bundle (R105, R413). -/
def execShl (f : RForm) (s : State) : Host.Outcome State Fault Refusal := .next (s.issueOne (semShl f))

/-- `shr` alone in its bundle (R105, R413). -/
def execShr (f : RForm) (s : State) : Host.Outcome State Fault Refusal := .next (s.issueOne (semShr f))

/-- `sra` alone in its bundle (R105, R413). -/
def execSra (f : RForm) (s : State) : Host.Outcome State Fault Refusal := .next (s.issueOne (semSra f))

/-- `rol` alone in its bundle (R105, R413). -/
def execRol (f : RForm) (s : State) : Host.Outcome State Fault Refusal := .next (s.issueOne (semRol f))

/-- `min` alone in its bundle (R105, R413). -/
def execMin (f : RForm) (s : State) : Host.Outcome State Fault Refusal := .next (s.issueOne (semMin f))

/-- `max` alone in its bundle (R105, R413). -/
def execMax (f : RForm) (s : State) : Host.Outcome State Fault Refusal := .next (s.issueOne (semMax f))

/-- `minn` alone in its bundle (R105, R413). -/
def execMinn (f : RForm) (s : State) : Host.Outcome State Fault Refusal := .next (s.issueOne (semMinn f))

/-- `maxn` alone in its bundle (R105, R413). -/
def execMaxn (f : RForm) (s : State) : Host.Outcome State Fault Refusal := .next (s.issueOne (semMaxn f))

/-- `clz` alone in its bundle (R105, R413). -/
def execClz (f : RForm) (s : State) : Host.Outcome State Fault Refusal := .next (s.issueOne (semClz f))

/-- `ctz` alone in its bundle (R105, R413). -/
def execCtz (f : RForm) (s : State) : Host.Outcome State Fault Refusal := .next (s.issueOne (semCtz f))

/-- `popc` alone in its bundle (R105, R413). -/
def execPopc (f : RForm) (s : State) : Host.Outcome State Fault Refusal := .next (s.issueOne (semPopc f))

/-- `bswap` alone in its bundle (R105, R413). -/
def execBswap (f : RForm) (s : State) : Host.Outcome State Fault Refusal := .next (s.issueOne (semBswap f))

/-- `exts` alone in its bundle (R105, R413). -/
def execExts (f : RForm) (s : State) : Host.Outcome State Fault Refusal := .next (s.issueOne (semExts f))

/-- `extz` alone in its bundle (R105, R413). -/
def execExtz (f : RForm) (s : State) : Host.Outcome State Fault Refusal := .next (s.issueOne (semExtz f))

/-- `ins` alone in its bundle (R105, R413). -/
def execIns (f : RForm) (s : State) : Host.Outcome State Fault Refusal := .next (s.issueOne (semIns f))

/-- `sel` alone in its bundle (R105, R413). -/
def execSel (f : RForm) (s : State) : Host.Outcome State Fault Refusal := .next (s.issueOne (semSel f))

/-- `lea` alone in its bundle (R105, R413). -/
def execLea (f : RForm) (s : State) : Host.Outcome State Fault Refusal := .next (s.issueOne (semLea f))

/-- `addi` alone in its bundle (R107, R413). -/
def execAddi (f : IForm) (s : State) : Host.Outcome State Fault Refusal := .next (s.issueOne (semAddi f))

/-- `andi` alone in its bundle (R107, R413). -/
def execAndi (f : IForm) (s : State) : Host.Outcome State Fault Refusal := .next (s.issueOne (semAndi f))

/-- `ori` alone in its bundle (R107, R413). -/
def execOri (f : IForm) (s : State) : Host.Outcome State Fault Refusal := .next (s.issueOne (semOri f))

/-- `xori` alone in its bundle (R107, R413). -/
def execXori (f : IForm) (s : State) : Host.Outcome State Fault Refusal := .next (s.issueOne (semXori f))

/-- `shli` alone in its bundle (R107, R413). -/
def execShli (f : IForm) (s : State) : Host.Outcome State Fault Refusal := .next (s.issueOne (semShli f))

/-- `shri` alone in its bundle (R107, R413). -/
def execShri (f : IForm) (s : State) : Host.Outcome State Fault Refusal := .next (s.issueOne (semShri f))

/-- `srai` alone in its bundle (R107, R413). -/
def execSrai (f : IForm) (s : State) : Host.Outcome State Fault Refusal := .next (s.issueOne (semSrai f))

/-- `muli` alone in its bundle (R107, R413). -/
def execMuli (f : IForm) (s : State) : Host.Outcome State Fault Refusal := .next (s.issueOne (semMuli f))

/-- `mini` alone in its bundle (R107, R413). -/
def execMini (f : IForm) (s : State) : Host.Outcome State Fault Refusal := .next (s.issueOne (semMini f))

/-- `maxi` alone in its bundle (R107, R413). -/
def execMaxi (f : IForm) (s : State) : Host.Outcome State Fault Refusal := .next (s.issueOne (semMaxi f))

/-- `movi` alone in its bundle (R108, R413). -/
def execMovi (f : LForm) (s : State) : Host.Outcome State Fault Refusal := .next (s.issueOne (semMovi f))

/-- `moviz` alone in its bundle (R108, R413). -/
def execMoviz (f : LForm) (s : State) : Host.Outcome State Fault Refusal := .next (s.issueOne (semMoviz f))

/-- `movm` alone in its bundle (R108, R413). -/
def execMovm (f : LForm) (s : State) : Host.Outcome State Fault Refusal := .next (s.issueOne (semMovm f))

/-- `movt` alone in its bundle (R108, R413). -/
def execMovt (f : LForm) (s : State) : Host.Outcome State Fault Refusal := .next (s.issueOne (semMovt f))

/-- `addpc` alone in its bundle (R108, R413). -/
def execAddpc (f : LForm) (s : State) : Host.Outcome State Fault Refusal := .next (s.issueOne (semAddpc f))

/-- `cmp` alone in its bundle (R109, R413). -/
def execCmp (f : RForm) (s : State) : Host.Outcome State Fault Refusal := .next (s.issueOne (semCmp f))

/-- `cmpi` alone in its bundle (R109, R413). -/
def execCmpi (f : IForm) (s : State) : Host.Outcome State Fault Refusal := .next (s.issueOne (semCmpi f))

/-- `pand` alone in its bundle (R109, R413). -/
def execPand (f : RForm) (s : State) : Host.Outcome State Fault Refusal := .next (s.issueOne (semPand f))

/-- `por` alone in its bundle (R109, R413). -/
def execPor (f : RForm) (s : State) : Host.Outcome State Fault Refusal := .next (s.issueOne (semPor f))

/-- `pxor` alone in its bundle (R109, R413). -/
def execPxor (f : RForm) (s : State) : Host.Outcome State Fault Refusal := .next (s.issueOne (semPxor f))

/-- `pmov` alone in its bundle (R109, R413). -/
def execPmov (f : RForm) (s : State) : Host.Outcome State Fault Refusal := .next (s.issueOne (semPmov f))

/-- `ptos` alone in its bundle (R109, R413). -/
def execPtos (f : RForm) (s : State) : Host.Outcome State Fault Refusal := .next (s.issueOne (semPtos f))

/-- `pset` alone in its bundle (R109, R413). -/
def execPset (f : IForm) (s : State) : Host.Outcome State Fault Refusal := .next (s.issueOne (semPset f))

/-- `ptst` alone in its bundle (R109, R413). -/
def execPtst (f : IForm) (s : State) : Host.Outcome State Fault Refusal := .next (s.issueOne (semPtst f))

/-- `fadd` alone in its bundle (R111, R413). -/
def execFadd (f : RForm) (s : State) : Host.Outcome State Fault Refusal := .next (s.issueOne (semFadd f))

/-- `fsub` alone in its bundle (R111, R413). -/
def execFsub (f : RForm) (s : State) : Host.Outcome State Fault Refusal := .next (s.issueOne (semFsub f))

/-- `fmul` alone in its bundle (R111, R413). -/
def execFmul (f : RForm) (s : State) : Host.Outcome State Fault Refusal := .next (s.issueOne (semFmul f))

/-- `ffma` alone in its bundle (R111, R413). -/
def execFfma (f : RForm) (s : State) : Host.Outcome State Fault Refusal := .next (s.issueOne (semFfma f))

/-- `fmin` alone in its bundle (R111, R413). -/
def execFmin (f : RForm) (s : State) : Host.Outcome State Fault Refusal := .next (s.issueOne (semFmin f))

/-- `fmax` alone in its bundle (R111, R413). -/
def execFmax (f : RForm) (s : State) : Host.Outcome State Fault Refusal := .next (s.issueOne (semFmax f))

/-- `fdiv` alone in its bundle (R111, R413). -/
def execFdiv (f : RForm) (s : State) : Host.Outcome State Fault Refusal := .next (s.issueOne (semFdiv f))

/-- `fsqrt` alone in its bundle (R111, R413). -/
def execFsqrt (f : RForm) (s : State) : Host.Outcome State Fault Refusal := .next (s.issueOne (semFsqrt f))

/-- `fcmp` alone in its bundle (R111, R413). -/
def execFcmp (f : RForm) (s : State) : Host.Outcome State Fault Refusal := .next (s.issueOne (semFcmp f))

/-- `fclass` alone in its bundle (R111, R413). -/
def execFclass (f : RForm) (s : State) : Host.Outcome State Fault Refusal := .next (s.issueOne (semFclass f))

/-- `fsgn` alone in its bundle (R111, R413). -/
def execFsgn (f : RForm) (s : State) : Host.Outcome State Fault Refusal := .next (s.issueOne (semFsgn f))

/-- `fcvt` alone in its bundle (R112, R413). -/
def execFcvt (f : RForm) (s : State) : Host.Outcome State Fault Refusal := .next (s.issueOne (semFcvt f))

/-- `fcvti` alone in its bundle (R112, R413). -/
def execFcvti (f : RForm) (s : State) : Host.Outcome State Fault Refusal := .next (s.issueOne (semFcvti f))

/-- `icvtf` alone in its bundle (R112, R413). -/
def execIcvtf (f : RForm) (s : State) : Host.Outcome State Fault Refusal := .next (s.issueOne (semIcvtf f))

/-- `prep` alone in its bundle (R113, R413). -/
def execPrep (f : RForm) (s : State) : Host.Outcome State Fault Refusal := .next (s.issueOne (semPrep f))

/-- `prepr` alone in its bundle (R113, R413). -/
def execPrepr (f : LForm) (s : State) : Host.Outcome State Fault Refusal := .next (s.issueOne (semPrepr f))

/-- `get` alone in its bundle (R114, R413). -/
def execGet (f : IForm) (s : State) : Host.Outcome State Fault Refusal := .next (s.issueOne (semGet f))

/-- `set` alone in its bundle (R114, R413). -/
def execSet (f : IForm) (s : State) : Host.Outcome State Fault Refusal := .next (s.issueOne (semSet f))

/-- `gets` alone in its bundle (R114, R413). -/
def execGets (f : IForm) (s : State) : Host.Outcome State Fault Refusal := .next (s.issueOne (semGets f))

/-- `sets` alone in its bundle (R114, R413). -/
def execSets (f : IForm) (s : State) : Host.Outcome State Fault Refusal := .next (s.issueOne (semSets f))

/-- `setfmt` alone in its bundle (R115, R413). -/
def execSetfmt (f : IForm) (s : State) : Host.Outcome State Fault Refusal := .next (s.issueOne (semSetfmt f))

/-- `getfmt` alone in its bundle (R115, R413). -/
def execGetfmt (f : IForm) (s : State) : Host.Outcome State Fault Refusal := .next (s.issueOne (semGetfmt f))

/-- `stg` alone in its bundle (R116, R413). -/
def execStg (f : IForm) (s : State) : Host.Outcome State Fault Refusal := .next (s.issueOne (semStg f))

/-- `gtg` alone in its bundle (R116, R413). -/
def execGtg (f : IForm) (s : State) : Host.Outcome State Fault Refusal := .next (s.issueOne (semGtg f))

/-- `lcset` alone in its bundle (R117, R413). -/
def execLcset (f : IForm) (s : State) : Host.Outcome State Fault Refusal := .next (s.issueOne (semLcset f))

/-- `lcget` alone in its bundle (R117, R413). -/
def execLcget (f : IForm) (s : State) : Host.Outcome State Fault Refusal := .next (s.issueOne (semLcget f))

/-- `rasrd` alone in its bundle (R117, R413). -/
def execRasrd (f : IForm) (s : State) : Host.Outcome State Fault Refusal := .next (s.issueOne (semRasrd f))

/-- `raswr` alone in its bundle (R117, R413). -/
def execRaswr (f : IForm) (s : State) : Host.Outcome State Fault Refusal := .next (s.issueOne (semRaswr f))

/-- `br` alone in its bundle (R120, R413). -/
def execBr (f : BrForm) (s : State) : Host.Outcome State Fault Refusal := .next (s.issueOne (semBr f))

/-- `call` alone in its bundle (R120, R413). -/
def execCall (f : BrForm) (s : State) : Host.Outcome State Fault Refusal := .next (s.issueOne (semCall f))

/-- `ret` alone in its bundle (R120, R413). -/
def execRet (f : BareForm) (s : State) : Host.Outcome State Fault Refusal := .next (s.issueOne (semRet f))

/-- `loop` alone in its bundle (R120, R413). -/
def execLoop (f : LoopForm) (s : State) : Host.Outcome State Fault Refusal := .next (s.issueOne (semLoop f))

/-- `wait` alone in its bundle (R121, R413). -/
def execWait (f : WaitForm) (s : State) : Host.Outcome State Fault Refusal := .next (s.issueOne (semWait f))

/-- `sync` alone in its bundle (R122, R413). -/
def execSync (f : SyncForm) (s : State) : Host.Outcome State Fault Refusal := .next (s.issueOne (semSync f))

/-- `done` alone in its bundle (R123, R413). -/
def execDone (f : BareForm) (s : State) : Host.Outcome State Fault Refusal := .next (s.issueOne (semDone f))

/-- `swap` alone in its bundle (R123, R413). -/
def execSwap (f : BareForm) (s : State) : Host.Outcome State Fault Refusal := .next (s.issueOne (semSwap f))

/-- `trap` alone in its bundle (R124, R413). -/
def execTrap (f : TrapForm) (s : State) : Host.Outcome State Fault Refusal := .next (s.issueOne (semTrap f))

/-- `brk` alone in its bundle (R124, R413). -/
def execBrk (f : TrapForm) (s : State) : Host.Outcome State Fault Refusal := .next (s.issueOne (semBrk f))

/-- `eret` alone in its bundle (R125, R413). -/
def execEret (f : BareForm) (s : State) : Host.Outcome State Fault Refusal := .next (s.issueOne (semEret f))

/-- `idle` alone in its bundle (R126, R413). -/
def execIdle (f : BareForm) (s : State) : Host.Outcome State Fault Refusal := .next (s.issueOne (semIdle f))

/-- `halt` alone in its bundle (R126, R413). -/
def execHalt (f : BareForm) (s : State) : Host.Outcome State Fault Refusal := .next (s.issueOne (semHalt f))

/-- `qfence` alone in its bundle (R127, R413). -/
def execQfence (f : QfenceForm) (s : State) : Host.Outcome State Fault Refusal := .next (s.issueOne (semQfence f))

/-- `vadd` alone in its bundle (R131, R413). -/
def execVadd (f : VForm) (s : State) : Host.Outcome State Fault Refusal := .next (s.issueOne (semVadd f))

/-- `vsub` alone in its bundle (R131, R413). -/
def execVsub (f : VForm) (s : State) : Host.Outcome State Fault Refusal := .next (s.issueOne (semVsub f))

/-- `vmul` alone in its bundle (R131, R413). -/
def execVmul (f : VForm) (s : State) : Host.Outcome State Fault Refusal := .next (s.issueOne (semVmul f))

/-- `vmulh` alone in its bundle (R131, R413). -/
def execVmulh (f : VForm) (s : State) : Host.Outcome State Fault Refusal := .next (s.issueOne (semVmulh f))

/-- `vmulhn` alone in its bundle (R131, R413). -/
def execVmulhn (f : VForm) (s : State) : Host.Outcome State Fault Refusal := .next (s.issueOne (semVmulhn f))

/-- `vmin` alone in its bundle (R131, R413). -/
def execVmin (f : VForm) (s : State) : Host.Outcome State Fault Refusal := .next (s.issueOne (semVmin f))

/-- `vmax` alone in its bundle (R131, R413). -/
def execVmax (f : VForm) (s : State) : Host.Outcome State Fault Refusal := .next (s.issueOne (semVmax f))

/-- `vminn` alone in its bundle (R131, R413). -/
def execVminn (f : VForm) (s : State) : Host.Outcome State Fault Refusal := .next (s.issueOne (semVminn f))

/-- `vmaxn` alone in its bundle (R131, R413). -/
def execVmaxn (f : VForm) (s : State) : Host.Outcome State Fault Refusal := .next (s.issueOne (semVmaxn f))

/-- `vand` alone in its bundle (R131, R413). -/
def execVand (f : VForm) (s : State) : Host.Outcome State Fault Refusal := .next (s.issueOne (semVand f))

/-- `vor` alone in its bundle (R131, R413). -/
def execVor (f : VForm) (s : State) : Host.Outcome State Fault Refusal := .next (s.issueOne (semVor f))

/-- `vxor` alone in its bundle (R131, R413). -/
def execVxor (f : VForm) (s : State) : Host.Outcome State Fault Refusal := .next (s.issueOne (semVxor f))

/-- `vandn` alone in its bundle (R131, R413). -/
def execVandn (f : VForm) (s : State) : Host.Outcome State Fault Refusal := .next (s.issueOne (semVandn f))

/-- `vshl` alone in its bundle (R131, R413). -/
def execVshl (f : VForm) (s : State) : Host.Outcome State Fault Refusal := .next (s.issueOne (semVshl f))

/-- `vshr` alone in its bundle (R131, R413). -/
def execVshr (f : VForm) (s : State) : Host.Outcome State Fault Refusal := .next (s.issueOne (semVshr f))

/-- `vsra` alone in its bundle (R131, R413). -/
def execVsra (f : VForm) (s : State) : Host.Outcome State Fault Refusal := .next (s.issueOne (semVsra f))

/-- `vabs` alone in its bundle (R131, R413). -/
def execVabs (f : VForm) (s : State) : Host.Outcome State Fault Refusal := .next (s.issueOne (semVabs f))

/-- `vneg` alone in its bundle (R131, R413). -/
def execVneg (f : VForm) (s : State) : Host.Outcome State Fault Refusal := .next (s.issueOne (semVneg f))

/-- `vclz` alone in its bundle (R131, R413). -/
def execVclz (f : VForm) (s : State) : Host.Outcome State Fault Refusal := .next (s.issueOne (semVclz f))

/-- `vpopc` alone in its bundle (R131, R413). -/
def execVpopc (f : VForm) (s : State) : Host.Outcome State Fault Refusal := .next (s.issueOne (semVpopc f))

/-- `vadds` alone in its bundle (R131, R413). -/
def execVadds (f : VForm) (s : State) : Host.Outcome State Fault Refusal := .next (s.issueOne (semVadds f))

/-- `vaddsn` alone in its bundle (R131, R413). -/
def execVaddsn (f : VForm) (s : State) : Host.Outcome State Fault Refusal := .next (s.issueOne (semVaddsn f))

/-- `vsubs` alone in its bundle (R131, R413). -/
def execVsubs (f : VForm) (s : State) : Host.Outcome State Fault Refusal := .next (s.issueOne (semVsubs f))

/-- `vsubsn` alone in its bundle (R131, R413). -/
def execVsubsn (f : VForm) (s : State) : Host.Outcome State Fault Refusal := .next (s.issueOne (semVsubsn f))

/-- `vsel` alone in its bundle (R132, R413). -/
def execVsel (f : VForm) (s : State) : Host.Outcome State Fault Refusal := .next (s.issueOne (semVsel f))

/-- `vcmp` alone in its bundle (R132, R413). -/
def execVcmp (f : VForm) (s : State) : Host.Outcome State Fault Refusal := .next (s.issueOne (semVcmp f))

/-- `vfadd` alone in its bundle (R133, R413). -/
def execVfadd (f : VForm) (s : State) : Host.Outcome State Fault Refusal := .next (s.issueOne (semVfadd f))

/-- `vfsub` alone in its bundle (R133, R413). -/
def execVfsub (f : VForm) (s : State) : Host.Outcome State Fault Refusal := .next (s.issueOne (semVfsub f))

/-- `vfmul` alone in its bundle (R133, R413). -/
def execVfmul (f : VForm) (s : State) : Host.Outcome State Fault Refusal := .next (s.issueOne (semVfmul f))

/-- `vfma` alone in its bundle (R133, R413). -/
def execVfma (f : VForm) (s : State) : Host.Outcome State Fault Refusal := .next (s.issueOne (semVfma f))

/-- `vfmin` alone in its bundle (R133, R413). -/
def execVfmin (f : VForm) (s : State) : Host.Outcome State Fault Refusal := .next (s.issueOne (semVfmin f))

/-- `vfmax` alone in its bundle (R133, R413). -/
def execVfmax (f : VForm) (s : State) : Host.Outcome State Fault Refusal := .next (s.issueOne (semVfmax f))

/-- `vfdiv` alone in its bundle (R133, R413). -/
def execVfdiv (f : VForm) (s : State) : Host.Outcome State Fault Refusal := .next (s.issueOne (semVfdiv f))

/-- `vfsqrt` alone in its bundle (R133, R413). -/
def execVfsqrt (f : VForm) (s : State) : Host.Outcome State Fault Refusal := .next (s.issueOne (semVfsqrt f))

/-- `vfexp2` alone in its bundle (R133, R413). -/
def execVfexp2 (f : VForm) (s : State) : Host.Outcome State Fault Refusal := .next (s.issueOne (semVfexp2 f))

/-- `vflog2` alone in its bundle (R133, R413). -/
def execVflog2 (f : VForm) (s : State) : Host.Outcome State Fault Refusal := .next (s.issueOne (semVflog2 f))

/-- `vfrcp` alone in its bundle (R133, R413). -/
def execVfrcp (f : VForm) (s : State) : Host.Outcome State Fault Refusal := .next (s.issueOne (semVfrcp f))

/-- `vfrsq` alone in its bundle (R133, R413). -/
def execVfrsq (f : VForm) (s : State) : Host.Outcome State Fault Refusal := .next (s.issueOne (semVfrsq f))

/-- `vfabs` alone in its bundle (R134, R413). -/
def execVfabs (f : VForm) (s : State) : Host.Outcome State Fault Refusal := .next (s.issueOne (semVfabs f))

/-- `vfneg` alone in its bundle (R134, R413). -/
def execVfneg (f : VForm) (s : State) : Host.Outcome State Fault Refusal := .next (s.issueOne (semVfneg f))

/-- `vfcmp` alone in its bundle (R134, R413). -/
def execVfcmp (f : VForm) (s : State) : Host.Outcome State Fault Refusal := .next (s.issueOne (semVfcmp f))

/-- `vfclass` alone in its bundle (R134, R413). -/
def execVfclass (f : VForm) (s : State) : Host.Outcome State Fault Refusal := .next (s.issueOne (semVfclass f))

/-- `vcvt` alone in its bundle (R136, R413). -/
def execVcvt (f : VForm) (s : State) : Host.Outcome State Fault Refusal := .next (s.issueOne (semVcvt f))

/-- `vqnt` alone in its bundle (R136, R413). -/
def execVqnt (f : VForm) (s : State) : Host.Outcome State Fault Refusal := .next (s.issueOne (semVqnt f))

/-- `vdqnt` alone in its bundle (R136, R413). -/
def execVdqnt (f : VForm) (s : State) : Host.Outcome State Fault Refusal := .next (s.issueOne (semVdqnt f))

/-- `vfredadd` alone in its bundle (R137, R413). -/
def execVfredadd (f : VForm) (s : State) : Host.Outcome State Fault Refusal := .next (s.issueOne (semVfredadd f))

/-- `vfredmax` alone in its bundle (R137, R413). -/
def execVfredmax (f : VForm) (s : State) : Host.Outcome State Fault Refusal := .next (s.issueOne (semVfredmax f))

/-- `vredadd` alone in its bundle (R137, R413). -/
def execVredadd (f : VForm) (s : State) : Host.Outcome State Fault Refusal := .next (s.issueOne (semVredadd f))

/-- `vredmax` alone in its bundle (R137, R413). -/
def execVredmax (f : VForm) (s : State) : Host.Outcome State Fault Refusal := .next (s.issueOne (semVredmax f))

/-- `vmov` alone in its bundle (R138, R413). -/
def execVmov (f : VForm) (s : State) : Host.Outcome State Fault Refusal := .next (s.issueOne (semVmov f))

/-- `vsplat` alone in its bundle (R138, R413). -/
def execVsplat (f : VForm) (s : State) : Host.Outcome State Fault Refusal := .next (s.issueOne (semVsplat f))

/-- `vsplati` alone in its bundle (R138, R413). -/
def execVsplati (f : VForm) (s : State) : Host.Outcome State Fault Refusal := .next (s.issueOne (semVsplati f))

/-- `vextr` alone in its bundle (R138, R413). -/
def execVextr (f : VForm) (s : State) : Host.Outcome State Fault Refusal := .next (s.issueOne (semVextr f))

/-- `vinsr` alone in its bundle (R138, R413). -/
def execVinsr (f : VForm) (s : State) : Host.Outcome State Fault Refusal := .next (s.issueOne (semVinsr f))

/-- `vperm` alone in its bundle (R138, R413). -/
def execVperm (f : VForm) (s : State) : Host.Outcome State Fault Refusal := .next (s.issueOne (semVperm f))

/-- `vperm2` alone in its bundle (R138, R413). -/
def execVperm2 (f : VForm) (s : State) : Host.Outcome State Fault Refusal := .next (s.issueOne (semVperm2 f))

/-- `vshuf` alone in its bundle (R138, R413). -/
def execVshuf (f : VForm) (s : State) : Host.Outcome State Fault Refusal := .next (s.issueOne (semVshuf f))

/-- `vslide` alone in its bundle (R138, R413). -/
def execVslide (f : VForm) (s : State) : Host.Outcome State Fault Refusal := .next (s.issueOne (semVslide f))

/-- `viota` alone in its bundle (R138, R413). -/
def execViota (f : VForm) (s : State) : Host.Outcome State Fault Refusal := .next (s.issueOne (semViota f))

/-- `vacc` alone in its bundle (R140, R413). -/
def execVacc (f : VForm) (s : State) : Host.Outcome State Fault Refusal := .next (s.issueOne (semVacc f))

/-- `vaccw` alone in its bundle (R141, R413). -/
def execVaccw (f : VForm) (s : State) : Host.Outcome State Fault Refusal := .next (s.issueOne (semVaccw f))

/-- `vsin` alone in its bundle (R142, R413). -/
def execVsin (f : VForm) (s : State) : Host.Outcome State Fault Refusal := .next (s.issueOne (semVsin f))

/-- `vsout` alone in its bundle (R142, R413). -/
def execVsout (f : VForm) (s : State) : Host.Outcome State Fault Refusal := .next (s.issueOne (semVsout f))

/-- `mand` alone in its bundle (R144, R413). -/
def execMand (f : VForm) (s : State) : Host.Outcome State Fault Refusal := .next (s.issueOne (semMand f))

/-- `mor` alone in its bundle (R144, R413). -/
def execMor (f : VForm) (s : State) : Host.Outcome State Fault Refusal := .next (s.issueOne (semMor f))

/-- `mxor` alone in its bundle (R144, R413). -/
def execMxor (f : VForm) (s : State) : Host.Outcome State Fault Refusal := .next (s.issueOne (semMxor f))

/-- `mnot` alone in its bundle (R144, R413). -/
def execMnot (f : VForm) (s : State) : Host.Outcome State Fault Refusal := .next (s.issueOne (semMnot f))

/-- `mset` alone in its bundle (R144, R413). -/
def execMset (f : VForm) (s : State) : Host.Outcome State Fault Refusal := .next (s.issueOne (semMset f))

/-- `mget` alone in its bundle (R144, R413). -/
def execMget (f : VForm) (s : State) : Host.Outcome State Fault Refusal := .next (s.issueOne (semMget f))

/-- `vany` alone in its bundle (R145, R413). -/
def execVany (f : VForm) (s : State) : Host.Outcome State Fault Refusal := .next (s.issueOne (semVany f))

/-- `vall` alone in its bundle (R145, R413). -/
def execVall (f : VForm) (s : State) : Host.Outcome State Fault Refusal := .next (s.issueOne (semVall f))

/-- `mpopc` alone in its bundle (R145, R413). -/
def execMpopc (f : VForm) (s : State) : Host.Outcome State Fault Refusal := .next (s.issueOne (semMpopc f))

/-- `zld` alone in its bundle (R147, R413). -/
def execZld (f : ZForm) (s : State) : Host.Outcome State Fault Refusal := .next (s.issueOne (semZld f))

/-- `zldh` alone in its bundle (R147, R413). -/
def execZldh (f : ZForm) (s : State) : Host.Outcome State Fault Refusal := .next (s.issueOne (semZldh f))

/-- `zldb` alone in its bundle (R147, R413). -/
def execZldb (f : ZForm) (s : State) : Host.Outcome State Fault Refusal := .next (s.issueOne (semZldb f))

/-- `kld` alone in its bundle (R147, R413). -/
def execKld (f : ZForm) (s : State) : Host.Outcome State Fault Refusal := .next (s.issueOne (semKld f))

/-- `zfromv` alone in its bundle (R147, R413). -/
def execZfromv (f : ZForm) (s : State) : Host.Outcome State Fault Refusal := .next (s.issueOne (semZfromv f))

/-- `lds` alone in its bundle (R153, R413). -/
def execLds (f : LsForm) (s : State) : Host.Outcome State Fault Refusal := .next (s.issueOne (semLds f))

/-- `sts` alone in its bundle (R153, R413). -/
def execSts (f : LsForm) (s : State) : Host.Outcome State Fault Refusal := .next (s.issueOne (semSts f))

/-- `ldv` alone in its bundle (R154, R413). -/
def execLdv (f : LvForm) (s : State) : Host.Outcome State Fault Refusal := .next (s.issueOne (semLdv f))

/-- `stv` alone in its bundle (R154, R413). -/
def execStv (f : LvForm) (s : State) : Host.Outcome State Fault Refusal := .next (s.issueOne (semStv f))

/-- `ldvs` alone in its bundle (R155, R413). -/
def execLdvs (f : LvsForm) (s : State) : Host.Outcome State Fault Refusal := .next (s.issueOne (semLdvs f))

/-- `stvs` alone in its bundle (R155, R413). -/
def execStvs (f : LvsForm) (s : State) : Host.Outcome State Fault Refusal := .next (s.issueOne (semStvs f))

/-- `ldvg` alone in its bundle (R156, R413). -/
def execLdvg (f : LvgForm) (s : State) : Host.Outcome State Fault Refusal := .next (s.issueOne (semLdvg f))

/-- `stvg` alone in its bundle (R156, R413). -/
def execStvg (f : LvgForm) (s : State) : Host.Outcome State Fault Refusal := .next (s.issueOne (semStvg f))

/-- `stvm` alone in its bundle (R157, R413). -/
def execStvm (f : StvmForm) (s : State) : Host.Outcome State Fault Refusal := .next (s.issueOne (semStvm f))

/-- `setaw` alone in its bundle (R159, R413). -/
def execSetaw (f : AwForm) (s : State) : Host.Outcome State Fault Refusal := .next (s.issueOne (semSetaw f))

/-- `waita` alone in its bundle (R160, R413). -/
def execWaita (f : AwForm) (s : State) : Host.Outcome State Fault Refusal := .next (s.issueOne (semWaita f))

/-- `spl` alone in its bundle (R161, R413). -/
def execSpl (f : SpForm) (s : State) : Host.Outcome State Fault Refusal := .next (s.issueOne (semSpl f))

/-- `fil` alone in its bundle (R161, R413). -/
def execFil (f : SpForm) (s : State) : Host.Outcome State Fault Refusal := .next (s.issueOne (semFil f))

/-- `splv` alone in its bundle (R161, R413). -/
def execSplv (f : SpvForm) (s : State) : Host.Outcome State Fault Refusal := .next (s.issueOne (semSplv f))

/-- `filv` alone in its bundle (R161, R413). -/
def execFilv (f : SpvForm) (s : State) : Host.Outcome State Fault Refusal := .next (s.issueOne (semFilv f))

/-- `xlate` alone in its bundle (R163, R413). -/
def execXlate (f : XlateForm) (s : State) : Host.Outcome State Fault Refusal := .next (s.issueOne (semXlate f))

/-- `hinv` alone in its bundle (R163, R413). -/
def execHinv (f : HinvForm) (s : State) : Host.Outcome State Fault Refusal := .next (s.issueOne (semHinv f))

/-- `hget` alone in its bundle (R163, R413). -/
def execHget (f : HgetForm) (s : State) : Host.Outcome State Fault Refusal := .next (s.issueOne (semHget f))

/-- `ldh` alone in its bundle (R165, R413). -/
def execLdh (f : LdhForm) (s : State) : Host.Outcome State Fault Refusal := .next (s.issueOne (semLdh f))

/-- `sth` alone in its bundle (R165, R413). -/
def execSth (f : LdhForm) (s : State) : Host.Outcome State Fault Refusal := .next (s.issueOne (semSth f))

/-- `ldvh` alone in its bundle (R165, R413). -/
def execLdvh (f : LdvhForm) (s : State) : Host.Outcome State Fault Refusal := .next (s.issueOne (semLdvh f))

/-- `stvh` alone in its bundle (R165, R413). -/
def execStvh (f : LdvhForm) (s : State) : Host.Outcome State Fault Refusal := .next (s.issueOne (semStvh f))

/-- `aadd` alone in its bundle (R170, R413). -/
def execAadd (f : AtForm) (s : State) : Host.Outcome State Fault Refusal := .next (s.issueOne (semAadd f))

/-- `amin` alone in its bundle (R170, R413). -/
def execAmin (f : AtForm) (s : State) : Host.Outcome State Fault Refusal := .next (s.issueOne (semAmin f))

/-- `amax` alone in its bundle (R170, R413). -/
def execAmax (f : AtForm) (s : State) : Host.Outcome State Fault Refusal := .next (s.issueOne (semAmax f))

/-- `aminn` alone in its bundle (R170, R413). -/
def execAminn (f : AtForm) (s : State) : Host.Outcome State Fault Refusal := .next (s.issueOne (semAminn f))

/-- `amaxn` alone in its bundle (R170, R413). -/
def execAmaxn (f : AtForm) (s : State) : Host.Outcome State Fault Refusal := .next (s.issueOne (semAmaxn f))

/-- `aand` alone in its bundle (R170, R413). -/
def execAand (f : AtForm) (s : State) : Host.Outcome State Fault Refusal := .next (s.issueOne (semAand f))

/-- `aor` alone in its bundle (R170, R413). -/
def execAor (f : AtForm) (s : State) : Host.Outcome State Fault Refusal := .next (s.issueOne (semAor f))

/-- `axor` alone in its bundle (R170, R413). -/
def execAxor (f : AtForm) (s : State) : Host.Outcome State Fault Refusal := .next (s.issueOne (semAxor f))

/-- `aswp` alone in its bundle (R170, R413). -/
def execAswp (f : AtForm) (s : State) : Host.Outcome State Fault Refusal := .next (s.issueOne (semAswp f))

/-- `acas` alone in its bundle (R170, R413). -/
def execAcas (f : AtForm) (s : State) : Host.Outcome State Fault Refusal := .next (s.issueOne (semAcas f))

/-- `aincb` alone in its bundle (R170, R413). -/
def execAincb (f : AtForm) (s : State) : Host.Outcome State Fault Refusal := .next (s.issueOne (semAincb f))

/-- `aincw` alone in its bundle (R170, R413). -/
def execAincw (f : AtForm) (s : State) : Host.Outcome State Fault Refusal := .next (s.issueOne (semAincw f))

/-- `adecp` alone in its bundle (R170, R413). -/
def execAdecp (f : AtForm) (s : State) : Host.Outcome State Fault Refusal := .next (s.issueOne (semAdecp f))

/-- `afal` alone in its bundle (R170, R413). -/
def execAfal (f : AtForm) (s : State) : Host.Outcome State Fault Refusal := .next (s.issueOne (semAfal f))

/-- `afadd` alone in its bundle (R170, R413). -/
def execAfadd (f : AtForm) (s : State) : Host.Outcome State Fault Refusal := .next (s.issueOne (semAfadd f))

/-- `fence` alone in its bundle (R174, R413). -/
def execFence (f : FenceForm) (s : State) : Host.Outcome State Fault Refusal := .next (s.issueOne (semFence f))

/-- `fence.sc` alone in its bundle (R175, R413). -/
def execFenceSc (f : FenceScForm) (s : State) : Host.Outcome State Fault Refusal := .next (s.issueOne (semFenceSc f))

/-- `mma` alone in its bundle (R183, R413). -/
def execMma (f : MForm) (s : State) : Host.Outcome State Fault Refusal := .next (s.issueOne (semMma f))

/-- `mepi` alone in its bundle (R185, R413). -/
def execMepi (f : MForm) (s : State) : Host.Outcome State Fault Refusal := .next (s.issueOne (semMepi f))

/-- `msend` alone in its bundle (R186, R413). -/
def execMsend (f : MForm) (s : State) : Host.Outcome State Fault Refusal := .next (s.issueOne (semMsend f))

/-- `mred` alone in its bundle (R187, R413). -/
def execMred (f : MForm) (s : State) : Host.Outcome State Fault Refusal := .next (s.issueOne (semMred f))

/-- `mclr` alone in its bundle (R188, R413). -/
def execMclr (f : MForm) (s : State) : Host.Outcome State Fault Refusal := .next (s.issueOne (semMclr f))

/-- `mstat` alone in its bundle (R188, R413). -/
def execMstat (f : MForm) (s : State) : Host.Outcome State Fault Refusal := .next (s.issueOne (semMstat f))

/-- `kcpy` alone in its bundle (R190, R413). -/
def execKcpy (f : KForm) (s : State) : Host.Outcome State Fault Refusal := .next (s.issueOne (semKcpy f))

/-- `kput` alone in its bundle (R195, R413). -/
def execKput (f : KForm) (s : State) : Host.Outcome State Fault Refusal := .next (s.issueOne (semKput f))

/-- `kfill` alone in its bundle (R196, R413). -/
def execKfill (f : KForm) (s : State) : Host.Outcome State Fault Refusal := .next (s.issueOne (semKfill f))

/-- `kfill` alone in its bundle (R196, R413). -/
def execKfillConfigure (f : KForm) (s : State) : Host.Outcome State Fault Refusal := .next (s.issueOne (semKfillConfigure f))

/-- `kdec` alone in its bundle (R197, R413). -/
def execKdec (f : KForm) (s : State) : Host.Outcome State Fault Refusal := .next (s.issueOne (semKdec f))

/-- `kzero` alone in its bundle (R190, R413). -/
def execKzero (f : KForm) (s : State) : Host.Outcome State Fault Refusal := .next (s.issueOne (semKzero f))

/-- `kloc` alone in its bundle (R195, R413). -/
def execKloc (f : KForm) (s : State) : Host.Outcome State Fault Refusal := .next (s.issueOne (semKloc f))

/-- `nsend` alone in its bundle (R200, R413). -/
def execNsend (f : NForm) (s : State) : Host.Outcome State Fault Refusal := .next (s.issueOne (semNsend f))

/-- `nsendt` alone in its bundle (R202, R413). -/
def execNsendt (f : NForm) (s : State) : Host.Outcome State Fault Refusal := .next (s.issueOne (semNsendt f))

/-- `npost` alone in its bundle (R201, R413). -/
def execNpost (f : NForm) (s : State) : Host.Outcome State Fault Refusal := .next (s.issueOne (semNpost f))

/-- `npush` alone in its bundle (R205, R413). -/
def execNpush (f : NForm) (s : State) : Host.Outcome State Fault Refusal := .next (s.issueOne (semNpush f))

/-- `npop` alone in its bundle (R206, R413). -/
def execNpop (f : NForm) (s : State) : Host.Outcome State Fault Refusal := .next (s.issueOne (semNpop f))

/-- `nrot` alone in its bundle (R203, R413). -/
def execNrot (f : NForm) (s : State) : Host.Outcome State Fault Refusal := .next (s.issueOne (semNrot f))

/-- `ngsend` alone in its bundle (R204, R413). -/
def execNgsend (f : NForm) (s : State) : Host.Outcome State Fault Refusal := .next (s.issueOne (semNgsend f))

/-- `nclose` alone in its bundle (R205, R413). -/
def execNclose (f : NForm) (s : State) : Host.Outcome State Fault Refusal := .next (s.issueOne (semNclose f))

/-- `ndisarm` alone in its bundle (R202, R413). -/
def execNdisarm (f : NForm) (s : State) : Host.Outcome State Fault Refusal := .next (s.issueOne (semNdisarm f))

end Sys2Proof.Machine
end

