-- ==== Sys2Proof/Machine/Matrix.lean ====
section
/-! DEFINITION. The matrix engine at work: dispatch, passes, finality, epilogue rows, reductions
(02 R52 to R59, 06 R139, 08 R178 to R188, 09 R211 to R220). -/

namespace Sys2Proof.Machine

/-- May the engines of a core take up new work: not frozen, not halting, not halted (R29, R179, R327)? -/
def Core.engineOn (c : Core) : Bool := !c.frozen && !c.haltReq && c.strand != .saved && c.strand != .halted

/-! ### Fields of the M commands (R180, R181) -/

/-- gA. -/
def Cmd.ringA (k : Cmd) : BitVec 3 := field 22 3 k.ops
/-- gB. -/
def Cmd.ringB (k : Cmd) : BitVec 3 := field 19 3 k.ops
/-- zi. -/
def Cmd.zeroInit (k : Cmd) : Bool := k.ops.getLsbD 10
/-- sp. -/
def Cmd.sparse (k : Cmd) : Bool := k.ops.getLsbD 9
/-- gx. -/
def Cmd.groupExp (k : Cmd) : Bool := k.ops.getLsbD 8
/-- The swizzle of `mma`. -/
def Cmd.swz (k : Cmd) : Nat := (field 4 4 k.ops).toNat
/-- P. -/
def Cmd.passCount (k : Cmd) : Nat := (field 0 13 (k.reg 0)).toNat
/-- N of a sparse `mma`. -/
def Cmd.kept (k : Cmd) : Nat := (field 0 6 (k.reg 1)).toNat

/-- Lp and the number of steps of a pass (R217). -/
def Cmd.passShape (k : Cmd) : Nat × Nat :=
  if !k.sparse then (16, 16) else if k.kept = 32 then (8, 8) else if k.kept = 16 then (4, 4) else (4, 2)

/-! ### Operand images (R214, R215) -/

/-- Place(swz, o) with `n` permuted lines (R215). -/
def place (swz n o : Nat) : Nat :=
  let l := o / 128
  let w := o % 128 / 8
  let e := o % 8
  if 128 * n ≤ o then o
  else
    match swz with
    | 0 => o
    | 1 => 128 * l + 8 * ((w + l) % 16) + e
    | 2 => 128 * l + 8 * (w ^^^ l) + e
    | _ => 8 * (w * n + l) + e

/-- The address of image byte `o` of a ring's slot (R211, R215). -/
def Ring.addr (r : Ring) (slot swz o : Nat) : Nat := r.base + slot * (r.size * 128) + place swz (min r.size 16) o

/-- The address of image byte `o` of slot `slot` of ring `g`. -/
def Core.slotAddr (c : Core) (g : BitVec 3) (slot swz o : Nat) : Nat := (c.rings.get g.toFin).addr slot swz o

/-- Image byte `o` of the slot of ring `g` that a pass has read words of (R213). -/
def Core.slotByte (c : Core) (got : Tab Word) (g : BitVec 3) (slot swz o : Nat) : Nat :=
  let a := c.slotAddr g slot swz o
  (Tab.getD got (a / 8) 0).toNat / 256 ^ (a % 8) % 256

/-- `n` image bytes from `o` up, little-endian. -/
def Core.slotBytes (c : Core) (got : Tab Word) (g : BitVec 3) (slot swz o : Nat) : Nat → Nat
  | 0 => 0
  | n + 1 => c.slotByte got g slot swz o + 256 * Core.slotBytes c got g slot swz (o + 1) n

/-- A[i][k] (R214). -/
def Core.opA (c : Core) (k : Cmd) (ps : Pass) (i kk : Nat) : Num :=
  decodeCode (fun _ => ps.book) k.fa (c.slotBytes ps.got k.ringA ps.slotA k.swz (128 * i + 2 * kk) 2)

/-- The nibble `n` of the bytes from image offset `o` (R34). -/
def Core.slotNibble (c : Core) (k : Cmd) (ps : Pass) (o n : Nat) : Nat :=
  c.slotByte ps.got k.ringB ps.slotB k.swz (o + n / 2) / 16 ^ (n % 2) % 16

/-- The code of B[k][j], dense (R214). -/
def Core.codeB (c : Core) (k : Cmd) (ps : Pass) (kk j : Nat) : Nat :=
  match fmtStore k.fb with
  | 16 => c.slotBytes ps.got k.ringB ps.slotB k.swz (128 * j + 2 * kk) 2
  | 8 => c.slotByte ps.got k.ringB ps.slotB k.swz (64 * j + kk)
  | _ => c.slotNibble k ps (32 * j) kk

/-- A number times 2^g. -/
def Num.scale (x : Num) (g : Int) : Num :=
  match x with
  | .fin s m e => .fin s m (e + g)
  | y => y

/-- B[k][j] × 2^g[j] (R56). -/
def Core.opB (c : Core) (k : Cmd) (ps : Pass) (kk j : Nat) : Num :=
  let x := decodeCode (fun _ => ps.book) k.fb (c.codeB k ps kk j)
  if k.groupExp then x.scale (sintOf 8 (c.slotByte ps.got k.ringB ps.slotB k.swz (512 + j))) else x

/-- The K indices that a sparse B keeps in column j, ascending (R58). -/
def Core.keptRows (c : Core) (k : Cmd) (got : Tab Word) (slotB j : Nat) : List Nat :=
  let mask := c.slotBytes got k.ringB slotB k.swz (8 * j) 8
  (List.range 64).filter mask.testBit

/-- The words of the column masks of a sparse B (R58, R215). -/
def Core.maskPlaces (c : Core) (k : Cmd) (slotB : Nat) : List Nat :=
  if k.sparse then (List.range 16).map (fun j => c.slotAddr k.ringB slotB k.swz (8 * j) / 8) else []

/-- What a pass has read, with the column masks that it has not read yet as the scratchpad holds them: they name the words that its first
steps ask for in the cycle in which it reads the masks (DEDUCED, log 101). -/
def Core.withMasks (c : Core) (k : Cmd) (ps : Pass) : Pass :=
  { ps with got := (c.maskPlaces k ps.slotB).foldl (fun t w =>
      if (Tab.get? t w).isSome then t else Tab.put t w (BitVec.ofNat 64 (c.spad.readN (8 * w) 8))) ps.got }

/-- The factors of step `t` of cell (i, j), in order (R57, R58). -/
def Core.stepFactors (c : Core) (k : Cmd) (ps : Pass) (i j t : Nat) : List (Num × Num) :=
  if k.sparse then
    let rows := c.keptRows k ps.got ps.slotB j
    (List.range 4).filterMap (fun q =>
      (rows[4 * t + q]?).map (fun kk =>
        (c.opA k ps i kk,
          decodeCode (fun _ => ps.book) k.fb (c.slotNibble k ps (128 + j * k.kept / 2) (4 * t + q)))))
  else (List.range 4).map (fun q => (c.opA k ps i (4 * t + q), c.opB k ps (4 * t + q) j))

/-! ### Exact sums (R57) -/

/-- An exact result that is a sum of numbers, as a number. -/
def PreVal.num : PreVal → Num
  | .zero s => .zero s
  | .inf s => .inf s
  | .nan => .nan
  | .real s (.dyad m e) => .fin s m e
  | .real _ _ => .nan

/-- The exact sum of an element and products, in order, with the flags of the products and sums (R57). -/
def addProducts : Num × Flags → List (Num × Num) → Num × Flags
  | x, [] => x
  | (a, fl), (p, q) :: r =>
    let m := mulNum p q
    let y := preAdd 0 a m.1
    addProducts (y.v.num, fl ||| m.2 ||| y.fl) r

/-- One step of a cell: the element after its single rounding (R57). -/
def stepCell (x : BitVec 96) (fs : List (Num × Num)) : BitVec 96 × Flags :=
  let y := addProducts (decodeWide x, 0) fs
  let r := roundWide ⟨y.1.pre.v, y.2⟩
  (r.1, r.2 ||| y.2)

/-- The sixteen elements of row `i` of accumulator `a` replaced (R52). -/
def Core.setAccRow (c : Core) (a : BitVec 2) (i : Nat) (g : Nat → BitVec 96) : Core :=
  let new := (List.range 16).foldl (fun v j => v.setIfInBounds (16 * i + j) (g j)) (c.accs.get a.toFin)
  { c with accs := c.accs.set a.toFin new }

/-- Step `t` of row `i` of a pass, with the zero-initialisation of pass 0 (R57, R217). -/
def Core.stepRow (c : Core) (k : Cmd) (ps : Pass) (i t : Nat) : Core × Flags :=
  let a := accOf k.ops
  let old := fun j => if k.zeroInit && ps.p == 0 && t == 0 then (0 : BitVec 96) else c.accElem a i j
  let r := (List.range 16).map (fun j => stepCell (old j) (c.stepFactors k ps i j t))
  (c.setAccRow a i (fun j => (r.getD j (0, 0)).1), r.foldl (fun f x => f ||| x.2) 0)

/-- The steps that the rows of a pass perform `x` cycles after its start (R217). -/
def Core.stepCycle (c : Core) (k : Cmd) (ps : Pass) (x : Nat) : Core × Flags :=
  let (lp, ns) := k.passShape
  let gap := lp / ns
  (List.range 16).foldl (fun (d : Core × Flags) i =>
    if i ≤ x ∧ (x - i) % gap = 0 ∧ (x - i) / gap < ns then
      let (e, fl) := d.1.stepRow k ps i ((x - i) / gap)
      (e, d.2 ||| fl)
    else d) (c, 0)

/-- The image bytes of A and of B by whose words step `t` of row `i` is fed: a byte of each word (R57, R58, R214, R217). -/
def Core.stepBytes (c : Core) (k : Cmd) (ps : Pass) (i t : Nat) : List Nat × List Nat :=
  let js := List.range 16
  if k.sparse then
    (js.flatMap (fun j =>
        let rows := c.keptRows k ps.got ps.slotB j
        (List.range 4).filterMap (fun q => (rows[4 * t + q]?).map (fun kk => 128 * i + 2 * kk))),
      js.flatMap (fun j => (List.range 4).map (fun q => 128 + j * k.kept / 2 + (4 * t + q) / 2)))
  else
    ([128 * i + 8 * t],
      js.map (fun j =>
        match fmtStore k.fb with
        | 16 => 128 * j + 8 * t
        | 8 => 64 * j + 4 * t
        | _ => 32 * j + 2 * t) ++
      (if k.groupExp then js.map (fun j => 512 + j) else []))

/-- The slot words that a pass needs in the next of its cycles and has not read (R213), the masks of a sparse B in its first. -/
def Core.passWants (c : Core) (k : Cmd) (ps0 : Pass) : List Nat :=
  let (lp, ns) := k.passShape
  let ps := c.withMasks k ps0
  let gap := lp / ns
  let x := ps.cycles
  let words := (List.range 16).flatMap (fun i =>
    if i ≤ x ∧ (x - i) % gap = 0 ∧ (x - i) / gap < ns then
      let (as, bs) := c.stepBytes k ps i ((x - i) / gap)
      as.map (fun o => c.slotAddr k.ringA ps.slotA k.swz o / 8) ++ bs.map (fun o => c.slotAddr k.ringB ps.slotB k.swz o / 8)
    else [])
  (((if ps.cycles = 0 then c.maskPlaces k ps.slotB else []) ++ words).eraseDups).filter (fun w => (Tab.get? ps0.got w).isNone)

/-- Does a pass wait for a slot (R218)? The next pass is due, and a ring has no filled slot that no pass has taken. Where the passes in
the array have taken every slot of a ring, the rule as it stands holds them for ever (DEDUCED, log 102). -/
def Core.slotWait (c : Core) (e : MExec) : Bool :=
  let taken := e.passes.length
  let lacks (g : BitVec 3) : Bool := decide ((c.rings.get g.toFin).fill ≤ taken)
  e.failed.isNone && decide (e.pass < e.cmd.passCount) && !c.haltReq && !c.frozen &&
    (match e.passes.getLast? with | some ps => decide (e.cmd.passShape.1 ≤ ps.cycles) | none => false) &&
    (lacks e.cmd.ringA || lacks e.cmd.ringB)

/-- Poisoned data in what a pass would read of a slot (R151, R376). -/
def Core.slotPoison (c : Core) (g : BitVec 3) (slot n : Nat) : Option Nat :=
  let r := c.rings.get g.toFin
  (wordsOf (r.base + slot * (r.size * 128)) n).find? c.poison.contains

/-- Poison in one of the slots of pass `p` of command `k`, the one of A first. -/
def Core.passPoison (c : Core) (k : Cmd) (sa sb : Nat) : Option (Nat × Word) :=
  match c.slotPoison k.ringA sa 2048, c.slotPoison k.ringB sb (bBytes k.fb k.sparse k.groupExp k.kept) with
  | some w, _ => some (0x15, BitVec.ofNat 64 (8 * w))
  | none, some w => some (0x15, BitVec.ofNat 64 (8 * w))
  | none, none => none

/-- TRAPINFO0 of an operand-layout mismatch (R183, R216). -/
def Cmd.tagInfo (k : Cmd) (t which p : Nat) : Word := BitVec.ofNat 64 (k.swz + t * 16 + which * 2 ^ 12 + p * 2 ^ 16)

/-- What stops a sparse pass behind its first cycle, which has brought its masks: a column's count, or poison (R216). -/
def Core.maskFault (c : Core) (k : Cmd) (ps : Pass) : Option (Nat × Word) :=
  if (List.range 16).any (fun j => (c.keptRows k ps.got ps.slotB j).length != k.kept) then some (0x0F, k.tagInfo 0xFF 1 ps.p)
  else c.passPoison k ps.slotA ps.slotB

/-- The command in execution without a sparse pass that stops behind its first cycle: the engine has stopped, nothing of that pass is done
and none of its slots is popped (R178, R216). -/
def Core.checkMasks (c : Core) (e : MExec) : Core × MExec :=
  match e.passes.getLast? with
  | none => (c, e)
  | some ps =>
    if !e.cmd.sparse || ps.cycles != 0 then (c, e)
    else
      match c.maskFault e.cmd ps with
      | none => (c, e)
      | some (code, info) =>
        let k := deferredCause .m code info e.cmd.opc e.cmd.ord
        let x : MExec := { e with pass := ps.p, passes := e.passes.dropLast, failed := some k }
        let d : Core := { c with mat := { c.mat with stopped := true } }
        (if x.passes.isEmpty then d.defer k else d, x)

/-- The boundary behind a cycle of the array (R217, R218): every pass has performed the steps of that cycle; when a word that it
needed was not served, or a pass waits for a slot, the whole array holds and all that follows is a cycle later. -/
def Core.advanceArray (c0 : Core) : Core :=
  match c0.mat.exec with
  | none => c0
  | some e0 =>
    if e0.cmd.kind != .mma then c0
    else if !e0.want.isEmpty || e0.passes.any (fun ps => !(c0.passWants e0.cmd ps).isEmpty) || c0.slotWait e0 then
      { c0 with mat := { c0.mat with exec := some { e0 with passes := e0.passes.map (fun ps => { ps with start := ps.start + 1 }) } } }
    else
      let (c, e) := c0.checkMasks e0
      let go := e.passes.foldl (fun (d : Core × Flags) ps =>
        let (x, fl) := d.1.stepCycle e.cmd ps ps.cycles
        (x, d.2 ||| fl)) (c, 0)
      let d := go.1
      { d with
        mat := { d.mat with
          exec := some { e with passes := e.passes.map (fun ps => { ps with cycles := ps.cycles + 1 }), fl := e.fl ||| go.2 } } }

/-! ### Retirement and failure (R49, R139, R178, R188) -/

/-- A command leaves its accumulator's owner set; with no member left that changes elements the watermark is 16 (R139). -/
def Core.disown (c : Core) (k : Cmd) : Core :=
  let a := accOf k.ops
  if k.kind == .mstat then c
  else
    let left := (c.owners.get a.toFin).filter (fun e => e.1 != k.ord)
    { c with
      owners := c.owners.set a.toFin left
      wmarks := if left.any (·.2) then c.wmarks else c.wmarks.set a.toFin 16 }

/-- A command retires: its flags go into FSTAT at this boundary, M falls one boundary later (R20, R49). -/
def Core.retireM (c : Core) (k : Cmd) (fl : Flags) : Core :=
  ({ c with mat := { c.mat with retired := c.mat.retired + 1, fl := c.mat.fl ||| fl } } : Core).disown k

/-- The engine stops for a deferred cause of the command in execution; it is known once that command's passes in the array
have retired (R178). -/
def Core.failExec (c : Core) (e : MExec) (code : Nat) (info : Word) : Core :=
  let k := deferredCause .m code info e.cmd.opc e.cmd.ord
  let d : Core := { c with mat := { c.mat with stopped := true, exec := some { e with failed := some k } } }
  if e.passes.isEmpty then d.defer k else d

/-- The engine stops for a deferred cause of the epilogue command. -/
def Core.failEpi (c : Core) (e : MExec) (code : Nat) (info : Word) : Core :=
  let k := deferredCause .m code info e.cmd.opc e.cmd.ord
  { c with failing := c.failing ++ [k], mat := { c.mat with stopped := true, epi := some { e with failed := some k } } }

/-! ### Dispatch (R183 to R188) -/

/-- A command that starts in this cycle. -/
def startExec (k : Cmd) (now : Nat) : MExec :=
  { cmd := k, since := now, pass := 0, passes := [], row := 0, fl := 0, failed := none, segs := [], expect := none
    want := [], got := [], out := [], accept := none }

/-- The word `mstat` writes (R188). -/
def Core.mstatWord (c : Core) : Word :=
  let bad (a : BitVec 2) : Bool := (c.accs.get a.toFin).toList.any (fun x => (decodeWide x).nonFinite)
  BitVec.ofNat 64 (c.mat.passes * 2 ^ 16 +
    ((List.range 4).map (fun a => if bad (BitVec.ofNat 2 a) then 2 ^ a else 0)).sum)

/-- The dispatch checks of `mepi` (R185). -/
def Core.mepiCheck (c : Core) (k : Cmd) : Option (Nat × Word) :=
  let size := fmtStore k.fa / 8
  let addr := (field 0 20 (k.reg 2)).toNat
  let stride := (field 20 16 (k.reg 2)).toNat
  if addr % size ≠ 0 ∨ stride % size ≠ 0 then some (0x0A, BitVec.ofNat 64 addr)
  else if c.spend < addr + 15 * stride + 16 * size then some (0x0B, BitVec.ofNat 64 addr)
  else none

/-- AWO of mx4. -/
def Cmd.awo (k : Cmd) : Nat := (field 0 20 (k.reg 4)).toNat

/-- DATA of mx4. -/
def Cmd.mdata (k : Cmd) : Nat := (field 32 20 (k.reg 4)).toNat

/-- Bytes of an element sent or read: WIDE96, FP32 or BF16 (R186, R187). -/
def partSize (f : BitVec 2) : Nat := if f = 0 then 16 else if f = 1 then 4 else 2

/-- pf of `mred`. -/
def Cmd.pf (k : Cmd) : BitVec 2 := field 23 2 k.ops

/-- SFMT of `msend`. -/
def Cmd.sfmt (k : Cmd) : BitVec 2 := field 10 2 (k.reg 3)

/-- CH of mx3. -/
def Cmd.mch (k : Cmd) : Nat := (field 0 10 (k.reg 3)).toNat

/-- The dispatch checks of `mred` (R187). -/
def Core.mredCheck (c : Core) (k : Cmd) : Option (Nat × Word) :=
  if k.awo % 16 ≠ 0 then some (0x0A, BitVec.ofNat 64 k.awo)
  else if k.mdata % partSize k.pf ≠ 0 then some (0x0A, BitVec.ofNat 64 k.mdata)
  else if c.spend < k.mdata + 256 * partSize k.pf then some (0x0B, BitVec.ofNat 64 k.mdata)
  else if c.spend < k.awo + 16 then some (0x0B, BitVec.ofNat 64 k.awo)
  else none

/-- `msend` at dispatch: alignment, then its peer (R186, R204, R267). -/
def State.startMsend (s : State) (k : Cmd) : State :=
  let put (t : State) (e : MExec) : State :=
    t.setCore { t.core with mat := { t.core.mat with queue := t.core.mat.queue.drop 1, epi := some e, held := false } }
  let e0 := startExec k s.cycle
  if k.awo % 16 ≠ 0 then (put s e0).setCore ((put s e0).core.failEpi e0 0x0A (BitVec.ofNat 64 k.awo))
  else
    let (aim, t) := if (k.reg 5).getLsbD 15 then s.aimGroup k.mch (k.reg 5) k else (s.aimRoute k.mch, s)
    match aim with
    | .go segs _ ex => put t { e0 with segs, expect := ex }
    | .nobody =>
      t.setCore (({ t.core with mat := { t.core.mat with queue := t.core.mat.queue.drop 1, held := false } } : Core).retireM k 0)
    | .refused => ((put t e0).setCore ((put t e0).core.failEpi e0 0x14 (noTile k.mch))).refuseNoTile t.cur k.mch
    | .fault ty lev en va =>
      (t.setCore { t.core with mat := { t.core.mat with held := true } }).tableFault k ty lev en va
    | .wait => t
    | .cause code info => (put t e0).setCore ((put t e0).core.failEpi e0 code info)

/-- The scratchpad words of the present row of an incoming partial (R187). -/
def MExec.partWords (e : MExec) : List Nat :=
  wordsOf (e.cmd.mdata + 16 * e.row * partSize e.cmd.pf) (16 * partSize e.cmd.pf)

/-- Has the generation that a `mred` waits for come, as its last read of the arrival word says (R187)? -/
def MExec.genCame (e : MExec) : Bool :=
  match Tab.get? e.got (e.cmd.awo / 8 + 1) with
  | some w => genReached (field 0 32 w) (field 0 32 (e.cmd.reg 6))
  | none => false

/-- The words that a `mred` in execution asks the bank units for in this cycle: the arrival word, as one operation, until GEN has reached
RGEN, then those of its present row (R187, R210, R239). -/
def Core.askPart (c : Core) : Core :=
  match c.mat.exec with
  | none => c
  | some e =>
    if e.cmd.kind != .mred || e.failed.isSome || !c.engineOn then c
    else if e.row = 0 ∧ !e.genCame then
      { c with mat := { c.mat with exec := some { e with want := [(0, pairWord (e.cmd.awo / 8))], got := [] } } }
    else
      { c with
        mat := { c.mat with
          exec := some { e with want := (e.partWords.filter (fun w => (Tab.get? e.got w).isNone)).map (fun w => (0, w)) } } }

/-- Is a row of accumulator `a` on its way from a `vaccw`, in flight or in a snapshot? Its bundle was issued before every command now
in the queue (R141, R143). -/
def Core.rowComing (c : Core) (a : BitVec 2) : Bool :=
  (c.inflight ++ c.snapTrap.results ++ c.snapPre.results).any (fun r => match r.w with | .acc b .. => b == a | _ => false)

/-- Must a command wait for such a row? `mstat` reads every accumulator (R188). -/
def Core.rowHeld (c : Core) (k : Cmd) : Bool :=
  if k.kind == .mstat then (List.range 4).any (fun a => c.rowComing (BitVec.ofNat 2 a)) else c.rowComing (accOf k.ops)

/-- MATRIX_DISPATCH (R184) on the current core. A command waits while a row of its accumulator is on its way from an earlier
`vaccw`: the command neither reads nor changes it before (R141; that the wait is at dispatch is the model's, log 95). -/
def State.matrixDispatch (s : State) : State :=
  let c := s.core
  match c.mat.queue with
  | [] => s
  | k :: rest =>
    if !c.engineOn || c.mat.stopped || c.mat.held || c.qHeld 3 k.ord || c.rowHeld k then s
    else
      let idle := c.mat.exec.isNone && c.mat.epi.isNone
      let took : Core := { c with mat := { c.mat with queue := rest } }
      let e := startExec k s.cycle
      match k.kind with
      | .mepi =>
        if c.mat.epi.isSome then s
        else
          let d : Core := { took with mat := { took.mat with epi := some e } }
          match c.mepiCheck k with
          | some (code, info) => s.setCore (d.failEpi e code info)
          | none => s.setCore d
      | .msend => if c.mat.epi.isSome then s else s.startMsend k
      | .mstat =>
        if !idle then s
        else s.setCore ((took.retireM k 0).lateResult .m k.ord 1 (.s (field 21 6 k.ops) c.mstatWord) 0)
      | .mred =>
        if !idle then s
        else
          match c.mredCheck k with
          | some (code, info) => s.setCore (took.failExec e code info)
          | none => s.setCore ({ took with mat := { took.mat with exec := some e } } : Core).askPart
      | _ => if !idle then s else s.setCore { took with mat := { took.mat with exec := some e } }

/-- MATRIX_DISPATCH (R184). -/
def execMatrixDispatch (t : Nat) (s : State) : Host.Outcome State Fault Refusal := .next (s.at t).matrixDispatch

/-! ### Passes (R183, R212, R216, R217) -/

/-- What stops a pass when it takes its slots: a tag, or poison, which a sparse pass meets with its masks (R183). -/
def Core.passCause (c : Core) (e : MExec) (sa sb : Nat) : Option (Nat × Word) :=
  let k := e.cmd
  let tag (g : BitVec 3) (slot : Nat) : Nat := ((c.rings.get g.toFin).tags.toList.getD slot 0).toNat
  if tag k.ringA sa ≠ k.swz then some (0x0F, k.tagInfo (tag k.ringA sa) 0 e.pass)
  else if tag k.ringB sb ≠ k.swz then some (0x0F, k.tagInfo (tag k.ringB sb) 1 e.pass)
  else if k.sparse then none
  else c.passPoison k sa sb

/-- The next pass of the `mma` in execution, when its time has come and both rings have a slot that no pass has taken. -/
def Core.startPass (c : Core) (now : Nat) : Core :=
  match c.mat.exec with
  | none => c
  | some e =>
    let k := e.cmd
    let ra := c.rings.get k.ringA.toFin
    let rb := c.rings.get k.ringB.toFin
    let taken := e.passes.length
    let early := match e.passes.getLast? with
      | some ps => decide (now < ps.start + k.passShape.1)
      | none => false
    if k.kind != .mma || e.failed.isSome || decide (k.passCount ≤ e.pass) || early || !c.engineOn ||
        decide (ra.fill ≤ taken) || decide (rb.fill ≤ taken) then c
    else
      let sa := (ra.head + taken) % ra.count
      let sb := (rb.head + taken) % rb.count
      match c.passCause e sa sb with
      | some (code, info) => c.failExec e code info
      | none =>
        let ps : Pass :=
          { p := e.pass, start := now, slotA := sa, slotB := sb, book := c.kreg (fmtCB k.fb), cycles := 0, got := [] }
        { c with mat := { c.mat with exec := some { e with pass := e.pass + 1, passes := e.passes ++ [ps] } } }

/-- The words that the passes in the array ask the bank units for in this cycle (R213, R218). -/
def Core.askSlots (c : Core) : Core :=
  match c.mat.exec with
  | none => c
  | some e =>
    if e.cmd.kind != .mma then c
    else
      { c with
        mat := { c.mat with
          exec := some { e with want := e.passes.flatMap (fun ps => (c.passWants e.cmd ps).map (fun w => (ps.p, w))) } } }

/-- MMA_PASS_START (R217): a pass takes its slots; every pass in the array asks for the words of this cycle's steps. -/
def execMmaPassStart (t : Nat) (s : State) : Host.Outcome State Fault Refusal :=
  .next ((s.at t).setCore ((s.at t).core.startPass s.cycle).askSlots)

/-- A ring with its head slot popped (R212). -/
def Ring.pop (r : Ring) : Ring := { r with head := (r.head + 1) % r.count, fill := r.fill - 1 }

/-- The oldest pass retires: its slots are popped; the last one retires the command (R183, R212, R217). -/
def Core.retirePass (c : Core) (now : Nat) : Core :=
  match c.mat.exec with
  | none => c
  | some e =>
    match e.passes with
    | [] => c
    | ps :: rest =>
      let k := e.cmd
      if now < ps.start + 15 + k.passShape.1 then c
      else
        let r1 := c.rings.set k.ringA.toFin (c.rings.get k.ringA.toFin).pop
        let d1 : Core := { c with rings := r1.set k.ringB.toFin (r1.get k.ringB.toFin).pop }
        if ps.p + 1 = k.passCount then
          ({ d1 with mat := { d1.mat with exec := none, passes := k.passCount } } : Core).retireM k e.fl
        else
          let d2 : Core := { d1 with mat := { d1.mat with exec := some { e with passes := rest } } }
          match e.failed, rest with
          | some q, [] => d2.defer q
          | _, _ => d2

/-- MMA_PASS_RETIRE (R212). -/
def execMmaPassRetire (t : Nat) (s : State) : Host.Outcome State Fault Refusal :=
  .next ((s.at t).setCore ((s.at t).core.retirePass s.cycle))

/-! ### Finality (R139, R184, R219) -/

/-- Rows that a command in execution has made final by cycle `now`, were it the last to change them (R219). -/
def MExec.rowsDone (e : MExec) (now : Nat) : Nat :=
  if e.cmd.kind == .mma then
    match e.passes.find? (fun ps => ps.p + 1 == e.cmd.passCount) with
    | some ps => min 16 (now + 1 - (ps.start + e.cmd.passShape.1))
    | none => 0
  else e.row

/-- Rows of accumulator `a` final for a reader that counts the members of order below `ord` (R184). -/
def Core.rowsFinal (c : Core) (a : BitVec 2) (ord now : Nat) : Nat :=
  match ((c.owners.get a.toFin).filter (fun e => e.2 && decide (e.1 < ord))).getLast? with
  | none => 16
  | some (o, _) =>
    match c.mat.exec with
    | some e => if e.cmd.ord = o then e.rowsDone now else 0
    | none => 0

/-- ACC_ROW_FINAL (R219): the watermarks as they stand at this boundary. -/
def Core.raiseMarks (c : Core) (now : Nat) : Core :=
  { c with
    wmarks := (List.range 4).foldl (fun v a =>
      let b := BitVec.ofNat 2 a
      let n := match (c.owners.get b.toFin).getLast? with | some (o, _) => o + 1 | none => 0
      v.set b.toFin (max (v.get b.toFin) (c.rowsFinal b n now))) c.wmarks }

/-- ACC_ROW_FINAL (R219). -/
def execAccRowFinal (t : Nat) (s : State) : Host.Outcome State Fault Refusal :=
  .next ((s.at t).setCore ((s.at t).core.raiseMarks s.cycle))

/-! ### Epilogue rows (R59, R185, R186) -/

/-- The epilogue command whose next row may be taken: it is final at cycle `now`, its turn has come (R184), and no deferred cause
has stopped the engine (R178). -/
def Core.rowToTake (c : Core) (now : Nat) : Option MExec :=
  match c.mat.epi with
  | some e =>
    if e.failed.isNone && !c.mat.stopped && c.engineOn && decide (e.row < 16) && decide (e.since + e.row ≤ now) &&
        decide (e.row < c.rowsFinal (accOf e.cmd.ops) e.cmd.ord now) then some e
    else none
  | none => none

/-- The epilogue command a row further, with that row's flags. -/
def Core.nextEpi (c : Core) (e : MExec) (fl : Flags) : Core :=
  { c with mat := { c.mat with epi := some { e with row := e.row + 1, fl := e.fl ||| fl } } }

/-- The boundary before cycle `now` for an epilogue command: rows of `mepi` whose words are served are written, a packet of `msend`
is accepted whole by the router; behind the last row the command retires (R185, R186). -/
def Core.endEpi (c : Core) (now : Nat) : Core :=
  let d := if c.xferDone .epiRow then c.endXfer .epiRow else c
  match d.mat.epi with
  | none => d
  | some e =>
    let sent := match e.accept with | some b => decide (b ≤ now) | none => false
    let e' : MExec := if sent then { e with out := e.out.drop 1, accept := none } else e
    if e'.failed.isNone && e'.row == 16 && e'.out.isEmpty && (d.xfersOf .epiRow).isEmpty then
      ({ d with mat := { d.mat with epi := none } } : Core).retireM e'.cmd e'.fl
    else { d with mat := { d.mat with epi := some e' } }

/-- Element (i, j) of `mepi`'s output (R59). -/
def Core.mepiElem (c : Core) (k : Cmd) (i j : Nat) : Nat × Flags :=
  let x := decodeWide (c.accElem (accOf k.ops) i j)
  let z := c.zregs.get (field 7 4 k.ops).toFin
  let p := if k.ops.getLsbD 6 then preMul x (decodeFloat fmtFp32 (lane 32 (z.setWidth 1024) j)) else x.pre
  let r := roundTo k.fa (field 12 3 k.ops) (k.ops.getLsbD 11) p
  (r.1, r.2 ||| (if x.nonFinite then flNF else 0))

/-- MEPI_ROW_WRITE (R185) on a core: the row taken in this cycle, whose words go to the bank units. -/
def Core.mepiRow (c : Core) (now : Nat) : Core :=
  match c.rowToTake now with
  | none => c
  | some e =>
    if e.cmd.kind != .mepi then c
    else
      let size := fmtStore e.cmd.fa / 8
      let addr := (field 0 20 (e.cmd.reg 2)).toNat + e.row * (field 20 16 (e.cmd.reg 2)).toNat
      let r := (List.range 16).map (c.mepiElem e.cmd e.row)
      match poisonHit c addr (16 * size) with
      | some w => c.failEpi e 0x15 (BitVec.ofNat 64 (8 * w))
      | none =>
        (c.beginWrite .epiRow 2 (bytesAt addr (r.flatMap (fun x => leBytes size x.1)))).nextEpi e
          (r.foldl (fun f x => f ||| x.2) 0)

/-- MEPI_ROW_WRITE (R185). -/
def execMepiRowWrite (t : Nat) (s : State) : Host.Outcome State Fault Refusal :=
  .next ((s.at t).setCore ((s.at t).core.mepiRow s.cycle))

/-- An element as `msend` sends it: its bytes, whether it is non-finite before or after rounding, and flags (R186). -/
def sendElem (f : BitVec 2) (x : BitVec 96) : List (BitVec 8) × Bool × Flags :=
  let v := decodeWide x
  if f = 0 then (leBytes 12 x.toNat ++ leBytes 4 0, v.nonFinite, 0)
  else
    let e := if f = 1 then fmtFp32 else fmtBf16
    let r := roundTo e 0 false v.pre
    (leBytes (partSize f) r.1, v.nonFinite || (decodeFloat e r.1).nonFinite, r.2)

/-- MSEND_ROW_SEND (R184, R186) on the current core: a row is taken in its cycle and checked. -/
def State.msendTake (s : State) : State :=
  let c := s.core
  match c.rowToTake s.cycle with
  | none => s
  | some e =>
    if e.cmd.kind != .msend then s
    else
      let k := e.cmd
      let els := (List.range 16).map (fun j => sendElem k.sfmt (c.accElem (accOf k.ops) e.row j))
      match els.findIdx? (fun x => x.2.1) with
      | some j => s.failCommand s.cur .m 0x13 (BitVec.ofNat 64 (16 * e.row + j)) e.cmd.opc e.cmd.ord 0
      | none =>
        s.setCore (c.nextEpi { e with out := e.out ++ [(e.row, els.flatMap (·.1))] } (els.foldl (fun f x => f ||| x.2.2) 0))

/-- The oldest row taken leaves in one packet, one flit a cycle, when its channel has credit and no row is under way (R186). -/
def State.msendLeave (s : State) : State :=
  match s.core.mat.epi with
  | none => s
  | some e =>
    match e.out with
    | [] => s
    | (row, data) :: _ =>
      let k := e.cmd
      let n := dataFlits data.length
      if e.accept.isSome || s.core.frozen || !s.hasCredit k.mch (n + 1) then s
      else if !s.reaches e.segs then
        ((s.setCore { s.core with mat := { s.core.mat with epi := some { e with out := [] } } }).refuseNoTile s.cur k.mch).failCommand
          s.cur .m 0x14 (noTile k.mch) k.opc k.ord 0
      else
        let t := s.launchPacket
          { kind := 1, sch := k.mch, dch := k.mch, off := k.mdata + 16 * row * partSize k.sfmt, aw := k.awo, awv := true, len := data.length, data
            slot := .m, ord := k.ord, opc := k.opc, index := row, op := .deposit, expect := e.expect } e.segs true
        t.setCore { t.core with mat := { t.core.mat with epi := some { e with accept := some (s.cycle + n + 1) } } }

/-- MSEND_ROW_SEND (R186): a row taken, and the oldest one that waits sent. -/
def execMsendRowSend (t : Nat) (s : State) : Host.Outcome State Fault Refusal := .next (s.at t).msendTake.msendLeave

/-! ### Rows of `mred` and `mclr` (R187, R188) -/

/-- The next row of a command in execution done: the last one retires it. -/
def Core.nextRow (c : Core) (e : MExec) (fl : Flags) : Core :=
  let f := e.fl ||| fl
  if e.row = 15 then ({ c with mat := { c.mat with exec := none } } : Core).retireM e.cmd f
  else { c with mat := { c.mat with exec := some { e with row := e.row + 1, fl := f } } }

/-- The command in execution of kind `k`, dispatched before this cycle and not failed. -/
def Core.rowExec (c : Core) (kind : CmdKind) (now : Nat) : Option MExec :=
  match c.mat.exec with
  | some e => if e.cmd.kind == kind && e.failed.isNone && c.engineOn && decide (e.since < now) then some e else none
  | none => none

/-- Element (i, j) of the incoming partial, out of the words read (R53, R187). -/
def partElem (k : Cmd) (got : Tab Word) (i j : Nat) : Num :=
  let size := partSize k.pf
  let x := bytesNat (wordBytes got (k.mdata + (16 * i + j) * size) (if size = 16 then 12 else size))
  if k.pf = 0 then decodeWide (BitVec.ofNat 96 x)
  else if k.pf = 1 then decodeFloat fmtFp32 x
  else decodeFloat fmtBf16 x

/-- MRED_ROW_ADD (R187) on a core: the row whose words the cycle before has brought: its elements land at this boundary. -/
def Core.mredRow (c : Core) (now : Nat) : Core :=
  match c.rowExec .mred now with
  | none => c
  | some e =>
    let k := e.cmd
    let a := accOf k.ops
    if !(e.partWords.all (fun w => (Tab.get? e.got w).isSome)) then c
    else
      match e.partWords.find? c.poison.contains with
      | some w => c.failExec e 0x15 (BitVec.ofNat 64 (8 * w))
      | none =>
        let els := (List.range 16).map (fun j => (decodeWide (c.accElem a e.row j), partElem k e.got e.row j))
        match els.findIdx? (fun x => x.1.nonFinite || x.2.nonFinite) with
        | some j =>
          let y := match els[j]? with | some x => x.2.nonFinite | none => false
          c.failExec e 0x13 (BitVec.ofNat 64 (16 * e.row + j + (if y then 0x100 else 0)))
        | none =>
          let r := els.map (fun x => roundWide (preAdd 0 x.1 x.2))
          (c.setAccRow a e.row (fun j => (r.getD j (0, 0)).1)).nextRow { e with got := [], want := [] }
            (r.foldl (fun f x => f ||| x.2) 0)

/-- MRED_ROW_ADD (R187). -/
def execMredRowAdd (t : Nat) (s : State) : Host.Outcome State Fault Refusal :=
  .next ((s.at t).setCore ((s.at t).core.mredRow s.cycle).askPart)

/-- MCLR_ROW_WRITE (R188) on a core: the row of the cycle before, +0 from this boundary on. -/
def Core.mclrRow (c : Core) (now : Nat) : Core :=
  match c.rowExec .mclr now with
  | none => c
  | some e => (c.setAccRow (accOf e.cmd.ops) e.row (fun _ => 0)).nextRow e 0

/-- MCLR_ROW_WRITE (R188). -/
def execMclrRowWrite (t : Nat) (s : State) : Host.Outcome State Fault Refusal :=
  .next ((s.at t).setCore ((s.at t).core.mclrRow s.cycle))

end Sys2Proof.Machine
end

