-- ==== Sys2Proof/Machine/Copy.lean ====
section
/-! DEFINITION. The copy engine at work: dispatch checks, chunks, read faults, `kdec`, ring fills, remote reads
(08 R189 to R197, 09 R212, R215). -/

namespace Sys2Proof.Machine

/-! ### Fields (R189, R190) -/

/-- RB. -/
def Cmd.rb (k : Cmd) : Nat := (field 0 32 (k.reg 2)).toNat
/-- SSTR. -/
def Cmd.sstr (k : Cmd) : Int := (field 0 32 (k.reg 3)).toInt
/-- DSTR. -/
def Cmd.dstr (k : Cmd) : Int := (field 0 32 (k.reg 4)).toInt
/-- The channel of `kput` and `kloc`. -/
def Cmd.kch (k : Cmd) : Nat := (field 7 10 k.ops).toNat
/-- The ring of `kfill`. -/
def Cmd.fillRing (k : Cmd) : BitVec 3 := field 21 3 k.ops
/-- The swizzle of `kfill`. -/
def Cmd.fillSwz (k : Cmd) : Nat := (field 17 4 k.ops).toNat
/-- Has the command a source (R190)? -/
def Cmd.hasSource (k : Cmd) : Bool := k.kind != .kzero
/-- Is the source the local scratchpad (R190)? -/
def Cmd.localSource (k : Cmd) : Bool := k.hasSource && !k.sd && k.kind != .kloc
/-- Is the destination given by DST in the local scratchpad (R190)? -/
def Cmd.localDest (k : Cmd) : Bool := !k.dd && k.kind != .kput && k.kind != .kfill

/-- The place of chunk `n` in rows of base `b` and stride `st` (R191, R192). -/
def Cmd.chunkAt (k : Cmd) (b : Word) (st : Int) (n : Nat) : Int :=
  (b.toNat : Int) + ((n / k.rowChunks : Nat) : Int) * st + ((256 * (n % k.rowChunks) : Nat) : Int)

/-- Source place of chunk `n`. -/
def Cmd.srcOf (k : Cmd) (n : Nat) : Int := k.chunkAt (k.reg 0) k.sstr n

/-- Destination place of chunk `n`. -/
def Cmd.dstOf (k : Cmd) (n : Nat) : Int := k.chunkAt (k.reg 1) k.dstr n

/-! ### Dispatch checks (R191) -/

/-- The first place outside [0, lim) of rows of `n` bytes at `b`, `b + st`, …, if one is. -/
def firstOutside (b st : Int) (n lim : Nat) : Nat → Option Int
  | 0 => none
  | r + 1 =>
    if b < 0 ∨ (lim : Int) ≤ b then some b
    else if (lim : Int) < b + n then some lim
    else firstOutside (b + st) st n lim r

/-- Is a 64-bit value or a signed stride off the 8-byte grid? -/
def offGrid (x : Word) : Bool := x.toNat % 8 != 0

/-- The checks of a copy at dispatch, in R191's order: cause code and TRAPINFO0. -/
def Core.copyCheck (c : Core) (k : Cmd) : Option (Nat × Word) :=
  let src := k.reg 0
  let dst := k.reg 1
  let dec := k.kind == .kdec
  let hasDst := k.kind != .kfill
  let rb : Word := BitVec.ofNat 64 k.rb
  let cx6 := k.reg 6
  let shI : Word := (field 0 4 cx6).setWidth 64
  let dhI : Word := (field 5 4 cx6).setWidth 64
  let outside (b : Word) (st : Int) (n lim : Nat) : Option Word :=
    (firstOutside b.toNat st n lim k.rows).map (BitVec.ofInt 64)
  let dstLen := if dec then k.rowBytes else k.rb
  let off := [(k.hasSource && !dec && offGrid src, src), (hasDst && !dec && offGrid dst, dst), (offGrid rb, rb),
    (k.hasSource && offGrid (BitVec.ofInt 64 k.sstr), BitVec.ofInt 64 k.sstr),
    (hasDst && offGrid (BitVec.ofInt 64 k.dstr), BitVec.ofInt 64 k.dstr)]
  match off.find? (·.1) with
  | some (_, x) => some (0x0A, x)
  | none =>
    if k.counts ∧ k.copyAw % 16 ≠ 0 then some (0x0A, BitVec.ofNat 64 k.copyAw)
    else if k.hasSource && k.sd && k.sh.isEmpty then some (0x0C, shI)
    else if k.hasSource && k.sd && k.sh.v && !k.sh.rd then some (0x0D, shI)
    else if k.dd && k.dh.isEmpty then some (0x0C, dhI)
    else if k.dd && k.dh.v && !k.dh.wr then some (0x0D, dhI)
    else
      let pages := [if k.hasSource && k.sd then outside src k.sstr k.rb k.sh.pageBytes else none,
        if k.dd then outside dst k.dstr dstLen k.dh.pageBytes else none]
      match pages.findSome? id with
      | some x => some (0x0E, x)
      | none =>
        let locs := [if k.localSource then outside src k.sstr k.rb c.spend else none,
          if k.localDest then outside dst k.dstr dstLen c.spend else none]
        match locs.findSome? id with
        | some x => some (0x0B, x)
        | none =>
          if k.counts && k.kind != .kput && decide (c.spend < k.copyAw + 16) then some (0x0B, BitVec.ofNat 64 k.copyAw)
          else none

/-- A failed copy's cause is known once no chunk is under way or in the side log (R178, R194). -/
def State.copySettle (s : State) (id : CoreId) : State :=
  let c := s.coreAt id
  match c.cpy.exec with
  | none => s
  | some e =>
    match e.failed with
    | none => s
    | some k =>
      if e.chunks.any (fun x => x.2 == .flying || x.2 == .logged) then s
      else s.putCore id (({ c with cpy := { c.cpy with exec := some { e with failed := none, held := true } } } : Core).defer k)

/-- The copy of core `id` fails at its chunk `n` with a deferred cause. -/
def State.copyFail (s : State) (id : CoreId) (k : Cmd) (n code : Nat) (info : Word) : State :=
  (s.failCommand id .k code info k.opc k.ord n).copySettle id

/-- COPY_DISPATCH (R191) on the current core. -/
def State.copyDispatch (s : State) : State :=
  let c := s.core
  match c.cpy.queue, c.cpy.exec with
  | k :: rest, none =>
    if !c.engineOn || c.cpy.stopped || c.qHeld 2 k.ord || (k.drawerSide && c.qHeld 0 k.ord) then s
    else
      let e : KExec :=
        { cmd := k, next := 0, chunks := [], data := [], blocks := [], bit := 0, held := false, failed := none, failedAt := 0, mark := c.nextAcc, total := k.chunkCount
          drawerDone := !k.drawerSide || k.chunkCount == 0 }
      let d : Core := { c with cpy := { c.cpy with queue := rest, exec := some e } }
      if k.configures then s.setCore d.retireCopy
      else
        match c.copyCheck k with
        | some (code, info) => (s.setCore d).copyFail s.cur k 0 code info
        | none =>
          if (k.kind == .kput || k.kind == .kloc) && !s.reaches (entrySegs (c.routeEntry k.kch)) then
            ((s.setCore d).refuseNoTile s.cur k.kch).copyFail s.cur k 0 0x14 (noTile k.kch)
          else s.setCore d
  | _, _ => s

/-- COPY_DISPATCH (R191). -/
def execCopyDispatch (t : Nat) (s : State) : Host.Outcome State Fault Refusal := .next (s.at t).copyDispatch

/-! ### `kdec` (R197) -/

/-- Codes of length `len`, and the first one of them. -/
def decRow (len : Word) (l : Nat) : List Nat := (List.range 16).filter (fun s => (field (4 * s) 4 len).toNat == l)

/-- One symbol: the bits read from position `p` one by one, most significant first; the symbol and the position behind it. -/
def decSymbol (len : Word) (bit : Nat → Nat) : Nat → Nat → Nat → Nat → Nat → Nat × Nat
  | 0, p, _, _, _ => (0, p)
  | fuel + 1, p, l, code, first =>
    let code := 2 * code + bit p
    let row := decRow len l
    if code < first + row.length then (row.getD (code - first) 0, p + 1)
    else decSymbol len bit fuel (p + 1) (l + 1) code (2 * (first + row.length))

/-- `n` symbols from bit position `p`. -/
def decSymbols (len : Word) (bit : Nat → Nat) : Nat → Nat → List Nat × Nat
  | 0, p => ([], p)
  | n + 1, p =>
    let (y, q) := decSymbol len bit 12 p 1 0 0
    let (r, e) := decSymbols len bit n q
    (y :: r, e)

/-- Nibbles packed two a byte, the first in the low half (R34). -/
def packNibbles : List Nat → List (BitVec 8)
  | [] => []
  | [a] => [BitVec.ofNat 8 a]
  | a :: b :: r => BitVec.ofNat 8 (a + 16 * b) :: packNibbles r

/-- Bit `p` of a byte list, bit 7 of byte 0 first; past the end zero. -/
def streamBit (bs : List (BitVec 8)) (p : Nat) : Nat := (bs.getD (p / 8) 0).toNat / 2 ^ (7 - p % 8) % 2

/-- Chunk `n` of a `kdec` from source bytes that begin at byte `bit / 8` of the stream: its bytes and the next bit. -/
def decChunk (k : Cmd) (n bit : Nat) (bs : List (BitVec 8)) : List (BitVec 8) × Nat :=
  let syms := min 512 ((field 0 20 (k.reg 7)).toNat - 512 * n)
  let (ys, e) := decSymbols (k.reg 5) (streamBit bs) syms (bit % 8)
  (packNibbles ys, bit / 8 * 8 + e)

/-- The part of the source that a chunk reads: place and length. A chunk of `kdec` reads at most 768 bytes more of its
stream. -/
def KExec.reads (e : KExec) (n : Nat) : Int × Nat :=
  if e.cmd.kind == .kdec then ((((e.cmd.reg 0).toNat + e.bit / 8 : Nat) : Int), min 769 (e.cmd.rb - e.bit / 8))
  else (e.cmd.srcOf n, e.cmd.chunkLen n)

/-! ### Chunks (R192 to R197) -/

/-- The copy in execution changed. -/
def State.setCopy (s : State) (id : CoreId) (g : KExec → KExec) : State :=
  let c := s.coreAt id
  match c.cpy.exec with
  | some e => s.putCore id { c with cpy := { c.cpy with exec := some (g e) } }
  | none => s

/-- Chunk `n` marked. -/
def State.markChunk (s : State) (id n : Nat) (x : ChunkState) : State :=
  s.setCopy id (fun e => { e with chunks := Tab.put e.chunks n x })

/-- Do source and destination in the local scratchpad overlap, by their extents (R192)? -/
def Core.copyOverlaps (c : Core) (k : Cmd) : Bool :=
  let ext (b : Word) (st : Int) (n : Nat) : Int × Int :=
    let a : Int := b.toNat
    let z := a + ((k.rows - 1 : Nat) : Int) * st
    (min a z, max a z + n)
  let src := ext (k.reg 0) k.sstr k.rb
  let r := c.rings.get k.fillRing.toFin
  let dst : Int × Int :=
    if k.kind == .kfill then
      (((r.base + r.tail * (r.size * 128) : Nat) : Int), ((r.base + (r.tail + 1) * (r.size * 128) : Nat) : Int))
    else ext (k.reg 1) k.dstr k.rowBytes
  k.localSource && (k.localDest || k.kind == .kfill) && decide (src.1 < dst.2) && decide (dst.1 < src.2)

/-- The next chunk that may issue: the first without a state, at most seven above the lowest incomplete (R192); one at a
time where source and destination overlap and for `kdec`, none behind a faulted one (R193). -/
def Core.nextChunk (c : Core) (e : KExec) : Option Nat :=
  let busy := e.chunks.any (fun x => x.2 == .flying)
  let bad := e.chunks.any (fun x => match x.2 with | .faulted .. => true | _ => false)
  let k := e.cmd
  let r := c.rings.get k.fillRing.toFin
  if bad || (busy && (k.kind == .kdec || c.copyOverlaps k)) || (k.kind == .kfill && decide (r.count ≤ r.fill)) ||
      (k.dd && decide (256 ≤ c.slog.length)) then none
  else
    ((List.range 8).map (· + e.next)).find? (fun n => (Tab.get? e.chunks n).isNone && decide (n < k.chunkCount))

/-- Have the strand's earlier drawer accesses of the copy's class got out of its way (R173, R191, R249)? A read from the drawer waits
for earlier stores of the class in the side log; a write follows them into it (R194). -/
def State.classClear (s : State) (id : CoreId) (e : KExec) : Bool :=
  !e.cmd.drawerSide ||
    ((s.coreAt id).dacc.all (fun a => a.cls != e.cmd.cls || decide (e.mark ≤ a.id) ||
        (if a.isAtomic then !a.open else s.accepted id a || (a.st == .logged && !e.cmd.sd))) &&
      (!e.cmd.sd || !(s.coreAt id).slog.any (fun x => x.cls == e.cmd.cls && x.acc.isNone && x.ord != e.cmd.ord)))

/-- The address of a drawer side's byte `off`. -/
def sideVa (h : Handle) (off : Int) : Word := h.vpage + BitVec.ofInt 64 off

/-- A chunk into the side log (R194). -/
def State.chunkLogged (s : State) (id : CoreId) (e : KExec) (n : Nat) (bs : List (BitVec 8)) (ready : Bool) : State :=
  let k := e.cmd
  (s.setCopy id (fun x => { x with chunks := Tab.put x.chunks n .logged, data := Tab.del x.data n })).logEntry id
    { cls := k.cls, ord := k.ord, acc := none, chunk := n, opc := k.opc, addr := sideVa k.dh (k.dstOf n), bytes := bs, ready, place := 0 }

/-- A chunk whose drawer write faults: into the side log with a record, once there is a log slot (R194, R313, R317). -/
def State.chunkFaults (s : State) (id : CoreId) (e : KExec) (n : Nat) (bs : List (BitVec 8)) (type lev : Nat) (entry va : Word) :
    State :=
  if s.canLog id then
    let t := s.chunkLogged id e n bs false
    t.faultRecord (({ t with cur := id } : State).tileFault va type lev 3 entry e.cmd.opc e.cmd.cls.toNat)
  else s.keepStore id

/-- A chunk's write to drawer memory: into the side log, or as requests (R194). -/
def State.chunkToDrawer (s : State) (id : CoreId) (e : KExec) (n : Nat) (bs : List (BitVec 8)) : State :=
  let c := s.coreAt id
  let k := e.cmd
  let off := k.dstOf n
  let va := sideVa k.dh off
  let behind := c.logged k.cls
  if behind then s.chunkLogged id e n bs true
  else if k.dh.f then s.chunkFaults id e n bs k.dh.ftype k.dh.flevel k.dh.fentry va
  else if k.dh.isShot then
    match s.freshBlocks id (.chunk n) (cacheKey id) c.pos.ctx.toNat va bs.length with
    | (.done _ t, ps) => t.addBlocks id (.chunk n) va (some bs) ps
    | (.fault ty lev en a t, _) => t.chunkFaults id e n bs ty lev en a
    | (.wait t, _) => t
    | (.cause _ _ t, _) => t
  else s.addReqs id (.chunk n) (k.dh.base.toNat + off.toNat) va bs.length (some bs)

/-- The bytes of a chunk at their places in the local scratchpad (R191, R215). -/
def Core.chunkBytes (c : Core) (k : Cmd) (n : Nat) (bs : List (BitVec 8)) : ByteWrites :=
  if k.kind == .kfill then
    let r := c.rings.get k.fillRing.toFin
    let img := n / k.rowChunks * k.rb + 256 * (n % k.rowChunks)
    bs.zipIdx.map (fun p => (r.addr r.tail k.fillSwz (img + p.2), p.1))
  else bs.zipIdx.map (fun p => ((k.dstOf n).toNat + p.2, p.1))

/-- A chunk's bytes go to the bank units of the local scratchpad (R192, R210); a poisoned word of which it writes part ends the
copy (R151). -/
def State.chunkToLocal (s : State) (id : CoreId) (e : KExec) (n : Nat) (bs : List (BitVec 8)) : State :=
  let c := s.coreAt id
  let w := c.chunkBytes e.cmd n bs
  match poisonWrite c .k ((w.map (fun p => p.1 / 8)).eraseDups) w with
  | some q =>
    (s.setCopy id (fun x => { x with chunks := Tab.del x.chunks n })).copyFail id e.cmd n 0x15 q.info
  | none => s.putCore id (c.beginWrite (.chunkWrite n) 3 w)

/-- A chunk's source bytes are there: they go on their way to the destination. -/
def State.chunkRead (s : State) (id : CoreId) (n : Nat) (raw : List (BitVec 8)) : State :=
  match (s.coreAt id).cpy.exec with
  | none => s
  | some e =>
    let (bs, bit) := if e.cmd.kind == .kdec then decChunk e.cmd n e.bit raw else (raw, e.bit)
    let t := s.setCopy id (fun x => { x with
      bit := bit, chunks := Tab.put x.chunks n .flying, data := if e.cmd.dd then Tab.put x.data n bs else x.data })
    if e.cmd.dd then t.chunkToDrawer id e n bs else t.chunkToLocal id { e with bit } n bs

/-- A chunk's packet leaves when its channel has credit: `kput`'s bytes, or `kloc`'s request (R195). The address at the peer goes
whole: one beyond SPEND is found there. A request says where the reply's bytes go and which word counts them. -/
def State.chunkPacket (s : State) (e : KExec) (n : Nat) (data : List (BitVec 8)) : State :=
  let k := e.cmd
  let c := s.core
  let segs := entrySegs (c.routeEntry k.kch)
  let ready (c : Core) : Core := c.endXfer (.chunkRead n)
  let place (x : Int) : Nat := (x % 2 ^ 64).toNat
  if !s.reaches segs then
    (((s.setCore (ready c)).setCopy s.cur (fun x => { x with chunks := Tab.del x.chunks n })).refuseNoTile s.cur k.kch).copyFail
      s.cur k n 0x14 (noTile k.kch)
  else if !s.hasCredit k.kch (dataFlits data.length + 1) then s
  else
    let read := k.kind == .kloc
    ((s.setCore (ready c)).markChunk s.cur n .flying).launchPacket
      { kind := if read then 5 else 1, sch := k.kch, dch := 0, off := place (if read then k.srcOf n else k.dstOf n)
        aw := k.copyAw, awv := k.counts, len := if read then k.chunkLen n else data.length, data, slot := .k, ord := k.ord
        opc := k.opc, index := n, op := if read then .read (k.chunkLen n) (place (k.dstOf n)) else .deposit
        expect := none } segs true

/-- A chunk whose source handle is shot down reads with its blocks translated afresh (R193, R308, R316). -/
def State.chunkFresh (s : State) (id : CoreId) (e : KExec) (n : Nat) : State :=
  let (at_, len) := e.reads n
  let va := sideVa e.cmd.sh at_
  match s.freshBlocks id (.chunk n) (cacheKey id) (s.coreAt id).pos.ctx.toNat va len with
  | (.done _ t, ps) => t.addBlocks id (.chunk n) va none ps
  | (.fault ty lev en a t, _) => t.markChunk id n (.faulted ty lev en a t.sys.fgen)
  | (.wait t, _) => t
  | (.cause _ _ t, _) => t

/-- The next chunk of the current core's copy issued (R192 to R195). -/
def State.issueChunk (s : State) (e : KExec) (n : Nat) : State :=
  let c := s.core
  let k := e.cmd
  let (at_, len) := e.reads n
  if k.kind == .kloc then s.chunkPacket e n []
  else if k.localSource then
    match (wordsOf at_.toNat len).find? c.poison.contains with
    | some w => s.copyFail s.cur k n 0x15 (BitVec.ofNat 64 (8 * w))
    | none => (s.setCore (c.beginRead (.chunkRead n) 3 at_.toNat len)).markChunk s.cur n .flying
  else if !k.hasSource then s.chunkRead s.cur n (List.replicate len 0)
  else if len = 0 then s.chunkRead s.cur n []
  else
    let va := sideVa k.sh at_
    if k.sh.f then
      s.markChunk s.cur n (.faulted k.sh.ftype k.sh.flevel k.sh.fentry va s.sys.fgen)
    else if k.sh.isShot then (s.markChunk s.cur n .flying).chunkFresh s.cur e n
    else (s.markChunk s.cur n .flying).addReqs s.cur (.chunk n) (k.sh.base.toNat + at_.toNat) va len none

/-- A copy all of whose drawer accesses have performed has left the L queue (R127, R191). -/
def State.noteDrawerDone (s : State) : State :=
  s.mapCores (fun id c =>
    match c.cpy.exec with
    | some e =>
      if e.drawerDone then c
      else
        { c with cpy := { c.cpy with exec := some { e with
            drawerDone := s.copyAccepted id e && e.chunks.all (fun x => x.2 != .logged) &&
              (e.cmd.dd || s.reqs.all (fun r => !(r.core == id && (match r.owner with | .chunk _ => true | _ => false)))) } } }
    | none => c)

/-- CHUNK_ISSUE (R192) on the current core. -/
def State.chunkIssue (s : State) : State :=
  let c := s.core
  match c.cpy.exec with
  | none => s
  | some e =>
    if !c.engineOn || c.cpy.stopped || e.held || e.failed.isSome || !s.classClear s.cur e then s.copySettle s.cur
    else
      match c.nextChunk e with
      | some n => s.issueChunk e n
      | none => s

/-- CHUNK_ISSUE (R192). -/
def execChunkIssue (t : Nat) (s : State) : Host.Outcome State Fault Refusal := .next (s.at t).chunkIssue

/-- The requests of chunk `n`, once every one has ended and every reply is back. -/
def State.chunkEnds (s : State) (id : CoreId) (n : Nat) : Option (List Req) :=
  let rs := s.reqs.filter (fun r => r.core == id && r.owner == .chunk n)
  if rs.isEmpty || rs.any (fun r => r.res.isNone ||
      (r.write.isNone && (match r.place with | .served _ d => decide (s.cycle < d) | _ => true))) then none
  else some rs

/-- The bytes of the block at `va` of chunk `n`'s read, at their places in the local scratchpad. -/
def Core.blockBytes (c : Core) (e : KExec) (n : Nat) (va : Word) (bs : List (BitVec 8)) : ByteWrites :=
  let off := (va - sideVa e.cmd.sh (e.reads n).1).toNat
  (c.chunkBytes e.cmd n (List.replicate off 0 ++ bs)).drop off

/-- May the blocks of a chunk's read go to the local scratchpad each at its own time (R351)? They lie in one frame, so that a chunk that
faults is not written (R193), and no word of the destination is poisoned (DEDUCED, log 121). -/
def State.blocksAlone (s : State) (id : CoreId) (e : KExec) (n : Nat) (rs : List Req) : Bool :=
  let c := s.coreAt id
  !e.cmd.dd && e.cmd.kind != .kdec && rs.all (fun r => r.write.isNone && rs.all (fun q => q.addr / 2 ^ 16 == r.addr / 2 ^ 16)) &&
    (c.chunkBytes e.cmd n (List.replicate (e.cmd.chunkLen n) 0)).all (fun p => !c.poison.contains (p.1 / 8))

/-- The blocks of a chunk's read that are back go to the bank units (R351). -/
def State.chunkBlocks (s : State) (id : CoreId) (e : KExec) (n : Nat) (rs : List Req) : State :=
  rs.foldl (fun t r =>
    match r.res, r.place with
    | some (.ok bs), .served _ ready =>
      if s.cycle < ready ∨ (Tab.getD e.blocks n []).contains r.va then t
      else
        let c := t.coreAt id
        (t.putCore id (c.beginWrite (.chunkWrite n) 3 (c.blockBytes e n r.va bs))).setCopy id
          (fun x => { x with blocks := Tab.put x.blocks n (Tab.getD x.blocks n [] ++ [r.va]) })
    | _, _ => t) s

/-- A chunk that has failed or faulted: no more of its blocks is written. -/
def State.dropBlocks (s : State) (id n : Nat) : State :=
  (s.putCore id ((s.coreAt id).endXfer (.chunkWrite n))).setCopy id (fun x => { x with blocks := Tab.del x.blocks n })

/-- CHUNK_COMPLETE (R192): a chunk whose words its bank units have served goes on, from its source to its destination or to its
end; so does one whose drawer accesses have ended. -/
def State.chunkComplete (s : State) (id : CoreId) (n : Nat) : State :=
  let c := s.coreAt id
  match c.cpy.exec with
  | none => s
  | some e =>
    if Tab.get? e.chunks n != some .flying then s
    else if c.xferDone (.chunkRead n) then
      let (at_, len) := e.reads n
      let bs := c.xferBytes (.chunkRead n) at_.toNat len
      if e.cmd.kind == .kput then (s.at id).chunkPacket e n bs else (s.putCore id (c.endXfer (.chunkRead n))).chunkRead id n bs
    else if c.xferDone (.chunkWrite n) && s.reqs.all (fun r => !(r.core == id && r.owner == .chunk n)) then
      (s.dropBlocks id n).chunkWritten id n
    else if c.frozen then s
    else if (s.reqs.all (fun r => !(r.core == id && r.owner == .chunk n))) then
      match Tab.get? e.data n with
      | some bs => s.chunkToDrawer id e n bs
      | none => if (s.job? id (.chunk n)).isSome then s.chunkFresh id e n else s
    else
        let all := s.reqs.filter (fun r => r.core == id && r.owner == .chunk n)
        let alone := !(Tab.getD e.blocks n []).isEmpty || s.blocksAlone id e n all
        match s.chunkEnds id n with
        | none => if alone then s.chunkBlocks id e n all else s
        | some rs =>
          let u := s.clearReqs id (.chunk n)
          let t := u.dropBlocks id n
          let gone := t.setCopy id (fun x => { x with chunks := Tab.del x.chunks n })
          let write := rs.any (fun r => r.write.isSome)
          match firstBad rs with
          | some (code, info) => gone.copyFail id e.cmd n code info
          | none =>
            match firstFault rs with
            | some (ty, lev, en, va) =>
              if write then
                let bs := rs.flatMap (fun q => q.write.getD [])
                if s.canLog id then t.chunkFaults id e n bs ty lev en va else s.keepStore id
              else t.markChunk id n (.faulted ty lev en va s.sys.fgen)
            | none =>
              if write then (t.setCopy id (fun x => { x with data := Tab.del x.data n })).chunkWritten id n
              else if alone then u.chunkBlocks id e n rs
              else t.chunkRead id n (reqBytes rs)

/-- CHUNK_COMPLETE (R192). -/
def execChunkComplete (t n : Nat) (s : State) : Host.Outcome State Fault Refusal := .next (s.chunkComplete t n)

/-- CHUNK_READ_FAULT (R193): every issued chunk has finished or faulted, those in the side log by their replay (R194); the record
is made and the queue holds. -/
def State.chunkReadFault (s : State) (id : CoreId) : State :=
  let c := s.coreAt id
  match c.cpy.exec with
  | none => s
  | some e =>
    match e.chunks.find? (fun x => match x.2 with | .faulted .. => true | _ => false) with
    | some (n, .faulted ty lev en va stamp) =>
      if e.held || e.failed.isSome || e.chunks.any (fun x => x.2 == .flying || x.2 == .logged) then s
      else
        let bits := ((List.range 8).map (fun i => if Tab.get? e.chunks (n + i) = some .complete then 2 ^ i else 0)).sum
        let t := s.setCopy id (fun x => { x with held := true })
        let rec_ := ({ t with cur := id } : State).tileFault va ty lev 2 en e.cmd.opc e.cmd.cls.toNat
        { t with fbWait := t.fbWait ++ [{ rec_ with stamp, chunk := n, bitmap := bits }] }
    | _ => s

/-- CHUNK_READ_FAULT (R193). -/
def execChunkReadFault (t : Nat) (s : State) : Host.Outcome State Fault Refusal := .next (s.chunkReadFault t)

/-- A flush releases a copy held by a read fault: its faulted chunks issue again, through a fresh translation (R193, R315,
R316). -/
def KExec.release (e : KExec) : KExec :=
  if e.chunks.any (fun x => match x.2 with | .faulted .. => true | _ => false) then
    { e with
      held := false, cmd := { e.cmd with sh := e.cmd.sh.shot }
      chunks := e.chunks.filter (fun x => match x.2 with | .faulted .. => false | _ => true) }
  else e

/-! ### Remote reads (R195, R231) -/

/-- The route of the reply to a request: mirrored, or as it came through a port (R241). -/
def Packet.replySegs (p : Packet) : List Nat := if p.foreign then p.segs else mirrorSegs p.route []

/-- READ_REQUEST_SERVICE (R195): a request that has been taken in and has come whole is checked against SPEND and poison, its words are
read by the bank units, and the reply leaves; its credit goes back when they have been (R233). -/
def State.serviceRead (s : State) (p : Packet) (len back : Nat) : State :=
  let c := s.coreAt p.dst
  if !p.whole || c.frozen then s
  else if p.begun = 0 then
    if c.spend < p.off + len then s.discardPacket p 0x0B (BitVec.ofNat 64 p.off)
    else
      match (wordsOf p.off len).find? c.poison.contains with
      | some w => s.discardPacket p 0x15 (BitVec.ofNat 64 (8 * w))
      | none => (s.putCore p.dst (c.beginRead (.packet p.id) 5 p.off len)).putPacket { p with begun := 1 }
  else if !c.xferDone (.packet p.id) then s
  else
    let bytes := c.xferBytes (.packet p.id) p.off len
    ((s.offNet p).returnCredit p).replyTo p
      { kind := 4, sch := p.sch, dch := 0, off := back, aw := p.aw, awv := p.awv, len, data := bytes, slot := .k, ord := p.ord
        opc := p.opc, index := p.index, op := .deposit, expect := none } p.replySegs

/-- READ_REQUEST_SERVICE (R195): a cycle of a request at its tile. -/
def execReadRequestService (p : Nat) (s : State) : Host.Outcome State Fault Refusal :=
  .next (match s.net.find? (fun q => q.id == p) with
    | some q =>
      match q.op with
      | .read .. =>
        let t := s.comeIn q
        match t.net.find? (fun x => x.id == p) with
        | some r => (match r.op, r.place with | .read len back, .taken .. => t.serviceRead r len back | _, _ => t)
        | none => t
      | _ => s
    | none => s)

end Sys2Proof.Machine
end

