-- ==== Sys2Proof/Machine/Channel.lean ====
section
/-! DEFINITION. The channel engine at work: dispatch, sends, triggered sends, queue messages out, remote atomics
(07 R169 to R171, 08 R198 to R206, 10 R226 to R241, 15 R288). -/

namespace Sys2Proof.Machine

/-! ### Fields (R198, R199) -/

/-- LADDR. -/
def Cmd.laddr (k : Cmd) : Nat := (field 0 20 (k.reg 0)).toNat
/-- BYTES. -/
def Cmd.nbytes (k : Cmd) : Nat := (field 0 32 (k.reg 1)).toNat
/-- ROFF. -/
def Cmd.roff (k : Cmd) : Nat := (field 0 20 (k.reg 6)).toNat
/-- ch. -/
def Cmd.nch (k : Cmd) : Nat := (field 17 10 k.ops).toNat
/-- nxA. -/
def Cmd.nxA (k : Cmd) : Word := k.reg (8 + (field 14 3 k.ops).toNat)
/-- EN of nxA. -/
def Cmd.nxOn (k : Cmd) : Bool := k.nxA.getLsbD 63
/-- AW of nxA. -/
def Cmd.nxAw (k : Cmd) : Nat := (field 0 20 k.nxA).toNat
/-- TAW. -/
def Cmd.taw (k : Cmd) : Nat := (field 0 20 (k.reg 2)).toNat
/-- TGEN. -/
def Cmd.tgen (k : Cmd) : BitVec 32 := field 0 32 (k.reg 3)
/-- QID. -/
def Cmd.qid (k : Cmd) : Nat := (k.reg 4).toNat
/-- pd of `npop`. -/
def Cmd.popPd (k : Cmd) : BitVec 3 := field 9 3 k.ops
/-- PM of `npop`: fail mode. -/
def Cmd.popFail (k : Cmd) : Bool := field 12 2 k.ops == 1

/-! ### Queue descriptors (R283) -/

/-- Queue descriptor `q`. -/
def State.queueDesc (s : State) (q : Nat) : BitVec 256 := Tab.getD s.qdesc q 0
/-- V. -/
def qdV (d : BitVec 256) : Bool := d.getLsbD 0
/-- KIND: a launch queue. -/
def qdLaunch (d : BitVec 256) : Bool := d.getLsbD 1
/-- HOSTEN. -/
def qdHosten (d : BitVec 256) : Bool := d.getLsbD 2
/-- CLOSED. -/
def qdClosed (d : BitVec 256) : Bool := d.getLsbD 3
/-- CTX. -/
def qdCtx (d : BitVec 256) : Nat := (field 4 6 d).toNat
/-- HOME. -/
def qdHome (d : BitVec 256) : Nat := (field 64 16 d).toNat
/-- HN. -/
def qdHn (d : BitVec 256) : Nat := (field 80 9 d).toNat
/-- HBASE. -/
def qdHbase (d : BitVec 256) : Nat := (field 89 20 d).toNat
/-- HLOG. -/
def qdHlog (d : BitVec 256) : Nat := (field 109 4 d).toNat
/-- SLOG. -/
def qdSlog (d : BitVec 256) : Nat := (field 113 5 d).toNat
/-- HRING. -/
def qdHring (d : BitVec 256) : Word := field 128 64 d
/-- SBASE. -/
def qdSbase (d : BitVec 256) : Word := field 192 64 d
/-- Bytes of an entry. -/
def qdSize (d : BitVec 256) : Nat := if qdLaunch d then 128 else 64

/-! ### Dispatch (R199 to R206) -/

/-- A deferred cause of an N command: the engine stops (R178). -/
def State.sendFail (s : State) (k : Cmd) (code : Nat) (info : Word) : State := s.failCommand s.cur .n code info k.opc k.ord 0

/-- An N command that resolves no tile: `x` is its channel or queue number (R226, R267, R288, R323). -/
def State.sendNowhere (s : State) (k : Cmd) (x : Nat) : State := (s.refuseNoTile s.cur x).sendFail k 0x14 (noTile x)

/-- The dispatch checks of a command that reads a local extent of `n` bytes, in R199's order. A range reports LADDR, of an `nrot` too (R203;
DESIGN CHOICE, log 130). -/
def Core.sendCheck (c : Core) (k : Cmd) (n : Nat) (aw : Bool) : Option (Nat × Word) :=
  let w (x : Nat) : Word := BitVec.ofNat 64 x
  if k.laddr % 8 ≠ 0 then some (0x0A, w k.laddr)
  else if k.nbytes % 8 ≠ 0 then some (0x0A, w k.nbytes)
  else if k.kind != .npost && decide (k.roff % 8 ≠ 0) then some (0x0A, w k.roff)
  else if aw && decide (k.nxAw % 16 ≠ 0) then some (0x0A, w k.nxAw)
  else if k.kind == .nsendt && decide (k.taw % 16 ≠ 0) then some (0x0A, w k.taw)
  else if c.spend < k.laddr + n then some (0x0B, w k.laddr)
  else if aw && decide (c.spend < k.nxAw + 16) then some (0x0B, w k.nxAw)
  else if k.kind == .nsendt && decide (c.spend < k.taw + 16) then some (0x0B, w k.taw)
  else none

/-- The head of the N queue taken off. -/
def Core.popN (c : Core) : Core := { c with chn := { c.chn with queue := c.chn.queue.drop 1, held := false } }

/-- N lowered (R20). -/
def Core.lowerN (c : Core) : Core := { c with cnt := { c.cnt with n := c.cnt.n - 1 } }

/-- The send of `k` in progress from `src` to offset `roff` of the peer (R200, R203). -/
def Core.startSend (c : Core) (k : Cmd) (src roff : Nat) (segs : List Nat) (dch : Nat) (ex : Option (Nat × Nat × Nat)) :
    Core :=
  { c with chn := { c.chn with exec := some { cmd := k, next := 0, src, roff, segs, dch, expect := ex, pkt := none, flit := 0 } } }

/-- A queue message from the current core to the queue's home tile (R227). -/
def State.queueMessage (s : State) (k : Cmd) (data : List (BitVec 8)) (op : NetOp) : State :=
  let home := qdHome (s.queueDesc k.qid)
  let segs := computedSegs s.cur home
  if !s.reaches segs then s.sendNowhere k k.qid
  else
    s.launchPacket
      { kind := 6, sch := 0, dch := 0, off := 0, aw := 0, awv := false, len := max oneFlit data.length, data, slot := .n, ord := k.ord, opc := k.opc
        index := 0, op, expect := none } segs false

/-- TAG of the image a core runs (R74). -/
def Core.imageTag (c : Core) : BitVec 16 := c.plane.tag

/-- AFF that names a tile: 1 plus its gang-relative index (R206). -/
def Core.affinity (c : Core) : BitVec 16 :=
  BitVec.ofNat 16 (1 + (c.pos.y.toNat - c.pos.orgY.toNat) * c.pos.gangW.toNat + (c.pos.x.toNat - c.pos.orgX.toNat))

/-- `npush`, `npop` and `nclose` at dispatch: the message leaves, that of a push when its bytes have been read; a push and a pop stay
at the queue's head until the home tile answers (R205, R206, R210, R288). -/
def State.dispatchQueue (s : State) (k : Cmd) : State :=
  let c := s.core
  let d := s.queueDesc k.qid
  let hold (t : State) : State := t.setCore { t.core with chn := { t.core.chn with waiting := some k } }
  if !qdV d || (k.kind == .npop && qdLaunch d) then s.sendNowhere k k.qid
  else
    match k.kind with
    | .npush =>
      let n := qdSize d
      if k.laddr % n ≠ 0 then s.sendFail k 0x0A (BitVec.ofNat 64 k.laddr)
      else if c.spend < k.laddr + n then s.sendFail k 0x0B (BitVec.ofNat 64 k.laddr)
      else
        match (wordsOf k.laddr n).find? c.poison.contains with
        | some w => s.sendFail k 0x15 (BitVec.ofNat 64 (8 * w))
        | none => hold (s.setCore (c.beginRead .message 4 k.laddr n))
    | .npop => hold (s.queueMessage k [] (.pop k.qid c.imageTag c.affinity k.popFail))
    | _ => (s.setCore c.popN).queueMessage k [] (.close k.qid)

/-- The read of an armed send's trigger begun: both words of TAW, as one operation, at the channel engine's port (R202, R210, R239). -/
def Core.askTrigger (c : Core) (k : Cmd) : Core := c.beginXfer (.trigger k.ord) 4 [] [pairWord (k.taw / 8)] false

/-- Has a read of an armed send's trigger been served, and did it satisfy the condition (R160, R202)? -/
def Core.trigger (c : Core) (k : Cmd) : Bool × Bool :=
  let served := c.xferDone (.trigger k.ord)
  (served, served && genReached (BitVec.ofNat 32 (bytesNat (c.xferBytes (.trigger k.ord) (k.taw + 8) 4))) k.tgen)

/-- Does the trigger of an `nsendt` hold (R160, R202)? -/
def Core.triggered (c : Core) (k : Cmd) : Bool := genReached (genAt c k.taw) k.tgen

/-- The head command of the current core's N queue dispatched (R199 to R206). -/
def State.dispatchN (s : State) (k : Cmd) : State :=
  let c := s.core
  let send (t : State) (aim : Aim) (src roff : Nat) : State :=
    match aim with
    | .go segs dch ex => t.setCore (t.core.popN.startSend k src roff segs dch ex)
    | .nobody => t.setCore t.core.popN.lowerN
    | .refused => t.sendNowhere k k.nch
    | .fault ty lev en va => (t.setCore { t.core with chn := { t.core.chn with held := true } }).tableFault k ty lev en va
    | .wait => t
    | .cause code info => t.sendFail k code info
  match k.kind with
  | .nsend =>
    match c.sendCheck k k.nbytes k.nxOn with
    | some (code, info) => s.sendFail k code info
    | none => send s (s.aimRoute k.nch) k.laddr k.roff
  | .nsendt =>
    match c.sendCheck k k.nbytes k.nxOn with
    | some (code, info) => s.sendFail k code info
    | none =>
      if !s.reaches (entrySegs (c.routeEntry k.nch)) then s.sendNowhere k k.nch
      else if c.chn.armed.any (fun x => x.nch == k.nch) then s
      else
        let d := c.popN
        if c.triggered k then s.setCore { d with chn := { d.chn with fired := d.chn.fired ++ [k] } }
        else s.setCore (({ d with chn := { d.chn with armed := d.chn.armed ++ [k] } } : Core).askTrigger k)
  | .npost =>
    if k.nbytes = 0 then
      if k.laddr % 8 ≠ 0 then s.sendFail k 0x0A (BitVec.ofNat 64 k.laddr)
      else s.setCore { c.popN with chn := { c.popN.chn with posts := Tab.del c.chn.posts k.nch } }
    else
      match c.sendCheck k k.nbytes true with
      | some (code, info) => s.sendFail k code info
      | none =>
        s.setCore { c.popN with
          chn := { c.popN.chn with posts := Tab.put c.chn.posts k.nch { base := k.laddr, bytes := k.nbytes, aw := k.nxAw } } }
  | .nrot =>
    if !c.xferDone .parity then
      match c.sendCheck k k.nbytes true with
      | some (code, info) => s.sendFail k code info
      | none => if (c.xfersOf .parity).isEmpty then s.setCore (c.beginRead .parity 4 (k.nxAw + 8) 4) else s
    else
      let g := bytesNat (c.xferBytes .parity (k.nxAw + 8) 4) % 2
      let t := s.setCore (c.endXfer .parity)
      match c.sendCheck k ((g + 1) * k.nbytes) true with
      | some (code, info) => t.sendFail k code info
      | none => send t (s.aimRoute k.nch) (k.laddr + g * k.nbytes) (k.roff + (1 - g) * k.nbytes)
  | .ngsend =>
    match c.sendCheck k k.nbytes k.nxOn with
    | some (code, info) => s.sendFail k code info
    | none =>
      let (aim, t) := s.aimGroup k.nch (k.reg 5) k
      send t aim k.laddr k.roff
  | .ndisarm =>
    let cold (x : Cmd) : Bool := x.nch == k.nch && !c.triggered x
    if c.chn.armed.any cold then
      let d := (c.chn.armed.filter cold).foldl (fun (d : Core) x => d.endXfer (.trigger x.ord)) c.popN
      s.setCore ({ d with chn := { d.chn with armed := c.chn.armed.filter (fun x => !cold x) } } : Core).lowerN
    else s.setCore c.popN
  | _ => s.dispatchQueue k

/-- The first fired send taken up when no send is in progress and no join holds it (R127, R202, R250). -/
def State.takeFired (s : State) : State :=
  let c := s.core
  match c.chn.exec, c.chn.fired with
  | none, k :: rest =>
    if c.chn.stopped || c.frozen || c.firedHeld k.ord then s
    else
      let d : Core := { c with chn := { c.chn with fired := rest } }
      match s.aimRoute k.nch with
      | .go segs dch ex => s.setCore (d.startSend k k.laddr k.roff segs dch ex)
      | _ => s.sendNowhere k k.nch
  | _, _ => s

/-- CHANNEL_DISPATCH (R199) on the current core: commands are dispatched in order, one at a time; a send that has fired goes first
(R250). -/
def State.channelDispatch (s : State) : State :=
  let t := s.takeFired
  let c := t.core
  match c.chn.queue with
  | [] => t
  | k :: _ =>
    if !c.engineOn || c.chn.stopped || c.chn.held || c.chn.exec.isSome || c.chn.waiting.isSome || c.qHeld 1 k.ord then t
    else t.dispatchN k

/-- CHANNEL_DISPATCH (R199). -/
def execChannelDispatch (t : Nat) (s : State) : Host.Outcome State Fault Refusal := .next (s.at t).channelDispatch

/-- TRIGGERED_SEND_FIRE (R202): every armed send fires whose trigger's read of the cycle before satisfied its condition; those of the
others that have been served are made again. -/
def Core.fire (c : Core) : Core :=
  if !c.engineOn then c
  else
    let d := c.chn.armed.foldl (fun (d : Core) k =>
      let (served, holds) := c.trigger k
      if holds then d.endXfer (.trigger k.ord)
      else if served then (d.endXfer (.trigger k.ord)).askTrigger k
      else if (c.xfersOf (.trigger k.ord)).isEmpty then d.askTrigger k
      else d) c
    { d with
      chn := { d.chn with
        fired := c.chn.fired ++ c.chn.armed.filter (fun k => (c.trigger k).2), armed := c.chn.armed.filter (fun k => !(c.trigger k).2) } }

/-- TRIGGERED_SEND_FIRE (R202). -/
def execTriggeredSendFire (t : Nat) (s : State) : Host.Outcome State Fault Refusal := .next ((s.at t).setCore (s.at t).core.fire)

/-! ### Packets of a send (R200) -/

/-- Does the release word count this send's packets? `nrot`'s nxA is its parity word (R199, R203). -/
def Cmd.releases (k : Cmd) : Bool := k.nxOn && k.kind != .nrot

/-- Bytes of the packet that a send is at (R200). -/
def NExec.size (e : NExec) : Nat := min 1024 (e.cmd.nbytes - 1024 * e.next)

/-- The send in progress of the current core changed. -/
def State.setSend (s : State) (e : NExec) : State := s.setCore { s.core with chn := { s.core.chn with exec := some e } }

/-- The place of data flit `k` of the packet under way, from 0 on, and its length. -/
def NExec.flitAt (e : NExec) (k : Nat) : Nat × Nat := (e.src + 1024 * e.next + 64 * k, min 64 (e.size - 64 * k))

/-- The words of data flit `k` asked of the bank units (R200). -/
def State.askFlit (s : State) (e : NExec) (k : Nat) : State :=
  s.setCore (s.core.beginRead .flit 4 (e.flitAt k).1 (e.flitAt k).2)

/-- The packet under way of the current core a cycle on, in a freeze too (R179): a data flit whose words have been read enters the router. When the last one
has, the release word counts the packet, and behind the last packet the send retires (R200, R236). -/
def State.sendFlit (s : State) (e : NExec) (id : Nat) : State :=
  let c := s.core
  if e.flit = dataFlits e.size then
    let u := if e.cmd.releases then s.addArrival s.cur e.cmd.nxAw e.size s.cur e.cmd.ord .n none none else s
    let d := u.core
    if e.cmd.nbytes ≤ 1024 * (e.next + 1) then u.setCore ({ d with chn := { d.chn with exec := none } } : Core).lowerN
    else u.setSend { e with next := e.next + 1, pkt := none, flit := 0 }
  else if !c.xferDone .flit then s
  else
    let bs := c.xferBytes .flit (e.flitAt e.flit).1 (e.flitAt e.flit).2
    let t := (s.setCore (c.endXfer .flit)).setSend { e with flit := e.flit + 1 }
    let u : State := { t with
      net := t.net.map (fun p => if p.id = id then { p with data := p.data ++ bs, sent := p.sent + 1 } else p) }
    if e.flit + 1 < dataFlits e.size then u.askFlit { e with flit := e.flit + 1 } (e.flit + 1) else u

/-- The next packet of the send in progress on the current core: its header enters the router when its channel has credit, and its
first words are asked for (R200, R228). Poison is checked for the whole packet then (DESIGN CHOICE, log 128). -/
def State.sendPacket (s : State) : State :=
  let c := s.core
  match c.chn.exec with
  | none => s
  | some e =>
    let k := e.cmd
    if c.chn.stopped || !c.engineOn || e.pkt.isSome then s
    else if !s.reaches e.segs then s.sendNowhere k k.nch
    else
      match (wordsOf (e.flitAt 0).1 e.size).find? c.poison.contains with
      | some w => s.sendFail k 0x15 (BitVec.ofNat 64 (8 * w))
      | none =>
        if !s.hasCredit k.nch (dataFlits e.size + 1) then s
        else
          let t := s.launchPacket
            { kind := 0, sch := k.nch, dch := e.dch, off := e.roff + 1024 * e.next, aw := 0, awv := false, len := e.size
              data := [], slot := .n, ord := k.ord, opc := k.opc, index := e.next, op := .deposit, expect := e.expect }
            e.segs true
          (t.setSend { e with pkt := some s.serial, flit := 0 }).askFlit e 0

/-- The message of an `npush` whose bytes have been read leaves (R205, R210). -/
def State.sendPush (s : State) : State :=
  let c := s.core
  match c.chn.waiting with
  | some k =>
    if c.frozen || !c.xferDone .message then s
    else
      let n := qdSize (s.queueDesc k.qid)
      let d := c.endXfer .message
      let sent := if s.reaches (computedSegs s.cur (qdHome (s.queueDesc k.qid))) then some (s.cycle + dataFlits n + 1) else none
      let t := s.setCore { d with chn := { d.chn with accept := sent } }
      t.queueMessage k (c.xferBytes .message k.laddr n) (.push k.qid)
  | none => s

/-! ### Remote atomics (R169, R171, R241) -/

/-- CH of a remote address (R169). -/
def atomicCh (addr : Word) : Nat := (field 44 10 addr).toNat

/-- The oldest remote atomic of the current core that may leave, sent on its channel (R171, R173). -/
def State.sendAtomic (s : State) : Option State :=
  let c := s.core
  match c.dacc.find? (fun a => a.isAtomic && a.st == .queued && s.canLeave s.cur a) with
  | none => none
  | some a =>
    match a.kind with
    | .atomic op w _ _ b cc addr =>
      let ch := atomicCh addr
      let e := c.routeEntry ch
      if c.frozen then none
      else if !s.reaches (entrySegs e) then
        some ((s.refuseNoTile s.cur ch).setCore
          (((c.dropAccess a.id).unpend a.ord a.dests).defer (deferredCause .l 0x14 (noTile ch) a.opc a.ord)))
      else if !s.hasCredit ch 2 then none
      else
        some ((s.setCore (c.setAccess a.id .sent)).launchPacket
          { kind := 2, sch := ch, dch := entryDch e, off := a.off.toNat, aw := 0, awv := false, len := oneFlit, data := []
            slot := .l, ord := a.ord, opc := a.opc, index := 0, op := .atomic a.id op w b cc, expect := none } (entrySegs e) true)
    | _ => none

/-- PACKET_SEND (R200): the packet under way goes on; else a remote atomic that may leave does, or the next packet of the send in
progress. -/
def State.packetSend (s : State) : State :=
  let t := s.sendPush
  let u := match t.core.chn.exec with
    | some e => (match e.pkt with | some id => t.sendFlit e id | none => t)
    | none => t
  if (match u.core.chn.exec with | some e => e.pkt.isSome | none => false) then u
  else
    match u.sendAtomic with
    | some v => v
    | none => u.takeFired.sendPacket

/-- PACKET_SEND (R200). -/
def execPacketSend (t : Nat) (s : State) : Host.Outcome State Fault Refusal := .next (s.at t).packetSend

/-- The reply of a remote atomic on the mirrored route (R241). -/
def State.atomicReply (s : State) (p : Packet) (id : Nat) (old : Word) (ok : Bool) (bad : Option (Nat × Word)) (fl : Flags) :
    State :=
  ((s.offNet p).returnCredit p).replyTo p
    { kind := 3, sch := p.sch, dch := 0, off := p.off, aw := 0, awv := false, len := oneFlit, data := [], slot := .l, ord := p.ord
      opc := p.opc, index := 0, op := .reply id old ok bad fl, expect := none } p.replySegs

/-- A remote atomic that has been taken in and has come whole (R170, R241): access table, SPEND and poison; then its words are asked of
the bank units as one access, and when they are served the step is performed there. It has performed from then on (R172); its
tile hears of it by the reply. The address that a failure reports is the place in the target's scratchpad (R171; DESIGN CHOICE, log 126). -/
def State.serviceAtomic (s : State) (p : Packet) (id : Nat) (op : BitVec 8) (w : BitVec 2) (b cc : Word) : State :=
  let c := s.coreAt p.dst
  let n := atWidth w / 8
  let size := n * (if atPair op then 2 else 1)
  if !p.whole || c.frozen then s
  else if p.begun = 0 then
    if (s.grant p.dst p.ctx) != 3 || s.isHome p.dst then
      (s.atomicReply p id 0 false (some (0x14, targetInfo p.dst p.off)) 0).refuse 0 p.dst p.ctx p.ctx p.dst p.off
    else if c.spend < p.off + size then s.atomicReply p id 0 false (some (0x0B, BitVec.ofNat 64 p.off)) 0
    else
      match (wordsOf p.off size).find? c.poison.contains with
      | some q => s.atomicReply p id 0 false (some (0x15, BitVec.ofNat 64 (8 * q))) 0
      | none => (s.putCore p.dst (c.beginXfer (.packet p.id) 5 [] (wholeWords p.off size) true)).putPacket { p with begun := 1 }
  else if !c.xferDone (.packet p.id) then s
  else
    let m := 2 ^ atWidth w
    let x := c.spad.readN p.off n
    let y := c.spad.readN (p.off + n) n
    let (z, ok, fl) := atomicStep op.toNat (atWidth w) x y (b.toNat % m) (cc.toNat % m)
    let t := s.putCore p.dst (c.store (storeAt p.off n z))
    (if p.foreign then t else t.putCore p.src ((t.coreAt p.src).setAccess id .performed)).atomicReply p id (BitVec.ofNat 64 x) ok
      none fl

/-- REMOTE_ATOMIC_SERVICE (R241): a cycle of a request at its tile. -/
def execRemoteAtomicService (p : Nat) (s : State) : Host.Outcome State Fault Refusal :=
  .next (match s.net.find? (fun q => q.id == p) with
    | some q =>
      match q.op with
      | .atomic .. =>
        let t := s.comeIn q
        match t.net.find? (fun x => x.id == p) with
        | some r =>
          match r.op, r.place with
          | .atomic id op w b cc, .taken .. => t.serviceAtomic r id op w b cc
          | _, _ => t
        | none => t
      | _ => s
    | none => s)

/-- REMOTE_ATOMIC_REPLY (R171): d and pd at one boundary, or a deferred cause with both kept. -/
def State.takeReply (s : State) (p : Packet) (id : Nat) (old : Word) (ok : Bool) (bad : Option (Nat × Word)) (fl : Flags) :
    State :=
  let t := (s.tookSeq p).offNet p
  let c := t.coreAt p.dst
  match c.dacc.find? (fun a => a.id == id) with
  | none => t
  | some a =>
    let d := c.dropAccess id
    match bad, a.kind with
    | some (code, info), _ => t.putCore p.dst ((d.unpend a.ord a.dests).defer (deferredCause .l code info a.opc a.ord))
    | none, .atomic op _ r pd _ _ _ =>
      let e := d.lateResult .l a.ord 1 (.s r old) fl
      t.putCore p.dst (if atPred op then e.lateResult .l a.ord 1 (.p pd ok) 0 else e)
    | none, _ => t

/-- REMOTE_ATOMIC_REPLY (R171). -/
def execRemoteAtomicReply (p : Nat) (s : State) : Host.Outcome State Fault Refusal :=
  .next (match s.net.find? (fun q => q.id == p) with
    | some q =>
      match q.op with
      | .reply id old ok bad fl => if s.canServe q then s.takeReply q id old ok bad fl else s
      | _ => s
    | none => s)

end Sys2Proof.Machine
end

