-- ==== Sys2Proof/Machine/Queues.lean ====
section
/-! DEFINITION. The queue unit at the home tiles: appends, pops, closes, spill, staging rings, the host window's registers
(08 R205 to R207, 15 R280 to R288). -/

namespace Sys2Proof.Machine

/-- A fault record of sources 4 to 6 (R313). -/
def State.unitFault (s : State) (ctx source qid type lev : Nat) (entry va : Word) : State :=
  s.faultRecord
    { vaddr := va, stamp := 0, type, level := lev, ctx, source
      link := if type = 5 then entry.toNat else 0xFFFF, tid := 0xFFFF, opc := 0, chunk := 0, bitmap := 0, cls := 0, qid
      entry := if type = 1 ∨ type = 2 then entry else 0 }

/-! ### Queues as they stand (R284 to R286) -/

/-- The record of queue `q`. -/
def State.queueRec (s : State) (q : Nat) : QueueRec := Tab.getD s.queues q QueueRec.fresh

/-- The state with the record of queue `q` replaced. -/
def State.putQueue (s : State) (q : Nat) (r : QueueRec) : State := { s with queues := Tab.put s.queues q r }

/-- Does a continuation whose word 0 is `w` match a tag and an affinity (R206, R207)? -/
def keyMatches (w : Nat) (tag aff : BitVec 16) : Bool :=
  decide (w / 2 ^ 16 % 2 ^ 16 = tag.toNat) && (decide (w / 2 ^ 32 % 2 ^ 16 = 0) || decide (w / 2 ^ 32 % 2 ^ 16 = aff.toNat))

/-- Word 0 of an entry. -/
def entryKey (e : List (BitVec 8)) : Nat := bytesNat (e.take 8)

/-- Is a pop in fail mode, and does it take an entry of word 0 `w` (R206)? -/
def Packet.popFails (p : Packet) : Bool := match p.op with | .pop _ _ _ fail => fail | _ => false

/-- Does an entry of word 0 `w` match a pop? -/
def Packet.takesKey (p : Packet) (w : Nat) : Bool :=
  match p.op with
  | .pop _ tag aff _ => keyMatches w tag aff
  | _ => false

/-- The address of spill entry `i` (R283). -/
def spillAddr (d : BitVec 256) (i : Nat) : Word := qdSbase d + BitVec.ofNat 64 (i % 2 ^ qdSlog d * qdSize d)

/-- Does the spill ring hold an entry that a pop takes (R286)? -/
def QueueRec.spillHas (r : QueueRec) (p : Packet) : Bool := r.keys.any (fun w => p.takesKey w.toNat)

/-- The blocked pops to which no entry of the spill ring goes: each entry, oldest first, goes to the earliest blocked pop that it
matches (R286). -/
def unserved : List Word → List Packet → List Packet
  | [], ps => ps
  | w :: ws, ps => unserved ws (match ps.find? (fun p => p.takesKey w.toNat) with | some p => ps.filter (fun x => x.id != p.id) | none => ps)

/-- Units an entry charges (R285). -/
def qdUnits (d : BitVec 256) : Nat := qdSize d / 64

/-- A waiting entry: its queue, the cycle in which it began to wait and a name. -/
structure Waiter where
  q : Nat
  since : Nat
  name : Nat
deriving DecidableEq, Repr

/-- The name under which the staging ring of queue `q` waits. -/
def stageName (q : Nat) : Nat := 2 ^ 64 + q

/-- Entries of a context that wait for quota (R285). -/
def State.quotaWaits (s : State) (ctx : Nat) : List Waiter :=
  (s.queues.filter (fun e => qdCtx (s.queueDesc e.1) == ctx)).flatMap (fun e =>
    e.2.waiting.map (fun p => ⟨e.1, p.due, p.id⟩) ++ (match e.2.since with | some c => [⟨e.1, c, stageName e.1⟩] | none => []))

/-- Did `a` begin to wait before `b`? -/
def Waiter.before (a b : Waiter) : Bool := decide (a.since < b.since) || (a.since == b.since && decide (a.name < b.name))

/-- Does none of the context's waiting entries come before entry `w` (R285)? One that has just arrived and does not go to the spill
ring waits only for those of its queue (R284). -/
def State.firstInLine (s : State) (w : Waiter) (spills : Bool) : Bool :=
  let ws := s.quotaWaits (qdCtx (s.queueDesc w.q))
  let own := ws.any (fun x => x.name == w.name)
  ws.all (fun x => !x.before w || (!spills && !own && x.q != w.q))

/-- The queues an entry of which is on its way to the spill ring. -/
def State.spilling (s : State) : List Nat :=
  s.jobs.filterMap (fun j => match j.who with | .spillOut q _ => some q | _ => none)

/-- The units of a context's entries on their way to its spill rings: they are admitted, and their charge comes with their writes. -/
def State.chargeOut (s : State) (ctx : Nat) : Nat :=
  ((s.spilling.filter (fun q => qdCtx (s.queueDesc q) == ctx)).map (fun q => qdUnits (s.queueDesc q))).sum

/-- Does the quota admit an entry of queue `q` to the spill ring (R285)? -/
def State.quotaAdmits (s : State) (q : Nat) : Bool :=
  let d := s.queueDesc q
  let r := s.queueRec q
  decide (r.inn - r.out < 2 ^ qdSlog d) &&
    decide (Tab.getD s.charged (qdCtx d) 0 + s.chargeOut (qdCtx d) + qdUnits d ≤ (s.ctx (qdCtx d)).quota.toNat)

/-- The outcome of a pop on its way back from the home tile (R206). -/
def State.answerPop (s : State) (p : Packet) (words : List Word) (ok : Bool) : State :=
  s.replyTo p
    { kind := 6, sch := 0, dch := 0, off := 0, aw := 0, awv := false, len := oneFlit, data := [], slot := .n, ord := p.ord, opc := p.opc
      index := 0, op := .popped words ok, expect := none } (computedSegs p.dst p.src)

/-- The eight words of an entry. -/
def entryWords (e : List (BitVec 8)) : List Word :=
  (List.range 8).map (fun i => BitVec.ofNat 64 (bytesNat ((e.drop (8 * i)).take 8)))

/-- The words of an outcome without an entry (R206). -/
def emptyWords (code : Nat) : List Word := BitVec.ofNat 64 code :: List.replicate 7 0

/-- Blocked pops of queue `q` that no entry of it matches any more: outcome 2 on a closed queue, outcome 1 in fail mode (R206, R286,
R287). -/
def State.settlePops (s : State) (q : Nat) : State :=
  let r := s.queueRec q
  let closed := qdClosed (s.queueDesc q)
  let gone (p : Packet) : Bool := !r.spillHas p && (closed || p.popFails)
  (r.blocked.filter gone).foldl (fun t p => t.answerPop p (emptyWords (if closed then 2 else 1)) false)
    (s.putQueue q { r with blocked := r.blocked.filter (fun p => !gone p) })

/-- How an append ended. -/
inductive Appended
  /-- in the queue, with a pop, or discarded -/
  | done (s : State)
  /-- it waits where it is -/
  | waits (s : State)

/-- The write of an entry to the tail of the spill ring, begun or going on (R284, R285). -/
def State.spillOut (s : State) (q name : Nat) (e : List (BitVec 8)) : Appended :=
  let d := s.queueDesc q
  match s.unitWrite (.spillOut q name) (cacheKey (qdHome d)) (qdCtx d) (spillAddr d (s.queueRec q).inn) e with
  | .done _ t =>
    let r := t.queueRec q
    .done { t.putQueue q { r with inn := r.inn + 1, keys := r.keys ++ [BitVec.ofNat 64 (entryKey e)] } with
      charged := Tab.put t.charged (qdCtx d) (Tab.getD t.charged (qdCtx d) 0 + qdUnits d) }
  | .fault ty lev en va t =>
    .waits ((t.putQueue q { t.queueRec q with heldSpill := true }).unitFault (qdCtx d) 4 q ty lev en va)
  | .cause _ _ t => .waits (t.putQueue q { t.queueRec q with heldSpill := true })
  | .wait t => .waits t

/-- One append to queue `q` (R284 to R287): to the earliest blocked pop that it matches, the head segment, or the spill ring. Appends of
a queue are served one at a time: while one goes to the spill ring the others wait. -/
def State.append (s : State) (q since name : Nat) (e : List (BitVec 8)) : Appended :=
  let d := s.queueDesc q
  let r := s.queueRec q
  let w : Waiter := ⟨q, since, name⟩
  if qdClosed d then .done s
  else if (s.job? moduleUnit (.spillOut q name)).isSome then s.spillOut q name e
  else if s.spilling.contains q || !s.firstInLine w false then .waits s
  else
    match (if qdLaunch d then none else (unserved r.keys r.blocked).find? (fun p => p.takesKey (entryKey e))) with
    | some p => .done ((s.putQueue q { r with blocked := r.blocked.filter (fun x => x.id != p.id) }).answerPop p (entryWords e) true)
    | none =>
      if r.out = r.inn ∧ r.head.length < qdHn d then .done (s.putQueue q { r with head := r.head ++ [e] })
      else if r.heldSpill || !s.quotaAdmits q || !s.firstInLine w true then .waits s
      else s.spillOut q name e

/-- A push that its home tile has taken: it leaves the sender's queue (R205); N has fallen when the router had accepted it (R20). -/
def State.pushDone (s : State) (p : Packet) : State :=
  let c := s.coreAt p.src
  match c.chn.waiting with
  | some k =>
    if k.ord = p.ord then
      let d : Core := { c with
        chn := { c.chn with waiting := none, accept := none, queue := c.chn.queue.filter (fun x => x.ord != p.ord) } }
      s.putCore p.src (if c.chn.accept == some 0 then d else d.lowerN)
    else s
  | none => s

/-- Is a queue message refused: no grant, no home tile, or a queue of another context (R205, R283, R322)? -/
def State.messageRefused (s : State) (p : Packet) (q : Nat) : Bool :=
  let d := s.queueDesc q
  !((s.grant p.dst p.ctx).getLsbD 1) || !s.isHome p.dst || qdCtx d != p.ctx || qdHome d != p.dst

/-- QUEUE_APPEND (R284, R285): an arriving push, or one that waits for quota. -/
def State.pushArrives (s : State) (p : Packet) (q : Nat) : State :=
  let t := s.tookSeq p
  if t.messageRefused p q then t.refusePacket p
  else
    match t.append q s.cycle p.id p.data with
    | .done u => (u.offNet p).pushDone p
    | .waits u =>
      let v := u.offNet p
      v.putQueue q { v.queueRec q with waiting := (v.queueRec q).waiting ++ [{ p with due := s.cycle }] }

/-- The queue whose waiting pushes hold packet `id`. -/
def State.waitingPush (s : State) (id : Nat) : Option (Nat × Packet) :=
  s.queues.findSome? (fun e => (e.2.waiting.find? (fun p => p.id == id)).map (fun p => (e.1, p)))

/-- QUEUE_APPEND (R284). -/
def execQueueAppend (p : Nat) (s : State) : Host.Outcome State Fault Refusal :=
  .next (match s.net.find? (fun x => x.id == p) with
    | some x =>
      match x.op with
      | .push q => if s.canServe x then s.pushArrives x q else s
      | _ => s
    | none =>
      match s.waitingPush p with
      | none => s
      | some (q, x) =>
        match s.append q x.due x.id x.data with
        | .done u =>
          (u.putQueue q { u.queueRec q with waiting := (u.queueRec q).waiting.filter (fun y => y.id != p) }).pushDone x
        | .waits u => u)

/-! ### Pops (R206, R286) -/

/-- A pop at its home tile: the oldest matching entry, a wait, or an empty outcome (R206, R286, R287). -/
def State.pop (s : State) (p : Packet) (q : Nat) : State :=
  let r := s.queueRec q
  match r.head.findIdx? (fun e => p.takesKey (entryKey e)) with
  | some i => (s.putQueue q { r with head := r.head.eraseIdx i }).answerPop p (entryWords (r.head.getD i [])) true
  | none => (s.putQueue q { r with blocked := r.blocked ++ [p] }).settlePops q

/-- QUEUE_POP (R286). -/
def execQueuePop (p : Nat) (s : State) : Host.Outcome State Fault Refusal :=
  .next (match s.net.find? (fun x => x.id == p) with
    | some x =>
      match x.op with
      | .pop q _ _ _ =>
        if !s.canServe x then s
        else
          let t := s.tookSeq x
          if t.messageRefused x q then t.refusePacket x else (t.offNet x).pop x q
      | _ => s
    | none => s)

/-- The outcome of an `npop` written whole at one boundary (R206): s56 to s63 and pd, as engine results. -/
def Core.popLands (c : Core) (k : Cmd) (words : List Word) (ok : Bool) : Core :=
  let d := words.zipIdx.foldl (fun (x : Core) w => x.lateResult .n k.ord 1 (.s (BitVec.ofNat 6 (56 + w.2)) w.1) 0) c
  d.lateResult .n k.ord 1 (.p k.popPd ok) 0

/-- NPOP_RESULT_WRITE (R206). -/
def execNpopResultWrite (p : Nat) (s : State) : Host.Outcome State Fault Refusal :=
  .next (match s.net.find? (fun x => x.id == p) with
    | some x =>
      match x.op with
      | .popped words ok =>
        if !s.canServe x then s
        else
          let t := (s.tookSeq x).offNet x
          let c := t.coreAt x.dst
          match c.chn.waiting with
          | some k =>
            if k.ord = x.ord then
              t.putCore x.dst (({ c with
                chn := { c.chn with waiting := none, queue := c.chn.queue.filter (fun y => y.ord != x.ord) } } : Core).popLands k words ok)
            else t
          | none => t
      | _ => s
    | none => s)

/-! ### Closing (R287) -/

/-- A queue closed: waiting pushes and offered staging entries are discarded, blocked pops with no entry left get
outcome 2 (R287, R301). -/
def State.closeQueue (s : State) (q : Nat) : State :=
  let r := s.queueRec q
  let s1 : State := { s with qdesc := Tab.put s.qdesc q (s.queueDesc q ||| 8) }
  let s2 := r.waiting.foldl (fun t p => t.pushDone p) s1
  let s3 := s2.dropJobs moduleUnit (fun w => match w with | .spillOut n _ => n == q | .stage n => n == q | _ => false)
  (s3.putQueue q { r with waiting := [], since := none, taken := r.tail }).settlePops q

/-- QUEUE_CLOSE (R287): an arriving close message. On a launch queue only a commit closes. -/
def execQueueClose (p : Nat) (s : State) : Host.Outcome State Fault Refusal :=
  .next (match s.net.find? (fun x => x.id == p) with
    | some x =>
      match x.op with
      | .close q =>
        if !s.canServe x then s
        else
          let t := s.tookSeq x
          if t.messageRefused x q then t.refusePacket x
          else if qdLaunch (t.queueDesc q) then t.offNet x
          else (t.offNet x).closeQueue q
      | _ => s
    | none => s)

/-! ### Spill (R284) -/

/-- SPILL_MOVE (R284): the oldest spill entry moves into the head segment, and to the earliest blocked pop that takes it. -/
def State.spillMove (s : State) (q : Nat) : State :=
  let d := s.queueDesc q
  let r := s.queueRec q
  if r.heldSpill || decide (r.inn = r.out) || decide (qdHn d ≤ r.head.length) then s
  else
    match s.unitRead moduleUnit (.spillIn q) (cacheKey (qdHome d)) (qdCtx d) (spillAddr d r.out) (qdSize d) false with
    | .done e t =>
      let u : State := { t with charged := Tab.put t.charged (qdCtx d) (Tab.getD t.charged (qdCtx d) 0 - qdUnits d) }
      let r1 : QueueRec := { r with out := r.out + 1, keys := r.keys.drop 1 }
      (match (if qdLaunch d then none else r.blocked.find? (fun (p : Packet) => p.takesKey (entryKey e))) with
        | some p => (u.putQueue q { r1 with blocked := r.blocked.filter (fun x => x.id != p.id) }).answerPop p (entryWords e) true
        | none => u.putQueue q { r1 with head := r.head ++ [e] }).settlePops q
    | .fault ty lev en va t => (t.putQueue q { r with heldSpill := true }).unitFault (qdCtx d) 4 q ty lev en va
    | .cause _ _ t => t.putQueue q { r with heldSpill := true }
    | .wait t => t

/-- SPILL_MOVE (R284). -/
def execSpillMove (q : Nat) (s : State) : Host.Outcome State Fault Refusal := .next (s.spillMove q)

/-! ### The host window (R280 to R282) -/

/-- May a host port drive context `c` (R322)? -/
def State.hostMay (s : State) (port c : Nat) : Bool := (s.hostSets.toList.getD port 0).getLsbD c

/-- Must an access of the window wait: earlier posted writes of its port are still to be served, or an earlier access waits (R256)? -/
def State.hostPending (s : State) (port : Nat) : Bool :=
  s.hostWait.any (fun e => e.1 == port) || s.reqs.any (fun r => r.core == 0x10000 + port && r.write.isSome && r.res.isNone)

/-- An access of the window of port `port` that takes place when those before it have been served: its effect, or its place in line. -/
def State.inTurn (s : State) (port : Nat) (e : Event) (now : State) : State :=
  if 4 ≤ port then s else if s.hostPending port then { s with hostWait := s.hostWait ++ [(port, e)] } else now

/-- TAIL_REGISTER_WRITE (R281): it is checked, and offers entries or is discarded. -/
def State.writeTail (s : State) (port q : Nat) (x : Word) : State :=
  let d := s.queueDesc q
  let r := s.queueRec q
  let t : BitVec 32 := field 0 32 x
  if 131072 ≤ q then s
  else if !qdV d || !s.hostMay port (qdCtx d) then
    s.refuse 5 port (if qdV d then qdCtx d else 64) (65 + port) 0xFFFF (8 * q)
  else if !qdHosten d || decide (2 ^ qdHlog d < (t - r.tail).toNat + (r.tail - r.taken).toNat) then
    s.offer 5 port (qdCtx d) 0x0001 (leBytes 4 q)
  else if qdClosed d then s.putQueue q { r with tail := t, taken := t }
  else s.putQueue q { r with tail := t }

/-- TAIL_REGISTER_WRITE (R281): it waits for the port's earlier writes (R256). -/
def execTailRegisterWrite (port q : Nat) (x : Word) (s : State) : Host.Outcome State Fault Refusal :=
  .next (s.inTurn port (.tailRegisterWrite port q x) (s.writeTail port q x))

/-- STAGING_ENTRY_TAKE (R281): the next offered entry is read through the context's translation and appended; TAKEN rises. -/
def State.takeStaging (s : State) (q : Nat) : State :=
  let d := s.queueDesc q
  let r := s.queueRec q
  if !qdV d || r.heldStage || decide (r.taken = r.tail) then s
  else
    let va := qdHring d + BitVec.ofNat 64 (r.taken.toNat % 2 ^ qdHlog d * qdSize d)
    match s.unitRead moduleUnit (.stage q) (cacheKey (qdHome d)) (qdCtx d) va (qdSize d) true with
    | .done e t =>
      (match t.append q (r.since.getD s.cycle) (stageName q) e with
      | .done u => (u.dropJobs moduleUnit (· == .stage q)).putQueue q { u.queueRec q with taken := r.taken + 1, since := none }
      | .waits u => u.putQueue q { u.queueRec q with since := some (r.since.getD s.cycle) })
    | .fault ty lev en a t =>
      ((t.dropJobs moduleUnit (· == .stage q)).putQueue q { r with heldStage := true }).unitFault (qdCtx d) 5 q ty lev en a
    | .cause _ _ t => (t.dropJobs moduleUnit (· == .stage q)).putQueue q { r with heldStage := true }
    | .wait t => t

/-- STAGING_ENTRY_TAKE (R281). -/
def execStagingEntryTake (q : Nat) (s : State) : Host.Outcome State Fault Refusal := .next (s.takeStaging q)

/-- The key of event counter `e` of context `c` (R282). -/
def eventKey (c e : Nat) : Nat := 1024 * c + e

/-- EVENT_COUNTER_WRITE (R282): a counter of a free context is 0 and stays so, since it is 0 when its context is created. -/
def State.writeEvent (s : State) (port c e : Nat) (x : BitVec 32) : State :=
  if 64 ≤ c ∨ 1024 ≤ e then s
  else if !s.hostMay port c then s.refuse 5 port c (65 + port) 0xFFFF (0x100000 + 4096 * c + 4 * e)
  else { s with evctr := Tab.put s.evctr (eventKey c e) x }

/-- EVENT_COUNTER_WRITE (R282): it waits for the port's earlier writes (R256). -/
def execEventCounterWrite (port c e : Nat) (x : BitVec 32) (s : State) : Host.Outcome State Fault Refusal :=
  .next (s.inTurn port (.eventCounterWrite port c e x) (s.writeEvent port c e x))

/-- A read of the host window: tail registers in 8 bytes, event counters in 4; another size, a reserved place and a refused read give
zeros (R280, R281, R322, R323). -/
def State.readWindow (s : State) (port off len : Nat) : State :=
  let out (t : State) (x : Nat) : State := { t with outbox := t.outbox ++ [.hostRead port off (leBytes len x)] }
  let guard (c : Nat) (x : Nat) : State :=
    if s.hostMay port c then out s x else out (s.refuse 5 port c (65 + port) 0xFFFF off) 0
  if off < 0x100000 then
    if len = 8 ∧ off % 8 = 0 then
      let d := s.queueDesc (off / 8)
      let r := s.queueRec (off / 8)
      if qdV d then guard (qdCtx d) (r.tail.toNat + 2 ^ 32 * r.taken.toNat) else out (s.refuse 5 port 64 (65 + port) 0xFFFF off) 0
    else out s 0
  else if off < 0x140000 then
    if len = 4 ∧ off % 4 = 0 then
      let c := (off - 0x100000) / 4096
      guard c (Tab.getD s.evctr (eventKey c (off % 4096 / 4)) 0).toNat
    else out s 0
  else out s 0

/-- A write to the host window (R280). -/
def State.writeWindow (s : State) (port off : Nat) (data : List (BitVec 8)) : State :=
  if off < 0x100000 then
    if data.length = 8 ∧ off % 8 = 0 then s.writeTail port (off / 8) (BitVec.ofNat 64 (bytesNat data)) else s
  else if off < 0x140000 then
    if data.length = 4 ∧ off % 4 = 0 then
      s.writeEvent port ((off - 0x100000) / 4096) (off % 4096 / 4) (BitVec.ofNat 32 (bytesNat data))
    else s
  else s

/-- HOST_DRAWER_ACCESS (R256, R280): an access of a host port to drawer memory, or to its window BAR0, in the order of its port. -/
def execHostDrawerAccess (port : Nat) (write : Bool) (addr : HostPlace) (len : Nat) (data : List (BitVec 8)) (s : State) :
    Host.Outcome State Fault Refusal :=
  .next (if addr.window then
      s.inTurn port (.hostDrawerAccess port write addr len data)
        (if write then s.writeWindow port addr.addr data else s.readWindow port addr.addr len)
    else if s.hostWait.any (fun e => e.1 == port) then
      { s with hostWait := s.hostWait ++ [(port, .hostDrawerAccess port write addr len data)] }
    else s.hostAccess port write addr.addr len data)

end Sys2Proof.Machine
end

