-- ==== Sys2Proof/Machine/Launch.lean ====
section
/-! DEFINITION. Launches: records, checks, placement, loading, starting, draining and completing; barrier rounds; gang aborts
(05 R123, 12 R259 to R265, 15 R289 to R301, 21 R374). -/

namespace Sys2Proof.Machine

/-! ### Launch records (R289 to R292) -/

/-- OX of GEOM (R290). -/
def geomOx (g : Word) : Nat := (field 16 8 g).toNat
/-- OY of GEOM (R290). -/
def geomOy (g : Word) : Nat := (field 24 8 g).toNat
/-- POLICY of GEOM (R290). -/
def geomPolicy (g : Word) : Nat := (field 32 2 g).toNat
/-- PRIO of GEOM (R290). -/
def geomPrio (g : Word) : Nat := (field 34 3 g).toNat
/-- WIN of GEOM (R290). -/
def geomWin (g : Word) : Nat := (field 37 3 g).toNat
/-- CEVT of GEOM (R290). -/
def geomCevt (g : Word) : Nat := (field 40 10 g).toNat
/-- CEN of GEOM (R290). -/
def geomCen (g : Word) : Bool := g.getLsbD 50
/-- DEPK of dependence `d` (R290). -/
def geomDepk (g : Word) (d : Nat) : Nat := (field (51 + 2 * d) 2 g).toNat

/-- The send window that WIN names (R290). -/
def winFlits (n : Nat) : Nat := [32, 8, 16, 64, 128].getD n 32

/-- Word `i` of a record. -/
def recWord (e : List (BitVec 8)) (i : Nat) : Word := BitVec.ofNat 64 (bytesNat ((e.drop (8 * i)).take 8))

/-- A launch at the head of queue `qid` (R289, R294). -/
def launchOf (id qid ctx now : Nat) (e : List (BitVec 8)) : Launch :=
  let g := recWord e 2
  { id, qid, ctx, image := recWord e 0, looptab := recWord e 1, geom := g
    deps := (List.range 4).map (fun i => recWord e (4 + i)), args := (List.range 8).map (fun i => recWord e (8 + i)), bad := 0
    st := .head, headAt := now, stale := false, firsts := 0, ox := geomOx g, oy := geomOy g, behind := false, placedAt := 0
    loaded := false, loadedAt := 0, hold := false, grant := 0, startAt := 0, cost := 0, data := [], dataAddr := 0, tokens := [] }

/-- The record of a launch, for its return to the front of its queue (R300); bytes 24 to 31 of an accepted one are zero. -/
def Launch.record (l : Launch) : List (BitVec 8) :=
  ([l.image, l.looptab, l.geom, 0] ++ l.deps ++ l.args).flatMap (fun w => leBytes 8 w.toNat)

/-- Is a dependence word malformed: status 6 (R291, R292)? -/
def State.badDep (s : State) (ctx kind : Nat) (w : Word) : Bool :=
  let d := s.ctx ctx
  match kind with
  | 0 => false
  | 1 =>
    let x := (field 16 8 w).toNat
    let y := (field 24 8 w).toNat
    decide (d.w.toNat ≤ x) || decide (d.h.toNat ≤ y) || s.isHole (tidOf (d.x0.toNat + x) (d.y0.toNat + y))
  | 2 => field 10 22 w != 0
  | _ => true

/-- The status of a record that becomes head, 0 when it passes (R292). -/
def State.headStatus (s : State) (l : Launch) (reserved : Word) : Nat :=
  let g := l.geom
  let d := s.ctx l.ctx
  let w := geomW g
  let h := geomH g
  if field 59 5 g != 0 || reserved != 0 || w = 0 || h = 0 || geomPolicy g = 3 || 5 ≤ geomWin g ||
      (List.range 4).any (fun i => s.badDep l.ctx (geomDepk g i) (l.deps.getD i 0)) then 6
  else if d.w.toNat < w || d.h.toNat < h ||
      (geomPolicy g != 0 && (decide (d.w.toNat < geomOx g + w) || decide (d.h.toNat < geomOy g + h))) then 2
  else 0

/-! ### The launches as the coordinator holds them -/

/-- Launch `id`. -/
def State.launch? (s : State) (id : Nat) : Option Launch := s.launches.find? (fun l => l.id == id)

/-- The state with a launch replaced. -/
def State.putLaunch (s : State) (l : Launch) : State :=
  { s with launches := s.launches.map (fun x => if x.id = l.id then l else x) }

/-- Is a launch head or eligible: is its record still in its queue (R294)? -/
def Launch.waits (l : Launch) : Bool := l.st == .head || l.st == .eligible

/-- Does a placed or starting launch reserve a tile (R297)? -/
def Launch.reserves (l : Launch) (tid : Nat) : Bool :=
  !l.waits && inRect l.ox l.oy (geomW l.geom) (geomH l.geom) tid

/-- The record at the head of a launch queue becomes head (R294). A record that waits there is a launch from then on; its check is made
at this instant (R292). One that has been head before ages as before (R300). -/
def State.admitHead (s : State) (q : Nat) : State :=
  let d := s.queueDesc q
  match (s.queueRec q).head with
  | e :: _ =>
    if qdV d && qdLaunch d && (s.ctx (qdCtx d)).st != 5 && !(s.launches.any (fun l => l.qid == q && l.waits)) then
      let (n, t) := s.fresh
      let age := (s.queueRec q).ages.headD (s.cycle, false)
      let l := { launchOf n q (qdCtx d) age.1 e with stale := age.2 }
      ({ t with launches := t.launches ++ [{ l with bad := s.headStatus l (recWord e 3) }] } : State).putQueue q
        { s.queueRec q with ages := (s.queueRec q).ages.drop 1 }
    else s
  | [] => s

/-- Every queue's head admitted. -/
def State.admitHeads (s : State) : State := (s.queues.map (·.1)).foldl State.admitHead s

/-- The first record of a queue gone. -/
def State.dropHead (s : State) (q : Nat) : State :=
  s.putQueue q { s.queueRec q with head := (s.queueRec q).head.drop 1 }

/-- The reads of a launch's image given up. -/
def State.dropLoad (s : State) (id : Nat) : State :=
  s.dropJobs moduleUnit (fun w => match w with | .image n _ => n == id | _ => false)

/-- A launch back in state head at the front of its queue: its loading stops, and what had become head meanwhile is queued again and
keeps its age (R300, R372). -/
def State.toHead (s : State) (l : Launch) : State :=
  let r := s.queueRec l.qid
  let next (x : Launch) : Bool := x.id != l.id && x.qid == l.qid && x.waits
  let rest := s.launches.filter (fun x => !(x.id == l.id || next x))
  ({ s.dropLoad l.id with launches := rest ++ [{ launchOf l.id l.qid l.ctx l.headAt l.record with stale := l.stale }] } :
    State).putQueue l.qid
      { r with head := l.record :: r.head, ages := (s.launches.filter next).map (fun x => (x.headAt, x.stale)) ++ r.ages }

/-! ### Completing (R293) -/

/-- The completion event counter raised (R282, R293). -/
def State.bumpEvent (s : State) (c e : Nat) : State :=
  { s with evctr := Tab.put s.evctr (eventKey c e) (Tab.getD s.evctr (eventKey c e) 0 + 1) }

/-- What every completion does after its rectangle is released (R293). -/
def State.reportLaunch (s : State) (l : Launch) (status : Nat) : State :=
  let t := if geomCen l.geom then s.bumpEvent l.ctx (geomCevt l.geom) else s
  t.offer 2 0 l.ctx 0x0002 (leBytes 4 l.qid ++ leBytes 1 status)

/-- A launch that has no gang completes (R292, R293): its reservation goes with it. -/
def State.endLaunch (s : State) (l : Launch) (status : Nat) : State :=
  let t : State := { s.dropLoad l.id with launches := s.launches.filter (fun x => x.id != l.id) }
  (if l.waits then t.dropHead l.qid else t).reportLaunch l status

/-- The gangs without those whose launch is complete and that hold no tile (R297). -/
def dropOver (gs : List Gang) : List Gang := gs.filter (fun g => !(g.isOver && g.tiles.all g.left.contains))

/-- A gang's tile given up (R297). -/
def State.leaveTile (s : State) (tid : Nat) : State :=
  { s with gangs := dropOver (s.gangs.map (fun g => if g.holds tid then { g with left := tid :: g.left } else g)) }

/-- Has a gang's every member reached its drain point (R293)? -/
def State.gangDrained (s : State) (g : Gang) : Bool :=
  g.tiles.all (fun t => g.left.contains t || (match (s.coreAt t).strand with | .drained _ => true | _ => false))

/-- A gang whose members have all drained completes with status 0: the members after `done` return to the free area, those after
`swap` keep their tiles (R123, R293, R297). -/
def State.endGang (s : State) (g : Gang) : State :=
  let goes := g.tiles.filter (fun t => !g.left.contains t && (s.coreAt t).strand == .drained false)
  let t := goes.foldl (fun (t : State) id => t.putCore id { t.coreAt id with strand := .none }) s
  let h := { g with left := goes ++ g.left, isOver := true }
  ({ t with gangs := dropOver (t.gangs.map (fun x => if x.id = g.id then h else x)) } : State).reportLaunch g.launch 0

/-- LAUNCH_COMPLETE (R292, R293) of gang or launch `g`. -/
def State.complete (s : State) (g : Nat) : State :=
  match s.gangs.find? (fun x => x.id == g) with
  | some x => if !x.isOver && s.gangDrained x then s.endGang x else s
  | none =>
    match s.launch? g with
    | some l => if l.waits && l.bad != 0 then s.endLaunch l l.bad else s
    | none => s

/-- LAUNCH_COMPLETE (R293). -/
def execLaunchComplete (g : Nat) (s : State) : Host.Outcome State Fault Refusal := .next (s.complete g)

/-- STALE_LAUNCH (R301): once for a launch that stays in state head beyond the age limit. -/
def execStaleLaunch (l : Nat) (s : State) : Host.Outcome State Fault Refusal :=
  .next (match s.launch? l with
    | some x =>
      let age := (field 0 32 s.sys.lnchAge).toNat
      if x.st == .head && !x.stale && age != 0 && decide (65536 * age < s.cycle - x.headAt) then
        (s.putLaunch { x with stale := true }).offer 2 0 x.ctx 0x0003 (leBytes 4 x.qid)
      else s
    | none => s)

/-! ### Dependences (R291, R296) -/

/-- Has a 32-bit count reached a value (R160)? -/
def reached (now v : BitVec 32) : Bool := (now - v).toNat < 2 ^ 31

/-- The tile and the arrival word of dependence word `w` of context `ctx` (R291). -/
def State.depPlace (s : State) (ctx : Nat) (w : Word) : Nat × Nat :=
  let d := s.ctx ctx
  (tidOf (d.x0.toNat + (field 16 8 w).toNat) (d.y0.toNat + (field 24 8 w).toNat), 16 * (field 0 16 w).toNat)

/-- Does dependence `i` of a launch hold (R291)? That of an arrival word holds when the coordinator's read of it has been served in this
round and has met GEN (R296). -/
def State.depHolds (s : State) (l : Launch) (i : Nat) : Bool :=
  let w := l.deps.getD i 0
  let v : BitVec 32 := field 32 32 w
  match geomDepk l.geom i with
  | 0 => true
  | 1 =>
    let (t, a) := s.depPlace l.ctx w
    let c := s.coreAt t
    c.xferDone (.dep l.id i) && reached (BitVec.ofNat 32 (bytesNat (c.xferBytes (.dep l.id i) (a + 8) 4))) v
  | _ => reached (Tab.getD s.evctr (eventKey l.ctx (field 0 10 w).toNat) 0) v

/-- The read of the arrival word of dependence `i`, through the remote-access port of its tile, as one operation (R296); one that a freeze
has kept waits there still. A word beyond SPEND is not read (DESIGN CHOICE, log 52). -/
def State.askDep (s : State) (l : Launch) (i : Nat) : State :=
  if geomDepk l.geom i != 1 then s
  else
    let (t, a) := s.depPlace l.ctx (l.deps.getD i 0)
    let c := s.coreAt t
    if decide (c.spend < a + 16) || !(c.xfersOf (.dep l.id i)).isEmpty then s
    else s.putCore t (c.beginXfer (.dep l.id i) 5 [] [pairWord (a / 8)] false)

/-- DEPENDENCE_READ (R296): in a round the arrival words of a launch's dependences are asked for. -/
def State.readDeps (s : State) (id : Nat) : State :=
  match s.launch? id with
  | some l => if s.cycle % 256 = 0 ∧ l.waits then (List.range 4).foldl (fun (t : State) i => t.askDep l i) s else s
  | none => s

/-- Is an access a dependence's read that `p` picks? -/
def Xfer.depRead (x : Xfer) (p : Nat → Bool) : Bool := match x.owner with | .dep l _ => p l | _ => false

/-- The reads of dependences that `p` picks gone: those served, or those of a launch that waits no more. -/
def State.dropDeps (s : State) (p : Xfer → Bool) : State :=
  { s with cores := s.cores.map (fun e => (e.1, { e.2 with xfers := e.2.xfers.filter (fun x => !p x) })) }

/-- Every waiting launch of a round: eligible when every dependence holds, head when one does not (R294, R296). -/
def State.judgeDeps (s : State) : State :=
  s.dropDeps (fun x => x.depRead (fun l => x.todo.isEmpty || !s.launches.any (fun y => y.id == l && y.waits))) |> fun t =>
    { t with launches := s.launches.map (fun l =>
        if l.waits then { l with st := if (List.range 4).all (s.depHolds l) then .eligible else .head } else l) }

/-- DEPENDENCE_READ (R296). -/
def execDependenceRead (l : Nat) (s : State) : Host.Outcome State Fault Refusal := .next (s.readDeps l)

/-! ### Placement (R295, R297) -/

/-- Is a tile in the region of a migration (R372)? -/
def State.inRegion (s : State) (tid : Nat) : Bool :=
  match Tab.get? s.migrations (fieldOf tid) with
  | some m => m.region.contains tid
  | none => false

/-- Is a tile's field in use: on, and powered when the boot set the maps (R390)? -/
def State.fieldInUse (s : State) (f : Nat) : Bool := s.sys.fpwrSt.getLsbD f && s.bootFields.getLsbD f

/-- May a tile be placed at all: no hole, no queue home, no migration, in a field in use (R259, R297, R372, R390)? -/
def State.placeable (s : State) (tid : Nat) : Bool :=
  !s.isHole tid && !s.isHome tid && !s.inRegion tid && !(s.coreAt tid).frozen && s.fieldInUse (fieldOf tid)

/-- Is a tile reserved for a saved gang that is restored (R300)? -/
def SavedGang.reserves (v : SavedGang) (tid : Nat) : Bool :=
  match v.place with
  | some (ox, oy) => inRect ox oy v.gang.w v.gang.h tid
  | none => false

/-- Is a tile reserved: by a launch, or for a saved gang (R297, R300)? -/
def State.reserved (s : State) (tid : Nat) : Bool := s.launches.any (·.reserves tid) || s.saved.any (·.reserves tid)

/-- Is a tile free: no gang and no reservation holds it (R297)? -/
def State.tileFree (s : State) (tid : Nat) : Bool := (s.gangOf tid).isNone && !s.reserved tid

/-- May a policy-2 launch of context `c` take a tile (R297)? -/
def State.tileBehind (s : State) (c tid : Nat) : Bool :=
  s.tileFree tid || ((match s.gangOf tid with | some g => g.ctx == c | none => false) && !s.reserved tid)

/-- Is every tile of a rectangle placeable and passed by `ok`? -/
def State.rectOk (s : State) (ok : Nat → Bool) (ox oy w h : Nat) : Bool :=
  (rectTiles ox oy w h).all (fun t => s.placeable t && ok t)

/-- First fit in a context's rectangle, row by row (R297). -/
def State.firstFit (s : State) (d : Ctx) (w h : Nat) : Option (Nat × Nat) :=
  if d.w.toNat < w ∨ d.h.toNat < h then none
  else
    ((List.range (d.h.toNat - h + 1)).flatMap (fun j => (List.range (d.w.toNat - w + 1)).map (fun i =>
      (d.x0.toNat + i, d.y0.toNat + j)))).find? (fun o => s.rectOk s.tileFree o.1 o.2 w h)

/-- The rectangle a launch's policy finds, and whether it is behind held tiles (R297); it lies in its context's, also after a commit
that changed that one (R320, R322). -/
def State.findRect (s : State) (l : Launch) : Option (Nat × Nat × Bool) :=
  let d := s.ctx l.ctx
  let w := geomW l.geom
  let h := geomH l.geom
  let ox := d.x0.toNat + geomOx l.geom
  let oy := d.y0.toNat + geomOy l.geom
  let inside := decide (geomOx l.geom + w ≤ d.w.toNat ∧ geomOy l.geom + h ≤ d.h.toNat)
  match geomPolicy l.geom with
  | 0 => (s.firstFit d w h).map (fun o => (o.1, o.2, false))
  | 1 => if inside && s.rectOk s.tileFree ox oy w h then some (ox, oy, false) else none
  | _ =>
    if !inside then none
    else if s.rectOk s.tileFree ox oy w h then some (ox, oy, false)
    else if s.rectOk (s.tileBehind l.ctx) ox oy w h then some (ox, oy, true) else none

/-- Gangs of a context at once, reservations and saved ones included (R328). -/
def State.gangCount (s : State) (c : Nat) : Nat :=
  (s.gangs.filter (fun g => g.ctx == c)).length + (s.launches.filter (fun l => l.ctx == c && !l.waits)).length +
    (s.saved.filter (fun g => g.gang.ctx == c)).length

/-- The effective priority of a launch (R292, R295). -/
def State.priority (s : State) (l : Launch) : Nat :=
  let ceil := (s.ctx l.ctx).ceil.toNat
  min (geomPrio l.geom + (s.cycle - l.headAt) / 65536) ceil

/-- Does launch `a` come before `b` in a round (R295)? -/
def State.goesBefore (s : State) (a b : Launch) : Bool :=
  decide (s.priority b < s.priority a) || (s.priority a == s.priority b && (decide (a.headAt < b.headAt) ||
    (a.headAt == b.headAt && decide (a.qid ≤ b.qid))))

/-- A launch put into its place in the order of a round. -/
def State.orderIn (s : State) (l : Launch) : List Launch → List Launch
  | [] => [l]
  | x :: r => if s.goesBefore l x then l :: x :: r else x :: s.orderIn l r

/-- The launches of a round in order (R295): those of active contexts. -/
def State.roundOrder (s : State) : List Launch :=
  (s.launches.filter (fun l => l.waits && (s.ctx l.ctx).st == 1)).foldr s.orderIn []

/-- A launch placed (R294): its record leaves its queue and the next becomes head. -/
def State.placeLaunch (s : State) (l : Launch) (ox oy : Nat) (behind : Bool) : State :=
  (((s.putLaunch { l with st := .placed, ox, oy, behind, placedAt := s.cycle, firsts := 0 }).dropHead l.qid).admitHead l.qid)

/-- The launches of a round considered in order (R295): `seen` are the contexts of those left unplaced so far, `shut` those closed to
backfill. A launch that was first of its context for 16 rounds keeps later ones from being placed until it is. -/
def State.considerAll (s : State) : List Launch → List Nat → List Nat → State
  | [], _, _ => s
  | l :: r, seen, shut =>
    let open_ := l.st == .eligible && !shut.contains l.ctx
    match if !open_ || 256 ≤ s.gangCount l.ctx then none else s.findRect l with
    | some (ox, oy, b) => (s.placeLaunch l ox oy b).considerAll r seen shut
    | none =>
      let n :=
        if 16 ≤ l.firsts then l.firsts else if l.st == .eligible && !seen.contains l.ctx then l.firsts + 1 else 0
      (s.putLaunch { l with firsts := n }).considerAll r (l.ctx :: seen) (if 16 ≤ n then l.ctx :: shut else shut)

/-- PLACEMENT_ROUND (R295), with what the reads of the dependences have brought (R296). A launch whose record fails its check is not
considered (R292). -/
def State.placementRound (s : State) : State :=
  if s.cycle % 256 ≠ 0 then s
  else
    let t := s.judgeDeps
    t.considerAll (t.roundOrder.filter (fun l => l.bad == 0)) [] []

/-- PLACEMENT_ROUND (R295). -/
def execPlacementRound (s : State) : Host.Outcome State Fault Refusal := .next s.placementRound

/-! ### Loading (R73 to R75, R225, R260, R261, R298) -/

/-- Marks of literal bodies, scanning code from position `pos` with `skip` halfwords of a body to come; and whether a body runs
past the end (R73, R75). -/
def scanMarks : List (BitVec 16) → Nat → Nat → List Nat × Bool
  | [], skip, _ => ([], decide (0 < skip))
  | _ :: r, skip + 1, pos => let (m, b) := scanMarks r skip (pos + 1); (pos :: m, b)
  | c :: r, 0, pos => scanMarks r (if c = 0xFFFF then 24 else 0) (pos + 1)

/-- Are the segments of a route entry well formed (R223, R225)? -/
def goodSegs : List Nat → Bool
  | [] => true
  | 0x40 :: _ => true
  | 0x00 :: off :: r => decide (0 < off ∧ off < 64) && goodSegs r
  | 0x00 :: [] => false
  | sg :: r => sg != 0x80 && sg != 0xC0 && goodSegs r

/-- Is a route entry well formed (R222, R225)? -/
def goodRoute (e : Word) : Bool := field 48 6 e == 0 && goodSegs (entrySegs e)

/-- Bits `lo` to `lo + n − 1` of an image header (R74). -/
def hdrField (x lo n : Nat) : Nat := x / 2 ^ lo % 2 ^ n

/-- The sections of an image as offset and length: dictionary, code, routes, loop table, data (R74). -/
def imageSections (x : Nat) : List (Nat × Nat) :=
  [(hdrField x 256 32, 48 * hdrField x 64 16), (hdrField x 288 32, 2 * hdrField x 80 16),
    (hdrField x 320 32, 8 * hdrField x 96 16), (hdrField x 384 32, 8 * hdrField x 224 16), (hdrField x 352 32, hdrField x 192 32)]

/-- Does one section run into the start of another (R75)? An empty section that starts where another does is met by neither (DEDUCED,
log 47). -/
def sectionsClash (l : List (Nat × Nat)) : Bool :=
  l.zipIdx.any (fun a => l.zipIdx.any (fun b =>
    a.2 != b.2 && decide (b.1.1 < a.1.1 + a.1.2 ∧ (a.1.1 < b.1.1 ∨ (a.1.1 = b.1.1 ∧ 0 < b.1.2)))))

/-- Is an image header rejected (R75)? `spend` is SPEND of the core that loads it. -/
def badHeader (x spend : Nat) : Bool :=
  hdrField x 0 32 != 0x31574C59 || hdrField x 48 16 != 0 || hdrField x 240 16 != 0 || hdrField x 416 96 != 0 ||
    decide (1024 < hdrField x 64 16) || hdrField x 80 16 == 0 || decide (8192 < hdrField x 80 16) ||
    decide (1024 < hdrField x 96 16) || decide (8 < hdrField x 224 16) || decide (hdrField x 80 16 ≤ hdrField x 112 16) ||
    hdrField x 160 32 % 8 != 0 || decide (spend < hdrField x 160 32 + hdrField x 192 32) ||
    (imageSections x).any (fun p => p.1 % 64 != 0) || sectionsClash (imageSections x)

/-- `n` byte groups of `k` bytes as numbers. -/
def groupsOf (k : Nat) (bs : List (BitVec 8)) (n : Nat) : List Nat :=
  (List.range n).map (fun i => bytesNat ((bs.drop (k * i)).take k))

/-- A list as a table that leaves out the entries equal to what an unlisted one reads as. -/
def listTab {α : Type} [DecidableEq α] (d : α) (l : List α) : Tab α :=
  ((l.zipIdx).filter (fun p => p.1 != d)).map (fun p => (p.2, p.1))

/-- The plane that an image's sections make (R73, R74, R225). -/
def planeOf (x : Nat) (dict code routes loops : List Nat) : Plane :=
  let hw := code.map (BitVec.ofNat 16)
  { code := listTab 0xFFFE hw
    marks := (scanMarks hw 0 0).1
    dict := listTab 0 (dict.map (BitVec.ofNat 384))
    routes := listTab 0x0000404040404040 (routes.map (BitVec.ofNat 64))
    loops := loops.map (fun w => { kind := w / 2 ^ 32 % 4, trips := BitVec.ofNat 32 w })
    ndict := hdrField x 64 16, ncode := hdrField x 80 16, tag := BitVec.ofNat 16 (hdrField x 32 16)
    entry := BitVec.ofNat 13 (hdrField x 112 16) }

/-- Is a filled plane rejected: a body past the end, a marked ENTRY, a bad route (R75, R225)? -/
def badPlane (x : Nat) (code routes : List Nat) : Bool :=
  let (marks, runs) := scanMarks (code.map (BitVec.ofNat 16)) 0 0
  runs || marks.contains (hdrField x 112 16) || !(routes.all (fun r => goodRoute (BitVec.ofNat 64 r)))

/-- Is a loop table rejected for a gang of `w` × `h` (R261)? -/
def badLoops (loops : List Nat) (w h : Nat) : Bool :=
  let prod (k : Nat) : Nat := ((loops.filter (fun e => e / 2 ^ 32 % 4 == k)).map (· % 2 ^ 32)).foldl (· * ·) 1
  loops.any (fun e => e / 2 ^ 34 != 0 || e % 2 ^ 32 == 0) || prod 1 != w || prod 2 != h

/-- How a load ends (R292, R298). -/
inductive Loaded
  | ok (p : Plane) (cost addr : Nat) (data : List (BitVec 8))
  | status (n : Nat)
  /-- a translation fault -/
  | fault (type lev : Nat) (entry va : Word)
  | wait
  /-- poisoned data: no rule names a status (log 36) -/
  | poisoned
deriving DecidableEq, Repr

/-- What a read that has not brought its bytes means for a load: missing permission, at the leaf or at a drawer port, is status 4
(R292, R323). -/
def Retry.loaded : Retry → Loaded × State
  | .done _ t => (.wait, t)
  | .wait t => (.wait, t)
  | .fault ty lev e va t => (.fault ty lev e va, t)
  | .cause code _ t => (if code = 0x15 then .poisoned else .status 4, t)

/-- How part `i` of an image is read: `n` bytes at an address. -/
abbrev PartReader := Nat → Word → Nat → State → Retry

/-- Several parts read side by side: their bytes one after the other, or what keeps them from being there. -/
def readParts (rd : PartReader) : List (Nat × Word × Nat) → State → Retry
  | [], s => .done [] s
  | (i, a, n) :: r, s =>
    match rd i a n s with
    | .done bs t =>
      match readParts rd r t with
      | .done cs u => .done (bs ++ cs) u
      | x => x
    | .wait t =>
      match readParts rd r t with
      | .done _ u => .wait u
      | x => x
    | x => x

/-- The part of `bs` that belongs to the `i`-th of sections of the lengths `ls`. -/
def sliceOf (bs : List (BitVec 8)) (ls : List Nat) (i : Nat) : List (BitVec 8) :=
  (bs.drop (ls.take i).sum).take (ls.getD i 0)

/-- The sections of an image checked (R74, R75, R225, R261): the loop table comes first. -/
def checkImage (x : Nat) (bs : List (BitVec 8)) (ls : List Nat) (w h : Nat) : Loaded :=
  let cs := groupsOf 2 (sliceOf bs ls 2) (hdrField x 80 16)
  let rs := groupsOf 8 (sliceOf bs ls 3) (hdrField x 96 16)
  let loops := groupsOf 8 (sliceOf bs ls 0) (hdrField x 224 16)
  let gw := hdrField x 128 16
  let gh := hdrField x 144 16
  if badPlane x cs rs || (gw != 0 && gw != w) || (gh != 0 && gh != h) then .status 1
  else if badLoops loops w h then .status 3
  else
    .ok (planeOf x (groupsOf 48 (sliceOf bs ls 1) (hdrField x 64 16)) cs rs loops)
      ((48 * hdrField x 64 16 + 2 * hdrField x 80 16 + 8 * hdrField x 96 16 + 7) / 8) (hdrField x 160 32) (sliceOf bs ls 4)

/-- The image and loop table of a launch read and checked (R74, R75, R225, R261, R292, R298). Missing permission comes before what a
section holds; of an image whose header is rejected, the loop table's first word is read for that. -/
def State.readImage (s : State) (rd : PartReader) (image looptab : Word) (w h spend : Nat) : Loaded × State :=
  if image.toNat % 64 ≠ 0 ∨ looptab.toNat % 8 ≠ 0 then (.status 4, s)
  else
    match rd 0 image 64 s with
    | .done hb t =>
      let x := bytesNat hb
      let sec (i : Nat) : Nat × Nat := (imageSections x).getD i (0, 0)
      if badHeader x spend then
        if looptab = 0 then (.status 1, t)
        else
          match rd 1 looptab 8 t with
          | .done _ u => (.status 1, u)
          | .cause 0x15 _ u => (.status 1, u)
          | y => y.loaded
      else
        let at_ (i : Nat) : Word := image + BitVec.ofNat 64 (sec i).1
        let parts : List (Nat × Word × Nat) :=
          [(2, if looptab = 0 then at_ 3 else looptab, (sec 3).2), (3, at_ 0, (sec 0).2), (4, at_ 1, (sec 1).2), (5, at_ 2, (sec 2).2),
            (6, at_ 4, (sec 4).2)]
        match readParts rd parts t with
        | .done bs u => (checkImage x bs (parts.map (fun p => p.2.2)) w h, u)
        | y => y.loaded
    | y => y.loaded

/-- How the launch units read the parts of an image, as transfers of `who` whose requests go in the slots of their links (R298, R341). The
875 tc that R299 gives an unloaded reading hold as far as the latencies of the links leave room for them (DEDUCED, log 117). -/
def imageReader (who : Nat → JobOwner) (k ctx : Nat) : PartReader :=
  fun part va n t => if n = 0 then .done [] t else t.unitRead moduleUnit (who part) k ctx va n true

/-- A core's shadow plane filled (R298). -/
def Core.loadShadow (c : Core) (p : Plane) : Core :=
  { c with planes := if c.curPlane then c.planes.set 0 p else c.planes.set 1 p }

/-- PLANE_LOAD (R298): the image and loop table of placed launch `id` are read, checked and written into the shadow planes of its
tiles; a rejection completes the launch (R292); a translation fault holds it, with a record. -/
def State.planeLoad (s : State) (id : Nat) : State :=
  match s.launch? id with
  | none => s
  | some l =>
    if l.st != .placed || l.loaded || l.hold || decide (s.cycle < l.placedAt + 1) then s
    else
      match s.readImage (imageReader (.image id) (fieldOf (tidOf l.ox l.oy)) l.ctx) l.image l.looptab
        (geomW l.geom) (geomH l.geom) 0xC0000 with
      | (.wait, t) => t
      | (.status n, t) => t.endLaunch l n
      | (.poisoned, t) => (t.dropLoad id).putLaunch { l with hold := true }
      | (.fault ty lev e va, t) => ((t.dropLoad id).putLaunch { l with hold := true }).unitFault l.ctx 6 0 ty lev e va
      | (.ok p cost addr data, t) =>
        l.tiles.foldl (fun (u : State) tid => u.putCore tid ((u.coreAt tid).loadShadow p))
          ((t.dropLoad id).putLaunch { l with loaded := true, loadedAt := s.cycle, cost, data, dataAddr := addr })

/-- PLANE_LOAD (R298). -/
def execPlaneLoad (l : Nat) (s : State) : Host.Outcome State Fault Refusal := .next (s.planeLoad l)

/-! ### Starting (R9, R262, R299) -/

/-- Is a tile ready for a placed launch: free of gangs, or of one whose every member is at its drain point, since no member leaves
before (R259, R299)? -/
def State.tileReady (s : State) (tid : Nat) : Bool :=
  match s.gangOf tid with
  | none => true
  | some g => s.gangDrained g

/-- Does a launch's rectangle meet the region of a migration (R372)? -/
def State.meetsRegion (s : State) (l : Launch) : Bool := l.tiles.any s.inRegion

/-- LAUNCH_GRANT (R299): the grant at G, S = G + 352 + d; abandoned at once when a region exists at G (R372). -/
def State.grantLaunch (s : State) (id : Nat) : State :=
  match s.launch? id with
  | none => s
  | some l =>
    if l.st != .placed || !l.loaded || decide (s.cycle < l.loadedAt + l.cost) || !l.tiles.all s.tileReady then s
    else if s.meetsRegion l then s.toHead l
    else s.putLaunch { l with st := .starting, grant := s.cycle, startAt := s.cycle + 352 + (l.data.length + 7) / 8 }

/-- LAUNCH_GRANT (R299). -/
def execLaunchGrant (l : Nat) (s : State) : Host.Outcome State Fault Refusal := .next (s.grantLaunch l)

/-- LOOPC of each level: kind `k`'s digits of `c`, the innermost level fastest (R262). The list is read from level 0. -/
def loopDigits (k : Nat) : List LoopEntry → Nat → List (Option Nat) × Nat
  | [], c => ([], c)
  | e :: r, c =>
    let (ds, c) := loopDigits k r c
    if e.kind = k then (some (c % e.trips.toNat) :: ds, c / e.trips.toNat) else (none :: ds, c)

/-- LOOPC and LOOPT of a member (R262). -/
def loopRegs (loops : List LoopEntry) (gx gy m : Nat) : Vector (BitVec 32) 8 × Vector (BitVec 32) 8 :=
  let xs := (loopDigits 1 loops gx).1
  let ys := (loopDigits 2 loops gy).1
  let ms := (loopDigits 3 loops m).1
  let pick (l : List (Option Nat)) (i : Nat) : Option Nat := l.getD i none
  (Vector.ofFn (fun (i : Fin 8) => BitVec.ofNat 32 (((pick xs i).or ((pick ys i).or (pick ms i))).getD 0)),
    Vector.ofFn (fun (i : Fin 8) => match loops[i.val]? with | some e => e.trips | none => 1))

/-- The planes of a tile flip (R299). -/
def Core.flip (c : Core) : Core := { c with curPlane := !c.curPlane, strand := .none }

/-- Word `i` of every bank cleared (R299). -/
def Core.clearWords (c : Core) (i : Nat) : Core :=
  { c with
    spad := c.spad.filter (fun p => !(decide (3072 * i ≤ p.1) && decide (p.1 < 3072 * (i + 1))))
    poison := c.poison.filter (fun w => w / 384 != i) }

/-- The registers and position of a member at gang start (R9, R221, R262, R345): everything as on a fresh core but the planes and the
scratchpad made ready before, packets' accesses under way, the port's transmit buffers, spill memory, which no rule clears, and the
model's own numbers. -/
def Core.startMember (c : Core) (id : CoreId) (l : Launch) (m tq : Nat) : Core :=
  let f := Core.fresh id
  let p := c.plane
  let gx := tileX id - l.ox
  let gy := tileY id - l.oy
  let (lc, lt) := loopRegs p.loops gx gy m
  { f with
    sregs := (l.args.zipIdx).foldl (fun v a => v.setIfInBounds (a.2 + 1) a.1) f.sregs
    pos := { f.pos with
      ctx := BitVec.ofNat 7 l.ctx
      gangW := BitVec.ofNat 8 (geomW l.geom), gangH := BitVec.ofNat 8 (geomH l.geom)
      orgX := BitVec.ofNat 8 l.ox, orgY := BitVec.ofNat 8 l.oy
      loopc := lc, loopt := lt }
    pc := p.entry
    planes := c.planes
    curPlane := c.curPlane
    otx := c.otx
    spill := c.spill
    spad := c.spad
    poison := c.poison
    xfers := c.xfers
    landing := c.landing
    frozen := c.frozen
    issueNo := c.issueNo
    nextAcc := c.nextAcc
    bucket := (tq : Int)
    gate := l.startAt }

/-- START_TOKEN (R299): member `t` of starting launch `g` receives its token; the boundaries that follow make it ready. The gang that
held the tile after `swap` gives it up (R297). -/
def State.startToken (s : State) (g t : Nat) : State :=
  match s.launch? g with
  | none => s
  | some l =>
    if l.st != .starting || !l.tiles.contains t || l.tokens.any (fun k => k.1 == t) then s
    else
      let u := s.leaveTile t
      (u.putCore t { u.coreAt t with gate := l.startAt }).putLaunch { l with tokens := (t, s.cycle) :: l.tokens }

/-- The boundary that begins this cycle at member `t` of a starting launch, whose token came in cycle `r` (R299): the planes flip, every
bank clears a word a cycle, eight bytes of the data section a cycle are written, and at S the registers are set. -/
def State.prepareMember (s : State) (l : Launch) (t r : Nat) : State :=
  let k := s.cycle
  let i := k - (r + 2)
  let j := k - (l.grant + 349)
  let c1 := if k = r + 1 then (s.coreAt t).flip else s.coreAt t
  let c2 := if r + 2 ≤ k ∧ i < 256 then c1.clearWords i else c1
  let c3 := if l.grant + 349 ≤ k ∧ 8 * j < l.data.length then
      { c2 with spad := c2.spad.putBytes (l.dataAddr + 8 * j) ((l.data.drop (8 * j)).take 8) } else c2
  s.putCore t (if k = l.startAt then
      c3.startMember t l (field 0 10 s.sys.modRank).toNat (bwcTq (Tab.getD s.bwc l.ctx 0)) else c3)

/-- The boundary that begins this cycle at the members of starting launches (R299). -/
def State.prepareMembers (s : State) : State :=
  s.launches.foldl (fun t l => if l.st == .starting then l.tokens.foldl (fun u k => u.prepareMember l k.1 k.2) t else t) s

/-- START_TOKEN (R299). -/
def execStartToken (g t : Nat) (s : State) : Host.Outcome State Fault Refusal := .next (s.startToken g t)

/-- GANG_START (R259, R299): in cycle S every member may issue its first bundle. -/
def State.startGang (s : State) (g : Nat) : State :=
  match s.launch? g with
  | none => s
  | some l =>
    if l.st != .starting || s.cycle != l.startAt || !l.tiles.all (fun t => l.tokens.any (fun k => k.1 == t)) then s
    else
      let gang : Gang :=
        { id := l.id, ctx := l.ctx, ox := l.ox, oy := l.oy, w := geomW l.geom, h := geomH l.geom
          window := winFlits (geomWin l.geom), launch := { l with st := .running, data := [], tokens := [] }
          lines := Vector.replicate 4 Line.fresh, started := true, left := [], isOver := false }
      let t : State := { s with launches := s.launches.filter (fun x => x.id != l.id), gangs := s.gangs ++ [gang] }
      l.tiles.foldl (fun (u : State) id => u.putCore id { u.coreAt id with strand := .running }) t

/-- GANG_START (R299). -/
def execGangStart (g : Nat) (s : State) : Host.Outcome State Fault Refusal := .next (s.startGang g)

/-! ### Drain points (R123, R235) -/

/-- Is an ended strand's tile at its drain point (R123)? -/
def Core.drainable (c : Core) : Bool :=
  c.inflight.isEmpty && c.mat.queue.isEmpty && c.mat.exec.isNone && c.mat.epi.isNone && c.cpy.queue.isEmpty &&
    c.cpy.exec.isNone && c.chn.queue.isEmpty && c.chn.exec.isNone && c.chn.fired.isEmpty && c.chn.waiting.isNone &&
    decide (c.cnt = { l := 0, s := 0, k := 0, m := 0, n := 0 }) && c.dacc.isEmpty && c.deferred.isEmpty && c.failing.isEmpty

/-- DRAIN_POINT (R123, R235): after `done` the tile's postings are withdrawn. -/
def State.drain (s : State) (t : Nat) : State :=
  let c := s.coreAt t
  match c.strand with
  | .ended w =>
    if c.drainable && !c.frozen then
      s.putCore t { c with strand := .drained w, chn := { c.chn with posts := if w then c.chn.posts else [] } }
    else s
  | _ => s

/-- DRAIN_POINT (R123). -/
def execDrainPoint (t : Nat) (s : State) : Host.Outcome State Fault Refusal := .next (s.drain t)

/-! ### Barrier rounds (R264, R265) -/

/-- The delay u of a line's detection (R264). -/
def Gang.delay (g : Gang) (last : Nat) : Nat :=
  if g.w = 1 ∧ g.h = 1 then 1 else 1 + Config.barrierDelay g.w g.h g.ox g.oy last % 90

/-- BARRIER_DETECT (R264): T = D + 96. Detection is held while a member is frozen; a pre-emption requested before it keeps the
round for the restored gang (R265). -/
def State.detect (s : State) (g bl : Nat) : State :=
  match s.gangs.find? (fun x => x.id == g) with
  | none => s
  | some x =>
    let b := BitVec.ofNat 2 bl
    let l := x.lines.get b.toFin
    if l.release.isSome || l.arrived.length != x.w * x.h || decide (s.cycle < l.lastAt + x.delay l.lastTid) ||
        x.tiles.any (fun t => (s.coreAt t).frozen) || (s.ctx x.ctx).st == 2 || (s.ctx x.ctx).st == 3 then s
    else s.putGang { x with lines := x.lines.set b.toFin { l with release := some (s.cycle + 96) } }

/-- BARRIER_DETECT (R264). -/
def execBarrierDetect (g bl : Nat) (s : State) : Host.Outcome State Fault Refusal := .next (s.detect g bl)

/-- A member released: the AND is a C result of the `sync` bundle that lands at this boundary, and the strand goes on (R122,
R264, R265). -/
def Core.release (c : Core) (bl : BitVec 2) (v : Bool) : Core :=
  match c.strand with
  | .sync b pr =>
    if b = bl then
      { c with
        strand := .running
        inflight :=
          if pr = 0 then c.inflight
          else c.inflight ++ [{ w := .p pr v, fl := 0, slot := .c, rem := 0, lat := 0, ord := c.issueNo - 1, late := false }] }
    else c
  | _ => c

/-- BARRIER_RELEASE (R264): at T every member writes the AND of the votes; a new round begins. -/
def State.releaseLine (s : State) (g bl : Nat) : State :=
  match s.gangs.find? (fun x => x.id == g) with
  | none => s
  | some x =>
    let b := BitVec.ofNat 2 bl
    let l := x.lines.get b.toFin
    match l.release with
    | none => s
    | some t =>
      if s.cycle < t then s
      else
        let v := l.arrived.all (·.2)
        l.arrived.foldl (fun (u : State) a => u.putCore a.1 ((u.coreAt a.1).release b v))
          (s.putGang { x with lines := x.lines.set b.toFin Line.fresh })

/-- BARRIER_RELEASE (R264). -/
def execBarrierRelease (g bl : Nat) (s : State) : Host.Outcome State Fault Refusal := .next (s.releaseLine g bl)

/-! ### Gang abort (R29, R374) -/

/-- A member halted by a gang abort: cause 0x16 naming the failed tile, engines and drawer path emptied. A tile that halted by its
own undeliverable trap keeps its trap registers (R29). -/
def Core.abortMember (c : Core) (failed : Nat) : Core :=
  { c with
    strand := .halted
    trap :=
      if c.undelivered.isSome then c.trap
      else
        { c.trap with
          pc := if c.eretDrain then c.trap.pc else c.pc, cause := 0x16, info0 := BitVec.ofNat 64 failed, info1 := 0x1F }
    trapAfter := none
    mat := { c.mat with queue := [], exec := none, epi := none }
    cpy := { c.cpy with queue := [], exec := none }
    chn := { c.chn with queue := [], exec := none, fired := [], armed := [], accept := none, waiting := none }
    xfers := c.xfers.filter Xfer.remote
    inflight := [], redirects := [], undo := none, deferred := [], held := [], failing := [], dacc := [], slog := [], fences := [], qfences := []
    eretDrain := false, haltReq := false, haltNew := false, slogSlot := none
    owners := Vector.replicate 4 [], pend := []
    cnt := { l := 0, s := 0, k := 0, m := 0, n := 0 }, sFalls := 0 }

/-- Is a packet dropped with core `id`: one that it has sent only in part, its reads, and what comes back to it (R374)? -/
def Packet.dropsWith (p : Packet) (id : CoreId) : Bool :=
  (p.src == id && (decide (p.sent < p.nd) || p.kind == 5)) ||
    (p.dst == id && (p.kind == 3 || p.kind == 4 || (match p.op with | .popped .. => true | _ => false)))

/-- Those packets of core `id` out of the network. -/
def State.dropFlying (s : State) (id : CoreId) : State :=
  (s.net.filter (fun p => p.dropsWith id)).foldl (fun t p => (t.skipSeq p).offNet p) s

/-- What the rest of the module still holds for core `id` given up: drawer requests (R349) and transfers, packets that cannot complete,
its log slot, its place in a shootdown and in a save, its blocked pops and waiting pushes. -/
def State.forget (s0 : State) (id : CoreId) : State :=
  let keep (p : Packet) : Bool := p.src != id
  let s := (s0.dropFlying id).orphanReqs (fun r => r.core == id)
  { s with
    jobs := s.jobs.filter (fun j => j.core != id)
    slogUsed := match (s.coreAt id).slogSlot with | some n => s.slogUsed.filter (· != n) | none => s.slogUsed
    sdWait := s.sdWait.filter (fun w => w.1 != id)
    preWait := s.preWait.filter (· != id)
    queues := s.queues.map (fun e => (e.1, { e.2 with blocked := e.2.blocked.filter keep, waiting := e.2.waiting.filter keep })) }

/-- A gang aborted for tile `tid` (R374): members halt, the launch completes with `status`: 5, or 7 when its context is destroyed
(R292, R321). -/
def State.abortGang (s : State) (g : Gang) (tid status : Nat) : State :=
  let mine := g.tiles.filter (fun t => !g.left.contains t)
  let t := mine.foldl (fun (u : State) id =>
    let v := u.forget id
    v.putCore id ((v.coreAt id).abortMember tid)) s
  let u : State := { t with
    gangs := t.gangs.filter (fun x => x.id != g.id), aborts := t.aborts.filter (fun a => !mine.contains a) }
  let v := u.offer 2 0 g.ctx 0x0023 (leBytes 2 tid ++ leBytes 4 g.launch.qid)
  if g.isOver then v else v.reportLaunch g.launch status

end Sys2Proof.Machine
end

