-- ==== Sys2Proof/Machine/Records.lean ====
section
/-! DEFINITION. The records of a save area: what a tile writes at a save (17 R324, R329) and what becomes of it when it is read back
(R330). -/

namespace Sys2Proof.Machine

/-! ### Tile records (R324, R328, R329) -/

/-- The bytes of a part of a save area whose places the spec does not give: `n` of them, from what the part holds. -/
def openBytes (part : Nat) (contents : List Nat) (n : Nat) : List (BitVec 8) :=
  (List.range n).map (Config.recordByte part contents)

/-- FILE and NUM of a snapshot entry (R324). -/
def Write.fileNum : Write → Nat × Nat
  | .s r _ => (0, r.toNat)
  | .p r _ => (1, r.toNat)
  | .v r _ => (2, r.toNat)
  | .m r _ => (3, r.toNat)
  | .t r _ => (4, r.toNat)
  | .lc r _ => (5, r.toNat)
  | .ras r _ => (6, r.toNat)
  | .depth _ => (6, 16)
  | .h r _ => (7, r.toNat)
  | .z r _ => (8, r.toNat)
  | .k r _ => (9, r.toNat)
  | .stg r _ => (10, r.toNat)
  | .fmt r _ => (11, r.toNat)
  | .acc a r .. => (12, 16 * a.toNat + r.toNat)
  | .spr _ _ => (0, 0)
  | .sys _ _ => (0, 0)

/-- VALUE of a snapshot entry; `none` where the spec does not lay it out, or the model holds it in another form (R324). -/
def Write.value : Write → Option Nat
  | .s _ x => some x.toNat
  | .p _ x => some x.toNat
  | .v _ x => some x.toNat
  | .m _ x => some x.toNat
  | .t _ x => some x.toNat
  | .lc _ x => some x.toNat
  | .ras _ x => some x.toNat
  | .depth x => some x.toNat
  | .z _ x => some x.toNat
  | .k _ x => some x.toNat
  | .stg _ x => some x.toNat
  | .fmt _ x => some x.toNat
  | .spr _ x => some x.toNat
  | .sys _ x => some x.toNat
  | .h _ _ | .acc .. => none

/-- A handle as a list of what it holds. -/
def Handle.contents (h : Handle) : List Nat :=
  [h.word.toNat, if h.tp then 1 else 0, h.base.toNat, h.vpage.toNat, h.ftype, h.flevel, h.fentry.toNat]

/-- The 128 bytes of VALUE: of an `xlate` the handle, of a `vaccw` its source lanes and format entry, at places that are open (R324). -/
def Write.valueBytes (w : Write) : List (BitVec 8) :=
  match w with
  | .h _ x => openBytes 5 x.contents 128
  | .acc _ _ _ _ src _ ent => openBytes 6 [src.toNat, ent.toNat] 128
  | _ => leBytes 128 (w.value.getD 0)

/-- LMASK and FMT of a snapshot entry (R324). -/
def Write.lanesFmt : Write → Nat × Nat
  | .acc _ _ on _ _ e _ => (on.toNat, e.toNat)
  | _ => (0, 0)

/-- META of a snapshot entry (R324). -/
def Res.meta (x : Res) : Nat :=
  let (file, num) := x.w.fileNum
  x.rem + slotCode x.slot * 2 ^ 6 + (x.lat - x.rem) * 2 ^ 10 + file * 2 ^ 16 + num * 2 ^ 20 + x.fl.toNat * 2 ^ 26 +
    x.w.lanesFmt.1 * 2 ^ 33 + x.w.lanesFmt.2 * 2 ^ 49

/-- A snapshot entry (R324). -/
def Res.entry (x : Res) : List (BitVec 8) := x.w.valueBytes ++ leBytes 8 x.meta ++ leBytes 8 0

/-- A snapshot buffer's block of 32 entries (R324, R329). -/
def snapshotBlock (p : Snapshot) : List (BitVec 8) :=
  p.results.flatMap Res.entry ++ leBytes (144 * (32 - p.results.length)) 0

/-- The channel-state entry of channel `n` under window `w` (R329). -/
def Core.channelEntry (c : Core) (w n : Nat) : Nat :=
  let cred := (w + 512 - Tab.getD c.chn.spent n 0) % 512
  cred * 2 ^ 55 + (match Tab.get? c.chn.posts n with
    | some p => 2 ^ 54 + p.base / 8 * 2 ^ 37 + p.bytes * 2 ^ 17 + p.aw / 16 * 2
    | none => 0)

/-- The elements of accumulator `a`; element 255 holds the owner set and the watermark in its last four bytes (R53, R329). -/
def Core.accBytes (c : Core) (a : Fin 4) : List (BitVec 8) :=
  let own := (c.owners.get a).flatMap (fun o => [o.1, if o.2 then 1 else 0])
  ((c.accs.get a).toList.zipIdx).flatMap (fun x =>
    leBytes 12 x.1.toNat ++ (if x.2 = 255 then openBytes 3 (c.wmarks.get a :: own) 4 else leBytes 4 0))

/-- What the control block of a record holds (R329), in the order of the rule; `lines` are the member's arrivals and votes. The pending
redirects are those of the strand as it was halted, and those of the trap snapshot of a handler (R28). -/
def Core.control (c : Core) (lines : List (Bool × Bool)) : List Nat :=
  let b (x : Bool) : Nat := if x then 1 else 0
  (c.sregs.toList.drop 1).map (·.toNat) ++ (c.pregs.toList.drop 1).map b ++ (c.mregs.toList.drop 1).map (·.toNat) ++
    c.tregs.toList.map (·.toNat) ++ c.lcregs.toList.map (·.toNat) ++ c.ras.toList.map (·.toNat) ++ [c.depth.toNat] ++
    c.hregs.toList.flatMap (fun h => [b h.tp, b h.sz, h.vpage.toNat]) ++
    c.rings.toList.flatMap (fun r => [r.fill, r.tail, r.head, r.count, r.size, r.base] ++ r.tags.toList.map (·.toNat)) ++
    c.stg.toList.map (·.toNat) ++ c.fmts.toList.map (·.toNat) ++
    [c.fstat.toNat, c.zbase.toNat] ++ c.gd.toList.map (·.toNat) ++ [c.gtab.toNat, c.wdog.toNat, b c.trap.en, c.trap.vec.toNat,
      c.trap.pc.toNat, b c.trap.inH, c.trap.cause.toNat, c.trap.info0.toNat, c.trap.info1.toNat, c.snapPre.pb, c.cnt.l, c.cnt.s, c.cnt.k,
      c.cnt.m, c.cnt.n] ++
    c.snapPre.redirects.length :: c.snapPre.redirects.flatMap (fun r => [r.target.toNat, r.left]) ++
    c.snapTrap.pb :: c.snapTrap.redirects.length :: c.snapTrap.redirects.flatMap (fun r => [r.target.toNat, r.left]) ++ lines.flatMap (fun l => [b l.1, b l.2]) ++
    (match c.slogSlot with | some n => [n] | none => [])

/-- What a queue entry holds: slot word, OPC, captured staging, format entries and handles (R329). -/
def Cmd.contents (k : Cmd) : List Nat :=
  [k.ops.toNat, k.opc.toNat] ++ k.stg.map (·.toNat) ++ [k.fa.toNat, k.fb.toNat] ++ k.gd.map (·.toNat) ++ [k.gtab.toNat] ++
    k.sh.contents ++ k.dh.contents

/-- The sixteen entries of an engine: what it has in execution, with its progress, and what waits (R179, R329). -/
def engineBytes (exec : List (Cmd × List Nat)) (queue : List Cmd) : List (BitVec 8) :=
  let all := (exec.map (fun x => x.1.contents ++ x.2) ++ queue.map Cmd.contents).take 16
  all.flatMap (fun l => openBytes 1 l 128) ++ (List.range (16 - all.length)).flatMap (fun _ => openBytes 1 [] 128)

/-- The M, K and N queue entries of a record (R179, R329). -/
def Core.queueBytes (c : Core) : List (BitVec 8) :=
  let m (e : Option MExec) : List (Cmd × List Nat) := match e with | some x => [(x.cmd, [x.pass, x.row])] | none => []
  engineBytes (m c.mat.exec ++ m c.mat.epi) c.mat.queue ++
    engineBytes (match c.cpy.exec with
      | some e => [(e.cmd, e.next :: e.chunks.map (fun x => if x.2 == .complete then 1 else 0))]
      | none => []) c.cpy.queue ++
    engineBytes (match c.chn.exec with | some e => [(e.cmd, [e.next])] | none => []) (c.chn.fired ++ c.chn.queue)

/-- Armed triggered sends: 63 entries of 64 bytes, and 64 zero bytes (R202, R329). -/
def Core.armedBytes (c : Core) : List (BitVec 8) :=
  let all := c.chn.armed.take 63
  all.flatMap (fun k => openBytes 2 k.contents 64) ++ (List.range (63 - all.length)).flatMap (fun _ => openBytes 2 [] 64) ++ leBytes 64 0

/-- Is a packet in the ingress buffer of tile `t`? -/
def Packet.inIngress (p : Packet) (t : Nat) : Bool := p.dst == t && p.buffered && p.place == .net && decide (0 < p.arrived)

/-- The flits of the ingress buffer of tile `t`, each packet whole from its header flit; zero after the last (R234, R329). -/
def State.ingressBytes (s : State) (t : Nat) : List (BitVec 8) :=
  let flits := (s.net.filter (fun p => p.inIngress t)).flatMap (fun p =>
    leBytes 64 (headerFlit p).toNat ++ leBytes (64 * p.nd) (bytesNat p.data))
  (flits ++ leBytes (16384 - flits.length) 0).take 16384

/-- Arrival and vote of a member on each line of its gang (R329). -/
def Gang.votes (g : Gang) (t : Nat) : List (Bool × Bool) :=
  g.lines.toList.map (fun l => match l.arrived.find? (fun a => a.1 == t) with | some a => (true, a.2) | none => (false, false))

/-- The record of tile `t`, a member of gang `g` (R329). -/
def State.record (s : State) (g : Gang) (t : Nat) : List (BitVec 8) :=
  let c := s.coreAt t
  openBytes 0 (c.control (g.votes t)) 0xC00 ++ c.zregs.toList.flatMap (fun z => leBytes 64 z.toNat) ++
    c.vregs.toList.flatMap (fun v => leBytes 128 v.toNat) ++ c.spill.toList.flatMap (fun x => leBytes 8 x.toNat) ++
    (List.finRange 4).flatMap c.accBytes ++ snapshotBlock c.snapTrap ++ snapshotBlock c.snapPre ++ c.queueBytes ++
    c.armedBytes ++ c.kregs.toList.flatMap (fun k => leBytes 32 k.toNat) ++ leBytes 768 0 ++
    (List.range 1024).flatMap (fun n => leBytes 8 (c.channelEntry g.window n)) ++ s.ingressBytes t ++ c.spad.bytes 0 786432

/-! ### Reading a record back (R330; log 22) -/

/-- `n` bytes from place `a`. -/
def slice (bs : List (BitVec 8)) (a n : Nat) : List (BitVec 8) := (bs.drop a).take n

/-- Number `i` of `n` bytes from place `a` of a record. -/
def recNat (bs : List (BitVec 8)) (a n i : Nat) : Nat := bytesNat (slice bs (a + n * i) n)

/-- What a part of a record whose places are open means when it is read back: as it was saved when its bytes are those that were
written; else `g` of free values, one for each place (log 22). -/
def readOpen {α : Type} (part : Nat) (old new : List (BitVec 8)) (a n : Nat) (x : α) (g : (Nat → Nat) → α) : α :=
  if slice old a n == slice new a n then x else g (Config.recordValue part (slice new a n))

/-- The slot of a SLOT code (R27). -/
def codeSlot (n : Nat) : Slot :=
  match n with
  | 0 => .h
  | 1 => .s0
  | 2 => .s1
  | 3 => .c
  | 4 => .v
  | 5 => .l
  | 6 => .z
  | 7 => .m
  | 8 => .k
  | 9 => .n
  | _ => .none

/-- The write of FILE, NUM and VALUE (R324). A handle and the row of a `vaccw` are at open places: free values `f`. -/
def writeOf (file num lmask fmt v : Nat) (f : Nat → Nat) : Write :=
  match file with
  | 0 => .s (BitVec.ofNat _ num) (BitVec.ofNat 64 v)
  | 1 => .p (BitVec.ofNat _ num) (v % 2 == 1)
  | 2 => .v (BitVec.ofNat _ num) (BitVec.ofNat 1024 v)
  | 3 => .m (BitVec.ofNat _ num) (BitVec.ofNat 128 v)
  | 4 => .t (BitVec.ofNat _ num) (BitVec.ofNat _ v)
  | 5 => .lc (BitVec.ofNat _ num) (BitVec.ofNat 32 v)
  | 6 => if num < 16 then .ras (BitVec.ofNat _ num) (BitVec.ofNat _ v) else .depth (BitVec.ofNat 5 v)
  | 7 => .h (BitVec.ofNat _ num) { Handle.empty with v := true, vpage := BitVec.ofNat 64 (f 0), tp := f 1 % 2 == 1, sz := f 2 % 2 == 1 }
  | 8 => .z (BitVec.ofNat _ num) (BitVec.ofNat 512 v)
  | 9 => .k (BitVec.ofNat _ num) (BitVec.ofNat 256 v)
  | 10 => .stg (BitVec.ofNat _ num) (BitVec.ofNat 64 v)
  | 11 => .fmt (BitVec.ofNat _ num) (BitVec.ofNat 32 v)
  | _ => .acc (BitVec.ofNat _ (num / 16)) (BitVec.ofNat _ num) (BitVec.ofNat 16 lmask) (BitVec.ofNat 1536 (f 0))
      (BitVec.ofNat 1024 (f 1)) (BitVec.ofNat _ fmt) (BitVec.ofNat 32 (f 2))

/-- The result that a changed snapshot entry `e` holds, none when its REM is 0 (R324). Its place among results of one boundary is that of
the saved result of its AGE. -/
def Snapshot.parse (p : Snapshot) (now : Nat) (e : List (BitVec 8)) : Option Res :=
  let m := recNat e 128 8 0
  let rem := m % 2 ^ 6
  let age := m / 2 ^ 10 % 2 ^ 6
  if rem = 0 then none
  else
    some { w := writeOf (m / 2 ^ 16 % 16) (m / 2 ^ 20 % 64) (m / 2 ^ 33 % 2 ^ 16) (m / 2 ^ 49 % 16) (bytesNat (e.take 128))
                  (Config.recordValue 5 (e.take 128))
           fl := BitVec.ofNat 7 (m / 2 ^ 26), slot := codeSlot (m / 2 ^ 6 % 16), rem, lat := rem + age
           ord := match p.results.find? (fun x => x.lat - x.rem == age) with | some x => x.ord | none => now - age
           late := false }

/-- A snapshot as its block at `a` holds it: entry by entry as saved where its bytes are those that were written (R324, R330). -/
def Snapshot.recalled (old new : List (BitVec 8)) (a now : Nat) (p : Snapshot) : Snapshot :=
  { p with results := (List.range 32).filterMap (fun i =>
      if slice old (a + 144 * i) 144 == slice new (a + 144 * i) 144 then p.results[i]?
      else p.parse now (slice new (a + 144 * i) 144)) }

/-- The redirects at places from `n` on: their number, their targets and the positions left. -/
def readRedirects (f : Nat → Nat) (n count : Nat) : List Redirect :=
  (List.range (count % 64)).map (fun i =>
    { target := BitVec.ofNat _ (f (n + 2 * i)), left := f (n + 2 * i + 1) % 64, src := BitVec.ofNat _ (f (n + 2 * i)) })

/-- The control block read back as values `f`, in the order of `Core.control`; the side-log slot stays the one that the fault unit has
given out (R317). -/
def Core.readControl (f : Nat → Nat) (c : Core) : Core :=
  let b (n : Nat) : Bool := f n % 2 == 1
  let w (n : Nat) : Word := BitVec.ofNat 64 (f n)
  let pre := f 807
  { c with
    sregs := Vector.ofFn (fun i => if i.val = 0 then c.sregs.get i else w (i - 1))
    pregs := Vector.ofFn (fun i => if i.val = 0 then c.pregs.get i else b (62 + i))
    mregs := Vector.ofFn (fun i => if i.val = 0 then c.mregs.get i else BitVec.ofNat 128 (f (69 + i)))
    tregs := Vector.ofFn (fun i => BitVec.ofNat _ (f (85 + i)))
    lcregs := Vector.ofFn (fun i => BitVec.ofNat 32 (f (93 + i)))
    ras := Vector.ofFn (fun i => BitVec.ofNat _ (f (97 + i)))
    depth := BitVec.ofNat 5 (f 113)
    hregs := Vector.ofFn (fun i => { c.hregs.get i with tp := b (114 + 3 * i), sz := b (115 + 3 * i), vpage := w (116 + 3 * i) })
    rings := Vector.ofFn (fun i =>
      let n := 162 + 70 * i.val
      { fill := f n % 65, tail := f (n + 1) % 64, head := f (n + 2) % 64, count := f (n + 3) % 65, size := f (n + 4) % 256
        base := f (n + 5) % 2 ^ 20
        tags := Vector.ofFn (fun k => BitVec.ofNat 8 (f (n + 6 + k))) })
    stg := Vector.ofFn (fun i => w (722 + i))
    fmts := Vector.ofFn (fun i => BitVec.ofNat 32 (f (770 + i)))
    fstat := BitVec.ofNat 7 (f 786)
    zbase := w 787
    gd := Vector.ofFn (fun i => w (788 + i))
    gtab := w 792
    wdog := w 793
    trap := { en := b 794, vec := BitVec.ofNat _ (f 795), pc := BitVec.ofNat _ (f 796), inH := b 797, cause := BitVec.ofNat 6 (f 798)
              info0 := w 799, info1 := w 800 }
    cnt := { c.cnt with l := f 802, s := f 803, k := f 804, m := f 805, n := f 806 }
    snapPre := { c.snapPre with pb := f 801, redirects := readRedirects f 808 pre }
    snapTrap := { c.snapTrap with pb := f (808 + 2 * (pre % 64)), redirects := readRedirects f (810 + 2 * (pre % 64)) (f (809 + 2 * (pre % 64))) } }

/-- A captured handle read back. -/
def Handle.recalled (f : Nat → Nat) (n : Nat) (h : Handle) : Handle :=
  { h with
    tp := f (n + 1) % 2 == 1, base := BitVec.ofNat 48 (f (n + 2)), vpage := BitVec.ofNat 64 (f (n + 3))
    ftype := f (n + 4), flevel := f (n + 5), fentry := BitVec.ofNat 64 (f (n + 6)) }

/-- A queue entry read back as values `f`, in the order of `Cmd.contents`. -/
def Cmd.recalled (f : Nat → Nat) (k : Cmd) : Cmd :=
  let n := 2 + k.stg.length
  let m := n + 2 + k.gd.length
  { k with
    ops := BitVec.ofNat 27 (f 0), opc := BitVec.ofNat _ (f 1)
    stg := k.stg.zipIdx.map (fun x => BitVec.ofNat 64 (f (2 + x.2)))
    fa := BitVec.ofNat 32 (f n), fb := BitVec.ofNat 32 (f (n + 1))
    gd := k.gd.zipIdx.map (fun x => BitVec.ofNat 64 (f (n + 2 + x.2)))
    gtab := BitVec.ofNat 64 (f m), sh := k.sh.recalled f (m + 1), dh := k.dh.recalled f (m + 8) }

/-- The engines' queues, what they have in execution with its progress, and the armed sends, each from its own entry. -/
def Core.readQueues (old new : List (BitVec 8)) (c : Core) : Core :=
  let at_ {α : Type} (e i : Nat) (x : α) (g : (Nat → Nat) → α) : α := readOpen 1 old new (0x9400 + 2048 * e + 128 * i) 128 x g
  let cmds (e skip : Nat) (l : List Cmd) : List Cmd := l.zipIdx.map (fun k => at_ e (skip + k.2) k.1 (fun f => k.1.recalled f))
  let size {α : Type} (o : Option α) : Nat := if o.isSome then 1 else 0
  let m (i : Nat) (o : Option MExec) : Option MExec := o.map (fun x =>
    at_ 0 i x (fun f => { x with cmd := x.cmd.recalled f, pass := f x.cmd.contents.length, row := f (x.cmd.contents.length + 1) }))
  { c with
    mat := { c.mat with
      exec := m 0 c.mat.exec, epi := m (size c.mat.exec) c.mat.epi
      queue := cmds 0 (size c.mat.exec + size c.mat.epi) c.mat.queue }
    cpy := { c.cpy with
      exec := c.cpy.exec.map (fun x => at_ 1 0 x (fun f => { x with cmd := x.cmd.recalled f, next := f x.cmd.contents.length }))
      queue := cmds 1 (size c.cpy.exec) c.cpy.queue }
    chn := { c.chn with
      exec := c.chn.exec.map (fun x => at_ 2 0 x (fun f => { x with cmd := x.cmd.recalled f, next := f x.cmd.contents.length }))
      fired := cmds 2 (size c.chn.exec) c.chn.fired
      queue := cmds 2 (size c.chn.exec + c.chn.fired.length) c.chn.queue
      armed := c.chn.armed.zipIdx.map (fun k => readOpen 2 old new (0xAC00 + 64 * k.2) 64 k.1 (fun f => k.1.recalled f)) } }

/-- The channel-state entries read back (R329); the credits of one that no one has changed are those of the channel now, with what came
back since the record was written (R233). `w` is the window of the gang. -/
def Core.readChannels (w : Nat) (old new : List (BitVec 8)) (c : Core) : Core :=
  { c with chn := (List.range 1024).foldl (fun (k : ChannelEngine) n =>
      let x := recNat new 0xC000 8 n
      if recNat old 0xC000 8 n = x then k
      else
        let out := (w + 512 - x / 2 ^ 55 % 512) % 512
        { k with
          spent := if out = 0 then Tab.del k.spent n else Tab.put k.spent n out
          posts := if x.testBit 54 then
              Tab.put k.posts n { base := x / 2 ^ 37 % 2 ^ 17 * 8, bytes := x / 2 ^ 17 % 2 ^ 20, aw := x / 2 % 2 ^ 16 * 16 }
            else Tab.del k.posts n }) c.chn }

/-- A member that has read back the record `new` of which `old` are the state block's bytes as they were written (R330): what stands at a
stated place is as the record holds it now; a part whose places are open is as it was saved, or free values when it has been changed
(log 22). `w` is the window of its gang (R233). -/
def Core.recalled (c : Core) (w : Nat) (old new : List (BitVec 8)) : Core :=
  let d := ((readOpen 0 old new 0 0xC00 c (fun f => c.readControl f)).readQueues old new).readChannels w old new
  let own (a : Nat) : Nat := 0x3000 + 4096 * a + 4092
  { d with
    zregs := Vector.ofFn (fun i => BitVec.ofNat 512 (recNat new 0xC00 64 i))
    vregs := Vector.ofFn (fun i => BitVec.ofNat 1024 (recNat new 0x1000 128 i))
    spill := Vector.ofFn (fun i => BitVec.ofNat 64 (recNat new 0x2000 8 i))
    accs := Vector.ofFn (fun a => Vector.ofFn (fun i => BitVec.ofNat 96 (recNat new (0x3000 + 4096 * a) 16 i % 2 ^ 96)))
    wmarks := Vector.ofFn (fun a => readOpen 3 old new (own a) 4 (c.wmarks.get a) (fun f => f 0 % 17))
    owners := Vector.ofFn (fun a => readOpen 3 old new (own a) 4 (c.owners.get a) (fun f =>
      (c.owners.get a).zipIdx.map (fun o => (o.1.1, f (o.2 + 1) % 2 == 1))))
    snapTrap := d.snapTrap.recalled old new 0x7000 c.issueNo
    snapPre := d.snapPre.recalled old new 0x8200 c.issueNo
    kregs := Vector.ofFn (fun i => BitVec.ofNat 256 (recNat new 0xBC00 32 i))
    spad := Mem.putBytes [] 0 (slice new 73728 786432) }

/-- A line's arrival and vote of member `t`, read back from the control block (R329). -/
def readVote (f : Nat → Nat) (t n : Nat) (l : Line) : Line :=
  let at_ := 4096 + 2 * n
  { l with arrived := if f at_ % 2 = 1 then (l.arrived.filter (fun a => a.1 != t)) ++ [(t, f (at_ + 1) % 2 == 1)]
                      else l.arrived.filter (fun a => a.1 != t) }

/-- A field of a header flit, `n` bits from bit `b`: as saved, or what the flit now holds when that has changed. -/
def headField (old new b n x : Nat) : Nat := if old / 2 ^ b % 2 ^ n = new / 2 ^ b % 2 ^ n then x else new / 2 ^ b % 2 ^ n

/-- A packet whose header flit was `old` and is `new` (R232); what it asks of its tile stays. -/
def Packet.headed (p : Packet) (old new : Nat) : Packet :=
  let g := headField old new
  { p with
    ctx := g 502 6 p.ctx, src := g 486 16 p.src, sch := g 476 10 p.sch, dch := g 450 10 p.dch, flits := g 445 5 p.nd + 1
    len := g 434 11 p.len, off := g 414 20 p.off, aw := g 394 20 p.aw, awv := g 393 1 (if p.awv then 1 else 0) == 1, seq := g 377 16 p.seq }

/-- The packets of an ingress buffer read back, in order (R234, R329): those whose flits have changed as the flits now say. -/
def readIngress (old new : List (BitVec 8)) : List Packet → List Packet
  | [] => []
  | p :: r =>
    let h := bytesNat (old.take 64)
    let k := bytesNat (new.take 64)
    let q := p.headed h k
    { q with data := if slice old 64 (64 * p.nd) == slice new 64 (64 * p.nd) then p.data else slice new 64 q.len } ::
      readIngress (old.drop (64 * p.flits)) (new.drop (64 * (k / 2 ^ 445 % 32 + 1))) r

/-- The ingress buffer of the core set aside as `t` read back (R329, R330). -/
def State.readIngressOf (s : State) (t : Nat) (old new : List (BitVec 8)) : State :=
  let mine := s.net.filter (fun p => p.inIngress t)
  let back := readIngress (slice old 0xE000 16384) (slice new 0xE000 16384) mine
  { s with net := s.net.map (fun p => match back.find? (fun q => q.id == p.id) with | some q => q | none => p) }

end Sys2Proof.Machine
end

