-- ==== Sys2Proof/Machine/Contexts.lean ====
section
/-! DEFINITION. Contexts: pre-emption, save, restore and destruction (15 R300, 17 R320 to R331). -/

namespace Sys2Proof.Machine

/-! ### Descriptors as words (R320) -/

/-- A context descriptor's 256 bits (R320). -/
def Ctx.bits (d : Ctx) : BitVec 256 :=
  d.save ++ d.root ++ d.quota ++ d.tgen ++ (0 : BitVec 12) ++ d.homen ++ (0 : BitVec 64) ++ d.y0 ++ d.x0 ++ d.h ++ d.w ++
    (0 : BitVec 20) ++ d.st ++ d.ceil ++ (0 : BitVec 4) ++ BitVec.ofBool d.v

/-- The descriptor that 256 bits give (R320). -/
def Ctx.ofBits (x : BitVec 256) : Ctx :=
  { save := field 224 32 x, root := field 192 32 x, quota := field 160 32 x, tgen := field 148 12 x, homen := field 128 8 x
    y0 := field 56 8 x, x0 := field 48 8 x, h := field 40 8 x, w := field 32 8 x, st := field 8 4 x, ceil := field 5 3 x
    v := x.getLsbD 0 }

/-- The state with descriptor `c` replaced. -/
def State.putCtx (s : State) (c : Nat) (d : Ctx) : State := { s with ctxs := Tab.put s.ctxs c d }

/-! ### Requests (R326) -/

/-- *Request refused* for a system register (R383). -/
def State.requestRefused (s : State) (ctx reg : Nat) : State := s.offer 6 0 ctx 0x0008 (leBytes 2 reg)

/-- PRE_CTL's BUSY. -/
def State.preBusy (s : State) : Bool := s.sys.preCtl.getLsbD 62

/-- PRE_CTL's fields after a write; BUSY as given (R326). -/
def preWord (x : Word) (busy : Bool) : Word := (x &&& 0x33F0000000000000) ||| (if busy then 0x4000000000000000 else 0)

/-- A write of PRE_CTL that starts nothing. -/
def State.setPre (s : State) (x : Word) (busy : Bool) : State := { s with sys := { s.sys with preCtl := preWord x busy } }

/-- The end of an operation: BUSY clears and its event is sent (R326). -/
def State.preDone (s : State) (c code : Nat) : State :=
  ({ s with sys := { s.sys with preCtl := preWord s.sys.preCtl false } } : State).offer 2 0 c code []

/-- CTX of a PRE_CTL word. -/
def preCtx (x : Word) : Nat := (field 52 6 x).toNat

/-- OP of a PRE_CTL word. -/
def preOp (x : Word) : Nat := (field 60 2 x).toNat

/-! ### Saving (R300, R327 to R329) -/

/-- The tiles on which context `c` has gangs, in directory order. -/
def State.residents (s : State) (c : Nat) : List Nat :=
  (s.gangs.filter (fun g => g.ctx == c)).flatMap (fun g => g.tiles.filter (fun t => !g.left.contains t))

/-- Launches with a rectangle go back to head, the last placed first (R300). -/
def State.unplace (s : State) (c : Nat) : State :=
  (s.launches.filter (fun l => l.ctx == c && !l.waits)).foldr (fun l t => t.toHead l) s

/-- Members held after `swap` are released (R300). A member whose gang still runs stays in it, and is saved with it (R259; DEDUCED,
log 118). -/
def State.releaseHeld (s : State) (c : Nat) : State :=
  ((s.gangs.filter (fun g => g.ctx == c && g.isOver)).flatMap (fun g => g.tiles.filter (fun t => !g.left.contains t))).foldl
    (fun (u : State) t => (u.putCore t { u.coreAt t with strand := .none }).leaveTile t) s

/-- CONTEXT_SAVE_REQUEST (R300, R321, R327): STATE becomes halting and the halt tokens are on their way. -/
def State.saveRequest (s : State) (c : Nat) : State :=
  let t := (s.unplace c).releaseHeld c
  { t.putCtx c { t.ctx c with st := 2 } with preWait := t.residents c }

/-- A blocked pop of a halted tile leaves its queue, to be dispatched again after restore (R179). -/
def State.withdrawPop (s : State) (t : Nat) : State :=
  if s.queues.any (fun e => e.2.blocked.any (fun p => p.src == t)) then
    let c := s.coreAt t
    ({ s with queues := s.queues.map (fun e => (e.1, { e.2 with blocked := e.2.blocked.filter (fun p => p.src != t) })) } :
      State).putCore t { c with chn := { c.chn with waiting := none } }
  else s

/-- Is a queue message of tile `t` on its way, or its answer (R179)? -/
def State.messageOut (s : State) (t : Nat) : Bool :=
  s.net.any (fun p => match p.op with
    | .push _ | .pop .. | .close _ => p.src == t
    | .popped .. => p.dst == t
    | _ => false)

/-- Has the channel side of tile `t` come to rest: no packet of it half sent, none half deposited in it, no queue message out (R179)? -/
def State.channelRests (s : State) (t : Nat) : Bool :=
  (match (s.coreAt t).chn.exec with | some e => e.pkt.isNone | none => true) && !s.messageOut t &&
    s.net.all (fun p => p.dst != t || (match p.place with | .taken .. => false | _ => true))

/-- Have the matrix and copy engines come to their boundaries: no pass in the array, no row half moved, no chunk in flight (R179)? -/
def Core.enginesRest (c : Core) : Bool :=
  (match c.mat.exec with | some e => e.passes.isEmpty && e.want.isEmpty | none => true) &&
    (match c.mat.epi with | some e => e.accept.isNone | none => true) &&
    (match c.cpy.exec with | some e => e.chunks.all (fun x => x.2 != .flying) | none => true) &&
    c.xfers.all (fun x => match x.owner with | .trigger _ | .dep .. => true | _ => false) && c.landing.isEmpty

/-- Has a tile that must halt done so (R327): the strand stopped or counts as stopped, engines at the boundaries of R179, drawer
loads, accepted stores and remote atomics in flight complete (R257)? A held load, a logged store and an access that may not leave its
class queue do not keep it. -/
def State.isHalted (s : State) (t : Nat) : Bool :=
  let c := s.coreAt t
  c.haltReq && !c.frozen &&
    (match c.strand with
      | .saved => true
      | .ended _ => c.inflight.isEmpty
      | .drained _ => true
      | .sync bl _ =>
        (match s.gangOf t with
          | some g => (g.lines.get bl.toFin).release.isNone
          | none => true)
      | _ => false) &&
    c.inflight.all (fun r => !r.late) && c.enginesRest && s.channelRests t &&
    c.dacc.all (fun a => match a.st with
      | .held | .retry | .logged => true
      | .queued => !s.canLeave t a
      | _ => false)

/-- HALT_TOKEN (R327). -/
def State.haltToken (s : State) (t : Nat) : State :=
  let c := s.coreAt t
  match s.gangOf t with
  | some g => if (s.ctx g.ctx).st = 2 ∧ c.haltReq = false then s.putCore t { c with haltReq := true, haltNew := true } else s
  | none => s

/-- HALT_TOKEN (R327). -/
def execHaltToken (t : Nat) (s : State) : Host.Outcome State Fault Refusal := .next (s.haltToken t)

/-- Every tile has reported: the records get their numbers (R328), STATE becomes saving, *context halted* (R327). -/
def State.haltDone (s : State) (c : Nat) : State :=
  if (s.ctx c).st = 2 ∧ s.preWait = [] then
    ({ s.putCtx c { s.ctx c with st := 3 } with
        preWait := s.residents c, recNums := (s.residents c).zipIdx.foldl (fun t e => Tab.put t e.1 e.2) [], recBytes := [] } :
      State).offer 2 0 c 0x000C []
  else s

/-- The results in flight of a member that halts in its `sync` go to its pre-emption snapshot (R265, R327). -/
def Core.haltInSync (c : Core) : Core :=
  match c.strand with
  | .sync .. => { c with inflight := [], redirects := [], snapPre := { results := c.inflight, redirects := c.redirects, pb := c.pb } }
  | _ => c

/-- TILE_HALTED (R327): the tile reports. -/
def State.tileHalted (s : State) (t : Nat) : State :=
  match s.gangOf t with
  | none => s
  | some g =>
    if (s.ctx g.ctx).st = 2 ∧ s.preWait.contains t ∧ s.isHalted t then
      let v := s.withdrawPop t
      let u := v.putCore t (v.coreAt t).haltInSync
      ({ u with preWait := u.preWait.filter (· != t) } : State).haltDone g.ctx
    else s

/-- TILE_HALTED (R327). -/
def execTileHalted (t : Nat) (s : State) : Host.Outcome State Fault Refusal := .next (s.tileHalted t)

/-- Where the save area of a context begins (R328). -/
def State.saveBase (s : State) (c : Nat) : Nat := (s.ctx c).save.toNat * 2 ^ 16

/-! ### Moving tiles into and out of the save area -/

/-- What the module holds for tile `a` now stands under number `b`: packets, credits, arrivals, requests and SEQ counters
(R257). -/
def State.rename (s : State) (a b : Nat) : State :=
  let n (x : Nat) : Nat := if x = a then b else x
  let pk (p : Packet) : Packet := { p with src := n p.src, dst := n p.dst }
  let key (k : Nat) : Nat := seqKey (n (k / 0x100000000)) (n (k % 0x100000000))
  let move (t : Tab (BitVec 16)) : Tab (BitVec 16) :=
    (t.filter (fun e => key e.1 != e.1)).foldl (fun u e => Tab.put u (key e.1) e.2) (t.filter (fun e => key e.1 == e.1))
  { s with
    net := s.net.map pk
    credits := s.credits.map (fun k => { k with core := n k.core })
    arrivals := s.arrivals.map (fun x => { x with core := n x.core, src := n x.src, chunk := x.chunk.map (fun y => (n y.1, y.2)) })
    reqs := s.reqs.map (fun r => { r with core := n r.core })
    jobs := s.jobs.map (fun j => { j with core := n j.core })
    seqOut := move s.seqOut, seqIn := move s.seqIn, seqGone := s.seqGone.map (fun g => (key g.1, g.2))
    queues := s.queues.map (fun e => (e.1, { e.2 with blocked := e.2.blocked.map pk, waiting := e.2.waiting.map pk })) }

/-- Tile `t`'s core set aside under a number from 0x2_0000 up; the port's buffers stay with the port (R9, R329). -/
def State.setAside (s : State) (t : Nat) : Nat × State :=
  let (n, u) := s.fresh
  let key := 0x20000 + n
  let c := u.coreAt t
  (key, ((u.putCore key c).putCore t { Core.fresh t with orx := c.orx, otx := c.otx }).rename t key)

/-- Tiles set aside one after the other. -/
def State.setAsideAll (s : State) : List Nat → List Nat × State
  | [] => ([], s)
  | t :: r =>
    let (k, u) := s.setAside t
    let (ks, v) := u.setAsideAll r
    (k :: ks, v)

/-- A gang moved into the save area (R328). -/
def State.saveGang (s : State) (g : Gang) : State :=
  let (ks, t) := s.setAsideAll g.tiles
  { t with
    gangs := t.gangs.filter (fun x => x.id != g.id)
    saved := t.saved ++ [{ gang := g, tiles := ks, nums := g.tiles.map (fun k => Tab.getD s.recNums k 0)
                           blocks := g.tiles.map (fun k => Tab.getD s.recBytes k []), place := none, image := none, startAt := none
                           hold := false }] }

/-- What a directory entry holds (R328): IMAGE, LOOPTAB, GEOM, QID, launch state, OX and OY at save, number of the first record. -/
def Gang.directory (g : Gang) (first : Nat) : List Nat :=
  [g.launch.image.toNat, g.launch.looptab.toNat, g.launch.geom.toNat, g.launch.qid, if g.isOver then 1 else 0, g.ox, g.oy, first]

/-- The entries of a list of gangs (R328). -/
def State.directoryBytes (s : State) (gs : List Gang) : List (BitVec 8) :=
  gs.flatMap (fun g => openBytes 4 (g.directory (Tab.getD s.recNums (tidOf g.ox g.oy) 0)) 64)

/-- The head of a save area (R328): context header, event counters, gang directory. -/
def State.saveHead (s : State) (c n : Nat) (gs : List Gang) : List (BitVec 8) :=
  leBytes 64 0 ++ leBytes 4 gs.length ++ leBytes 4 n ++ leBytes 8 0 ++ leBytes 4016 0 ++
    (List.range 1024).flatMap (fun e => leBytes 4 (Tab.getD s.evctr (eventKey c e) 0).toNat) ++
    s.directoryBytes gs ++ leBytes (16384 - 64 * gs.length) 0 ++ leBytes 8192 0

/-- The head of the save area on its way to memory, the gangs set aside, STATE saved (R321, R328). -/
def State.saveEnd (s : State) (c : Nat) : State :=
  if (s.ctx c).st = 3 ∧ s.preWait = [] then
    let gs := s.gangs.filter (fun g => g.ctx == c)
    let n := Tab.getD s.saveCount c 0 + 1
    let t := s.startJob (physJob moduleUnit .saveHead c (s.saveBase c) (s.saveHead c n gs))
    let v := gs.foldl (fun (x : State) g => x.saveGang g) t
    (({ v with saveCount := Tab.put v.saveCount c n, recNums := [], recBytes := [] } : State).putCtx c { v.ctx c with st := 4 }).preDone c 0x0009
  else s

/-- TILE_RECORD_WRITTEN (R329): the tile's copy engine writes its record; when the last one's is written the save ends. -/
def State.recordWritten (s : State) (t : Nat) : State :=
  match s.gangOf t with
  | none => s
  | some g =>
    let a := s.saveBase g.ctx + 0x8000 + 860160 * Tab.getD s.recNums t 0
    if (s.ctx g.ctx).st = 3 ∧ s.preWait.contains t ∧ !(s.coreAt t).frozen then
      let r := s.record g t
      match s.transfer (physJob t .save g.ctx a r) false with
      | .wait u => if (s.job? t .save).isSome then u else { u with recBytes := Tab.put u.recBytes t (r.take 73728) }
      | .done _ u | .fault _ _ _ _ u | .cause _ _ u => ({ u with preWait := u.preWait.filter (· != t) } : State).saveEnd g.ctx
    else s

/-- TILE_RECORD_WRITTEN (R329). -/
def execTileRecordWritten (t : Nat) (s : State) : Host.Outcome State Fault Refusal := .next (s.recordWritten t)

/-! ### Restoring (R330) -/

/-- Must a saved gang return to its origin: it holds a port tile, or one of its routes leaves through a port (R330)? -/
def State.fixedOrigin (s : State) (v : SavedGang) : Bool :=
  v.gang.tiles.any (fun t => (portOf t).isSome) ||
    (v.gang.tiles.zip v.tiles).any (fun p => (s.coreAt p.2).plane.routes.any (fun e =>
      match s.route p.1 (entrySegs e.2) with | .port .. => true | _ => false))

/-- The origin a saved gang is restored at, if one is free (R330). -/
def State.restoreOrigin (s : State) (v : SavedGang) : Option (Nat × Nat) :=
  let g := v.gang
  let d := s.ctx g.ctx
  let inside := decide (d.x0.toNat ≤ g.ox ∧ g.ox + g.w ≤ d.x0.toNat + d.w.toNat ∧ d.y0.toNat ≤ g.oy ∧
    g.oy + g.h ≤ d.y0.toNat + d.h.toNat)
  if inside && s.rectOk s.tileFree g.ox g.oy g.w g.h then some (g.ox, g.oy)
  else if s.fixedOrigin v then none
  else s.firstFit d g.w g.h

/-- A command's captured handles withdrawn. -/
def Cmd.shoot (g : Handle → Handle) (k : Cmd) : Cmd := { k with sh := g k.sh, dh := g k.dh }

/-- The handles changed that the copy engine's commands have captured, and accesses that have not left their class queue. -/
def Core.mapCaptured (g : Handle → Handle) (c : Core) : Core :=
  { c with
    dacc := c.dacc.map (fun a => if a.st = .queued then { a with h := g a.h } else a)
    cpy := { c.cpy with
      queue := c.cpy.queue.map (Cmd.shoot g)
      exec := c.cpy.exec.map (fun e => { e with cmd := e.cmd.shoot g }) } }

/-- A handle that is not empty becomes shot down (R308). -/
def Handle.withdraw (h : Handle) : Handle := if h.isEmpty then h else h.shot

/-- A member as it resumes at tile `t` of a gang at (ox, oy): position, handles, bucket, the pre-emption snapshot counted from S
(R324, R330, R345). -/
def Core.restoreMember (c : Core) (t ox oy tq gate : Nat) (p : Option Plane) (port : Core) : Core :=
  let d : Core := ({ c with
    pos := { c.pos with
      x := BitVec.ofNat 8 (tileX t), y := BitVec.ofNat 8 (tileY t), orgX := BitVec.ofNat 8 ox, orgY := BitVec.ofNat 8 oy }
    planes := match p with
      | some q => if c.curPlane then c.planes.set 1 q else c.planes.set 0 q
      | none => c.planes
    haltReq := false
    bucket := (tq : Int)
    orx := port.orx
    otx := port.otx
    gate } : Core)
  let e := (d.mapHandles Handle.withdraw).mapCaptured Handle.withdraw
  match e.strand with
  | .saved | .sync .. =>
    { e with
      strand := if e.strand == .saved then .running else e.strand
      inflight := e.inflight ++ e.snapPre.results
      redirects := e.snapPre.redirects
      pb := e.snapPre.pb
      snapPre := { results := [], redirects := [], pb := 0 } }
  | _ => e

/-- One member put back. -/
def State.putBack (s : State) (g : Gang) (ox oy tq : Nat) (p : Option Plane) (old key : Nat) : State :=
  if g.left.contains old then { s with cores := Tab.del s.cores key }
  else
    let t := tidOf (tileX old - g.ox + ox) (tileY old - g.oy + oy)
    let c := (s.coreAt key).restoreMember t ox oy tq s.cycle p (s.coreAt t)
    (({ s with cores := Tab.del s.cores key } : State).putCore t c).rename key t

/-- A saved gang back on its tiles in cycle S (R330): planes from its image, barrier lines cut for the new rectangle with their
arrivals, which count from S (R265). -/
def State.resumeGang (s : State) (v : SavedGang) (ox oy : Nat) (p : Option Plane) : State :=
  let g := v.gang
  let move (t : Nat) : Nat := tidOf (tileX t - g.ox + ox) (tileY t - g.oy + oy)
  let lines := g.lines.map (fun l =>
    { l with arrived := l.arrived.map (fun a => (move a.1, a.2)), lastTid := move l.lastTid, lastAt := s.cycle })
  let h : Gang := { g with ox, oy, lines, left := g.left.map move, launch := { g.launch with startAt := s.cycle } }
  let tq := bwcTq (Tab.getD s.bwc g.ctx 0)
  let t := (g.tiles.zip v.tiles).foldl (fun (u : State) k => u.putBack g ox oy tq p k.1 k.2) s
  { t with gangs := t.gangs ++ [h], saved := t.saved.filter (fun x => x.gang.id != g.id) }

/-- The last gang resumed: STATE active, *context resumed* (R321). -/
def State.restoreEnd (s : State) (c : Nat) : State :=
  if (s.ctx c).st = 6 ∧ !(s.saved.any (fun v => v.gang.ctx == c)) then
    (s.putCtx c { s.ctx c with st := 1 }).preDone c 0x000A
  else s

/-- A saved gang replaced. -/
def State.putSaved (s : State) (v : SavedGang) : State :=
  { s with saved := s.saved.map (fun x => if x.gang.id = v.gang.id then v else x) }

/-- The reads of a saved gang's image and records given up. -/
def State.dropReload (s : State) (v : SavedGang) : State :=
  v.tiles.foldl (fun (t : State) k => t.dropJobs k (· == .recall))
    (s.dropJobs moduleUnit (fun w => match w with | .reload n _ => n == v.gang.id | _ => false))

/-- The record of the member set aside under `k`, number `i` of its gang's, a cycle on: read back or on its way (R330). -/
def State.recallMember (s : State) (v : SavedGang) (k i : Nat) : State :=
  let c := v.gang.ctx
  let a := s.saveBase c + 0x8000 + 860160 * v.nums.getD i 0
  match s.transfer (physRead k .recall c a 860160) true with
  | .done _ t | .wait t | .fault _ _ _ _ t | .cause _ _ t => t

/-- Every record of a saved gang that has been read back taken over, and its start token sent: S = G + 352 + d (R330). A record that
cannot be read leaves its member as it was saved (log 22). -/
def State.grantRestore (s : State) (v : SavedGang) (ox oy : Nat) : State :=
  let got (k : Nat) : Option (List (BitVec 8)) :=
    match (s.job? k .recall).bind (·.ended) with
    | some (.done bs) => some bs
    | _ => none
  let t := (v.tiles.zip v.blocks).foldl (fun (u : State) k =>
    match got k.1 with
    | some bs => (u.putCore k.1 ((u.coreAt k.1).recalled v.gang.window k.2 bs)).readIngressOf k.1 k.2 bs
    | none => u) s
  let lines := (v.gang.tiles.zip (v.tiles.zip v.blocks)).foldl (fun (x : Vector Line 4) k =>
    match got k.2.1 with
    | some bs => readOpen 0 k.2.2 bs 0 0xC00 x (fun f => Vector.ofFn (fun n => readVote f k.1 n (x.get n)))
    | none => x) v.gang.lines
  let start := s.cycle + 352 + Config.recordCycles
  let listed := (rectTiles ox oy v.gang.w v.gang.h).foldl (fun (u : State) id => u.putCore id { u.coreAt id with gate := start }) t
  (listed.dropReload v).putSaved { v with gang := { v.gang with lines }, startAt := some start }

/-- A saved gang a cycle on (R330): its rectangle is reserved, its planes are reloaded, its records are read, it starts on one cycle. A
translation fault on its image holds it. A reservation is given up when the region of a migration meets it. -/
def State.restoreStep (s : State) (id : Nat) : State :=
  match s.saved.find? (fun v => v.gang.id == id) with
  | none => s
  | some v =>
    match v.place with
    | none => s.putSaved { v with place := s.restoreOrigin v }
    | some (ox, oy) =>
      if !(rectTiles ox oy v.gang.w v.gang.h).all s.placeable then
        (s.dropReload v).putSaved { v with place := none, image := none, startAt := none }
      else
        match v.startAt, v.image with
        | some n, some p => if s.cycle = n then s.resumeGang v ox oy p else s
        | _, none =>
          if v.hold then s
          else
            let l := v.gang.launch
            match s.readImage (imageReader (.reload id) (fieldOf (tidOf ox oy)) v.gang.ctx) l.image l.looptab v.gang.w
              v.gang.h 0xC0000 with
            | (.wait, t) => t
            | (.fault ty lev e va, t) => ((t.dropReload v).putSaved { v with hold := true }).unitFault v.gang.ctx 6 0 ty lev e va
            | (.poisoned, t) => (t.dropReload v).putSaved { v with hold := true }
            | (.status _, t) => t.putSaved { v with image := some none }
            | (.ok p _ _ _, t) => t.putSaved { v with image := some (some p) }
        | none, some _ =>
          let t := v.tiles.zipIdx.foldl (fun (u : State) k => u.recallMember v k.1 k.2) s
          if v.tiles.all (fun k => ((t.job? k .recall).bind (·.ended)).isSome) then t.grantRestore v ox oy else t

/-- GANG_RESTORE (R330) of the saved gangs of context `c`, in directory order; the last one resumed ends the restore. -/
def State.gangRestore (s : State) (c : Nat) : State :=
  if (s.ctx c).st ≠ 6 then s
  else (((s.saved.filter (fun v => v.gang.ctx == c)).map (fun v => v.gang.id)).foldl State.restoreStep s).restoreEnd c

/-- GANG_RESTORE (R330). -/
def execGangRestore (c : Nat) (s : State) : Host.Outcome State Fault Refusal := .next (s.gangRestore c)

/-! ### Gang aborts (R29, R374) -/

/-- A gang aborted for tile `tid`; a save that waited for its members goes on. -/
def State.abortFor (s : State) (g : Gang) (tid : Nat) : State := ((s.abortGang g tid 5).haltDone g.ctx).saveEnd g.ctx

/-- GANG_ABORT (R29, R374): the gang of tile `t`, whose trap could not be delivered. -/
def State.gangAbort (s : State) (t : Nat) : State :=
  if s.aborts.contains t then
    match s.gangOf t with
    | some g => s.abortFor g t
    | none => { s with aborts := s.aborts.filter (· != t) }
  else s

/-- GANG_ABORT (R374). -/
def execGangAbort (t : Nat) (s : State) : Host.Outcome State Fault Refusal := .next (s.gangAbort t)

/-! ### Destroying (R321) -/

/-- The read of queue `q`'s oldest spill entry given up. -/
def State.dropSpillIn (s : State) (q : Nat) : State := s.dropJobs moduleUnit (· == .spillIn q)

/-- The launch records in the head segment of a queue of a destroyed context complete with status 7, and with them those of its spill ring
that cannot be read (R292, R293, R321). -/
def State.sweepQueue (s : State) (q : Nat) : State :=
  let r := s.queueRec q
  let c := qdCtx (s.queueDesc q)
  let t := r.head.foldl (fun (x : State) e => x.reportLaunch (launchOf 0 q c x.cycle e) 7) s
  if r.heldSpill then
    (((List.range (r.inn - r.out)).foldl (fun (x : State) _ => x.offer 2 0 c 0x0002 (leBytes 4 q ++ leBytes 1 7)) t).dropSpillIn q).putQueue
      q { r with head := [], out := r.inn, keys := [], ages := [] }
  else t.putQueue q { r with head := [], ages := [] }

/-- A queue of a destroyed context closed and emptied; the launch records in its spill ring are read back first, since each raises its
completion event (R292, R293, R321). -/
def State.emptyQueue (s : State) (q : Nat) : State :=
  let t := s.closeQueue q
  let r := t.queueRec q
  if qdLaunch (t.queueDesc q) then t.sweepQueue q
  else (t.dropSpillIn q).putQueue q { r with head := [], out := r.inn, keys := [], blocked := [], ages := [] }

/-- A saved gang of a destroyed context gone with its records; its launch completes with status 7 (R321). -/
def State.dropSaved (s : State) (v : SavedGang) : State :=
  let t := v.tiles.foldl (fun (u : State) k => { u.forget k with cores := Tab.del u.cores k }) (s.dropReload v)
  (({ t with saved := t.saved.filter (fun x => x.gang.id != v.gang.id) } : State).offer 2 0 v.gang.ctx 0x0023
    (leBytes 2 (tidOf v.gang.ox v.gang.oy) ++ leBytes 4 v.gang.launch.qid)).reportLaunch v.gang.launch 7

/-- The queues of a context. -/
def State.queuesOf (s : State) (c : Nat) : List Nat := (s.qdesc.filter (fun e => qdV e.2 && qdCtx e.2 == c)).map (·.1)

/-- Everything of a context given up (R321): launches that hold a rectangle return to their queues, gangs are aborted, its queues
are closed and emptied; every launch completes with status 7. -/
def State.dismantle (s : State) (c : Nat) : State :=
  let t := s.unplace c
  let u := (t.gangs.filter (fun g => g.ctx == c)).foldl (fun (x : State) g => x.abortGang g (tidOf g.ox g.oy) 7) t
  let v := (u.saved.filter (fun g => g.gang.ctx == c)).foldl (fun (x : State) g => x.dropSaved g) u
  let w : State := { v with launches := v.launches.filter (fun l => l.ctx != c) }
  (w.queuesOf c).foldl State.emptyQueue w

/-- CONTEXT_DESTROY_REQUEST (R321). -/
def State.destroyRequest (s : State) (c : Nat) : State :=
  let t := s.dismantle c
  t.putCtx c { t.ctx c with st := 5 }

/-- Is nothing of a context left: its queues empty, its log slots returned (R321)? -/
def State.isEmptied (s : State) (c : Nat) : Bool :=
  s.qdesc.all (fun e => !(qdV e.2 && qdCtx e.2 == c) || ((s.queueRec e.1).head.isEmpty &&
    (s.queueRec e.1).inn == (s.queueRec e.1).out && (s.queueRec e.1).waiting.isEmpty)) &&
    s.cores.all (fun e => e.2.pos.ctx.toNat != c || e.2.slogSlot.isNone)

/-- CONTEXT_DESTROYED (R321): the records still read back from its launch queues complete; when nothing is left the descriptor's RW
fields and V become 0, its event counters 0, STATE free. -/
def State.destroyed (s : State) (c : Nat) : State :=
  if (s.ctx c).st ≠ 5 then s
  else
    let t := ((s.queuesOf c).filter (fun q => qdLaunch (s.queueDesc q))).foldl State.sweepQueue s
    if t.isEmptied c then
      ({ t.putCtx c { Ctx.fresh with tgen := (t.ctx c).tgen } with
        charged := Tab.del t.charged c
        evctr := t.evctr.filter (fun e => e.1 / 1024 != c) } : State).preDone c 0x000B
    else t

/-- CONTEXT_DESTROYED (R321). -/
def execContextDestroyed (c : Nat) (s : State) : Host.Outcome State Fault Refusal := .next (s.destroyed c)

/-! ### PRE_CTL (R326) -/

/-- A write of PRE_CTL (R326): a GO starts its operation, or is ignored with *request refused*. -/
def State.writePre (s0 : State) (x : Word) : State :=
  let s : State := if x.getLsbD 63 && !s0.preBusy then { s0 with preSince := s0.cycle } else s0
  let c := preCtx x
  let st := (s.ctx c).st
  if !x.getLsbD 63 then s.setPre x s.preBusy
  else if s.preBusy then (s.setPre x true).requestRefused c 0x82C
  else if preOp x = 0 ∧ st = 1 then ((s.setPre x true).saveRequest c).haltDone c |>.saveEnd c
  else if preOp x = 1 ∧ st = 4 then
    let t := s.setPre x true
    t.putCtx c { t.ctx c with st := 6 }
  else if preOp x = 2 ∧ (st = 1 ∨ st = 4) then (s.setPre x true).destroyRequest c
  else (s.setPre x false).requestRefused c 0x82C

/-- CONTEXT_SAVE_REQUEST (R326, R327): a write of PRE_CTL with OP 0. -/
def execContextSaveRequest (x : Word) (s : State) : Host.Outcome State Fault Refusal :=
  .next (if preOp x = 0 then s.writePre x else s)

/-- CONTEXT_RESTORE_REQUEST (R326, R330): a write of PRE_CTL with OP 1. -/
def execContextRestoreRequest (x : Word) (s : State) : Host.Outcome State Fault Refusal :=
  .next (if preOp x = 1 then s.writePre x else s)

/-- CONTEXT_DESTROY_REQUEST (R321, R326): a write of PRE_CTL with OP 2. -/
def execContextDestroyRequest (x : Word) (s : State) : Host.Outcome State Fault Refusal :=
  .next (if preOp x = 2 then s.writePre x else s)

end Sys2Proof.Machine
end

