-- ==== Sys2Proof/Machine/Faults.lean ====
section
/-! DEFINITION. Shootdown and the module fault buffer (16 R309 to R316). -/

namespace Sys2Proof.Machine

/-! ### Shootdown (R309 to R311) -/

/-- Does a shootdown of PAGE and SD_CTL word `ctl` cover the page of `bytes` at `va` (R309)? -/
def sdCovers (sdVa ctl : Word) (va bytes : Nat) : Bool :=
  let lo := sdVa.toNat / 2 ^ 16 * 2 ^ 16
  ctl.getLsbD 58 || (decide (lo < va + bytes) && decide (va < lo + 2 ^ 16 * (field 0 32 ctl).toNat))

/-- CTX of SD_CTL (R309). -/
def sdCtx (ctl : Word) : Nat := (field 52 6 ctl).toNat

/-- What step 2 of a shootdown does to a handle: valid and faulted ones whose tag is covered are shot down; a pending one stays
pending, and its walk restarts (R308, R310). -/
def Handle.shootdown (sdVa ctl : Word) (h : Handle) : Handle :=
  if (h.v || h.f) && sdCovers sdVa ctl h.vpage.toNat h.pageBytes then h.shot else h

/-- What it does to the result of an `xlate` in flight: one of a covered page lands as shot down, whatever it was (R310). -/
def Handle.shootInFlight (sdVa ctl : Word) (h : Handle) : Handle :=
  if !h.isEmpty && sdCovers sdVa ctl h.vpage.toNat h.pageBytes then h.shot else h

/-- Step 1 at one cache: covered leaves and every path entry of the context dropped, its walks marked (R310). -/
def Cache.shootdown (sdVa ctl : Word) (c : Cache) : Cache :=
  { leaves := c.leaves.filter (fun l => !(l.ctx == sdCtx ctl && sdCovers sdVa ctl l.page (if l.big then 2 ^ 28 else 2 ^ 16)))
    paths := c.paths.filter (fun p => p.ctx != sdCtx ctl)
    walks := c.walks.map (fun w => if w.ctx = sdCtx ctl then { w with marked := true } else w) }

/-- Does a captured handle hold up a shootdown? -/
def Handle.captured (sdVa ctl : Word) (h : Handle) : Bool := h.v && sdCovers sdVa ctl h.vpage.toNat h.pageBytes

/-- The copies whose captured handles their accesses still use: those in the queue, and the one in execution unless what is left of it
is in the side log. While the engine holds for a read fault none does: what it has not done is translated again when it goes on
(R310, R316; DEDUCED, log 106). -/
def Core.capturingCopies (c : Core) : List Cmd :=
  match c.cpy.exec with
  | none => c.cpy.queue
  | some e =>
    if e.held then []
    else if decide (e.total ≤ e.next + e.chunks.length) && e.chunks.all (fun x => x.2 == .logged || x.2 == .complete) then c.cpy.queue
    else e.cmd :: c.cpy.queue

/-- What a tile's acknowledgement waits for: 3 × number of an access, 3 × issue order + 1 of a copy, that captured a covered
handle and has not performed (R164, R253, R310). -/
def Core.sdHolds (sdVa ctl : Word) (c : Core) : List Nat :=
  (c.dacc.filter (fun a => (a.st == .queued || a.st == .sent) && !a.isAtomic && a.h.captured sdVa ctl)).map (fun a => 3 * a.id) ++
    (c.capturingCopies.filter (fun k => k.sh.captured sdVa ctl || k.dh.captured sdVa ctl)).map (fun k => 3 * k.ord + 1)

/-- The requests of tile `t` on their way that accesses, chunks and transfers with blocks translated afresh have sent for covered
addresses, as 3 × number + 2: they too go to the frame that was (R162, R253, R316). -/
def State.freshHolds (s : State) (t : Nat) (sdVa ctl : Word) : List Nat :=
  let c := s.coreAt t
  let anew (r : Req) : Bool :=
    match r.owner with
    | .access id => c.dacc.any (fun a => a.id == id && a.fresh)
    | .chunk _ => (match c.cpy.exec with | some e => if r.write.isSome then !e.cmd.dh.v else !e.cmd.sh.v | none => false)
    | .job id => s.jobs.any (fun j => j.id == id && j.who.retries)
    | _ => false
  (s.reqs.filter (fun r => r.core == t && r.res.isNone && anew r && sdCovers sdVa ctl r.va.toNat r.len)).map (fun r => 3 * r.id + 2)

/-- Has one of those performed? A load that is held and a store that is logged has no captured handle (R310). -/
def State.sdPerformed (s : State) (t n : Nat) : Bool :=
  let c := s.coreAt t
  if n % 3 = 0 then !c.dacc.any (fun a => 3 * a.id == n && (a.st == .queued || a.st == .sent))
  else if n % 3 = 1 then !c.capturingCopies.any (fun k => 3 * k.ord + 1 == n && (k.sh.v || k.dh.v))
  else !s.reqs.any (fun r => 3 * r.id + 2 == n && r.res.isNone)

/-- SD_CTL after a write: its RW fields, and BUSY (R309). -/
def sdWord (x : Word) (busy : Bool) : Word := (x &&& 0x07F00000FFFFFFFF) ||| (if busy then 0x4000000000000000 else 0)

/-- A transfer that has not sent its requests translates its blocks again (R253). -/
def Job.untranslate (j : Job) : Job :=
  if j.sent || j.leaf.isNone then j
  else
    { j with
      todo := j.pas.map (fun b => (b.1, b.2.1)) ++ j.todo, pas := [], leaf := none
      ended := match j.ended with | some (.done _) => none | e => e }

/-- SHOOTDOWN_REQUEST (R309, R310): a write of SD_CTL. A GO while BUSY, or with nothing to cover, is ignored. -/
def State.writeSd (s : State) (x : Word) : State :=
  let busy := s.sys.sdCtl.getLsbD 62
  let t : State := { s with sys := { s.sys with sdCtl := sdWord x busy } }
  if busy || !x.getLsbD 63 || (!x.getLsbD 58 && field 0 32 x == 0) then t
  else
    let va := s.sys.sdVa
    let c := sdCtx x
    let waits := (s.residents c).map (fun id => (id, (s.coreAt id).sdHolds va x ++ s.freshHolds id va x))
    let u := t.mapCores (fun _ k =>
      if k.pos.ctx.toNat = c then k.mapHandlesBy (Handle.shootdown va x) (Handle.shootInFlight va x) else k)
    { u with
      jobs := u.jobs.map (fun j => if j.ctx = c then j.untranslate else j)
      sys := { u.sys with sdCtl := sdWord x true, sdRun := x, sdRunVa := va }
      caches := u.caches.map (fun e => (e.1, e.2.shootdown va x))
      sdWait := if (s.ctx c).st = 3 ∨ (s.ctx c).st = 4 then [] else waits }

/-- SHOOTDOWN_REQUEST (R309). -/
def execShootdownRequest (x : Word) (s : State) : Host.Outcome State Fault Refusal := .next (s.writeSd x)

/-- SHOOTDOWN_ACK (R310): tile `t` acknowledges when all it waits for has performed; for a frozen one its field's repair
controller does at once (R311). What its copies captured is not used after that (R253). -/
def State.sdAck (s : State) (t : Nat) : State :=
  match s.sdWait.find? (fun w => w.1 == t) with
  | none => s
  | some w =>
    if (s.coreAt t).frozen || w.2.all (s.sdPerformed t) then
      let u : State := { s with sdWait := s.sdWait.filter (fun v => v.1 != t) }
      u.putCore t ((u.coreAt t).mapCaptured (Handle.shootdown u.sys.sdRunVa u.sys.sdRun))
    else s

/-- SHOOTDOWN_ACK (R310). -/
def execShootdownAck (t : Nat) (s : State) : Host.Outcome State Fault Refusal := .next (s.sdAck t)

/-- SHOOTDOWN_COMPLETE (R310): TGEN rises, BUSY clears, marked walks restart, *shootdown complete*. -/
def State.sdComplete (s : State) : State :=
  let c := sdCtx s.sys.sdRun
  if s.sys.sdCtl.getLsbD 62 ∧ s.sdWait = [] then
    let t := s.putCtx c { s.ctx c with tgen := (s.ctx c).tgen + 1 }
    let again (w : Walk) : Bool := w.ctx == c && w.marked
    let gone := t.caches.flatMap (fun e => (e.2.walks.filter again).map (·.id))
    ({ t with
      sys := { t.sys with sdCtl := sdWord t.sys.sdCtl false }
      reqs := t.reqs.filter (fun r => match r.owner with | .walk n => !gone.contains n | _ => true)
      caches := t.caches.map (fun e => (e.1, { e.2 with
        walks := e.2.walks.map (fun w => if again w then w.restart else w) })) } : State).offer 2 0 c 0x0004 []
  else s

/-- SHOOTDOWN_COMPLETE (R310). -/
def execShootdownComplete (s : State) : Host.Outcome State Fault Refusal := .next s.sdComplete

/-- HANDLE_WALK_END (R307): `stalled` says that the walk ends for a link that stayed out of use; an end of another kind is not
this event. -/
def execHandleWalkEnd (k w : Nat) (stalled : Bool) (s : State) : Host.Outcome State Fault Refusal :=
  .next (if (s.cache k).walks.any (fun x => x.id == w && x.endsStalled == stalled) then s.walkEnd k w else s)

/-! ### The fault buffer (R312 to R315) -/

/-- The 64 bytes of a fault record (R313). -/
def FaultRec.bytes (r : FaultRec) : List (BitVec 8) :=
  leBytes 8 r.vaddr.toNat ++ leBytes 2 r.stamp.toNat ++ leBytes 1 r.type ++ leBytes 1 r.level ++ leBytes 1 (r.ctx % 64) ++
    leBytes 1 r.source ++ leBytes 2 r.link ++ leBytes 2 r.tid ++ leBytes 2 r.opc ++ leBytes 4 r.chunk ++ leBytes 1 r.bitmap ++
    leBytes 1 r.cls ++ leBytes 4 r.qid ++ leBytes 2 0 ++ leBytes 8 r.entry.toNat ++ leBytes 24 0

/-- LOG of FB_BASE (R312). -/
def SysRegs.fbLog (r : SysRegs) : Nat := (field 0 5 r.fbBase).toNat

/-- FAULT_RECORD_WRITE (R312): the oldest waiting record goes into the ring when that has room, as traffic of its context with master
number 64 (R322, R341); *fault pending* when the ring was empty. A record whose write is refused, or whose frame is offline, goes on
waiting (DESIGN CHOICE, log 108). -/
def State.writeRecord (s : State) : State :=
  match s.fbWait with
  | [] => s
  | r :: rest =>
    let log := s.sys.fbLog
    let a := (field 12 36 s.sys.fbBase).toNat * 4096 + 64 * (s.sys.prod.toNat % 2 ^ log)
    if log < 6 ∨ 15 < log ∨ 2 ^ log ≤ (s.sys.prod - s.sys.cons).toNat then s
    else
      match s.transfer (physJob moduleUnit .record r.ctx a r.bytes) false with
      | .done _ u =>
        let t : State := { u with fbWait := rest, sys := { u.sys with prod := u.sys.prod + 1 } }
        if u.sys.prod = u.sys.cons then t.offer 2 0 r.ctx 0x0005 (leBytes 2 t.sys.prod.toNat) else t
      | .wait u => u
      | .cause _ _ u => u
      | .fault _ _ _ _ u => u

/-- FAULT_RECORD_WRITE (R312). -/
def execFaultRecordWrite (s : State) : Host.Outcome State Fault Refusal := .next s.writeRecord

/-- A transfer that ended with a fault which no one has recorded yet goes on from its start: the stamp of that fault is older than the
flush (R314, R319). -/
def Job.renew (j : Job) : Job :=
  match j.ended with
  | some (.fault ..) =>
    if j.todo = [] ∧ j.leaf = none then { j with sent := false, ended := none }
    else
      { j with
        todo := j.pas.map (fun b => (b.1, b.2.1)) ++ j.todo, pas := [], leaf := none, walk := none, sent := false, ended := none }
  | _ => j

/-- What a flush does at a core: faulted handles are shot down, captured ones too; held loads and logged entries are
released, and so are copies and engine queues that a fault holds (R308, R315, R316). -/
def Core.flush (c : Core) : Core :=
  let g (h : Handle) : Handle := if h.f then h.shot else h
  let d := (c.mapHandles g).mapCaptured g
  { d with
    dacc := d.dacc.map (fun a => if a.st = .held then { a with st := .retry } else a)
    slog := d.slog.map (fun e => { e with ready := true })
    cpy := { d.cpy with exec := d.cpy.exec.map KExec.release }
    mat := { d.mat with held := false }
    chn := { d.chn with held := false } }

/-- FAULT_BUFFER_FLUSH (R315): a write of FB_FLUSH; one with VAL ≠ FGEN is ignored. -/
def State.flushFaults (s : State) (x : Word) : State :=
  if field 0 16 x ≠ s.sys.fgen then s
  else
    let t := (s.mapCores (fun _ c => c.flush)).dropJobs moduleUnit (· == .record)
    { t with
      sys := { t.sys with fgen := t.sys.fgen + 1, cons := t.sys.prod }
      fbWait := []
      jobs := t.jobs.map Job.renew
      queues := t.queues.map (fun e => (e.1, { e.2 with heldSpill := false, heldStage := false }))
      launches := t.launches.map (fun l => { l with hold := false })
      saved := t.saved.map (fun v => { v with hold := false }) }

/-- FAULT_BUFFER_FLUSH (R315). -/
def execFaultBufferFlush (x : Word) (s : State) : Host.Outcome State Fault Refusal := .next (s.flushFaults x)

end Sys2Proof.Machine
end

