-- ==== Sys2Proof/Machine/Tables.lean ====
section
/-! DEFINITION. The tables that the management core writes: descriptors, access tables, slot tables, side-log and launch
registers (15 R283, 17 R320 to R322, 18 R339, R340, 23 R400, R402). -/

namespace Sys2Proof.Machine

/-! ### Descriptors (R283, R320, R400) -/

/-- TBL of DSC_SEL: 1 context. -/
def dscTbl (x : Word) : Bool := x.getLsbD 63

/-- The index of DSC_SEL. -/
def dscIdx (x : Word) : Nat := (field 0 17 x).toNat

/-- The four words of a descriptor. -/
def descWords (d : BitVec 256) : Vector Word 4 := Vector.ofFn (fun (i : Fin 4) => d.extractLsb' (64 * i.val) 64)

/-- DESCRIPTOR_SELECT (R400): DSC_SEL written, the selected descriptor in DSC_D0 to DSC_D3. -/
def State.selectDesc (s : State) (x : Word) : State :=
  let i := dscIdx x
  let d : BitVec 256 := if dscTbl x then (if i < 64 then (s.ctx i).bits else 0) else s.queueDesc i
  { s with sys := { s.sys with dscSel := x &&& 0x800000000001FFFF, dscD := descWords d } }

/-- DESCRIPTOR_SELECT (R400). -/
def execDescriptorSelect (x : Word) (s : State) : Host.Outcome State Fault Refusal := .next (s.selectDesc x)

/-- The descriptor staged in DSC_D0 to DSC_D3. -/
def State.stagedDesc (s : State) : BitVec 256 :=
  let d := s.sys.dscD
  d.get 3 ++ d.get 2 ++ d.get 1 ++ d.get 0

/-- The outcome of a commit in DSC_CTL: 1 accepted, 2 refused with its event (R320, R383, R400). -/
def State.dscResult (s : State) (ok : Bool) (tbl idx ctx : Nat) : State :=
  let t : State := { s with sys := { s.sys with dscCtl := if ok then 1 else 2 } }
  if ok then t else t.offer 6 0 ctx 0x0006 (leBytes 1 tbl ++ leBytes 4 idx)

/-- Does a queue descriptor keep the conditions of its table (R283)? -/
def State.goodQueueDesc (s : State) (d : BitVec 256) : Bool :=
  field 118 10 d == 0 && field 10 54 d == 0 && (qdSbase d).toNat % 2 ^ 16 == 0 && (qdHring d).toNat % 64 == 0 &&
    decide (4 ≤ qdSlog d ∧ qdSlog d ≤ 20) && (!qdHosten d || decide (4 ≤ qdHlog d)) && qdHbase d % 64 == 0 &&
    decide (qdHbase d + qdHn d * qdSize d ≤ 0xC0000) && decide (16 ≤ qdHn d ∧ qdHn d ≤ 256) &&
    (s.ctx (qdCtx d)).hasHome (qdHome d) && !s.isHole (qdHome d)

/-- Is a queue empty? -/
def State.queueEmpty (s : State) (q : Nat) : Bool := (s.queueRec q).head.isEmpty && (s.queueRec q).inn == (s.queueRec q).out

/-- QUEUE_DESCRIPTOR_COMMIT (R283, R287): refused when it breaks the table, or changes a valid descriptor whose queue is not
empty and closed other than by closing it. -/
def State.commitQueue (s : State) (q : Nat) : State :=
  let d := s.stagedDesc
  let old := s.queueDesc q
  let closes := d == (old ||| 8)
  let ok := decide (q < 131072) && s.goodQueueDesc d && (!qdV old || d == old || closes || (qdClosed old && s.queueEmpty q))
  let t := if ok then { s with qdesc := Tab.put s.qdesc q d } else s
  (if ok && qdV d && qdClosed d && !(qdClosed old && qdV old) then t.closeQueue q else t).dscResult ok 0 q (qdCtx d)

/-- The rectangle of a descriptor meets another's (R320). -/
def Ctx.meets (a b : Ctx) : Bool :=
  decide (a.x0.toNat < b.x0.toNat + b.w.toNat ∧ b.x0.toNat < a.x0.toNat + a.w.toNat ∧ a.y0.toNat < b.y0.toNat + b.h.toNat ∧
    b.y0.toNat < a.y0.toNat + a.h.toNat)

/-- The tiles of a context's rectangle. -/
def Ctx.tiles (d : Ctx) : List Nat := rectTiles d.x0.toNat d.y0.toNat d.w.toNat d.h.toNat

/-- Grants written into tiles for one master, all others of those tiles kept or cleared (R322, R402). -/
def State.setGrants (s : State) (tiles : List Nat) (mid : Nat) (g : BitVec 2) (clear : Bool) : State :=
  let keep (k : Nat) : Bool := !(tiles.contains (k / 128) && (clear || k % 128 == mid))
  let base := s.grants.filter (fun e => keep e.1)
  { s with grants := if g = 0 then base else tiles.foldl (fun t id => Tab.put t (128 * id + mid) g) base }

/-- CONTEXT_DESCRIPTOR_COMMIT (R320 to R322): the RO fields stay; with V = 1 a free context becomes active with its event counters at 0 (R282), and the
rectangle's tiles grant the context alone. -/
def State.commitCtx (s : State) (c : Nat) : State :=
  let x := s.stagedDesc
  let d := Ctx.ofBits x
  let old := s.ctx c
  let moved := d.x0 != old.x0 || d.y0 != old.y0 || d.w != old.w || d.h != old.h || d.root != old.root || d.save != old.save ||
    d.homen != old.homen
  let ok := decide (c < 64) && decide (d.x0.toNat + d.w.toNat ≤ 184) && decide (d.y0.toNat + d.h.toNat ≤ 184) &&
    decide (d.homen.toNat ≤ d.w.toNat) && field 136 12 x == 0 && field 64 64 x == 0 && field 12 20 x == 0 && field 1 4 x == 0 &&
    s.ctxs.all (fun e => e.1 == c || !e.2.v || !d.meets e.2) && !(moved && old.st != 0 && old.st != 4)
  let new : Ctx := { d with tgen := old.tgen, st := if old.st = 0 ∧ d.v then 1 else old.st }
  let born : State := if old.st = 0 ∧ d.v then { s with evctr := s.evctr.filter (fun e => e.1 / 1024 != c) } else s
  let t := if ok then (born.putCtx c new).setGrants d.tiles c (if d.v then 3 else 0) true else s
  t.dscResult ok 1 c c

/-- A write of DSC_CTL: GO commits what DSC_SEL selects (R400). -/
def State.writeDscCtl (s : State) (x : Word) : State :=
  if !x.getLsbD 63 then s
  else if dscTbl s.sys.dscSel then s.commitCtx (dscIdx s.sys.dscSel) else s.commitQueue (dscIdx s.sys.dscSel)

/-- QUEUE_DESCRIPTOR_COMMIT (R283): a write of DSC_CTL with a queue selected. -/
def execQueueDescriptorCommit (x : Word) (s : State) : Host.Outcome State Fault Refusal :=
  .next (if dscTbl s.sys.dscSel then s else s.writeDscCtl x)

/-- CONTEXT_DESCRIPTOR_COMMIT (R320): a write of DSC_CTL with a context selected. -/
def execContextDescriptorCommit (x : Word) (s : State) : Host.Outcome State Fault Refusal :=
  .next (if dscTbl s.sys.dscSel then s.writeDscCtl x else s)

/-! ### Access tables (R322, R402) -/

/-- TBL of ATB_SEL. -/
def atbTbl (x : Word) : Nat := (field 62 2 x).toNat
/-- MID of ATB_SEL. -/
def atbMid (x : Word) : Nat := (field 16 7 x).toNat
/-- IDX of ATB_SEL. -/
def atbIdx (x : Word) : Nat := (field 0 16 x).toNat

/-- ATB_DATA0 and ATB_DATA1 of the entry that `x` selects (R402). -/
def State.atbEntry (s : State) (x : Word) : Word × Word :=
  match atbTbl x with
  | 0 =>
    (BitVec.ofNat 64 (tileY (atbIdx x) * 2 ^ 24 + tileX (atbIdx x) * 2 ^ 16 + 0x101),
      (s.grant (atbIdx x) (atbMid x)).setWidth 64)
  | 1 =>
    let r := s.rangeOf (atbMid x) (atbIdx x % 8)
    ((if r.v then 0x8000000000000000 else 0) + r.base.setWidth 64 <<< 16,
      r.limit.setWidth 64 <<< 16 + (if r.wr then 2 else 0) + (if r.rd then 1 else 0))
  | 2 => (s.hostSets.toList.getD (atbIdx x % 4) 0, 0)
  | _ => (0, 0)

/-- ACCESS_TABLE_SELECT (R402). -/
def State.selectAtb (s : State) (x : Word) : State :=
  let y := x &&& 0xC0000000007FFFFF
  let (a, b) := s.atbEntry y
  { s with sys := { s.sys with atbSel := y, atbD0 := a, atbD1 := b } }

/-- ACCESS_TABLE_SELECT (R402). -/
def execAccessTableSelect (x : Word) (s : State) : Host.Outcome State Fault Refusal := .next (s.selectAtb x)

/-- The outcome of a commit in ATB_CTL: 1 accepted, 2 refused with *request refused* (R402). -/
def State.atbResult (s : State) (ok : Bool) : State :=
  let t : State := { s with sys := { s.sys with atbCtl := if ok then 1 else 2 } }
  if ok then t else t.requestRefused 0x40 0x83B

/-- A commit of tile grants (R402). -/
def State.commitGrant (s : State) : State :=
  let a := s.sys.atbD0
  let b := s.sys.atbD1
  let m := atbMid s.sys.atbSel
  let w := (field 0 8 a).toNat
  let h := (field 8 8 a).toNat
  let x0 := (field 16 8 a).toNat
  let y0 := (field 24 8 a).toNat
  if m ≤ 64 ∧ field 32 32 a = 0 ∧ field 2 62 b = 0 ∧ 0 < w ∧ 0 < h ∧ x0 + w ≤ 184 ∧ y0 + h ≤ 184 then
    (s.setGrants (rectTiles x0 y0 w h) m (field 0 2 b) false).atbResult true
  else s.atbResult false

/-- A commit of a drawer-port range (R402). -/
def State.commitRange (s : State) : State :=
  let a := s.sys.atbD0
  let b := s.sys.atbD1
  let m := atbMid s.sys.atbSel
  let i := atbIdx s.sys.atbSel % 8
  let r : Range := { v := a.getLsbD 63, base := field 16 32 a, limit := field 16 32 b, rd := b.getLsbD 0, wr := b.getLsbD 1 }
  if m ≤ 68 ∧ field 48 15 a = 0 ∧ field 0 16 a = 0 ∧ field 48 16 b = 0 ∧ field 2 14 b = 0 ∧
      !(r.v && decide (r.limit < r.base)) ∧ r.limit.toNat * 2 ^ 16 < s.cap ∧ ¬(m = 64 ∧ i = 0) then
    ({ s with ranges := Tab.put s.ranges (8 * m + i) r } : State).atbResult true
  else s.atbResult false

/-- A commit of a host port's context set (R402). -/
def State.commitHostSet (s : State) : State :=
  if s.sys.atbD1 = 0 then
    ({ s with hostSets := s.hostSets.setIfInBounds (atbIdx s.sys.atbSel % 4) s.sys.atbD0 } : State).atbResult true
  else s.atbResult false

/-- A write of ATB_CTL: GO commits to the entry that ATB_SEL selects; TBL 3 is refused (R402). -/
def State.writeAtbCtl (s : State) (x : Word) : State :=
  if !x.getLsbD 63 then s
  else
    match atbTbl s.sys.atbSel with
    | 0 => s.commitGrant
    | 1 => s.commitRange
    | 2 => s.commitHostSet
    | _ => s.atbResult false

/-- TILE_GRANT_COMMIT (R402). -/
def execTileGrantCommit (x : Word) (s : State) : Host.Outcome State Fault Refusal :=
  .next (if atbTbl s.sys.atbSel = 0 then s.writeAtbCtl x else s)

/-- DRAWER_RANGE_COMMIT (R402). -/
def execDrawerRangeCommit (x : Word) (s : State) : Host.Outcome State Fault Refusal :=
  .next (if atbTbl s.sys.atbSel = 1 then s.writeAtbCtl x else s)

/-- HOST_CONTEXT_SET_COMMIT (R402). -/
def execHostContextSetCommit (x : Word) (s : State) : Host.Outcome State Fault Refusal :=
  .next (if atbTbl s.sys.atbSel = 2 then s.writeAtbCtl x else s)

/-! ### Slot tables (R339, R340) -/

/-- SLT_DATA_WRITE (R340): eight shadow entries; GROUP advances. A LINK above 111 discards the write. -/
def State.writeSlt (s : State) (x : Word) : State :=
  let a := s.sys.sltAddr
  let link := (field 16 7 a).toNat
  let group := (field 0 7 a).toNat
  if 112 ≤ link then s
  else
    { s with
      slotsS := (List.range 8).foldl (fun t k => Tab.put t (1024 * link + 8 * group + k) (x.extractLsb' (8 * k) 8)) s.slotsS
      sys := { s.sys with sltAddr := (a &&& 0x0000000000FF0000) + BitVec.ofNat 64 ((group + 1) % 128) } }

/-- SLT_DATA_WRITE (R340). -/
def execSltDataWrite (x : Word) (s : State) : Host.Outcome State Fault Refusal := .next (s.writeSlt x)

/-- Is a slot-table entry reserved (R339)? -/
def badSlot (e : BitVec 8) : Bool := e.getLsbD 7 || decide (64 ≤ e.toNat ∧ e.toNat ≤ 126)

/-- Does link `n`'s shadow bank fail the check of a commit (R340)? -/
def State.badShadow (s : State) (n : Nat) : Bool := s.slotsS.any (fun e => e.1 / 1024 == n && badSlot e.2)

/-- SLT_CTL after a write (R340). -/
def sltWord (x : Word) (busy : Bool) : Word := (x &&& 0x200000000000007F) ||| (if busy then 0x4000000000000000 else 0)

/-- SLOT_TABLE_COMMIT (R340): a write of SLT_CTL. A GO while BUSY is ignored. -/
def State.writeSltCtl (s : State) (x : Word) : State :=
  let busy := s.sys.sltCtl.getLsbD 62
  let t : State := { s with sys := { s.sys with sltCtl := sltWord x busy } }
  let n := (field 0 7 x).toNat
  if busy || !x.getLsbD 63 then t
  else
    let links := if x.getLsbD 61 then List.range 112 else [n]
    let bad := if 112 ≤ n then some n else links.find? s.badShadow
    match bad with
    | some m => t.offer 6 0 0x40 0x000D (leBytes 1 m)
    | none => { t with sys := { t.sys with sltCtl := sltWord x true }, sltWait := links }

/-- SLOT_TABLE_COMMIT (R340). -/
def execSlotTableCommit (x : Word) (s : State) : Host.Outcome State Fault Refusal := .next (s.writeSltCtl x)

/-- SLOT_TABLE_SWITCH (R340): at link `n`'s frame boundary its active bank takes the shadow bank; BUSY falls with the last. -/
def State.switchSlots (s : State) (n : Nat) : State :=
  let l := s.link n
  if s.sltWait.contains n && l.st == 2 && l.slot % 1024 == 0 then
    let mine (e : Nat × BitVec 8) : Bool := e.1 / 1024 == n
    let t : State := { s with
      slotsA := (s.slotsS.filter mine).foldl (fun u e => Tab.put u e.1 e.2) (s.slotsA.filter (fun e => !mine e))
      sltWait := s.sltWait.filter (· != n) }
    if t.sltWait = [] then { t with sys := { t.sys with sltCtl := sltWord t.sys.sltCtl false } } else t
  else s

/-- SLOT_TABLE_SWITCH (R340). -/
def execSlotTableSwitch (n : Nat) (s : State) : Host.Outcome State Fault Refusal := .next (s.switchSlots n)

end Sys2Proof.Machine
end

