-- ==== Sys2Proof/Machine/Power.lean ====
section
/-! DEFINITION. Field power, temperature, throttle, the event arbiter, the black-box record and the core's wake-up
(21 R381 to R383, 23 R389 to R401). -/

namespace Sys2Proof.Machine

/-! ### Field power (R389, R390) -/

/-- May field `f` not be switched off (R390)? -/
def State.fieldBusy (s : State) (f : Nat) : Bool :=
  s.ctxs.any (fun e => e.2.v && e.2.tiles.any (fun t => fieldOf t == f)) ||
    (List.range 112).any (fun n => fieldOf (linkTile n) == f && s.linkUp n) ||
    (List.range 56).any (fun p => fieldOf (portTile p) == f && (s.portAt p).state != 0)

/-- The fields that go on switching on after a write of FPWR_EN: where it takes the one whose turn it was, the next begins now (R389). -/
def State.stillSwitching (s : State) (x : Word) : List Switching :=
  match s.switching, s.switching.filter (fun w => x.getLsbD w.fld) with
  | w :: _, v :: r => if w.fld = v.fld then v :: r else { v with since := s.cycle } :: r
  | _, ws => ws

/-- FIELD_POWER_WRITE (R390, R394): fields cleared lose their supply, fields set are switched on one after another; refused whole
for a field in use; ignored after a thermal shutdown. -/
def State.writePower (s : State) (x : Word) : State :=
  let old := s.sys.fpwrEn
  if s.shutdown then s
  else if (List.range 64).any (fun f => old.getLsbD f && !x.getLsbD f && s.fieldBusy f) then s.requestRefused 0x40 0x858
  else
    { s with
      sys := { s.sys with fpwrEn := x, fpwrSt := s.sys.fpwrSt &&& x }
      switching := s.stillSwitching x ++
        ((List.range 64).filter (fun f => x.getLsbD f && !old.getLsbD f)).map (fun f => { fld := f, stage := 0, since := s.cycle }) }

/-- FIELD_POWER_WRITE (R390). -/
def execFieldPowerWrite (x : Word) (s : State) : Host.Outcome State Fault Refusal := .next (s.writePower x)

/-- FIELD_POWER_STAGE (R389): a stage of the first field that switches on ends 1,250 tc after the one before; the 16th sets its ON
bit, and the next field begins. -/
def State.powerStage (s : State) : State :=
  match s.switching with
  | [] => s
  | w :: r =>
    if s.cycle < w.since + 1250 then s
    else if w.stage < 15 then { s with switching := { w with stage := w.stage + 1, since := s.cycle } :: r }
    else
      { s with
        sys := { s.sys with fpwrSt := s.sys.fpwrSt ||| (1 <<< w.fld) }
        switching := match r with | v :: r2 => { v with since := s.cycle } :: r2 | [] => [] }

/-- FIELD_POWER_STAGE (R389). -/
def execFieldPowerStage (s : State) : Host.Outcome State Fault Refusal := .next s.powerStage

/-! ### Temperature (R391 to R394) -/

/-- The code that sensor `n` of field `f` gives at this sample (R391; log 3). -/
def State.sensorCode (s : State) (f n : Nat) : Nat := ((Tab.getD s.env.temps (4 * f + n) []).headD 0) % 4096

/-- The readings of the next sample: each sensor's next code, its last one again where there is no other (log 3). -/
def Env.nextReadings (e : Env) : Env := { e with temps := e.temps.map (fun t => (t.1, match t.2 with | _ :: x :: r => x :: r | l => l)) }

/-- The sensor of the highest reading, the lowest number on a tie (R393). -/
def State.hottest (s : State) (f : Nat) : Nat :=
  (List.range 4).foldl (fun b n => if s.sensorCode f b < s.sensorCode f n then n else b) 0

/-- SENS of a field after a sample: readings and ALRT (R391, R393). -/
def State.sample (s : State) (f : Nat) : Word × Bool :=
  let old := (Tab.getD s.sens f 0).getLsbD 63
  let codes := (List.range 4).map (s.sensorCode f)
  let begins := !old && codes.any (fun t => decide ((field 0 12 s.sys.thermCfg).toNat ≤ t))
  let ends := codes.all (fun t => decide (t < (field 16 12 s.sys.thermCfg).toNat))
  let alrt := if begins then true else if ends then false else old
  (BitVec.ofNat 64 (packFrom 16 (fun n => s.sensorCode f n) 4 0 + (if alrt then 2 ^ 63 else 0)), begins)

/-- Every context lost as if destroyed, without events, with what ran on the tiles (R394). The management core, the drawer, its
links, the host's requests and everything in the management complex stay. -/
def State.loseContexts (s : State) : State :=
  { s with
    cores := s.cores.filter (fun e => e.1 == mgmtCore)
    aborts := [], reqs := s.reqs.filter (fun r => r.core == mgmtCore || r.core == 0x10140 || (decide (0x10000 ≤ r.core) && decide (r.core < 0x10004)))
    jobs := s.jobs.filter (fun j => j.core == mgmtCore)
    metered := [], caches := s.caches.filter (fun e => e.1 == 64), sdWait := [], slogUsed := []
    fbWait := s.fbWait.filter (fun r => r.ctx % 64 == 0 && r.tid == 0xFFFF && r.source < 4)
    ctxs := s.ctxs.map (fun e => (e.1, { Ctx.fresh with tgen := e.2.tgen }))
    charged := [], evctr := [], saved := [], preWait := []
    qdesc := s.qdesc.map (fun e => (e.1, e.2 ||| 8))
    queues := s.queues.map (fun e => (e.1, { QueueRec.fresh with tail := e.2.tail, taken := e.2.tail, out := e.2.inn, inn := e.2.inn }))
    launches := [], gangs := [], net := [], arrivals := [], credits := [], migrations := [], wdHeld := []
    sys := { s.sys with preCtl := preWord s.sys.preCtl false } }

/-- The thermal shutdown of a sample, whose field `f` reads `code` (R394). -/
def State.shutDown (s : State) (f code : Nat) : State :=
  let t := s.offer 7 f 0x40 0x0031 (leBytes 1 f ++ leBytes 2 code)
  { t.loseContexts with
    shutdown := true, switching := [], sys := { t.loseContexts.sys with fpwrEn := 0, fpwrSt := 0 } }

/-- SENSOR_SAMPLE (R391 to R394), every 12,500 tc. -/
def State.sampleAll (s : State) : State :=
  if s.cycle < s.nextSample then s
  else
    let t := (List.range 64).foldl (fun (u : State) f =>
      let (w, begins) := s.sample f
      let v : State := { u with sens := Tab.put u.sens f w }
      if begins then
        v.offer 7 f 0x40 0x0030 (leBytes 1 f ++ leBytes 1 (s.hottest f) ++ leBytes 2 (s.sensorCode f (s.hottest f)))
      else v) { s with nextSample := s.cycle + 12500, env := s.env.nextReadings }
    match if s.shutdown then none else (List.range 64).find? (fun f => decide (1840 ≤ s.sensorCode f (s.hottest f))) with
    | some f => t.shutDown f (s.sensorCode f (s.hottest f))
    | none => t

/-- SENSOR_SAMPLE (R391). -/
def execSensorSample (s : State) : Host.Outcome State Fault Refusal := .next s.sampleAll

/-! ### Throttle (R395) -/

/-- The throttle of field `f`. -/
def State.throttleAt (s : State) (f : Nat) : Throttle := Tab.getD s.throttles f { k := 0, next := none }

/-- THROTTLE_WRITE (R395): the new step governs from the first cycle with c mod 8 = 0 at or after its landing. -/
def State.writeThrottle (s : State) (f : Nat) (x : Word) : State :=
  let k := (field 0 3 x).toNat
  let t := s.throttleAt f
  { s with throttles := Tab.put s.throttles f (if s.cycle % 8 = 0 then { k, next := none } else { t with next := some k }) }

/-- THROTTLE_WRITE (R395). -/
def execThrottleWrite (f : Nat) (x : Word) (s : State) : Host.Outcome State Fault Refusal :=
  .next (if f < 64 then s.writeThrottle f x else s)

/-- Written steps that begin to govern as this cycle begins (R395). -/
def State.turnThrottles (s : State) : State :=
  if s.cycle % 8 = 0 then
    { s with throttles := s.throttles.map (fun e => (e.1, { k := e.2.next.getD e.2.k, next := none })) }
  else s

/-! ### The event arbiter (R381, R382) -/

/-- Is offer `a` stamped before `b`: offered earlier, then ORIGIN, then WHERE (R381)? -/
def Offer.before (a b : Offer) : Bool :=
  decide (a.since < b.since) || (a.since == b.since && (decide (a.org < b.org) || (a.org == b.org && decide (a.loc ≤ b.loc))))

/-- The offer to be stamped next; offers of one source keep their order. -/
def nextOffer : List Offer → Option Offer
  | [] => none
  | a :: r =>
    match nextOffer r with
    | none => some a
    | some b => if a.before b then some a else some b

/-- The 64 bytes of a black-box record (R382). -/
def Offer.record (o : Offer) (seq cycle : Nat) : List (BitVec 8) :=
  leBytes 8 seq ++ leBytes 8 cycle ++ leBytes 2 o.code ++ leBytes 1 o.org ++ leBytes 1 o.ctx ++ leBytes 2 o.loc ++
    leBytes 2 o.merged ++ (o.data ++ List.replicate 40 0).take 40

/-- The KIND of the records that an event's code matches (R380, R383). -/
def logKind (code : Nat) : Nat :=
  if code = 0x20 then 1 else if code = 0x27 then 2 else if code = 0x26 then 3 else if code = 0x25 then 5 else 0

/-- The record of a fault log that was made in the cycle in which its event occurred gets the event's SEQ (R380). -/
def linkLog (seq kind cyc : Nat) : List LogRec → List LogRec
  | [] => []
  | r :: rest => if r.seq = 0 ∧ r.kind = kind ∧ r.cycle = cyc then { r with seq } :: rest else r :: linkLog seq kind cyc rest

/-- The ORIGIN and SEQ of the record that slot `i` of the black box loses, by ORIGIN (R382, R398). -/
def State.overwritten (s : State) (i : Nat) : Tab Nat :=
  match Tab.get? s.bbox i with
  | some r => Tab.put s.evtOver (r.getD 18 0).toNat (bytesNat (r.take 8))
  | none => s.evtOver

/-- The response to the order whose event `o` is stamped goes out (R405). -/
def State.answerOrder (s : State) (o : Offer) : State :=
  if o.org = 8 ∧ o.code = 0x0038 then
    match s.awaited.find? (fun a => a.port == o.loc && a.order == (o.data.getD 1 0).toNat) with
    | some a => ({ s with awaited := s.awaited.erase a } : State).respond a.src 9 a.seq 0 []
    | none => s
  else s

/-- EVENT_STAMP (R381, R382): one event, with the next SEQ and the cycle, into the black-box record. -/
def State.stamp (s : State) : State :=
  if s.stampedNow then s
  else
    match nextOffer (s.offered.filter (fun o => decide (o.since ≤ s.cycle))) with
    | none => s
    | some o =>
      let seq := s.sys.evtLast + 1
      State.answerOrder { s with
        offered := s.offered.erase o
        sys := { s.sys with evtLast := seq }
        evtOver := s.overwritten (seq.toNat % 4096)
        stampedNow := true
        flogs := match o.log with
          | some k => Tab.put s.flogs k
              (linkLog seq.toNat (logKind o.code) (if o.org = 1 then o.since else o.since - 1) (Tab.getD s.flogs k []))
          | none => s.flogs
        bbox := Tab.put s.bbox (seq.toNat % 4096) (o.record seq.toNat s.cycle) } o

/-- EVENT_STAMP (R381). -/
def execEventStamp (s : State) : Host.Outcome State Fault Refusal := .next s.stamp

/-! ### The core's window and wake-up (R398, R399, R401) -/

/-- WAKE_TIMER (R398): CYCLE has reached WAKE.AT: an idle core goes on. -/
def State.wakeTimer (s : State) : State :=
  let c := s.coreAt mgmtCore
  if s.sys.wake.getLsbD 63 && decide ((field 0 63 s.sys.wake).toNat ≤ s.cycle) && c.strand == .coreIdle then
    s.putCore mgmtCore { c with strand := .running }
  else s

/-- WAKE_TIMER (R398). -/
def execWakeTimer (s : State) : Host.Outcome State Fault Refusal := .next s.wakeTimer

/-- BB_IDX_WRITE (R399): the selected record is copied whole into BB_RD0 to BB_RD7. -/
def State.writeBbIdx (s : State) (x : Word) : State :=
  let i := (field 0 12 x).toNat
  let r := Tab.getD s.bbox i (List.replicate 64 0)
  { s with sys := { s.sys with bbIdx := x &&& 0xFFF, bbRd := Vector.ofFn (fun (j : Fin 8) => recWord r j.val) } }

/-- BB_IDX_WRITE (R399). -/
def execBbIdxWrite (x : Word) (s : State) : Host.Outcome State Fault Refusal := .next (s.writeBbIdx x)

/-- BB_WCODE_WRITE (R399): a software event with the staged data, or *request refused*. -/
def State.writeBbCode (s : State) (x : Word) : State :=
  let code := (field 0 16 x).toNat
  if 0x40 ≤ code ∧ code ≤ 0x7F then
    s.offer 6 0 0x40 code (s.sys.bbWr.toList.flatMap (fun w => leBytes 8 w.toNat))
  else s.requestRefused 0x40 0x81D

/-- BB_WCODE_WRITE (R399). -/
def execBbWcodeWrite (x : Word) (s : State) : Host.Outcome State Fault Refusal := .next (s.writeBbCode x)

/-- MOD_RANK_WRITE (R401): refused while any context is valid. -/
def State.writeRank (s : State) (x : Word) : State :=
  if s.ctxs.any (·.2.v) then s.requestRefused 0x40 0x852
  else { s with sys := { s.sys with modRank := x &&& 0x3FF } }

/-- MOD_RANK_WRITE (R401). -/
def execModRankWrite (x : Word) (s : State) : Host.Outcome State Fault Refusal := .next (s.writeRank x)

end Sys2Proof.Machine
end

