-- ==== Sys2Proof/Machine/Repair.lean ====
section
/-! DEFINITION. Service commands, fault logs, migration, holes, poison, dead links (21 R363 to R380). -/

namespace Sys2Proof.Machine

/-! ### Fault logs (R380, R405) -/

/-- The physical row and column of a tile as LOC's and a selector's fields. -/
def State.placeOf (s : State) (tid : Nat) : Nat × Nat × Nat :=
  let (p, q) := s.physOf tid
  (fieldOf tid, p, q)

/-- The log selector of a unit 0 to 4 at a physical place (R405). -/
def tileLog (unit fld p q : Nat) : Nat := unit + 16 * fld + 1024 * p + 32768 * q

/-- LOC (R380). -/
def logPlace (fld p q : Nat) : Nat := fld + 256 * p + 65536 * q

/-- Is a detected error a repeat of the newest record of its log (R380)? -/
def State.repeats (s : State) (key kind place : Nat) : Bool :=
  match Tab.getD s.flogs key [] with
  | r :: _ => decide (r.kind = kind ∧ r.place = place ∧ s.cycle ≤ r.cycle + 65536)
  | [] => false

/-- A detected error recorded: a repeat of the newest record's KIND and LOC within 65,536 tc raises its COUNT; 16 records are
kept (R380). -/
def State.addLog (s : State) (key unit kind place detail : Nat) : State :=
  let old := Tab.getD s.flogs key []
  let fresh : LogRec := { seq := 0, cycle := s.cycle, unit, kind, count := 1, place, detail }
  let new := match old with
    | r :: rest => if s.repeats key kind place then { r with count := min 0xFFFF (r.count + 1) } :: rest else fresh :: old.take 15
    | [] => [fresh]
  { s with flogs := Tab.put s.flogs key new }

/-- An error of unit `unit` of tile `tid` recorded; answers beside the state the log in which its event finds a new record. -/
def State.logTile (s : State) (tid unit kind detail : Nat) : State × Option Nat :=
  let (f, p, q) := s.placeOf tid
  let key := tileLog unit f p q
  (s.addLog key unit kind (logPlace f p q) detail, if s.repeats key kind (logPlace f p q) then none else some key)

/-- The same of a field's repair controller, for tile `tid` (R370, R405). -/
def State.logField (s : State) (tid kind : Nat) : State × Option Nat :=
  let (f, p, q) := s.placeOf tid
  let key := tileLog 5 f 0 0
  (s.addLog key 5 kind (logPlace f p q) 0, if s.repeats key kind (logPlace f p q) then none else some key)

/-- An error of link or port `n`, unit 6 or 7, whose end is at tile `tid`, recorded (R380, R405). -/
def State.logEnd (s : State) (tid unit n kind detail : Nat) : State :=
  let (f, p, q) := s.placeOf tid
  s.addLog (unit + 2 ^ 20 * n) unit kind (logPlace f p q) detail

/-- The context whose rectangle holds a tile, 0x40 when none does (R382). -/
def State.ctxOf (s : State) (tid : Nat) : Nat :=
  match s.ctxs.find? (fun e => e.2.v && inRect e.2.x0.toNat e.2.y0.toNat e.2.w.toNat e.2.h.toNat tid) with
  | some e => e.1
  | none => 0x40

/-! ### Service commands (R366) -/

/-- OP of REP_CMD. -/
def repOp (x : Word) : Nat := (field 36 4 x).toNat

/-- FIELD of REP_CMD. -/
def repField (x : Word) : Nat := (field 30 6 x).toNat

/-- A service command in its field's journal, of the last 64 (R363). -/
def State.enterJournal (s : State) (x : Word) : State :=
  let mine (e : JournalEntry) : Bool := repField e.cmd == repField x
  let old := if 64 ≤ (s.journal.filter mine).length then s.journal.eraseP mine else s.journal
  { s with journal := old ++ [{ cmd := x, pending := true }] }

/-- A write of REP_CMD (R366): journalled as pending when it came over the management port and its OP is 1 to 7. -/
def State.writeRep (s : State) (x : Word) (port : Bool) : State :=
  if !port || repOp x = 0 || 8 ≤ repOp x then s.requestRefused 0x40 0x84C
  else
    (s.enterJournal x).offer 6 0 0x40 0x0028
      (leBytes 8 x.toNat)

/-- A service command of one OP, over the management port. -/
def State.serviceCmd (s : State) (op : Nat) (x : Word) : State := if repOp x = op then s.writeRep x true else s

/-- CLEAR_ROW (R366). -/
def execClearRow (x : Word) (s : State) : Host.Outcome State Fault Refusal := .next (s.serviceCmd 1 x)
/-- CLEAR_COLUMN (R366). -/
def execClearColumn (x : Word) (s : State) : Host.Outcome State Fault Refusal := .next (s.serviceCmd 2 x)
/-- CLEAR_HOLE (R366). -/
def execClearHole (x : Word) (s : State) : Host.Outcome State Fault Refusal := .next (s.serviceCmd 3 x)
/-- CLEAR_DEAD_LINK (R366). -/
def execClearDeadLink (x : Word) (s : State) : Host.Outcome State Fault Refusal := .next (s.serviceCmd 4 x)
/-- ADD_ROW (R366). -/
def execAddRow (x : Word) (s : State) : Host.Outcome State Fault Refusal := .next (s.serviceCmd 5 x)
/-- ADD_COLUMN (R366). -/
def execAddColumn (x : Word) (s : State) : Host.Outcome State Fault Refusal := .next (s.serviceCmd 6 x)
/-- ADD_HOLE (R366). -/
def execAddHole (x : Word) (s : State) : Host.Outcome State Fault Refusal := .next (s.serviceCmd 7 x)

/-! ### Changes of a field's map (R359 to R365) -/

/-- Field `f`'s map replaced. -/
def State.putMap (s : State) (f : Nat) (m : FieldMap) : State := { s with fields := Tab.put s.fields f m }

/-- Retire a physical row: entry A when it is empty, B otherwise; `none` without budget (R360, R369). -/
def FieldMap.retireRow (m : FieldMap) (p : Nat) : Option FieldMap :=
  match m.rowA, m.rowB with
  | none, _ => some { m with rowA := some p, gen := m.gen + 1 }
  | some _, none => some { m with rowB := some p, gen := m.gen + 1 }
  | some _, some _ => none

/-- Retire a physical column. -/
def FieldMap.retireCol (m : FieldMap) (q : Nat) : Option FieldMap :=
  match m.colA, m.colB with
  | none, _ => some { m with colA := some q, gen := m.gen + 1 }
  | some _, none => some { m with colB := some q, gen := m.gen + 1 }
  | some _, some _ => none

/-- Mark a hole by its local number (R361, R365). -/
def FieldMap.addHole (m : FieldMap) (n : Nat) : FieldMap :=
  if m.holes.contains n then m else { m with holes := n :: m.holes, gen := m.gen + 1 }

/-- Mark a link dead: 0 east, 1 south of local tile `n` (R362, R365). -/
def FieldMap.addDead (m : FieldMap) (n dir : Nat) : FieldMap :=
  if dir = 0 then (if m.deadE.contains n then m else { m with deadE := n :: m.deadE })
  else (if m.deadS.contains n then m else { m with deadS := n :: m.deadS })

/-- The logical position of a physical row or column beside the retired ones; `none` when it is retired or fallow (R359). -/
def logicalAt (a b : Option Nat) (p : Nat) : Option Nat :=
  if some p = a ∨ some p = b then none
  else
    let l := ((List.range p).filter (fun x => some x != a && some x != b)).length
    if l < 23 then some l else none

/-! ### Migration (R369 to R373) -/

/-- Contexts whose watchdogs stand still: those that hold a region tile of a migration (R372). -/
def State.holdWatchdogs (s : State) : State :=
  { s with wdHeld := (s.migrations.flatMap (fun m => m.2.region.map s.ctxOf)).eraseDups.filter (fun c => c < 64) }

/-- The tiles in use of a row retirement's or column retirement's region (R369). -/
def State.regionOf (s : State) (f : Nat) (row : Bool) (l : Nat) : List Nat :=
  let x0 := f % 8 * 23
  let y0 := f / 8 * 23
  (if row then rectTiles x0 (y0 + l) 23 (23 - l) else rectTiles (x0 + l) y0 (23 - l) 23).filter (fun t => !s.isHole t)

/-- A tile frozen or thawed. A drawer request of a frozen tile that no port has accepted is held back, to be translated afresh when the
tile rejoins (R258, R311); what its memory units carry as master 64 goes on. -/
def State.setFrozen (s : State) (t : Nat) (b : Bool) : State :=
  let u := s.putCore t { s.coreAt t with frozen := b }
  let held (r : Req) : Bool :=
    r.core == t && r.mid != 64 && r.owner != .past && r.res.isNone && (match r.place with | .served .. => false | _ => true)
  if b then { u with reqs := u.reqs.map (fun r => if held r then { r with place := .stale } else r) } else u

/-- A queue whose home tile became a hole: closed, its head segment lost (R375); a launch at its head goes with it. -/
def State.loseHead (s : State) (q : Nat) : State :=
  let t := s.closeQueue q
  ({ t with launches := t.launches.filter (fun l => !(l.qid == q && l.waits)) } : State).putQueue q { t.queueRec q with head := [] }

/-! ### Held packets (R377 to R379) -/

/-- Router port `n` as it stands. -/
def State.meshPort (s : State) (n : Nat) : MeshPort := Tab.getD s.meshPorts n { tout := 0, tin := 0, held := [] }

/-- Router port `n` replaced. -/
def State.putMeshPort (s : State) (n : Nat) (q : MeshPort) : State := { s with meshPorts := Tab.put s.meshPorts n q }

/-- Has a packet's tail come to its destination? -/
def State.tailThere (s : State) (p : Packet) : Bool :=
  p.whole || p.place == .peer || ((p.kind == 3 || p.kind == 6) && decide (p.wholeDue ≤ s.cycle))

/-- May the tail of a held packet have been sent: it has come to this router, or has gone on (R377)? -/
def State.tailOut (s : State) (h : Held) : Bool :=
  match s.net.find? (fun p => p.id == h.pkt) with
  | some p => p.sent == p.nd && !p.stuck && decide (h.since + p.nd * p.fs ≤ s.cycle)
  | none => true

/-- The first tail not accepted yet is accepted, when it has been sent (R377). -/
def acceptTail : List Held → Option (List Held)
  | [] => none
  | h :: r => if h.acc then (acceptTail r).map (h :: ·) else if h.out then some ({ h with acc := true } :: r) else none

/-- The first tail not sent yet is sent, when it may be (R377). -/
def sendTail (may : Held → Bool) : List Held → Option (List Held)
  | [] => none
  | h :: r => if h.out then (sendTail may r).map (h :: ·) else if may h then some ({ h with out := true } :: r) else none

/-- TAIL_ACKNOWLEDGE (R377): at a port the oldest accepted tail is acknowledged and its packet discarded, the next is accepted and the
next is sent, in order. -/
def State.tails (s : State) (n : Nat) : MeshPort :=
  let q := s.meshPort n
  let q1 := match q.held with | h :: r => if h.acc then { q with held := r } else q | [] => q
  let q2 := match acceptTail q1.held with | some l => { q1 with held := l, tin := q1.tin + 1 } | none => q1
  match sendTail s.tailOut q2.held with | some l => { q2 with held := l, tout := q2.tout + 1 } | none => q2

/-- TAIL_ACKNOWLEDGE (R377). -/
def execTailAcknowledge (n : Nat) (s : State) : Host.Outcome State Fault Refusal :=
  .next (if (s.meshPort n).held.isEmpty then s else s.putMeshPort n (s.tails n))

/-- The router ports of the way from tile `t` with the detour of prefix `pre` in the place of the hop in direction `d`, and of a second
one in that direction when the way goes on so (R379). -/
def detourPorts (t d pre : Nat) (after : List Nat) : List Nat :=
  let sd := if pre = 0 then (d + 1) % 4 else (d + 3) % 4
  let next := (neighbour t d).map (fun m => portName m d)
  match after with
  | k :: r =>
    if some k = next then (turnPorts t [sd, d, d, (sd + 2) % 4]).1 ++ r else (turnPorts t [sd, d, (sd + 2) % 4]).1 ++ after
  | [] => (turnPorts t [sd, d, (sd + 2) % 4]).1

/-- The rest of a way from port `n`, at which the header was in cycle `at0`, over the detour from cycle `now` on: ports with the cycles in
which the header is there. -/
def detourLinks (t d pre now at0 : Nat) (after : List (Nat × Nat)) : List (Nat × Nat) :=
  (detourPorts t d pre (after.map (·.1))).zipIdx.map (fun k =>
    match after.find? (fun x => x.1 == k.1) with
    | some x => (k.1, x.2 + (now - at0) + 2)
    | none => (k.1, now + k.2))

/-- A packet no longer held by the ports that `p` picks. -/
def State.unhold (s : State) (id : Nat) (p : Nat → Bool) : State :=
  { s with meshPorts := s.meshPorts.map (fun e => (e.1, if p e.1 then { e.2 with held := e.2.held.filter (fun h => h.pkt != id) } else e.2)) }

/-- What has come of a packet at its tile is dropped: its flits come anew, and a deposit gets its turn anew (R355, R378). -/
def Packet.afresh (p : Packet) : Packet :=
  { p with
    arrived := 0, begun := 0, done := 0, again := p.returned
    turn := if orderedKind p.kind then p.turn else 0
    place := match p.place with | .taken .. => if orderedKind p.kind then p.place else .net | x => x }

/-- A packet held at port `n` of tile `t` in direction `d`, or on its way there, whose next hop is dead or a hole: it goes on by the
detour and arrives 2 tc later; what has come of it is dropped. Without a clear side it is discarded (R323, R362, R378, R379). One that
has come whole is not sent again. -/
def State.resend (s : State) (t d n id : Nat) : State :=
  match s.net.find? (fun p => p.id == id) with
  | none => s
  | some p =>
    let pre := s.detour t d
    if s.tailThere p then s
    else if pre = 2 then ((s.skipSeq p).discardPacket p 0x14 (noTile p.sch)).refuseUnresolved p
    else
      let at0 := ((p.links.find? (fun k => k.1 == n)).map (·.2)).getD s.cycle
      let now := max s.cycle at0
      let before := p.links.takeWhile (fun k => k.1 != n)
      let new := detourLinks t d pre now at0 ((p.links.dropWhile (fun k => k.1 != n)).drop 1)
      let u := s.putCore p.dst ((s.coreAt p.dst).endXfer (.packet id))
      ((u.unhold id (fun k => !before.any (fun x => x.1 == k))).heldAt (new.filter (fun k => !before.any (fun x => x.1 == k.1))) id).putPacket
        { p.afresh with due := p.due + (now - at0) + 2, stuck := false, links := before ++ new }

/-! ### Holes (R361, R375) -/

/-- A packet on its way when its next hop becomes a hole `t`: it goes round, or is discarded where its segment turns or ends there (R224,
R226, R379). -/
def State.passHole (s : State) (t : Nat) (p : Packet) : State :=
  let refuse := ((s.skipSeq p).discardPacket p 0x14 (noTile p.sch)).refuseUnresolved p
  if p.dst = t ∧ p.place == .net then refuse
  else
    match p.links.find? (fun k => decide (s.cycle < k.2) && (let (a, d) := portEnd k.1; neighbour a d == some t)) with
    | none => s
    | some k =>
      let (a, d) := portEnd k.1
      let straight := match ((p.links.dropWhile (fun x => x.1 != k.1)).drop 1).head? with
        | some x => decide (x.1 = portName t d)
        | none => false
      if straight then s.resend a d k.1 p.id else refuse

/-- A tile without budget becomes a hole at once (R375): packets under way go round it, launches that have reserved it return to head
(R259, R294). -/
def State.makeHole (s : State) (t : Nat) : State :=
  let s1 := match s.gangOf t with | some g => s.abortFor g t | none => s
  let f := fieldOf t
  let s2 := (s1.putMap f ((s1.fieldMap f).addHole (localOf t))).setFrozen t false
  let s3 := (s2.launches.filter (fun l => l.reserves t)).foldr (fun l (u : State) => u.toHead l) s2
  let s4 := s3.net.foldl (fun (u : State) p => u.passHole t p) s3
  let s5 := (s4.qdesc.filter (fun e => qdV e.2 && qdHome e.2 == t)).foldl (fun (u : State) e => u.loseHead e.1) s4
  s5.offer 1 f (s.ctxOf t) 0x0024 (leBytes 2 t ++ leBytes 4 (s5.fieldMap f).gen.toNat)

/-! ### Retirements (R368 to R375) -/

/-- The retirement of a failed tile begins at E (R369): row, then column, then a hole. -/
def State.retire (s : State) (t : Nat) : State :=
  let f := fieldOf t
  let m := s.fieldMap f
  let (p, q) := s.physOf t
  let start (row : Bool) (idx l : Nat) : State :=
    ({ s with
      migrations := Tab.put s.migrations f
        { failed := t, row, index := idx, e := s.cycle, region := s.regionOf f row l, stage := .detected, next := [] } } :
      State).holdWatchdogs
  if (m.retireRow p).isSome then start true p (tileY t % 23)
  else if (m.retireCol q).isSome then start false q (tileX t % 23)
  else s.makeHole t

/-- A failed tile is retired now, or, while its field migrates, at W: the physical place at which it failed is kept (R369, R373). -/
def State.retireOrWait (s : State) (t : Nat) : State :=
  match Tab.get? s.migrations (fieldOf t) with
  | some m => { s with migrations := Tab.put s.migrations (fieldOf t) { m with next := m.next ++ [(t, (s.physOf t).1, (s.physOf t).2)] } }
  | none => s.retire t

/-- The logical tile of field `f` at a physical place, if one is there (R359). -/
def State.tileAt (s : State) (f p q : Nat) : Option Nat :=
  let m := s.fieldMap f
  match logicalAt m.rowA m.rowB p, logicalAt m.colA m.colB q with
  | some ly, some lx => some (tidOf (f % 8 * 23 + lx) (f / 8 * 23 + ly))
  | _, _ => none

/-- At W the place of an error that waited for the migration fails anew, with the tile that is there now (R373). -/
def State.failAt (s : State) (f : Nat) (e : Nat × Nat × Nat) : State :=
  match s.tileAt f e.2.1 e.2.2 with
  | some t => (s.setFrozen t true).retireOrWait t
  | none => s

/-- May an error of unit `u` at tile `t` be told: a logical tile that is no hole? -/
def State.canFail (s : State) (t u : Nat) : Bool := decide (t < numTiles) && !s.isHole t && decide (u ≤ 4)

/-- CONTAINED_ERROR (R368, R369, R385): the tile freezes, the bundle that failed has no effect and is due again, the event and the log
record are made, the retirement begins. `u` is the unit; 16 and more names an error of unit `u` − 16 that is corrected, which is counted
alone (R368). -/
def State.containedError (s : State) (t u : Nat) : State :=
  if 16 ≤ u then (if s.canFail t (u - 16) then (s.logTile t (u - 16) 0 0).1 else s)
  else if !s.canFail t u then s
  else
    let (p, q) := s.physOf t
    let (s1, key) := s.logTile t u 1 0
    let c := s1.coreAt t
    let s2 := ((s1.putCore t (if u = 0 ∧ c.frozen = false then c.stopLast else c)).setFrozen t true).offerLog 1 (fieldOf t) (s.ctxOf t)
      0x0020 (leBytes 2 t ++ leBytes 1 p ++ leBytes 1 q ++ leBytes 1 u) key
    s2.retireOrWait t

/-- CONTAINED_ERROR (R369). -/
def execContainedError (t u : Nat) (s : State) : Host.Outcome State Fault Refusal := .next (s.containedError t u)

/-- Is a tile's state being read for the copy of a migration (R370)? -/
def State.copying (s : State) (t : Nat) : Bool :=
  match Tab.get? s.migrations (fieldOf t) with
  | some m => m.stage == .ordered && m.region.contains t
  | none => false

/-- UNCONTAINED_ERROR (R374): the gang is aborted, the tile's state is lost, and it is retired. State that cannot be read during the copy
of a migration aborts the gang alone: it is the repair controller that finds it, and the copy goes on (R373). -/
def State.uncontainedError (s : State) (t u : Nat) : State :=
  if !s.canFail t u then s
  else
    let (s1, key) := if s.copying t then s.logField t 2 else s.logTile t u 2 0
    let s2 := s1.offerLog 1 (fieldOf t) (s.ctxOf t) 0x0027 (leBytes 2 t ++ leBytes 1 u) key
    let s3 := (match s2.gangOf t with | some g => s2.abortFor g t | none => s2).forget t
    let s4 := (s3.putCore t { s3.coreAt t with lost := true }).setFrozen t true
    if s.copying t then s4 else s4.retireOrWait t

/-- UNCONTAINED_ERROR (R374). -/
def execUncontainedError (t u : Nat) (s : State) : Host.Outcome State Fault Refusal := .next (s.uncontainedError t u)

/-- MIGRATION_FREEZE_ORDER (R370, R372): at E + 8 or later every region tile freezes; a start that meets the region is
abandoned unless its S has come, and the boundary of the region closes to packets. -/
def State.freezeOrder (s : State) (f : Nat) : State :=
  match Tab.get? s.migrations f with
  | none => s
  | some m =>
    if m.stage != .detected || decide (s.cycle < m.e + 8) then s
    else
      let t := m.region.foldl (fun (u : State) id => u.setFrozen id true) s
      let x : State := { t with migrations := Tab.put t.migrations f { m with stage := .ordered } }
      let u : State := { x with net := x.net.map (fun p => { p with stuck := p.stuck || x.barred p }) }
      let v := (u.launches.filter (fun l => l.st == .starting && decide (u.cycle < l.startAt) && u.meetsRegion l)).foldr
        (fun l (x : State) => x.toHead l) u
      v.offer 1 f 0x40 0x0021 (leBytes 1 (if m.row then 0 else 1) ++ leBytes 1 m.index ++ leBytes 2 m.region.length)

/-- MIGRATION_FREEZE_ORDER (R370). -/
def execMigrationFreezeOrder (f : Nat) (s : State) : Host.Outcome State Fault Refusal := .next (s.freezeOrder f)

/-- Configuration memory of zeros. -/
def Plane.zeros : Plane :=
  { Plane.empty with code := (List.range 8192).map (fun i => (i, 0)), routes := (List.range 1024).map (fun i => (i, 0)) }

/-- What stands at the position behind a tile whose state is lost: zeros (R374). Its strand stays where the abort left it. -/
def Core.zeros (c : Core) (t : Nat) : Core :=
  { Core.fresh t with
    wdog := 0, fmts := Vector.replicate 16 0, wmarks := Vector.replicate 4 0, planes := Vector.replicate 2 Plane.zeros
    frozen := true, strand := c.strand, issueNo := c.issueNo, orx := c.orx, otx := c.otx, xfers := c.xfers, bankLast := c.bankLast }

/-- MIGRATION_COPY (R370, R371): from E + 512 on the region's state moves one position along, whole; logically nothing
changes but for a tile whose state is lost (R374). -/
def State.migrationCopy (s : State) (f : Nat) : State :=
  match Tab.get? s.migrations f with
  | some m =>
    if m.stage != .ordered || decide (s.cycle < m.e + 512) then s
    else
      let gone := m.region.filter (fun t => (s.coreAt t).lost)
      { gone.foldl (fun (u : State) t => u.putCore t ((u.coreAt t).zeros t)) s with
        migrations := Tab.put s.migrations f { m with stage := .copied } }
  | none => s

/-- MIGRATION_COPY (R370). -/
def execMigrationCopy (f : Nat) (s : State) : Host.Outcome State Fault Refusal := .next (s.migrationCopy f)

/-- MAP_CHANGE (R365, R370): at E + 8,384 or later the map takes the retirement and MAPGEN rises. -/
def State.mapChange (s : State) (f : Nat) : State :=
  match Tab.get? s.migrations f with
  | some m =>
    if m.stage != .copied || decide (s.cycle < m.e + 8384) then s
    else
      let old := s.fieldMap f
      let new := ((if m.row then old.retireRow m.index else old.retireCol m.index).getD old)
      { s.putMap f new with migrations := Tab.put s.migrations f { m with stage := .mapped } }
  | none => s

/-- MAP_CHANGE (R370). -/
def execMapChange (f : Nat) (s : State) : Host.Outcome State Fault Refusal := .next (s.mapChange f)

/-- A tile that rejoins: every handle shot down, captured ones withdrawn (R258, R308, R371). -/
def State.thawTile (s : State) (t : Nat) : State :=
  s.putCore t ((({ s.coreAt t with frozen := false } : Core).mapHandles Handle.withdraw).mapCaptured Handle.withdraw)

/-! ### Poison and links (R376 to R379) -/

/-- A word number into a rising list. -/
def insertRising (n : Nat) : List Nat → List Nat
  | [] => [n]
  | x :: r => if n < x then n :: x :: r else if n = x then x :: r else x :: insertRising n r

/-- POISON_MARKED (R376): the word that holds address `a` of core `t`'s scratchpad. -/
def State.markPoison (s : State) (t a : Nat) : State :=
  let c := s.coreAt t
  if (numTiles ≤ t ∧ t ≠ mgmtCore) ∨ c.spend ≤ a then s
  else
    let u := s.putCore t { c with poison := insertRising (a / 8) c.poison }
    let (v, key) := if t = mgmtCore then (u, none) else u.logTile t 0 3 (a / 8 * 8)
    v.offerLog 0 t (if t = mgmtCore then 0x40 else s.ctxOf t) 0x0026 (leBytes 2 t ++ leBytes 4 (a / 8 * 8)) key

/-- POISON_MARKED (R376). -/
def execPoisonMarked (t a : Nat) (s : State) : Host.Outcome State Fault Refusal := .next (s.markPoison t a)

/-- Does mesh link `n` exist (R362)? -/
def meshLink (n : Nat) : Bool := decide (n / 2 < numTiles) && (neighbour (n / 2) (1 + n % 2)).isSome

/-- LINK_FLIT_RETRY (R367, R380): a replayed flit is counted in the fault log of the upstream end: mesh link `n`, or from there on the
express link of each tile, whose router counts it, each Orotis link and each optical port (log 119). -/
def execLinkFlitRetry (n detail : Nat) (s : State) : Host.Outcome State Fault Refusal :=
  let x := n - 2 * numTiles
  .next (if n < 2 * numTiles then (if meshLink n then (s.logTile (n / 2) 4 4 detail).1 else s)
    else if x < numTiles then (s.logTile x 4 4 detail).1
    else if x < numTiles + 112 then s.logEnd (linkTile (x - numTiles)) 6 (x - numTiles) 4 detail
    else if x < numTiles + 168 then s.logEnd (portTile (x - numTiles - 112)) 7 (x - numTiles - 112) 4 detail
    else s)

/-- The held packets of a dead port of tile `t` in direction `d` that are to be sent again: those that TIN has not counted and whose
header had come to the router (R378, R379). -/
def State.toResend (s : State) (t d n : Nat) : List Held :=
  (s.meshPort n).held.filter (fun h => s.detour t d != 2 && !h.acc && decide (h.since ≤ s.cycle) &&
    s.net.any (fun p => p.id == h.pkt && !s.tailThere p))

/-- A packet whose re-send waits for its router's region to thaw: what has come of it is dropped (R373, R378). -/
def State.stick (s : State) (id : Nat) : State :=
  match s.net.find? (fun p => p.id == id) with
  | none => s
  | some p =>
    if s.tailThere p then s
    else
      (s.putCore p.dst ((s.coreAt p.dst).endXfer (.packet id))).putPacket { p.afresh with stuck := true }

/-- The packets held at dead router port `n` of tile `t`, in direction `d`, or on their way there: those that TIN counts are discarded,
the others go by the detour, in a migration's region at its thaw (R373, R378). -/
def State.portDies (s : State) (t d n : Nat) : State :=
  let q := s.meshPort n
  let rest := q.held.filter (fun h => !h.acc)
  if s.inRegion t then rest.foldl (fun u h => u.stick h.pkt) (s.putMeshPort n { q with held := rest })
  else rest.foldl (fun u h => u.resend t d n h.pkt) (s.putMeshPort n { q with held := [] })

/-- The packets that waited at dead ports of the tiles of a region that thaws, sent again (R373). -/
def State.resendHeld (s : State) (region : List Nat) : State :=
  (s.meshPorts.map (·.1)).foldl (fun u n =>
    let (t, d) := portEnd n
    if region.contains t && u.meshDead (n / 2) then u.portDies t d n else u) s

/-- A packet that waited outside a region whose boundary reopens goes on from there (R370). -/
def State.letIn (s : State) (region : List Nat) (p : Packet) : State :=
  match p.stuck, p.entersAt region with
  | true, some t =>
    let k := s.cycle - t
    let q : Packet := { p with
      stuck := false, due := p.due + k, links := p.links.map (fun x => if t ≤ x.2 then (x.1, x.2 + k) else x) }
    let late (h : Held) : Bool := h.pkt == p.id && decide (t ≤ h.since)
    let u := s.putPacket { q with stuck := s.barred q }
    { u with meshPorts := u.meshPorts.map (fun e => (e.1, { e.2 with
        held := (e.2.held.filter late).foldl (fun l h => insertHeld { h with since := h.since + k } l) (e.2.held.filter (fun h => !late h)) })) }
  | _, _ => s

/-- Those of a region that thaws. -/
def State.reopen (s : State) (region : List Nat) : State := s.net.foldl (fun u p => u.letIn region p) s

/-- MIGRATION_THAW (R370, R373): at W, E + 8,392 or later, region tiles resume and the boundary reopens; packets held at their dead ports
are sent again, and the retirements of the errors that waited begin. -/
def State.thaw (s : State) (f : Nat) : State :=
  match Tab.get? s.migrations f with
  | some m =>
    if m.stage != .mapped || decide (s.cycle < m.e + 8392) then s
    else
      let t := m.region.foldl (fun (u : State) id => u.thawTile id) s
      let u := ((({ t with migrations := Tab.del t.migrations f } : State).holdWatchdogs).resendHeld m.region).reopen m.region
      let v := u.offer 1 f 0x40 0x0022 (leBytes 4 (u.fieldMap f).gen.toNat ++ leBytes 8 m.e ++ leBytes 8 s.cycle)
      m.next.foldl (fun (w : State) e => w.failAt f e) v
  | none => s

/-- MIGRATION_THAW (R370). -/
def execMigrationThaw (f : Nat) (s : State) : Host.Outcome State Fault Refusal := .next (s.thaw f)

/-- MESH_LINK_DEAD (R378): FDEAD is written; packets of either direction not yet accepted are sent again. -/
def State.linkDies (s : State) (n : Nat) : State :=
  if !meshLink n || s.meshDead n then s
  else
    let t := n / 2
    let f := fieldOf t
    let (m, e) := portEnd (2 * n + 1)
    let s1 := s.putMap f ((s.fieldMap f).addDead (localOf t) (n % 2))
    let count := (s1.toResend t (1 + n % 2) (2 * n)).length + (s1.toResend m e (2 * n + 1)).length
    let s3 := (s1.portDies t (1 + n % 2) (2 * n)).portDies m e (2 * n + 1)
    let (s4, key) := s3.logTile t 4 5 0
    s4.offerLog 1 f 0x40 0x0025 (leBytes 2 t ++ leBytes 1 (n % 2) ++ leBytes 2 count) key

/-- MESH_LINK_DEAD (R378). -/
def execMeshLinkDead (n : Nat) (s : State) : Host.Outcome State Fault Refusal := .next (s.linkDies n)

/-! ### The repair store at boot (R364 to R366) -/

/-- A row retirement at boot, `col` naming the logical column of the hole that one beyond the budget becomes (R364, R366). -/
def FieldMap.bootRow (m : FieldMap) (p col : Nat) : FieldMap :=
  if 25 ≤ p ∨ some p = m.rowA ∨ some p = m.rowB then m
  else
    match m.retireRow p with
    | some x => x
    | none => match logicalAt m.rowA m.rowB p with | some l => if col < 23 then m.addHole (23 * l + col) else m | none => m

/-- A column retirement at boot. -/
def FieldMap.bootCol (m : FieldMap) (q row : Nat) : FieldMap :=
  if 25 ≤ q ∨ some q = m.colA ∨ some q = m.colB then m
  else
    match m.retireCol q with
    | some x => x
    | none => match logicalAt m.colA m.colB q with | some l => if row < 23 then m.addHole (23 * row + l) else m | none => m

/-- A pending service command applied to its field's map (R366). -/
def FieldMap.apply (m : FieldMap) (x : Word) : FieldMap :=
  let i := (field 25 5 x).toNat
  let c := (field 20 5 x).toNat
  let n := 23 * i + c
  let cleared (b : Bool) (m2 : FieldMap) : FieldMap := if b then { m2 with gen := m.gen + 1 } else m
  match repOp x with
  | 1 =>
    cleared (m.rowA == some i || m.rowB == some i)
      (if m.rowA = some i then { m with rowA := none } else { m with rowB := none })
  | 2 =>
    cleared (m.colA == some i || m.colB == some i)
      (if m.colA = some i then { m with colA := none } else { m with colB := none })
  | 3 => cleared (decide (i < 23 ∧ c < 23) && m.holes.contains n) { m with holes := m.holes.filter (· != n) }
  | 4 =>
    if 23 ≤ i ∨ 23 ≤ c then m
    else if x.getLsbD 19 then cleared (m.deadS.contains n) { m with deadS := m.deadS.filter (· != n) }
    else cleared (m.deadE.contains n) { m with deadE := m.deadE.filter (· != n) }
  | 5 => m.bootRow i c
  | 6 => m.bootCol i c
  | _ => if i < 23 ∧ c < 23 then m.addHole n else m

/-- Step 2 of R364: pending commands applied, then done. -/
def State.applyJournal (s : State) : State :=
  let t := (s.journal.filter (·.pending)).foldl (fun (u : State) j =>
    let f := repField j.cmd
    u.putMap f ((u.fieldMap f).apply j.cmd)) s
  { t with journal := t.journal.map (fun j => { j with pending := false }) }

/-- A physical tile, 625 × field + 25 × row + column, that fails self-test (R364): in use it takes a row, then a column, then is a
hole; a fallow one leaves its row or column out of the fallow set. -/
def State.failTile (s : State) (n : Nat) : State :=
  let f := n / 625
  let p := n % 625 / 25
  let q := n % 25
  let m := s.fieldMap f
  let new := match logicalAt m.rowA m.rowB p, logicalAt m.colA m.colB q with
    | some ly, some lx => ((m.retireRow p).or (m.retireCol q)).getD (m.addHole (23 * ly + lx))
    | none, _ => if some p = m.rowA ∨ some p = m.rowB then m else (m.retireRow p).getD m
    | _, none => if some q = m.colA ∨ some q = m.colB then m else (m.retireCol q).getD m
  if 64 ≤ f ∨ !s.bootFields.getLsbD f then s
  else (s.putMap f new).addLog (tileLog 0 f p q) 0 6 (logPlace f p q) 0

/-- A mesh link that fails self-test is dead (R364). -/
def State.failLink (s : State) (n : Nat) : State :=
  if !meshLink n ∨ !s.bootFields.getLsbD (fieldOf (n / 2)) then s
  else
    let f := fieldOf (n / 2)
    let t := s.putMap f ((s.fieldMap f).addDead (localOf (n / 2)) (n % 2))
    (t.logTile (n / 2) 4 6 n).1

/-- The repair store applied and self-test run (R364). -/
def State.applyStore (s : State) : State :=
  let t := s.applyJournal
  t.env.sickLinks.foldl (fun (u : State) n => u.failLink n) (t.env.sick.foldl (fun (u : State) n => u.failTile n) t)

end Sys2Proof.Machine
end

