-- ==== Sys2Proof/Machine/SysRegs.lean ====
section
/-! DEFINITION. Writes of system registers, whoever makes them, and the landing of a core's results (01 R13, 23 R397 to R401, R407). -/

namespace Sys2Proof.Machine

/-! ### System registers, written (R400) -/

/-- The system registers changed. -/
def State.setSys (s : State) (f : SysRegs → SysRegs) : State := { s with sys := f s.sys }

/-- A register without behaviour of its own keeps its writable bits; `none` for any other number (R309, R312, R317, R340, R346, R360,
R392, R397, R398, R399, R400, R402, R407). -/
def State.writePlain (s : State) (n : Nat) (x : Word) : Option State :=
  if 0x818 ≤ n ∧ n ≤ 0x81C then some (s.setSys (fun r => { r with bbWr := r.bbWr.setIfInBounds (n - 0x818) x }))
  else if 0x831 ≤ n ∧ n ≤ 0x834 then
    some (s.setSys (fun r =>
      let ro := (dscReadOnly (r.dscSel.getLsbD 63)).getD (n - 0x831) 0
      { r with dscD := r.dscD.setIfInBounds (n - 0x831) ((x &&& ~~~ro) ||| (r.dscD.toList.getD (n - 0x831) 0 &&& ro)) }))
  else
    match n with
    | 0x800 => some (s.putCore mgmtCore { s.coreAt mgmtCore with sysMode := x.getLsbD 0 })
    | 0x802 => some (s.setSys (fun r => { r with evtAck := x }))
    | 0x803 => some (s.setSys (fun r => { r with evtMask := x &&& 0x1FF }))
    | 0x804 => some (s.setSys (fun r => { r with wake := x }))
    | 0x820 => some (s.setSys (fun r => { r with sdVa := x &&& 0xFFFFFFFFFFFF0000 }))
    | 0x824 => some (s.setSys (fun r => { r with fbBase := x &&& 0x0000FFFFFFFFF01F }))
    | 0x825 => some (s.setSys (fun r => { r with cons := field 0 16 x }))
    | 0x828 => some (s.setSys (fun r => { r with slogCfg := x &&& 0xFFFFFFFFFFFF0000 }))
    | 0x839 => some (s.setSys (fun r => { r with atbD0 := x }))
    | 0x83A => some (s.setSys (fun r => { r with atbD1 := x }))
    | 0x83C => some (s.setSys (fun r => { r with lnchAge := x &&& 0xFFFFFFFF }))
    | 0x841 => some (s.setSys (fun r => { r with sltAddr := x &&& 0x0000000000FF007F }))
    | 0x844 => some (s.setSys (fun r => { r with lnkSel := x &&& 0x7F }))
    | 0x848 => some (s.setSys (fun r => { r with repSel := x &&& 0x1F3F }))
    | 0x850 => some (s.setSys (fun r => { r with optSel := x &&& 0x3F }))
    | 0x85A => some (s.setSys (fun r => { r with thermCfg := x &&& 0x000000000FFF0FFF }))
    | _ => none

/-- A write of system register `n` that reaches the system interface, from the core or from the management port (R400); a
read-only register and an unassigned number are left alone. -/
def State.writeSys (s : State) (n : Nat) (x : Word) (port : Bool) : State :=
  match s.writePlain n x with
  | some t => t
  | none =>
    if 0x880 ≤ n ∧ n ≤ 0x8BF then s.writeBwc (n - 0x880) x
    else if 0x8C0 ≤ n ∧ n ≤ 0x8FF then s.writeThrottle (n - 0x8C0) x
    else
      match n with
      | 0x808 => s.writeBbIdx x
      | 0x81D => s.writeBbCode x
      | 0x821 => s.writeSd x
      | 0x826 => s.flushFaults x
      | 0x82C => s.writePre x
      | 0x830 => s.selectDesc x
      | 0x835 => s.writeDscCtl x
      | 0x838 => s.selectAtb x
      | 0x83B => s.writeAtbCtl x
      | 0x842 => s.writeSlt x
      | 0x843 => s.writeSltCtl x
      | 0x84C => s.writeRep x port
      | 0x852 => s.writeRank x
      | 0x858 => s.writePower x
      | _ => s

/-- SYSTEM_REGISTER_WRITE (R400). -/
def execSystemRegisterWrite (n : Nat) (x : Word) (s : State) : Host.Outcome State Fault Refusal :=
  .next ((s.writePlain n x).getD s)

/-! ### The boundary of a core (R13, R400) -/

/-- Every result of core `t` that is due lands; its writes of system registers reach the system interface in turn (R13, R16, R400). -/
def State.landCore (s : State) (t : CoreId) : State :=
  let (n, u) := s.draw
  let (c, ws) := (u.coreAt t).land (Config.tie n)
  ws.foldl (fun (v : State) w => v.writeSys w.1 w.2 false) (u.putCore t c)

/-- LOCKSTEP_RESULT_LANDING (R13). -/
def execLockstepResultLanding (t : Nat) (s : State) : Host.Outcome State Fault Refusal := .next (s.landCore t)

end Sys2Proof.Machine
end

