-- ==== Sys2Proof/Machine/Mgmt.lean ====
section
/-! DEFINITION. The management port and the optical module ports (10 R242 to R244, 23 R403 to R408). -/

namespace Sys2Proof.Machine

/-! ### Messages (R404) -/

/-- A malformed request: status 1, no effect (R404, R405). -/
def State.malformed (s : State) (src op : Nat) (seq : BitVec 32) : State := s.respond src op seq 1 []

/-! ### Requests on registers and logs (R405) -/

/-- OP 0x01, system-register read (R405). An unassigned number is outside ARG's range. -/
def State.portRead (s : State) (src : Nat) (seq arg : BitVec 32) (data : List (BitVec 8)) : State :=
  let n := arg.toNat
  match if data = [] ∧ 0x800 ≤ n ∧ n ≤ 0xFFF then s.readSys n else none with
  | some x => s.respond src 1 seq 0 (leBytes 8 x.toNat)
  | none => s.malformed src 1 seq

/-- SYSTEM_REGISTER_READ_REQUEST (R405). -/
def execSystemRegisterReadRequest (src : Nat) (seq arg : BitVec 32) (data : List (BitVec 8)) (s : State) :
    Host.Outcome State Fault Refusal := .next (s.portRead src seq arg data)

/-- How many refusals of the core's registers wait for the arbiter: *descriptor refused*, *request refused*, *slot table refused*. -/
def State.refusals (s : State) : Nat :=
  ((s.offered.filter (fun o => o.org == 6 && (o.code == 6 || o.code == 8 || o.code == 13))).map (fun o => 1 + o.merged)).sum

/-- Is the BUSY bit of a register set? -/
def State.registerBusy (s : State) (n : Nat) : Bool :=
  (n == 0x821 || n == 0x82C || n == 0x835 || n == 0x83B || n == 0x843) && ((s.readSys n).getD 0).getLsbD 62

/-- OP 0x02, system-register write (R400, R405): status 3 while the target is busy, 2 when its rule refuses. -/
def State.portWrite (s : State) (src : Nat) (seq arg : BitVec 32) (data : List (BitVec 8)) : State :=
  let n := arg.toNat
  if data.length ≠ 8 ∨ n < 0x800 ∨ 0xFFF < n ∨ (s.readSys n).isNone then s.malformed src 2 seq
  else if s.registerBusy n then s.respond src 2 seq 3 []
  else
    let t := s.writeSys n (BitVec.ofNat 64 (bytesNat data)) true
    t.respond src 2 seq (if t.refusals = s.refusals then 0 else 2) []

/-- SYSTEM_REGISTER_WRITE_REQUEST (R405). -/
def execSystemRegisterWriteRequest (src : Nat) (seq arg : BitVec 32) (data : List (BitVec 8)) (s : State) :
    Host.Outcome State Fault Refusal := .next (s.portWrite src seq arg data)

/-- Does a log selector name a log: no unused field set, no number beyond its unit's (R405)? -/
def goodSelector (x : BitVec 32) : Bool :=
  let unit := (field 0 4 x).toNat
  let fld := (field 4 6 x).toNat
  let row := (field 10 5 x).toNat
  let col := (field 15 5 x).toNat
  let lp := (field 20 7 x).toNat
  field 27 5 x == 0 &&
    (if unit ≤ 4 then decide (row < 25 ∧ col < 25) && lp == 0
     else if unit = 5 then row == 0 && col == 0 && lp == 0
     else decide (unit ≤ 7) && fld == 0 && row == 0 && col == 0 && decide (lp < (if unit = 6 then 112 else 56)))

/-- The 32 bytes of a fault-log record (R380). -/
def LogRec.bytes (r : LogRec) : List (BitVec 8) :=
  leBytes 8 r.seq ++ leBytes 8 r.cycle ++ leBytes 1 r.unit ++ leBytes 1 r.kind ++ leBytes 2 r.count ++ leBytes 4 r.place ++
    leBytes 8 r.detail

/-- OP 0x03, fault-log read (R380, R405): the index of the newest record, then the records, oldest first; places not yet
written follow as zeros. -/
def State.portLog (s : State) (src : Nat) (seq arg : BitVec 32) (data : List (BitVec 8)) : State :=
  if data = [] ∧ goodSelector arg then
    let rs := (Tab.getD s.flogs arg.toNat []).reverse
    s.respond src 3 seq 0 (leBytes 4 (rs.length - 1) ++ (rs.flatMap LogRec.bytes ++ List.replicate 512 0).take 512)
  else s.malformed src 3 seq

/-- FAULT_LOG_READ (R405). -/
def execFaultLogRead (src : Nat) (seq arg : BitVec 32) (data : List (BitVec 8)) (s : State) :
    Host.Outcome State Fault Refusal := .next (s.portLog src seq arg data)

/-- OP 0x04, black-box read (R382, R405): up to 16 records from an index on. -/
def State.portBox (s : State) (src : Nat) (seq arg : BitVec 32) (data : List (BitVec 8)) : State :=
  let i := (field 0 12 arg).toNat
  let n := (field 16 5 arg).toNat
  if data = [] ∧ field 12 4 arg = 0 ∧ field 21 11 arg = 0 ∧ 1 ≤ n ∧ n ≤ 16 then
    s.respond src 4 seq 0 ((List.range n).flatMap (fun k => Tab.getD s.bbox ((i + k) % 4096) (List.replicate 64 0)))
  else s.malformed src 4 seq

/-- BLACK_BOX_READ (R405). -/
def execBlackBoxRead (src : Nat) (seq arg : BitVec 32) (data : List (BitVec 8)) (s : State) :
    Host.Outcome State Fault Refusal := .next (s.portBox src seq arg data)

/-- Is a flash offset a multiple of 1,024 within the 64 MiB (R405)? -/
def goodOffset (arg : BitVec 32) : Bool := arg.toNat % 1024 == 0 && decide (arg.toNat < 2 ^ 26)

/-- OP 0x05, flash read (R405). -/
def State.portFlash (s : State) (src : Nat) (seq arg : BitVec 32) (data : List (BitVec 8)) : State :=
  let n := bytesNat data
  if data.length = 4 ∧ goodOffset arg ∧ 1 ≤ n ∧ n ≤ 1024 then s.respond src 5 seq 0 (s.flash.bytes arg.toNat n)
  else s.malformed src 5 seq

/-- FLASH_READ (R405). -/
def execFlashRead (src : Nat) (seq arg : BitVec 32) (data : List (BitVec 8)) (s : State) :
    Host.Outcome State Fault Refusal := .next (s.portFlash src seq arg data)

/-- OP 0x06, flash write (R405). -/
def State.portProgram (s : State) (src : Nat) (seq arg : BitVec 32) (data : List (BitVec 8)) : State :=
  if data.length = 1024 ∧ goodOffset arg then
    ({ s with flash := s.flash.putBytes arg.toNat data } : State).respond src 6 seq 0 []
  else s.malformed src 6 seq

/-- FLASH_WRITE (R405). -/
def execFlashWrite (src : Nat) (seq arg : BitVec 32) (data : List (BitVec 8)) (s : State) :
    Host.Outcome State Fault Refusal := .next (s.portProgram src seq arg data)

/-! ### Reset and release (R126, R405, R406) -/

/-- The module after a reset: what outlives it is the repair store, the fault logs, the black-box record with SEQ, the flash, the
port's kept responses, the drawer, and the MODEL's own inputs and counters (R364, R380 to R382, R403; log 10). -/
def State.afterReset (s : State) (boot : BootStage) : State :=
  let r := State.reset
  { r with
    boot, sys := { r.sys with evtLast := s.sys.evtLast }
    fields := s.fields, journal := s.journal, flogs := s.flogs, bbox := s.bbox, flash := s.flash, kept := s.kept
    evtOver := s.evtOver, drawer := s.drawer, drwPoison := s.drwPoison, drwOffline := s.drwOffline
    env := s.env, tape := s.tape, outbox := s.outbox, free := s.free, serial := s.serial }

/-- OP 0x07 (R405): answered, then reset, to a normal boot or into the recovery ROM. -/
def State.portReset (s : State) (src : Nat) (seq : BitVec 32) (boot : BootStage) : State :=
  (s.respond src 7 seq 0 []).afterReset boot

/-- MODULE_RESET (R405). -/
def execModuleReset (src : Nat) (seq : BitVec 32) (s : State) : Host.Outcome State Fault Refusal :=
  .next (s.portReset src seq .reset)

/-- RECOVERY_BOOT (R405, R406). -/
def execRecoveryBoot (src : Nat) (seq : BitVec 32) (s : State) : Host.Outcome State Fault Refusal :=
  .next (s.portReset src seq .recovery)

/-- OP 0x08, release of a halted core (R126, R405): its next bundle issues. -/
def State.releaseCore (s : State) : State :=
  let c := s.coreAt mgmtCore
  if c.strand == .coreHalt then s.putCore mgmtCore { c with strand := .running, undelivered := none } else s

/-- CORE_RELEASE (R405). -/
def execCoreRelease (src : Nat) (seq : BitVec 32) (s : State) : Host.Outcome State Fault Refusal :=
  .next (s.releaseCore.respond src 8 seq 0 [])

/-! ### The fabric manager's orders (R407, R408) -/

/-- Port `p` replaced. -/
def State.putPort (s : State) (p : Nat) (x : Port) : State := { s with ports := Tab.put s.ports p x }

/-- An order carried out: *fabric-manager order* (R407). -/
def State.ordered (s : State) (p order : Nat) (x : Port) : State :=
  if 56 ≤ p then s else (s.putPort p x).offer 8 p 0x40 0x0038 (leBytes 1 p ++ leBytes 1 order)

/-- Bind (R405): binding, context and peer set. -/
def State.bindPort (s : State) (p : Nat) (o : Word) : State :=
  s.ordered p 1 { s.portAt p with bnd := true, bctx := field 0 6 o, pport := field 6 6 o, pmod := field 12 10 o }

/-- PORT_BIND (R405). -/
def execPortBind (port : Nat) (order : Word) (s : State) : Host.Outcome State Fault Refusal := .next (s.bindPort port order)

/-- Unbind (R405). -/
def State.unbindPort (s : State) (p : Nat) : State := s.ordered p 2 { s.portAt p with bnd := false }

/-- PORT_UNBIND (R405). -/
def execPortUnbind (port : Nat) (s : State) : Host.Outcome State Fault Refusal := .next (s.unbindPort port)

/-- Up (R407, R408): the port trains; HINT is cleared. -/
def State.raisePort (s : State) (p : Nat) : State :=
  s.ordered p 3 { s.portAt p with state := 3, hint := false }

/-- PORT_UP (R407). -/
def execPortUp (port : Nat) (s : State) : Host.Outcome State Fault Refusal := .next (s.raisePort port)

/-- *wake hint pending* and HINT (R408). -/
def State.hintPends (s : State) (p : Nat) : State :=
  (s.putPort p { s.portAt p with hint := true }).offer 4 p 0x40 0x003A (leBytes 1 p ++ leBytes 1 4)

/-- Has a wake hint of port `p` arisen in this cycle? -/
def State.hintNow (s : State) (p : Nat) : Bool :=
  s.offered.any (fun o => o.org == 4 && o.loc == p && o.code == 0x0039 && o.since == s.cycle + 1)

/-- Low power (R407, R408): the port keeps its buffers; a hint of the same cycle pends. -/
def State.restPort (s : State) (p : Nat) : State :=
  let t := s.ordered p 4 { s.portAt p with state := 2 }
  if p < 56 ∧ s.hintNow p then t.hintPends p else t

/-- PORT_LOW_POWER (R408). -/
def execPortLowPower (port : Nat) (s : State) : Host.Outcome State Fault Refusal := .next (s.restPort port)

/-- Down (R407, R408): HINT is cleared. -/
def State.lowerPort (s : State) (p : Nat) : State :=
  s.ordered p 5 { s.portAt p with state := 0, hint := false }

/-- PORT_DOWN (R407). -/
def execPortDown (port : Nat) (s : State) : Host.Outcome State Fault Refusal := .next (s.lowerPort port)

/-- OPTICAL_PORT_TRAINING_END (R407). -/
def execOpticalPortTrainingEnd (port : Nat) (s : State) : Host.Outcome State Fault Refusal :=
  .next (if port < 56 ∧ (s.portAt port).state = 3 then s.putPort port { s.portAt port with state := 1 } else s)

/-- The waits at a port a cycle on, `ids` being the packets there and `ns` the vectors in each transmit buffer: only cycles of low power
count (R408). -/
def Port.wait (x : Port) (ids ns : List Nat) : Port :=
  let k := if x.state = 2 then 1 else 0
  let packets := ids.map (fun i => (i, Tab.getD x.packets i 0 + k))
  let lanes := ns.zipIdx.map (fun n => (List.range n.1).map (fun i => (x.lanes.getD n.2 []).getD i 0 + k))
  { x with packets, lanes, waited := (packets.map (·.2) ++ lanes.flatten).foldl max 0 }

/-- A cycle more for what waits at optical ports (R408). -/
def State.tickPorts (s : State) : State :=
  { s with ports := s.ports.map (fun e =>
      (e.1, e.2.wait ((s.net.filter (fun q => q.place == .port e.1 && decide (q.due ≤ s.cycle + 64))).map (·.id))
        ((s.coreAt (portTile e.1)).otx.toList.map List.length))) }

/-- WAKE_HINT (R408): something has waited 1,024 tc for a port in low power, or the peer signals wake. -/
def State.wakeHint (s : State) (p : Nat) (sideband : Bool) : State :=
  let x := s.portAt p
  let low := x.state == 2
  if 56 ≤ p || (!sideband && (!low || x.hint || decide (x.waited < 1024))) then s
  else
    let t := s.offer 4 p 0x40 0x0039 (leBytes 1 p)
    if low then t.hintPends p else t

/-- WAKE_HINT (R408). -/
def execWakeHint (port : Nat) (sideband : Bool) (s : State) : Host.Outcome State Fault Refusal := .next (s.wakeHint port sideband)

/-- Is an order word malformed (R405)? -/
def badOrder (o : Word) : Bool :=
  let k := (field 24 8 o).toNat
  field 32 32 o != 0 || field 22 2 o != 0 || k = 0 || decide (5 < k) || (k != 1 && field 0 22 o != 0)

/-- OP 0x09, fabric-manager order (R405, R407): carried out; the response waits for the order's event. -/
def State.portOrder (s : State) (src : Nat) (seq arg : BitVec 32) (data : List (BitVec 8)) : State :=
  let o : Word := BitVec.ofNat 64 (bytesNat data)
  let p := arg.toNat
  if 56 ≤ p ∨ data.length ≠ 8 ∨ badOrder o then s.malformed src 9 seq
  else
    let t := match (field 24 8 o).toNat with
      | 1 => s.bindPort p o
      | 2 => s.unbindPort p
      | 3 => s.raisePort p
      | 4 => s.restPort p
      | _ => s.lowerPort p
    { t with awaited := t.awaited ++ [{ src, seq, port := p, order := (field 24 8 o).toNat }] }

/-- One request served (R405). -/
def State.serveRequest (s : State) (src op : Nat) (seq arg : BitVec 32) (data : List (BitVec 8)) : State :=
  match op with
  | 1 => s.portRead src seq arg data
  | 2 => s.portWrite src seq arg data
  | 3 => s.portLog src seq arg data
  | 4 => s.portBox src seq arg data
  | 5 => s.portFlash src seq arg data
  | 6 => s.portProgram src seq arg data
  | 7 =>
    if data = [] ∧ arg = 0 then s.portReset src seq .reset
    else if data = [] ∧ arg = 1 then s.portReset src seq .recovery
    else s.malformed src 7 seq
  | 8 => if data = [] ∧ arg = 0 then s.releaseCore.respond src 8 seq 0 [] else s.malformed src 8 seq
  | 9 => s.portOrder src seq arg data
  | _ => s.malformed src op seq

/-- The port's IPv4 address, mask and gateway: of the record in the flash, or of a DHCP lease (R404; the record's layout is open, log 115). -/
def State.portAddress (s : State) : Option (BitVec 96) := (Config.portRecord (s.flash.bytes 0x3FFF000 1024)).or s.env.lease

/-- What reaches the port beside datagrams to UDP port 7,190 (R404): an ICMP echo request is echoed, an ARP request for the port's address
answered, everything else dropped. -/
def State.otherTraffic (s : State) (src : Nat) (bs : List (BitVec 8)) : State :=
  match s.portAddress with
  | none => s
  | some a =>
    if src / 2 ^ 48 = 1 ∨ (src / 2 ^ 48 = 2 ∧ bs = leBytes 4 (a.toNat % 2 ^ 32)) then { s with outbox := s.outbox ++ [.datagram src bs] }
    else s

/-- MANAGEMENT_DATAGRAM (R404): dropped, answered with a kept response, or served; one that comes while a response is under way waits. In
the MODEL's naming the low 48 bits of `src` are the sender's IPv4 address and UDP port, and what lies above is 0 for a datagram to UDP
port 7,190, 1 for an ICMP echo request, 2 for an ARP request (log 115). -/
def State.datagram (s : State) (src : Nat) (bs : List (BitVec 8)) : State :=
  let seq := msgField bs 4 4
  if 2 ^ 48 ≤ src then s.otherTraffic src bs
  else if !goodDatagram bs then s
  else if s.awaited ≠ [] then { s with portWait := s.portWait ++ [(src, bs)] }
  else
    match s.kept.find? (fun k => k.src == src && k.seq == seq) with
    | some k => { s with outbox := s.outbox ++ [.datagram src k.resp] }
    | none =>
      s.serveRequest src (msgField bs 3 1) (BitVec.ofNat 32 seq) (BitVec.ofNat 32 (msgField bs 12 4))
        ((bs.drop 16).take (msgField bs 8 2))

/-- MANAGEMENT_DATAGRAM (R404). -/
def execManagementDatagram (src : Nat) (bytes : List (BitVec 8)) (s : State) : Host.Outcome State Fault Refusal :=
  .next (s.datagram src bytes)

/-! ### Optical lanes and hops (R243, R244) -/

/-- OPTICAL_VECTOR_DELIVERY (R244) at lane `l` of port `p`, up: outward the oldest vector of the transmit buffer leaves; inward `x`
enters the receive buffer when it has room. -/
def State.moveVector (s : State) (p l : Nat) (inward : Bool) (x : Vec) : State :=
  let t := portTile p
  let c := s.coreAt t
  let o := (BitVec.ofNat 2 l).toFin
  if 56 ≤ p ∨ 4 ≤ l ∨ (s.portAt p).state ≠ 1 then s
  else if inward then
    (if (c.orx.get o).length < 64 then s.putCore t { c with orx := c.orx.set o (c.orx.get o ++ [x]) } else s)
  else
    match c.otx.get o with
    | [] => s
    | y :: r =>
      { (s.putCore t { c with otx := c.otx.set o r }).putPort p
          { s.portAt p with lanes := (s.portAt p).lanes.set l (((s.portAt p).lanes.getD l []).drop 1) } with
        outbox := s.outbox ++ [.vector p l y] }

/-- OPTICAL_VECTOR_DELIVERY (R244). -/
def execOpticalVectorDelivery (p lane : Nat) (inward : Bool) (x : Vec) (s : State) : Host.Outcome State Fault Refusal :=
  .next (s.moveVector p lane inward x)

/-- What of a crossing packet R232's header does not carry, in the MODEL's own layout (log 3): slot, order and bundle of its command, its
number in it, the member that a group send must meet (R269), and where the reply to a read request goes (R195). -/
def Packet.tail (p : Packet) : List (BitVec 8) :=
  leBytes 1 (slotCode p.slot) ++ leBytes 8 p.ord ++ leBytes 2 p.opc.toNat ++ leBytes 4 p.index ++
    (match p.expect with | some (m, x, y) => leBytes 1 1 ++ leBytes 2 m ++ leBytes 1 x ++ leBytes 1 y | none => leBytes 5 0) ++
    (match p.op with | .read _ back => leBytes 8 back ++ leBytes 8 p.aw ++ leBytes 1 (if p.awv then 1 else 0) | _ => leBytes 17 0)

/-- The payload of a packet that crosses: the bytes of a deposit; of an atomic and its reply the operation in the MODEL's own layout
(R241); and its tail (log 3). -/
def Packet.payload (p : Packet) : List (BitVec 8) :=
  (match p.op with
    | .atomic id op w b c => leBytes 8 id ++ leBytes 1 op.toNat ++ leBytes 1 w.toNat ++ leBytes 8 b.toNat ++ leBytes 8 c.toNat
    | .reply id old ok bad fl =>
      leBytes 8 id ++ leBytes 8 old.toNat ++ leBytes 1 (if ok then 1 else 0) ++ leBytes 1 fl.toNat ++
        (match bad with | some (k, x) => leBytes 1 k ++ leBytes 8 x.toNat | none => leBytes 9 0)
    | _ => p.data) ++ p.tail

/-- A crossing packet's operation, as the `len` of its header, its payload `d` and its tail `e` tell it. -/
def opOfPayload (kind len : Nat) (d e : List (BitVec 8)) : NetOp :=
  match kind with
  | 2 => .atomic (msgField d 0 8) (BitVec.ofNat 8 (msgField d 8 1)) (BitVec.ofNat 2 (msgField d 9 1)) (BitVec.ofNat 64 (msgField d 10 8))
      (BitVec.ofNat 64 (msgField d 18 8))
  | 3 =>
    .reply (msgField d 0 8) (BitVec.ofNat 64 (msgField d 8 8)) (msgField d 16 1 == 1)
      (if msgField d 18 1 = 0 then none else some (msgField d 18 1, BitVec.ofNat 64 (msgField d 19 8))) (BitVec.ofNat 7 (msgField d 17 1))
  | 5 => .read len (msgField e 20 8)
  | _ => .deposit

/-- May a packet at port `p` leave before the others there: none of its channel's, or of ordered kinds of its tile, was sent before it
(R231, R243)? -/
def State.firstAtPort (s : State) (p : Nat) (q : Packet) : Bool :=
  s.net.all (fun x => !(decide (x.id < q.id) && x.place == .port p && x.src == q.src &&
    ((x.sch == q.sch && !x.anyOrder && !q.anyOrder) || (orderedKind x.kind && orderedKind q.kind))))

/-- A packet at a port (R243): without a binding it is discarded, its sender told and *access refused* sent (R323); at a port that is up
it leaves, whole and in send order. -/
def State.crossPort (s : State) (p : Nat) (q : Packet) : State :=
  if decide (s.cycle + 64 < q.due) || q.stuck || q.sent != q.nd || !s.firstAtPort p q then s
  else if !(s.portAt p).bnd then
    (s.discardPacket q 0x14 (targetInfo (portTile p) q.off)).refuse 4 p q.ctx q.ctx (portTile p) q.off
  else if (s.portAt p).state ≠ 1 then s
  else
    let (n, t) := s.draw
    let out : State := if 2 ^ 20 ≤ q.off then t else { t with outbox := t.outbox ++ [.packet p (headerFlit q) q.payload] }
    if (q.kind = 3 ∨ q.kind = 4) ∧ q.off < 2 ^ 20 then out.offNet q
    else out.putPacket { q with place := .peer, due := s.cycle + 64 + q.back + Config.peerDelay n }

/-- A packet beyond a port (R233, R251): when the peer has consumed it, its credit is back and `kput`'s chunk is complete. An address that
the header cannot hold lies beyond the peer's SPEND (R195). -/
def State.peerDone (s : State) (q : Packet) : State :=
  if s.cycle < q.due then s
  else if 2 ^ 20 ≤ q.off then s.discardPacket q 0x0B (BitVec.ofNat 64 q.off)
  else
    let t := (s.offNet q).returnCredit { q with back := 0 }
    if q.slot == .k && q.kind = 1 && !q.foreign then t.chunkDone q.src q.index else t

/-- OPTICAL_HOP outward (R243): a packet leaves through its port, or has been consumed beyond it. -/
def State.hopOut (s : State) (id : Nat) : State :=
  match s.net.find? (fun q => q.id == id) with
  | none => s
  | some q =>
    match q.place with
    | .port p => s.crossPort p q
    | .peer => s.peerDone q
    | _ => s

/-- The segments of a header's ROUTE and the index SEGI (R232). -/
def hdrRoute (h : BitVec 512) : List Nat × Nat :=
  ((List.range 6).map (fun i => (field (369 - 8 * i) 8 h).toNat), (field 326 3 h).toNat)

/-- The reply's route of a request that came in through port `p` by route `segs`, of which it has walked those up to `i` on the peer
(R241): mirrored here, out of the port, and mirrored there. -/
def replyRoute (p : Nat) (segs : List Nat) (i : Nat) : List Nat :=
  let last := segs.getD i 0x40
  let back := if last % 64 ≤ 1 then [] else [(last / 64 + 2) % 4 * 64 + (last % 64 - 1)]
  mirrorSegs (segs.drop (i + 1)) [] ++ [portEdge (portTile p) * 64 + 1] ++ back ++ mirrorSegs (segs.take i) []

/-- The slot that a slot code names. -/
def slotOf (n : Nat) : Slot := if n = 7 then .m else if n = 8 then .k else if n = 9 then .n else .l

/-- What a peer's refusal of a packet brings to the tile that sent it (R178, R269, R323; log 3). -/
def State.peerRefuses (s : State) (id : CoreId) (d : List (BitVec 8)) : State :=
  let slot := slotOf (msgField d 0 1)
  let ord := msgField d 12 8
  let n := msgField d 20 4
  let mine (q : Packet) : Bool := q.place == .peer && q.src == id && q.slot == slot && q.ord == ord && q.index == n && q.kind == msgField d 24 1
  let t := match s.net.find? mine with | some q => (s.offNet q).returnCredit { q with back := 0 } | none => s
  t.tellCore id slot (msgField d 1 1) (BitVec.ofNat 64 (msgField d 2 8)) (BitVec.ofNat 13 (msgField d 10 2)) ord n

/-- A packet as it comes from the peer of port `p` (R243): CTX the bound context, at the port tile. `id` is its number. -/
def State.crossing (s : State) (p : Nat) (h : BitVec 512) (d : List (BitVec 8)) (id : Nat) : Packet :=
  let x := s.portAt p
  let kind := (field 508 4 h).toNat
  let (segs, i) := hdrRoute h
  let n := d.length - 37
  let e := d.drop n
  let nd := (field 445 5 h).toNat
  let len := (field 434 11 h).toNat
  let read := kind = 5
  { id, kind, ctx := if x.bnd then x.bctx.toNat else (field 502 6 h).toNat, src := peerTile p (field 486 16 h).toNat
    sch := (field 476 10 h).toNat, dst := portTile p, dch := (field 450 10 h).toNat, off := (field 414 20 h).toNat
    aw := if read then msgField e 28 8 else (field 394 20 h).toNat
    awv := if read then msgField e 36 1 == 1 else h.getLsbD 393
    seq := 0, len, data := d.take n, flits := nd + 1, fs := 2, sent := nd, arrived := 0, begun := 0, done := 0
    again := 0, turn := 0, credit := false, back := 0, due := s.cycle, slot := slotOf (msgField e 0 1), ord := msgField e 1 8
    opc := BitVec.ofNat 13 (msgField e 9 2), index := msgField e 11 4, op := opOfPayload kind len (d.take n) e
    expect := if msgField e 15 1 = 1 then some (msgField e 16 2, msgField e 18 1, msgField e 19 1) else none
    links := [], route := segs, segs := replyRoute p segs i, anyOrder := false, stuck := false, place := .net }

/-- A packet that has crossed goes on in this module, on a walk (R228, R231, R243). -/
def State.goesOn (s : State) (q : Packet) (w : Walked) (place : PacketPlace) (back : List Nat) : State :=
  let key := seqKey q.src (match place with | .port _ => w.tid + 0x10000 | _ => w.tid)
  let seq := if orderedKind q.kind then Tab.getD s.seqOut key 0 else 0
  let links := w.ports.map (fun x => (x.1, s.cycle + x.2))
  let r : Packet := { q with
    dst := w.tid, due := s.cycle + w.cost, seq := seq.toNat, links, segs := back, anyOrder := w.express, place }
  { s.heldAt links q.id with
    seqOut := if orderedKind q.kind then Tab.put s.seqOut key (seq + 1) else s.seqOut
    net := s.net ++ [{ r with stuck := s.barred r }] }

/-- An event of the outside that cannot take place yet, put back for the next cycle ahead of those to come. -/
def State.putBackEvent (s : State) (e : Event) : State :=
  let due (x : Nat × Event) : Bool := decide (x.1 ≤ s.cycle)
  { s with tape := s.tape.takeWhile due ++ [(s.cycle, e)] ++ s.tape.dropWhile due }

/-- A packet from the peer of port `p` (R243): DST by the rest of its walk, CTX the bound context. Where its route goes on through another
port it waits there; where it reaches no tile its sender is told (R226, R379), and so it is when the port has no binding. At a port that
is not up it waits. -/
def State.hopIn (s : State) (p : Nat) (h : BitVec 512) (d : List (BitVec 8)) : State :=
  let x := s.portAt p
  let (segs, i) := hdrRoute h
  let (id, t) := s.fresh
  let q := s.crossing p h d id
  if 56 ≤ p ∨ 6 ≤ q.kind then s
  else if x.state ≠ 1 then s.putBackEvent (.opticalHop p 0 true h d)
  else if !x.bnd then (s.tellPeer q 0x14 (targetInfo (portTile p) q.off)).refuse 4 p q.ctx q.ctx (portTile p) q.off
  else
    match s.route (portTile p) (segs.drop (i + 1)) with
    | .tile w => t.goesOn q w .net q.segs
    | .port k w rest => t.goesOn q w (.port k) rest
    | _ => (s.tellPeer q 0x14 (noTile q.sch)).refuseUnresolved q

/-- OPTICAL_HOP (R243): outward packet `id`; inward a packet with `id` 0, and with another `id` a peer's refusal of a packet of tile `hdr`,
which is no packet (log 3). -/
def execOpticalHop (p id : Nat) (inward : Bool) (hdr : BitVec 512) (data : List (BitVec 8)) (s : State) :
    Host.Outcome State Fault Refusal :=
  .next (if !inward then s.hopOut id else if id = 0 then s.hopIn p hdr data else s.peerRefuses hdr.toNat data)

end Sys2Proof.Machine
end

