-- ==== Sys2Proof/Machine/Boot.lean ====
section
/-! DEFINITION. The boot (21 R364, 23 R406). -/

namespace Sys2Proof.Machine

/-! ### Firmware (R406 steps 2 to 4) -/

/-- `n` bytes of the flash at an offset. -/
def State.flashBytes (s : State) (a n : Nat) : List (BitVec 8) := s.flash.bytes a n

/-- The end of an image: behind its header and every section (R406; log 31). -/
def imageEnd (x : Nat) : Nat := ((imageSections x).map (fun p => if p.2 = 0 then 64 else p.1 + p.2)).foldl max 64

/-- The firmware image at offset 0 of the flash: a gang of 1 × 1, its CRC-32C behind it; `none` when it is rejected (R75, R406), or
does not end within the flash (DESIGN CHOICE, log 98). -/
def State.firmware (s : State) : Option (Plane × Nat × List (BitVec 8)) :=
  let x := bytesNat (s.flashBytes 0 64)
  let sec (i : Nat) : Nat × Nat := (imageSections x).getD i (0, 0)
  let rd (i : Nat) : List (BitVec 8) := s.flashBytes (sec i).1 (sec i).2
  if badHeader x 0x40000 || decide (2 ^ 26 < imageEnd x + 4) || decide (1 < hdrField x 128 16) || decide (1 < hdrField x 144 16) then
    none
  else
    let cs := groupsOf 2 (rd 1) (hdrField x 80 16)
    let rs := groupsOf 8 (rd 2) (hdrField x 96 16)
    let ls := groupsOf 8 (rd 3) (hdrField x 224 16)
    if badPlane x cs rs || badLoops ls 1 1 ||
        bytesNat (s.flashBytes (imageEnd x) 4) != (crc32c (s.flashBytes 0 (imageEnd x))).toNat then none
    else some (planeOf x (groupsOf 48 (rd 0) (hdrField x 64 16)) cs rs ls, hdrField x 160 32, rd 4)

/-- The management core with its firmware, about to issue at ENTRY in system mode (R406 step 4). -/
def firmwareCore (now : Nat) (p : Plane) (addr : Nat) (data : List (BitVec 8)) : Core :=
  let c := Core.fresh mgmtCore
  { c with planes := c.planes.set 0 p, pc := p.entry, spad := Mem.putBytes [] addr data, strand := .running, gate := now + 1 }

/-- Steps 2 to 4 of the boot: the firmware runs, or the recovery ROM (R406; log 11). -/
def State.startFirmware (s : State) : State :=
  match s.firmware with
  | some (p, addr, data) => { s.putCore mgmtCore (firmwareCore s.cycle p addr data) with boot := .started }
  | none => { s with boot := .recovery }

/-! ### CYCLE, repairs and links (R406 steps 5 to 7) -/

/-- Step 5: CYCLE := 0; what the MODEL holds as a cycle to come keeps its distance (log 32). -/
def State.zeroCycle (s : State) : State :=
  let back (n : Nat) : Nat := n - s.cycle
  { s with
    cycle := 0, boot := .powered, bootFields := s.sys.fpwrSt
    cores := s.cores.map (fun e => (e.1, { e.2 with gate := back e.2.gate }))
    reqs := s.reqs.map (fun r => { r with
      place := match r.place with | .net d => .net (back d) | .served a d => .served (back a) (back d) | p => p })
    caches := s.caches.map (fun e => (e.1, { e.2 with walks := e.2.walks.map (fun w => { w with since := back w.since, readAt := back w.readAt }) }))
    preSince := back s.preSince
    nextSample := back s.nextSample
    net := s.net.map (fun p => { p with due := back p.due, links := p.links.map (fun k => (k.1, back k.2)) })
    credits := s.credits.map (fun k => { k with due := back k.due }) }

/-- Steps 6 and 7: the repair store is applied, self-test runs and the links of the fields that are on begin to train. -/
def State.applyAndTrain (s : State) : State :=
  let t := s.applyStore
  ((List.range 112).filter (fun n => s.bootFields.getLsbD (fieldOf (linkTile n)))).foldl
    (fun (u : State) n => if (u.link n).st = 0 then u.train n else u) { t with boot := .ready }

/-- BOOT (R406): the next stage whose condition holds. CYCLE is zeroed at a boundary after the last enabled field is on, with no
event waiting for the arbiter (log 32); cycle 0 refills the buckets, as every multiple of 1,024 does (R344). -/
def State.bootOn (s : State) : State :=
  match s.boot with
  | .reset => s.startFirmware
  | .started =>
    if s.sys.fpwrEn ≠ 0 ∧ s.sys.fpwrSt = s.sys.fpwrEn ∧ s.switching = [] ∧ s.offered = [] then s.zeroCycle.refill else s
  | .powered => s.applyAndTrain
  | .ready | .recovery => s

/-- BOOT (R406). -/
def execBoot (s : State) : Host.Outcome State Fault Refusal := .next s.bootOn

end Sys2Proof.Machine
end

