-- ==== Sys2Proof/Machine/Dispatch.lean ====
section
/-! DEFINITION. One arm for each instruction: a direct call of its meaning. -/

namespace Sys2Proof.Machine

/-- The meaning of every instruction. -/
def exec (i : Instr) (s : State) : Host.Outcome State Fault Refusal :=
  match i with
  | .bundleIssue t => Sys2Proof.Machine.execBundleIssue t s
  | .lockstepResultLanding t => Sys2Proof.Machine.execLockstepResultLanding t s
  | .trapDelivery t => Sys2Proof.Machine.execTrapDelivery t s
  | .gangAbort t => Sys2Proof.Machine.execGangAbort t s
  | .add f => Sys2Proof.Machine.execAdd f s
  | .sub f => Sys2Proof.Machine.execSub f s
  | .mul f => Sys2Proof.Machine.execMul f s
  | .mulh f => Sys2Proof.Machine.execMulh f s
  | .mulhn f => Sys2Proof.Machine.execMulhn f s
  | .div f => Sys2Proof.Machine.execDiv f s
  | .divn f => Sys2Proof.Machine.execDivn f s
  | .rem f => Sys2Proof.Machine.execRem f s
  | .remn f => Sys2Proof.Machine.execRemn f s
  | .and f => Sys2Proof.Machine.execAnd f s
  | .or f => Sys2Proof.Machine.execOr f s
  | .xor f => Sys2Proof.Machine.execXor f s
  | .andn f => Sys2Proof.Machine.execAndn f s
  | .shl f => Sys2Proof.Machine.execShl f s
  | .shr f => Sys2Proof.Machine.execShr f s
  | .sra f => Sys2Proof.Machine.execSra f s
  | .rol f => Sys2Proof.Machine.execRol f s
  | .min f => Sys2Proof.Machine.execMin f s
  | .max f => Sys2Proof.Machine.execMax f s
  | .minn f => Sys2Proof.Machine.execMinn f s
  | .maxn f => Sys2Proof.Machine.execMaxn f s
  | .clz f => Sys2Proof.Machine.execClz f s
  | .ctz f => Sys2Proof.Machine.execCtz f s
  | .popc f => Sys2Proof.Machine.execPopc f s
  | .bswap f => Sys2Proof.Machine.execBswap f s
  | .exts f => Sys2Proof.Machine.execExts f s
  | .extz f => Sys2Proof.Machine.execExtz f s
  | .ins f => Sys2Proof.Machine.execIns f s
  | .sel f => Sys2Proof.Machine.execSel f s
  | .lea f => Sys2Proof.Machine.execLea f s
  | .addi f => Sys2Proof.Machine.execAddi f s
  | .andi f => Sys2Proof.Machine.execAndi f s
  | .ori f => Sys2Proof.Machine.execOri f s
  | .xori f => Sys2Proof.Machine.execXori f s
  | .shli f => Sys2Proof.Machine.execShli f s
  | .shri f => Sys2Proof.Machine.execShri f s
  | .srai f => Sys2Proof.Machine.execSrai f s
  | .muli f => Sys2Proof.Machine.execMuli f s
  | .mini f => Sys2Proof.Machine.execMini f s
  | .maxi f => Sys2Proof.Machine.execMaxi f s
  | .movi f => Sys2Proof.Machine.execMovi f s
  | .moviz f => Sys2Proof.Machine.execMoviz f s
  | .movm f => Sys2Proof.Machine.execMovm f s
  | .movt f => Sys2Proof.Machine.execMovt f s
  | .addpc f => Sys2Proof.Machine.execAddpc f s
  | .cmp f => Sys2Proof.Machine.execCmp f s
  | .cmpi f => Sys2Proof.Machine.execCmpi f s
  | .pand f => Sys2Proof.Machine.execPand f s
  | .por f => Sys2Proof.Machine.execPor f s
  | .pxor f => Sys2Proof.Machine.execPxor f s
  | .pmov f => Sys2Proof.Machine.execPmov f s
  | .ptos f => Sys2Proof.Machine.execPtos f s
  | .pset f => Sys2Proof.Machine.execPset f s
  | .ptst f => Sys2Proof.Machine.execPtst f s
  | .fadd f => Sys2Proof.Machine.execFadd f s
  | .fsub f => Sys2Proof.Machine.execFsub f s
  | .fmul f => Sys2Proof.Machine.execFmul f s
  | .ffma f => Sys2Proof.Machine.execFfma f s
  | .fmin f => Sys2Proof.Machine.execFmin f s
  | .fmax f => Sys2Proof.Machine.execFmax f s
  | .fdiv f => Sys2Proof.Machine.execFdiv f s
  | .fsqrt f => Sys2Proof.Machine.execFsqrt f s
  | .fcmp f => Sys2Proof.Machine.execFcmp f s
  | .fclass f => Sys2Proof.Machine.execFclass f s
  | .fsgn f => Sys2Proof.Machine.execFsgn f s
  | .fcvt f => Sys2Proof.Machine.execFcvt f s
  | .fcvti f => Sys2Proof.Machine.execFcvti f s
  | .icvtf f => Sys2Proof.Machine.execIcvtf f s
  | .prep f => Sys2Proof.Machine.execPrep f s
  | .prepr f => Sys2Proof.Machine.execPrepr f s
  | .get f => Sys2Proof.Machine.execGet f s
  | .set f => Sys2Proof.Machine.execSet f s
  | .gets f => Sys2Proof.Machine.execGets f s
  | .sets f => Sys2Proof.Machine.execSets f s
  | .setfmt f => Sys2Proof.Machine.execSetfmt f s
  | .getfmt f => Sys2Proof.Machine.execGetfmt f s
  | .stg f => Sys2Proof.Machine.execStg f s
  | .gtg f => Sys2Proof.Machine.execGtg f s
  | .lcset f => Sys2Proof.Machine.execLcset f s
  | .lcget f => Sys2Proof.Machine.execLcget f s
  | .rasrd f => Sys2Proof.Machine.execRasrd f s
  | .raswr f => Sys2Proof.Machine.execRaswr f s
  | .br f => Sys2Proof.Machine.execBr f s
  | .call f => Sys2Proof.Machine.execCall f s
  | .ret f => Sys2Proof.Machine.execRet f s
  | .loop f => Sys2Proof.Machine.execLoop f s
  | .wait f => Sys2Proof.Machine.execWait f s
  | .sync f => Sys2Proof.Machine.execSync f s
  | .done f => Sys2Proof.Machine.execDone f s
  | .swap f => Sys2Proof.Machine.execSwap f s
  | .trap f => Sys2Proof.Machine.execTrap f s
  | .brk f => Sys2Proof.Machine.execBrk f s
  | .eret f => Sys2Proof.Machine.execEret f s
  | .idle f => Sys2Proof.Machine.execIdle f s
  | .halt f => Sys2Proof.Machine.execHalt f s
  | .qfence f => Sys2Proof.Machine.execQfence f s
  | .vadd f => Sys2Proof.Machine.execVadd f s
  | .vsub f => Sys2Proof.Machine.execVsub f s
  | .vmul f => Sys2Proof.Machine.execVmul f s
  | .vmulh f => Sys2Proof.Machine.execVmulh f s
  | .vmulhn f => Sys2Proof.Machine.execVmulhn f s
  | .vmin f => Sys2Proof.Machine.execVmin f s
  | .vmax f => Sys2Proof.Machine.execVmax f s
  | .vminn f => Sys2Proof.Machine.execVminn f s
  | .vmaxn f => Sys2Proof.Machine.execVmaxn f s
  | .vand f => Sys2Proof.Machine.execVand f s
  | .vor f => Sys2Proof.Machine.execVor f s
  | .vxor f => Sys2Proof.Machine.execVxor f s
  | .vandn f => Sys2Proof.Machine.execVandn f s
  | .vshl f => Sys2Proof.Machine.execVshl f s
  | .vshr f => Sys2Proof.Machine.execVshr f s
  | .vsra f => Sys2Proof.Machine.execVsra f s
  | .vabs f => Sys2Proof.Machine.execVabs f s
  | .vneg f => Sys2Proof.Machine.execVneg f s
  | .vclz f => Sys2Proof.Machine.execVclz f s
  | .vpopc f => Sys2Proof.Machine.execVpopc f s
  | .vadds f => Sys2Proof.Machine.execVadds f s
  | .vaddsn f => Sys2Proof.Machine.execVaddsn f s
  | .vsubs f => Sys2Proof.Machine.execVsubs f s
  | .vsubsn f => Sys2Proof.Machine.execVsubsn f s
  | .vsel f => Sys2Proof.Machine.execVsel f s
  | .vcmp f => Sys2Proof.Machine.execVcmp f s
  | .vfadd f => Sys2Proof.Machine.execVfadd f s
  | .vfsub f => Sys2Proof.Machine.execVfsub f s
  | .vfmul f => Sys2Proof.Machine.execVfmul f s
  | .vfma f => Sys2Proof.Machine.execVfma f s
  | .vfmin f => Sys2Proof.Machine.execVfmin f s
  | .vfmax f => Sys2Proof.Machine.execVfmax f s
  | .vfdiv f => Sys2Proof.Machine.execVfdiv f s
  | .vfsqrt f => Sys2Proof.Machine.execVfsqrt f s
  | .vfexp2 f => Sys2Proof.Machine.execVfexp2 f s
  | .vflog2 f => Sys2Proof.Machine.execVflog2 f s
  | .vfrcp f => Sys2Proof.Machine.execVfrcp f s
  | .vfrsq f => Sys2Proof.Machine.execVfrsq f s
  | .vfabs f => Sys2Proof.Machine.execVfabs f s
  | .vfneg f => Sys2Proof.Machine.execVfneg f s
  | .vfcmp f => Sys2Proof.Machine.execVfcmp f s
  | .vfclass f => Sys2Proof.Machine.execVfclass f s
  | .vcvt f => Sys2Proof.Machine.execVcvt f s
  | .vqnt f => Sys2Proof.Machine.execVqnt f s
  | .vdqnt f => Sys2Proof.Machine.execVdqnt f s
  | .vfredadd f => Sys2Proof.Machine.execVfredadd f s
  | .vfredmax f => Sys2Proof.Machine.execVfredmax f s
  | .vredadd f => Sys2Proof.Machine.execVredadd f s
  | .vredmax f => Sys2Proof.Machine.execVredmax f s
  | .vmov f => Sys2Proof.Machine.execVmov f s
  | .vsplat f => Sys2Proof.Machine.execVsplat f s
  | .vsplati f => Sys2Proof.Machine.execVsplati f s
  | .vextr f => Sys2Proof.Machine.execVextr f s
  | .vinsr f => Sys2Proof.Machine.execVinsr f s
  | .vperm f => Sys2Proof.Machine.execVperm f s
  | .vperm2 f => Sys2Proof.Machine.execVperm2 f s
  | .vshuf f => Sys2Proof.Machine.execVshuf f s
  | .vslide f => Sys2Proof.Machine.execVslide f s
  | .viota f => Sys2Proof.Machine.execViota f s
  | .vacc f => Sys2Proof.Machine.execVacc f s
  | .vaccw f => Sys2Proof.Machine.execVaccw f s
  | .vsin f => Sys2Proof.Machine.execVsin f s
  | .vsout f => Sys2Proof.Machine.execVsout f s
  | .mand f => Sys2Proof.Machine.execMand f s
  | .mor f => Sys2Proof.Machine.execMor f s
  | .mxor f => Sys2Proof.Machine.execMxor f s
  | .mnot f => Sys2Proof.Machine.execMnot f s
  | .mset f => Sys2Proof.Machine.execMset f s
  | .mget f => Sys2Proof.Machine.execMget f s
  | .vany f => Sys2Proof.Machine.execVany f s
  | .vall f => Sys2Proof.Machine.execVall f s
  | .mpopc f => Sys2Proof.Machine.execMpopc f s
  | .zld f => Sys2Proof.Machine.execZld f s
  | .zldh f => Sys2Proof.Machine.execZldh f s
  | .zldb f => Sys2Proof.Machine.execZldb f s
  | .kld f => Sys2Proof.Machine.execKld f s
  | .zfromv f => Sys2Proof.Machine.execZfromv f s
  | .lds f => Sys2Proof.Machine.execLds f s
  | .sts f => Sys2Proof.Machine.execSts f s
  | .ldv f => Sys2Proof.Machine.execLdv f s
  | .stv f => Sys2Proof.Machine.execStv f s
  | .ldvs f => Sys2Proof.Machine.execLdvs f s
  | .stvs f => Sys2Proof.Machine.execStvs f s
  | .ldvg f => Sys2Proof.Machine.execLdvg f s
  | .stvg f => Sys2Proof.Machine.execStvg f s
  | .stvm f => Sys2Proof.Machine.execStvm f s
  | .setaw f => Sys2Proof.Machine.execSetaw f s
  | .waita f => Sys2Proof.Machine.execWaita f s
  | .spl f => Sys2Proof.Machine.execSpl f s
  | .fil f => Sys2Proof.Machine.execFil f s
  | .splv f => Sys2Proof.Machine.execSplv f s
  | .filv f => Sys2Proof.Machine.execFilv f s
  | .xlate f => Sys2Proof.Machine.execXlate f s
  | .hinv f => Sys2Proof.Machine.execHinv f s
  | .hget f => Sys2Proof.Machine.execHget f s
  | .ldh f => Sys2Proof.Machine.execLdh f s
  | .sth f => Sys2Proof.Machine.execSth f s
  | .ldvh f => Sys2Proof.Machine.execLdvh f s
  | .stvh f => Sys2Proof.Machine.execStvh f s
  | .aadd f => Sys2Proof.Machine.execAadd f s
  | .amin f => Sys2Proof.Machine.execAmin f s
  | .amax f => Sys2Proof.Machine.execAmax f s
  | .aminn f => Sys2Proof.Machine.execAminn f s
  | .amaxn f => Sys2Proof.Machine.execAmaxn f s
  | .aand f => Sys2Proof.Machine.execAand f s
  | .aor f => Sys2Proof.Machine.execAor f s
  | .axor f => Sys2Proof.Machine.execAxor f s
  | .aswp f => Sys2Proof.Machine.execAswp f s
  | .acas f => Sys2Proof.Machine.execAcas f s
  | .aincb f => Sys2Proof.Machine.execAincb f s
  | .aincw f => Sys2Proof.Machine.execAincw f s
  | .adecp f => Sys2Proof.Machine.execAdecp f s
  | .afal f => Sys2Proof.Machine.execAfal f s
  | .afadd f => Sys2Proof.Machine.execAfadd f s
  | .fence f => Sys2Proof.Machine.execFence f s
  | .fenceSc f => Sys2Proof.Machine.execFenceSc f s
  | .mma f => Sys2Proof.Machine.execMma f s
  | .mepi f => Sys2Proof.Machine.execMepi f s
  | .msend f => Sys2Proof.Machine.execMsend f s
  | .mred f => Sys2Proof.Machine.execMred f s
  | .mclr f => Sys2Proof.Machine.execMclr f s
  | .mstat f => Sys2Proof.Machine.execMstat f s
  | .kcpy f => Sys2Proof.Machine.execKcpy f s
  | .kput f => Sys2Proof.Machine.execKput f s
  | .kfill f => Sys2Proof.Machine.execKfill f s
  | .kfillConfigure f => Sys2Proof.Machine.execKfillConfigure f s
  | .kdec f => Sys2Proof.Machine.execKdec f s
  | .kzero f => Sys2Proof.Machine.execKzero f s
  | .kloc f => Sys2Proof.Machine.execKloc f s
  | .nsend f => Sys2Proof.Machine.execNsend f s
  | .nsendt f => Sys2Proof.Machine.execNsendt f s
  | .npost f => Sys2Proof.Machine.execNpost f s
  | .npush f => Sys2Proof.Machine.execNpush f s
  | .npop f => Sys2Proof.Machine.execNpop f s
  | .nrot f => Sys2Proof.Machine.execNrot f s
  | .ngsend f => Sys2Proof.Machine.execNgsend f s
  | .nclose f => Sys2Proof.Machine.execNclose f s
  | .ndisarm f => Sys2Proof.Machine.execNdisarm f s
  | .drawerLoadReturn t a => Sys2Proof.Machine.execDrawerLoadReturn t a s
  | .drawerStoreAccept t a => Sys2Proof.Machine.execDrawerStoreAccept t a s
  | .heldLoadReissue t => Sys2Proof.Machine.execHeldLoadReissue t s
  | .sideLogReplay t cls => Sys2Proof.Machine.execSideLogReplay t cls s
  | .remoteAtomicService p => Sys2Proof.Machine.execRemoteAtomicService p s
  | .remoteAtomicReply p => Sys2Proof.Machine.execRemoteAtomicReply p s
  | .handleWalkEnd k w stalled => Sys2Proof.Machine.execHandleWalkEnd k w stalled s
  | .shootdownRequest x => Sys2Proof.Machine.execShootdownRequest x s
  | .shootdownAck t => Sys2Proof.Machine.execShootdownAck t s
  | .shootdownComplete => Sys2Proof.Machine.execShootdownComplete s
  | .faultRecordWrite => Sys2Proof.Machine.execFaultRecordWrite s
  | .faultBufferFlush x => Sys2Proof.Machine.execFaultBufferFlush x s
  | .matrixDispatch t => Sys2Proof.Machine.execMatrixDispatch t s
  | .mmaPassStart t => Sys2Proof.Machine.execMmaPassStart t s
  | .mmaPassRetire t => Sys2Proof.Machine.execMmaPassRetire t s
  | .accRowFinal t => Sys2Proof.Machine.execAccRowFinal t s
  | .mepiRowWrite t => Sys2Proof.Machine.execMepiRowWrite t s
  | .msendRowSend t => Sys2Proof.Machine.execMsendRowSend t s
  | .mredRowAdd t => Sys2Proof.Machine.execMredRowAdd t s
  | .mclrRowWrite t => Sys2Proof.Machine.execMclrRowWrite t s
  | .copyDispatch t => Sys2Proof.Machine.execCopyDispatch t s
  | .chunkIssue t => Sys2Proof.Machine.execChunkIssue t s
  | .chunkComplete t n => Sys2Proof.Machine.execChunkComplete t n s
  | .chunkReadFault t => Sys2Proof.Machine.execChunkReadFault t s
  | .channelDispatch t => Sys2Proof.Machine.execChannelDispatch t s
  | .packetSend t => Sys2Proof.Machine.execPacketSend t s
  | .packetDeposit p => Sys2Proof.Machine.execPacketDeposit p s
  | .arrival a => Sys2Proof.Machine.execArrival a s
  | .creditReturn c => Sys2Proof.Machine.execCreditReturn c s
  | .triggeredSendFire t => Sys2Proof.Machine.execTriggeredSendFire t s
  | .queueAppend p => Sys2Proof.Machine.execQueueAppend p s
  | .queuePop p => Sys2Proof.Machine.execQueuePop p s
  | .queueClose p => Sys2Proof.Machine.execQueueClose p s
  | .spillMove q => Sys2Proof.Machine.execSpillMove q s
  | .barrierDetect g bl => Sys2Proof.Machine.execBarrierDetect g bl s
  | .barrierRelease g bl => Sys2Proof.Machine.execBarrierRelease g bl s
  | .streamRegisterWatchdog t => Sys2Proof.Machine.execStreamRegisterWatchdog t s
  | .arrivalWaitWatchdog t => Sys2Proof.Machine.execArrivalWaitWatchdog t s
  | .opticalVectorDelivery p lane inward x => Sys2Proof.Machine.execOpticalVectorDelivery p lane inward x s
  | .opticalHop p id inward hdr data => Sys2Proof.Machine.execOpticalHop p id inward hdr data s
  | .drainPoint t => Sys2Proof.Machine.execDrainPoint t s
  | .tailRegisterWrite port q x => Sys2Proof.Machine.execTailRegisterWrite port q x s
  | .stagingEntryTake q => Sys2Proof.Machine.execStagingEntryTake q s
  | .eventCounterWrite port c e x => Sys2Proof.Machine.execEventCounterWrite port c e x s
  | .hostDrawerAccess port write addr len data => Sys2Proof.Machine.execHostDrawerAccess port write addr len data s
  | .placementRound => Sys2Proof.Machine.execPlacementRound s
  | .dependenceRead l => Sys2Proof.Machine.execDependenceRead l s
  | .planeLoad l => Sys2Proof.Machine.execPlaneLoad l s
  | .launchGrant l => Sys2Proof.Machine.execLaunchGrant l s
  | .startToken g t => Sys2Proof.Machine.execStartToken g t s
  | .gangStart g => Sys2Proof.Machine.execGangStart g s
  | .launchComplete g => Sys2Proof.Machine.execLaunchComplete g s
  | .staleLaunch l => Sys2Proof.Machine.execStaleLaunch l s
  | .contextSaveRequest x => Sys2Proof.Machine.execContextSaveRequest x s
  | .contextRestoreRequest x => Sys2Proof.Machine.execContextRestoreRequest x s
  | .contextDestroyRequest x => Sys2Proof.Machine.execContextDestroyRequest x s
  | .haltToken t => Sys2Proof.Machine.execHaltToken t s
  | .tileHalted t => Sys2Proof.Machine.execTileHalted t s
  | .tileRecordWritten t => Sys2Proof.Machine.execTileRecordWritten t s
  | .gangRestore c => Sys2Proof.Machine.execGangRestore c s
  | .descriptorSelect x => Sys2Proof.Machine.execDescriptorSelect x s
  | .queueDescriptorCommit x => Sys2Proof.Machine.execQueueDescriptorCommit x s
  | .contextDescriptorCommit x => Sys2Proof.Machine.execContextDescriptorCommit x s
  | .accessTableSelect x => Sys2Proof.Machine.execAccessTableSelect x s
  | .tileGrantCommit x => Sys2Proof.Machine.execTileGrantCommit x s
  | .drawerRangeCommit x => Sys2Proof.Machine.execDrawerRangeCommit x s
  | .hostContextSetCommit x => Sys2Proof.Machine.execHostContextSetCommit x s
  | .drawerRequestSend t => Sys2Proof.Machine.execDrawerRequestSend t s
  | .slotGrant n => Sys2Proof.Machine.execSlotGrant n s
  | .sltDataWrite x => Sys2Proof.Machine.execSltDataWrite x s
  | .slotTableCommit x => Sys2Proof.Machine.execSlotTableCommit x s
  | .slotTableSwitch n => Sys2Proof.Machine.execSlotTableSwitch n s
  | .tokenRefill => Sys2Proof.Machine.execTokenRefill s
  | .bwcWrite n x => Sys2Proof.Machine.execBwcWrite n x s
  | .linkTraining n => Sys2Proof.Machine.execLinkTraining n s
  | .linkWaitTimeout r => Sys2Proof.Machine.execLinkWaitTimeout r s
  | .sensorSample => Sys2Proof.Machine.execSensorSample s
  | .throttleWrite f x => Sys2Proof.Machine.execThrottleWrite f x s
  | .fieldPowerWrite x => Sys2Proof.Machine.execFieldPowerWrite x s
  | .fieldPowerStage => Sys2Proof.Machine.execFieldPowerStage s
  | .wakeTimer => Sys2Proof.Machine.execWakeTimer s
  | .eventStamp => Sys2Proof.Machine.execEventStamp s
  | .bbIdxWrite x => Sys2Proof.Machine.execBbIdxWrite x s
  | .bbWcodeWrite x => Sys2Proof.Machine.execBbWcodeWrite x s
  | .modRankWrite x => Sys2Proof.Machine.execModRankWrite x s
  | .systemRegisterWrite n x => Sys2Proof.Machine.execSystemRegisterWrite n x s
  | .clearRow x => Sys2Proof.Machine.execClearRow x s
  | .clearColumn x => Sys2Proof.Machine.execClearColumn x s
  | .clearHole x => Sys2Proof.Machine.execClearHole x s
  | .clearDeadLink x => Sys2Proof.Machine.execClearDeadLink x s
  | .addRow x => Sys2Proof.Machine.execAddRow x s
  | .addColumn x => Sys2Proof.Machine.execAddColumn x s
  | .addHole x => Sys2Proof.Machine.execAddHole x s
  | .containedError t u => Sys2Proof.Machine.execContainedError t u s
  | .migrationFreezeOrder f => Sys2Proof.Machine.execMigrationFreezeOrder f s
  | .migrationCopy f => Sys2Proof.Machine.execMigrationCopy f s
  | .mapChange f => Sys2Proof.Machine.execMapChange f s
  | .migrationThaw f => Sys2Proof.Machine.execMigrationThaw f s
  | .uncontainedError t u => Sys2Proof.Machine.execUncontainedError t u s
  | .poisonMarked t a => Sys2Proof.Machine.execPoisonMarked t a s
  | .linkFlitRetry n detail => Sys2Proof.Machine.execLinkFlitRetry n detail s
  | .tailAcknowledge n => Sys2Proof.Machine.execTailAcknowledge n s
  | .meshLinkDead n => Sys2Proof.Machine.execMeshLinkDead n s
  | .managementDatagram src bytes => Sys2Proof.Machine.execManagementDatagram src bytes s
  | .systemRegisterReadRequest src seq arg data => Sys2Proof.Machine.execSystemRegisterReadRequest src seq arg data s
  | .systemRegisterWriteRequest src seq arg data => Sys2Proof.Machine.execSystemRegisterWriteRequest src seq arg data s
  | .faultLogRead src seq arg data => Sys2Proof.Machine.execFaultLogRead src seq arg data s
  | .blackBoxRead src seq arg data => Sys2Proof.Machine.execBlackBoxRead src seq arg data s
  | .flashRead src seq arg data => Sys2Proof.Machine.execFlashRead src seq arg data s
  | .flashWrite src seq arg data => Sys2Proof.Machine.execFlashWrite src seq arg data s
  | .moduleReset src seq => Sys2Proof.Machine.execModuleReset src seq s
  | .recoveryBoot src seq => Sys2Proof.Machine.execRecoveryBoot src seq s
  | .coreRelease src seq => Sys2Proof.Machine.execCoreRelease src seq s
  | .portBind port order => Sys2Proof.Machine.execPortBind port order s
  | .portUnbind port => Sys2Proof.Machine.execPortUnbind port s
  | .portUp port => Sys2Proof.Machine.execPortUp port s
  | .portLowPower port => Sys2Proof.Machine.execPortLowPower port s
  | .portDown port => Sys2Proof.Machine.execPortDown port s
  | .wakeHint port sideband => Sys2Proof.Machine.execWakeHint port sideband s
  | .boot => Sys2Proof.Machine.execBoot s
  | .contextDestroyed c => Sys2Proof.Machine.execContextDestroyed c s
  | .readRequestService p => Sys2Proof.Machine.execReadRequestService p s
  | .npopResultWrite p => Sys2Proof.Machine.execNpopResultWrite p s
  | .opticalPortTrainingEnd port => Sys2Proof.Machine.execOpticalPortTrainingEnd port s

end Sys2Proof.Machine
end

