-- ==== Sys2Proof/Machine/Events.lean ====
section
/-! DEFINITION. The meaning of an event that the machine holds in its agenda: that of the instruction of its name (log 1). -/

namespace Sys2Proof.Machine

/-- The meaning of an event. -/
def runEvent (e : Event) (s : State) : Host.Outcome State Fault Refusal :=
  match e with
  | .bundleIssue t => execBundleIssue t s
  | .lockstepResultLanding t => execLockstepResultLanding t s
  | .trapDelivery t => execTrapDelivery t s
  | .gangAbort t => execGangAbort t s
  | .drawerLoadReturn t a => execDrawerLoadReturn t a s
  | .drawerStoreAccept t a => execDrawerStoreAccept t a s
  | .heldLoadReissue t => execHeldLoadReissue t s
  | .sideLogReplay t cls => execSideLogReplay t cls s
  | .remoteAtomicService p => execRemoteAtomicService p s
  | .remoteAtomicReply p => execRemoteAtomicReply p s
  | .handleWalkEnd k w stalled => execHandleWalkEnd k w stalled s
  | .shootdownRequest x => execShootdownRequest x s
  | .shootdownAck t => execShootdownAck t s
  | .shootdownComplete => execShootdownComplete s
  | .faultRecordWrite => execFaultRecordWrite s
  | .faultBufferFlush x => execFaultBufferFlush x s
  | .matrixDispatch t => execMatrixDispatch t s
  | .mmaPassStart t => execMmaPassStart t s
  | .mmaPassRetire t => execMmaPassRetire t s
  | .accRowFinal t => execAccRowFinal t s
  | .mepiRowWrite t => execMepiRowWrite t s
  | .msendRowSend t => execMsendRowSend t s
  | .mredRowAdd t => execMredRowAdd t s
  | .mclrRowWrite t => execMclrRowWrite t s
  | .copyDispatch t => execCopyDispatch t s
  | .chunkIssue t => execChunkIssue t s
  | .chunkComplete t n => execChunkComplete t n s
  | .chunkReadFault t => execChunkReadFault t s
  | .channelDispatch t => execChannelDispatch t s
  | .packetSend t => execPacketSend t s
  | .packetDeposit p => execPacketDeposit p s
  | .arrival a => execArrival a s
  | .creditReturn c => execCreditReturn c s
  | .triggeredSendFire t => execTriggeredSendFire t s
  | .queueAppend p => execQueueAppend p s
  | .queuePop p => execQueuePop p s
  | .queueClose p => execQueueClose p s
  | .spillMove q => execSpillMove q s
  | .barrierDetect g bl => execBarrierDetect g bl s
  | .barrierRelease g bl => execBarrierRelease g bl s
  | .streamRegisterWatchdog t => execStreamRegisterWatchdog t s
  | .arrivalWaitWatchdog t => execArrivalWaitWatchdog t s
  | .opticalVectorDelivery p lane inward x => execOpticalVectorDelivery p lane inward x s
  | .opticalHop p id inward hdr data => execOpticalHop p id inward hdr data s
  | .drainPoint t => execDrainPoint t s
  | .tailRegisterWrite port q x => execTailRegisterWrite port q x s
  | .stagingEntryTake q => execStagingEntryTake q s
  | .eventCounterWrite port c e x => execEventCounterWrite port c e x s
  | .hostDrawerAccess port write addr len data => execHostDrawerAccess port write addr len data s
  | .placementRound => execPlacementRound s
  | .dependenceRead l => execDependenceRead l s
  | .planeLoad l => execPlaneLoad l s
  | .launchGrant l => execLaunchGrant l s
  | .startToken g t => execStartToken g t s
  | .gangStart g => execGangStart g s
  | .launchComplete g => execLaunchComplete g s
  | .staleLaunch l => execStaleLaunch l s
  | .contextSaveRequest x => execContextSaveRequest x s
  | .contextRestoreRequest x => execContextRestoreRequest x s
  | .contextDestroyRequest x => execContextDestroyRequest x s
  | .haltToken t => execHaltToken t s
  | .tileHalted t => execTileHalted t s
  | .tileRecordWritten t => execTileRecordWritten t s
  | .gangRestore c => execGangRestore c s
  | .descriptorSelect x => execDescriptorSelect x s
  | .queueDescriptorCommit x => execQueueDescriptorCommit x s
  | .contextDescriptorCommit x => execContextDescriptorCommit x s
  | .accessTableSelect x => execAccessTableSelect x s
  | .tileGrantCommit x => execTileGrantCommit x s
  | .drawerRangeCommit x => execDrawerRangeCommit x s
  | .hostContextSetCommit x => execHostContextSetCommit x s
  | .drawerRequestSend t => execDrawerRequestSend t s
  | .slotGrant n => execSlotGrant n s
  | .sltDataWrite x => execSltDataWrite x s
  | .slotTableCommit x => execSlotTableCommit x s
  | .slotTableSwitch n => execSlotTableSwitch n s
  | .tokenRefill => execTokenRefill s
  | .bwcWrite n x => execBwcWrite n x s
  | .linkTraining n => execLinkTraining n s
  | .linkWaitTimeout r => execLinkWaitTimeout r s
  | .sensorSample => execSensorSample s
  | .throttleWrite f x => execThrottleWrite f x s
  | .fieldPowerWrite x => execFieldPowerWrite x s
  | .fieldPowerStage => execFieldPowerStage s
  | .wakeTimer => execWakeTimer s
  | .eventStamp => execEventStamp s
  | .bbIdxWrite x => execBbIdxWrite x s
  | .bbWcodeWrite x => execBbWcodeWrite x s
  | .modRankWrite x => execModRankWrite x s
  | .systemRegisterWrite n x => execSystemRegisterWrite n x s
  | .clearRow x => execClearRow x s
  | .clearColumn x => execClearColumn x s
  | .clearHole x => execClearHole x s
  | .clearDeadLink x => execClearDeadLink x s
  | .addRow x => execAddRow x s
  | .addColumn x => execAddColumn x s
  | .addHole x => execAddHole x s
  | .containedError t u => execContainedError t u s
  | .migrationFreezeOrder f => execMigrationFreezeOrder f s
  | .migrationCopy f => execMigrationCopy f s
  | .mapChange f => execMapChange f s
  | .migrationThaw f => execMigrationThaw f s
  | .uncontainedError t u => execUncontainedError t u s
  | .poisonMarked t a => execPoisonMarked t a s
  | .linkFlitRetry n detail => execLinkFlitRetry n detail s
  | .tailAcknowledge n => execTailAcknowledge n s
  | .meshLinkDead n => execMeshLinkDead n s
  | .managementDatagram src bytes => execManagementDatagram src bytes s
  | .systemRegisterReadRequest src seq arg data => execSystemRegisterReadRequest src seq arg data s
  | .systemRegisterWriteRequest src seq arg data => execSystemRegisterWriteRequest src seq arg data s
  | .faultLogRead src seq arg data => execFaultLogRead src seq arg data s
  | .blackBoxRead src seq arg data => execBlackBoxRead src seq arg data s
  | .flashRead src seq arg data => execFlashRead src seq arg data s
  | .flashWrite src seq arg data => execFlashWrite src seq arg data s
  | .moduleReset src seq => execModuleReset src seq s
  | .recoveryBoot src seq => execRecoveryBoot src seq s
  | .coreRelease src seq => execCoreRelease src seq s
  | .portBind port order => execPortBind port order s
  | .portUnbind port => execPortUnbind port s
  | .portUp port => execPortUp port s
  | .portLowPower port => execPortLowPower port s
  | .portDown port => execPortDown port s
  | .wakeHint port sideband => execWakeHint port sideband s
  | .boot => execBoot s
  | .contextDestroyed c => execContextDestroyed c s
  | .readRequestService p => execReadRequestService p s
  | .npopResultWrite p => execNpopResultWrite p s
  | .opticalPortTrainingEnd port => execOpticalPortTrainingEnd port s

end Sys2Proof.Machine
end

