-- ==== Sys2Proof/Machine/Schedule.lean ====
section
/-! DEFINITION. Which events a cycle has and in what order, the start of a cycle, and a word placed where the machine fetches
(logs 1, 3, 15). -/

namespace Sys2Proof.Machine

/-- An event that a cycle may have; a first component `true` says that the spec does not fix its cycle, so that it may be
put off (log 15). -/
abbrev Planned := Bool × Event

/-- One planned event when `c` holds. -/
def when (c late : Bool) (e : Event) : List Planned := if c then [(late, e)] else []

/-! ### Events of the module -/

/-- Slots of link `n` that start by this cycle, with the switch of its tables at a frame's first slot (R332, R340). -/
def State.planSlots (s : State) (n : Nat) (l : Link) : List Planned :=
  ((List.range 4).map (· + l.slot)).flatMap (fun k =>
    if l.slotCycle k ≤ s.cycle then
      when (s.sltWait.contains n && k % 1024 == 0) false (.slotTableSwitch n) ++ [(false, .slotGrant n)]
    else [])

/-- Links: slots, and trainings that end (R332, R346). -/
def State.planLinks (s : State) : List Planned :=
  s.links.flatMap (fun e =>
    if e.2.st = 2 then s.planSlots e.1 e.2 else when (e.2.st == 1) true (.linkTraining e.1)) ++
  s.reqs.flatMap (fun r => when (decide (62500 ≤ r.waited)) false (.linkWaitTimeout r.id))

/-- The timeline of each migration (R370): a thaw falls within 62,500 tc of E. -/
def State.planMigrations (s : State) : List Planned :=
  s.migrations.flatMap (fun e =>
    match e.2.stage with
    | .detected => [(false, .migrationFreezeOrder e.1)]
    | .ordered => [(false, .migrationCopy e.1)]
    | .copied => [(false, .mapChange e.1)]
    | .mapped => [(decide (s.cycle < e.2.e + 50008), .migrationThaw e.1)])

/-- The event that serves a packet. -/
def Packet.event (p : Packet) : Event :=
  match p.place with
  | .port q => .opticalHop q p.id false 0 []
  | .peer => .opticalHop 0 p.id false 0 []
  | _ =>
    match p.op with
    | .deposit => .packetDeposit p.id
    | .atomic .. => .remoteAtomicService p.id
    | .reply .. => .remoteAtomicReply p.id
    | .read .. => .readRequestService p.id
    | .push _ => .queueAppend p.id
    | .pop .. => .queuePop p.id
    | .close _ => .queueClose p.id
    | .popped .. => .npopResultWrite p.id

/-- The first cycle in which something may happen to a packet, unloaded (R228, R243). -/
def Packet.from (p : Packet) : Nat :=
  match p.place with
  | .port _ => p.due - 64
  | _ => if p.kind = 3 ∨ p.kind = 6 then p.wholeDue else p.due

/-- May other traffic delay a packet: it has not come whole, and it is not alone (R228)? -/
def State.delayed (s : State) (p : Packet) : Bool := decide (1 < s.net.length) && p.place != .peer && !p.whole

/-- Arrivals, packets and credits, then the sends that these trigger (R202, R228, R233, R236). A packet alone in the network takes the
unloaded time, and what has come to its tile is at its bank units. -/
def State.planNet (s : State) : List Planned :=
  s.arrivals.map (fun a => (false, .arrival a.id)) ++
  s.net.flatMap (fun p => when (decide (p.from ≤ s.cycle)) (s.delayed p) p.event) ++
  s.credits.flatMap (fun k => when (decide (k.due ≤ s.cycle)) false (.creditReturn k.id)) ++
  s.cores.flatMap (fun e => when (!e.2.chn.armed.isEmpty) false (.triggeredSendFire e.1)) ++
  s.meshPorts.flatMap (fun e => when (!e.2.held.isEmpty) true (.tailAcknowledge e.1))

/-- Walks that end (R307). A shootdown that lands at the same boundary is there before them (R319). -/
def State.planWalks (s : State) : List Planned :=
  s.caches.flatMap (fun e => (e.2.walks.take 16).flatMap (fun w => when w.ending.isSome false (.handleWalkEnd e.1 w.id w.endsStalled)))

/-- The shootdown and the fault unit (R310, R312); for a frozen tile its field's repair controller acknowledges at once (R311). -/
def State.planTranslation (s : State) : List Planned :=
  s.sdWait.map (fun w => (!(s.coreAt w.1).frozen, .shootdownAck w.1)) ++
  when (s.sys.sdCtl.getLsbD 62) true .shootdownComplete ++
  when (!s.fbWait.isEmpty) true .faultRecordWrite

/-- Queues (R281, R284, R285). -/
def State.planQueues (s : State) : List Planned :=
  s.queues.flatMap (fun e =>
    e.2.waiting.map (fun p => (true, .queueAppend p.id)) ++
    when (e.2.inn != e.2.out) true (.spillMove e.1) ++
    when (e.2.tail != e.2.taken) true (.stagingEntryTake e.1))

/-- Launches and gangs (R264, R293 to R301). A start token is received at the latest in cycle G + 90. -/
def State.planLaunches (s : State) : List Planned :=
  s.launches.flatMap (fun l => when (l.waits && l.bad != 0) false (.launchComplete l.id)) ++
  s.launches.flatMap (fun l => when (l.st == .head && !l.stale) false (.staleLaunch l.id)) ++
  (if s.cycle % 256 = 0 then
    s.launches.flatMap (fun l => when l.waits false (.dependenceRead l.id))
  else []) ++
  s.launches.flatMap (fun l => when (l.st == .placed && !l.loaded && !l.hold) false (.planeLoad l.id)) ++
  s.launches.flatMap (fun l => when (l.st == .placed && l.loaded) false (.launchGrant l.id)) ++
  s.launches.flatMap (fun l =>
    if l.st = .starting then
      (l.tiles.filter (fun t => !l.tokens.any (fun k => k.1 == t))).map (fun t => (decide (s.cycle < l.grant + 90), .startToken l.id t)) ++
        when (l.startAt == s.cycle) false (.gangStart l.id)
    else []) ++
  s.gangs.flatMap (fun g => (List.range 4).flatMap (fun bl =>
    let l := g.lines.get (BitVec.ofNat 2 bl).toFin
    when (l.release.isNone && l.arrived.length == g.w * g.h) false (.barrierDetect g.id bl) ++
      when l.release.isSome false (.barrierRelease g.id bl))) ++
  s.aborts.map (fun t => (false, .gangAbort t))

/-- Saves, restores and destroys of contexts (R326 to R331). A halt token is received at the latest in cycle Q + 90. -/
def State.planContexts (s : State) : List Planned :=
  s.preWait.flatMap (fun t =>
    when (!(s.coreAt t).haltReq) (decide (s.cycle < s.preSince + 90)) (.haltToken t) ++
      [(false, .tileHalted t), (false, .tileRecordWritten t)]) ++
  s.ctxs.flatMap (fun e => when (e.2.st == 6) false (.gangRestore e.1) ++ when (e.2.st == 5) false (.contextDestroyed e.1))

/-- Boot, sensors, field power, wake-up and optical ports (R244, R389, R391, R398, R406 to R408). -/
def State.planModule (s : State) : List Planned :=
  when (s.boot != .ready && s.boot != .recovery) false .boot ++
  when (decide (s.nextSample ≤ s.cycle)) false .sensorSample ++
  when (!s.switching.isEmpty) false .fieldPowerStage ++
  when (s.sys.wake.getLsbD 63) false .wakeTimer ++
  s.ports.flatMap (fun e =>
    when (e.2.state == 3) true (.opticalPortTrainingEnd e.1) ++
    when (e.2.state == 2 && decide (1024 ≤ e.2.waited)) false (.wakeHint e.1 false) ++
    (if e.2.state = 1 then
      (List.range 4).flatMap (fun l =>
        when (!((s.coreAt (portTile e.1)).otx.get (BitVec.ofNat 2 l).toFin).isEmpty) true (.opticalVectorDelivery e.1 l false 0))
    else [])) ++
  (List.range 4).flatMap (fun h =>
    when (s.reqs.any (fun r => r.core == 0x10000 + h && r.place == .port)) false (.drawerRequestSend (0x10000 + h)))

/-! ### Events of a core -/

/-- Has the matrix engine nothing to do? -/
def Core.matrixIdle (c : Core) : Bool :=
  c.mat.queue.isEmpty && c.mat.exec.isNone && c.mat.epi.isNone && c.owners.toList.all List.isEmpty

/-- What the engines and the drawer bring about at a core's boundary, then its results (R13, R166, R187, R188, R192, R212, R217,
R219). -/
def Core.planBoundary (c : Core) (t : CoreId) : List Planned :=
  if 0x20000 ≤ t then []
  else
    (if c.matrixIdle then [] else [(false, .mmaPassRetire t), (false, .mredRowAdd t), (false, .mclrRowWrite t)]) ++
    (match c.cpy.exec with
      | none => []
      | some e => (e.chunks.filter (fun x => x.2 == .flying)).map (fun x => (false, .chunkComplete t x.1))) ++
    (c.dacc.filter (fun a => a.st == .sent && a.isLoad)).map (fun a => (false, .drawerLoadReturn t a.id)) ++
    when (!c.matrixIdle) false (.accRowFinal t) ++ [(false, .lockstepResultLanding t)]

/-- The matrix engine in the cycle that follows: what has landed at its boundary is seen (R148, R184 to R186, R212, R217). -/
def Core.planMatrix (c : Core) (t : CoreId) : List Planned :=
  if c.matrixIdle then []
  else [(false, .matrixDispatch t), (false, .mepiRowWrite t), (false, .msendRowSend t), (false, .mmaPassStart t)]

/-- The copy engine, which issues chunk 0 in its dispatch cycle (R191 to R193, R351). -/
def Core.planCopy (c : Core) (t : CoreId) : List Planned :=
  if c.cpy.queue.isEmpty && c.cpy.exec.isNone then []
  else [(false, .copyDispatch t), (false, .chunkIssue t), (false, .chunkReadFault t)]

/-- The channel engine and the strand's remote atomics (R171, R199, R200). The packet under way goes on flit by flit. -/
def Core.planChannel (c : Core) (t : CoreId) : List Planned :=
  when (!c.chn.queue.isEmpty) true (.channelDispatch t) ++
  when (!c.chn.queue.isEmpty || c.chn.exec.isSome || !c.chn.fired.isEmpty || c.dacc.any (fun a => a.isAtomic && a.st == .queued))
    (match c.chn.exec with | some e => e.pkt.isNone | none => true) (.packetSend t)

/-- What leaves a tile for the drawer in a cycle: before the slots of the cycle, so that an access goes in the cycle after the one it
waits for is accepted (R248, R337). The copy engine's requests go in the cycle that issues their chunk (R351). -/
def State.planSends (s : State) (t : CoreId) (c : Core) : List Planned :=
  if 0x20000 ≤ t then []
  else
    c.planCopy t ++ when (c.dacc.any (fun a => a.st == .held || a.st == .retry)) false (.heldLoadReissue t) ++
    when (c.dacc.any (fun a => a.st == .queued && !a.isAtomic) || !c.cpy.queue.isEmpty || c.cpy.exec.isSome ||
      s.reqs.any (fun r => r.core == t && (r.place == .port || r.place == .stale))) false (.drawerRequestSend t)

/-- Drawer stores that their ports accept in this cycle (R167). -/
def Core.planStores (c : Core) (t : CoreId) : List Planned :=
  (c.dacc.filter (fun a => a.st == .sent && !a.isAtomic && !a.isLoad)).map (fun a => (false, .drawerStoreAccept t a.id))

/-- Replays of a side log, one per class (R316). -/
def Core.planReplay (c : Core) (t : CoreId) : List Planned :=
  ((c.slog.map (fun e => e.cls.toNat)).eraseDups).map (fun k => (false, .sideLogReplay t k))

/-- What a core's engines and its drawer path do in a cycle. -/
def Core.planWork (c : Core) (t : CoreId) : List Planned :=
  if 0x20000 ≤ t then c.planReplay t
  else
    c.planMatrix t ++ c.planChannel t ++ c.planStores t ++ c.planReplay t

/-- A core's bundle (R28, R123, R413). What is planned for a core that does not issue comes to nothing, but an
event of this cycle may start it. -/
def Core.planIssue (t : CoreId) (c : Core) : List Planned :=
  if 0x20000 ≤ t then []
  else
    (false, .trapDelivery t) ::
    (match c.strand with | .ended _ => [(false, .drainPoint t)] | _ => []) ++ [(false, .bundleIssue t)]

/-- May every member of a gang be at its drain point in this cycle (R293)? -/
def State.gangEnding (s : State) (g : Gang) : Bool :=
  !g.isOver && g.tiles.all (fun t =>
    g.left.contains t || (match (s.coreAt t).strand with | .ended _ | .drained _ => true | _ => false))

/-- Completions of gangs (R293), after the drain points of the cycle. -/
def State.planEnds (s : State) : List Planned :=
  s.gangs.flatMap (fun g => when (s.gangEnding g) false (.launchComplete g.id))

/-- The tiles whose arrival words a round's dependences name (R296). -/
def State.depTiles (s : State) : List CoreId :=
  (s.launches.flatMap (fun l => if l.waits then
    ((List.range 4).filter (fun i => geomDepk l.geom i == 1)).map (fun i => (s.depPlace l.ctx (l.deps.getD i 0)).1) else [])).eraseDups

/-- A placement round (R295), behind what the bank units serve in its cycle: those also of tiles that nothing has used yet (R296). -/
def State.planRound (s : State) : List Planned :=
  if s.cycle % 256 = 0 then
    (s.depTiles.filter (fun t => !s.cores.any (fun e => e.1 == t))).map (fun t => (false, .bundleIssue t)) ++ [(false, .placementRound)]
  else []

/-! ### A cycle -/

/-- What may take place in this cycle up to what lands at its boundary, in order. -/
def State.planFirst (s : State) : List Planned :=
  s.planModule ++ s.planMigrations ++ s.planTranslation ++ s.planContexts ++ s.planLaunches ++ s.planQueues ++
    s.planNet ++ s.cores.flatMap (fun e => Core.planBoundary e.2 e.1)

/-- What may take place behind that, in order; buckets are refilled before anything is sent (R345, R349); an event stamped is the cycle's last. -/
def State.planRest (s : State) : List Planned :=
  s.planWalks ++ when (s.cycle % 1024 == 0) false .tokenRefill ++
    s.cores.flatMap (fun e => s.planSends e.1 e.2) ++
    s.planLinks ++ s.cores.flatMap (fun e => Core.planWork e.2 e.1) ++
    s.cores.flatMap (fun e => Core.planIssue e.1 e.2) ++
    s.planRound ++ s.planEnds ++ [(false, .eventStamp)]

/-- The planned events that take place, those of open time as the free values say, from counter `n` on (log 15). -/
def chosen (n : Nat) (ps : List Planned) : List Event :=
  (ps.zipIdx n).filterMap (fun p => if p.1.1 && Config.putOff p.2 then none else some p.1.2)

/-- The outside's events whose turn has come, in their order (log 3). -/
def State.dueTape (s : State) : List Event := (s.tape.takeWhile (fun e => decide (e.1 ≤ s.cycle))).map (·.2)

/-- Does an event of the outside come by the management port? Its writes of registers follow the core's of the same boundary (R400;
what else it asks for likewise: DESIGN CHOICE, log 113). -/
def byPort : Event → Bool
  | .managementDatagram .. | .systemRegisterWriteRequest .. | .systemRegisterReadRequest .. | .faultLogRead .. | .blackBoxRead ..
  | .flashRead .. | .flashWrite .. | .moduleReset .. | .recoveryBoot .. | .coreRelease .. => true
  | _ => false

/-- The boundary before cycle `now` of a core: what bank units have served lands, the array goes on, rows sent or written are over
(R20, R185, R210, R217). -/
def Core.nextBoundary (c : Core) (now : Nat) : Core := ((c.beginCycle.acceptPush now).landWords.advanceArray).endEpi now

/-- A cycle begins: CYCLE, the engines' late counts, members made ready, waits, walks and transfers, the host's replies, throttles and new
heads of launch queues (R10, R20, R294, R299, R306, R348, R395, R408). -/
def State.tick (s : State) : State :=
  let t : State := { s with
    cycle := s.cycle + 1, stampedNow := false, cores := s.cores.map (fun e => (e.1, e.2.nextBoundary (s.cycle + 1))) }
  t.prepareMembers.tickLinks.stepWalks.stepJobs.enterQueues.noteDrawerDone.hostReplies.dropPast.tickPorts.turnThrottles.admitHeads

/-- The next cycle with its agenda: what the outside does first, the accesses of a host window that wait in line ahead of it (R256), and
what comes by the management port behind the core's results (R400). -/
def State.nextCycle (s : State) : State :=
  let t := s.tick
  let a := t.planFirst
  let b := t.planRest
  { t with
    agenda := t.hostWait.map (·.2) ++ t.dueTape.filter (fun e => !byPort e) ++ chosen t.free a ++
      t.portWait.map (fun d => .managementDatagram d.1 d.2) ++ t.dueTape.filter byPort ++
      chosen (t.free + a.length) b
    hostWait := []
    portWait := []
    tape := t.tape.dropWhile (fun e => decide (e.1 ≤ t.cycle))
    free := t.free + a.length + b.length }

/-! ### A word where the machine fetches -/

/-- The halfwords of a literal bundle behind its 0xFFFF, from position `i` on. -/
def putHalves (t : Tab (BitVec 16)) (i : CodeIdx) : Nat → Nat → Tab (BitVec 16)
  | 0, _ => t
  | n + 1, w => putHalves (Tab.put t i.toNat (BitVec.ofNat 16 w)) (i + 1) n (w / 2 ^ 16)

/-- A core about to issue the 384-bit bundle `w`, stored as a literal at its PC in its current plane (R72, R73; log 29). -/
def Core.holding (c : Core) (w : Nat) : Core :=
  let p := c.plane
  let q : Plane := { p with
    code := putHalves (Tab.put p.code c.pc.toNat 0xFFFF) (c.pc + 1) 24 w
    marks := p.marks.filter (· != c.pc.toNat) }
  { c with
    planes := if c.curPlane then c.planes.set 1 q else c.planes.set 0 q
    strand := .running, frozen := false, gate := 0, stall := 0, eretDrain := false, haltReq := false, pcFrom := none }

/-- The state in which the next event is the issue of that bundle on tile 0. -/
def State.holding (s : State) (w : Nat) : State :=
  { s.putCore 0 ((s.coreAt 0).holding w) with agenda := [.bundleIssue 0] }

end Sys2Proof.Machine
end

