-- ==== Sys2Proof/Machine/Step.lean ====
section
/-! DEFINITION. One step of the machine: the next event of the cycle's agenda, or the next cycle (log 1). -/

namespace Sys2Proof.Machine

/-- A step: the first event of the agenda runs; with none left the next cycle begins. -/
def step (s : State) : Host.Outcome State Fault Refusal :=
  match s.agenda with
  | e :: r => runEvent e { s with agenda := r }
  | [] => .next s.nextCycle

/-- The state with the bundle of bits `w` stored where the next step fetches: on tile 0 (log 29). -/
def State.withFetchWord (s : State) (_nbits w : Nat) : State := s.holding w

end Sys2Proof.Machine
end

