-- ==== Sys2Proof/Safety.lean ====
section
/-! DEFINITION. What counts as a safe run, in the terms the claims use: states in canonical form, steps that go on, and when
a bundle of one slot is free to issue. -/

namespace Sys2Proof.Machine

/-! ### Canonical states -/

/-- Drawer memory and flash are in canonical form. -/
def State.storesOk (s : State) : Bool := s.drawer.wf && s.flash.wf

/-- Every core's scratchpad is in canonical form. -/
def State.spadsOk (s : State) : Bool := s.cores.all (fun e => e.2.spad.wf)

/-- An outcome is a next state: the machine has neither stopped nor refused. -/
def goesOn (o : Host.Outcome State Fault Refusal) : Bool :=
  match o with
  | .next _ => true
  | .fault _ => false
  | .refused _ => false

/-! ### When a bundle of one slot issues -/

/-- Nothing outside the slot holds the current core's bundle: no load in fault service (R166), no side log without its slot
(R317), no throttle step (R395), room in the snapshot for two results (R18), no words of it asked for yet at the banks (R150). -/
def State.unheld (s : State) : Prop :=
  s.core.holdsLoad = false ∧ s.core.slogWait = false ∧ s.throttled = false ∧
    s.core.lockstepCount ≤ 30 ∧ s.core.bankLeft = none

/-- A slot with guard `g` and source registers `rs` may issue: guard true and not pending, sources not pending (R15, R65), and
nothing else holds the bundle. -/
def State.mayIssue (s : State) (g : Option (BitVec 1 × BitVec 3)) (rs : List PReg) : Prop :=
  guardPending g s.core = false ∧ guardOn g s.core = true ∧ (∀ r ∈ rs, s.core.isPending r = false) ∧ s.unheld

/-- A core whose bundle has issued from `c` with effect `d`: the PC moves on, results count down (R13, R72); what a contained error needs to
stop the bundle while its results are in flight stands beside it, when they are all it did (R385). -/
def Core.issuedFrom (c d : Core) (plain : Bool) : Core := { d.finish Header.zero with undo := c.undoOf d plain }

/-- The state after a bundle whose only effect on the machine is `g` on the current core, of a slot that begins results and redirects
alone. -/
def State.issued (s : State) (g : Core → Core) : State := s.setCore (s.core.issuedFrom (g s.core) true)

/-- The same of a slot that does more, so that a contained error cannot stop its bundle. -/
def State.committed (s : State) (g : Core → Core) : State := s.setCore (s.core.issuedFrom (g s.core) false)

/-- The state after such bundles, when the slot also asks the bank units for the scratchpad words `ws` (R150, R210). -/
def State.issuedAsks (s : State) (ws : List Nat) (g : Core → Core) : State :=
  s.setCore ((s.core.issuedFrom (g s.core) true).asks ws.eraseDups)

/-- See `issuedAsks`. -/
def State.committedAsks (s : State) (ws : List Nat) (g : Core → Core) : State :=
  s.setCore ((s.core.issuedFrom (g s.core) false).asks ws.eraseDups)

/-- Does no operation on an arrival word among the words `vs` share a bank with one of `ws` as its second (R239)? -/
def pairsApart (vs ws : List Nat) : Prop := ∀ v ∈ vs, isPair v = true → ∀ w ∈ ws, bankOf v + 1 ≠ bankOf w

/-- Is no other port pending at a bank of the words `ws`, and does no operation on an arrival word take one of them (R210, R239)? -/
def Core.banksFree (c : Core) (ws : List Nat) : Prop :=
  (∀ q ∈ c.bankWants, ∀ w ∈ ws, bankOf q.word ≠ bankOf w) ∧ pairsApart (c.bankWants.map (·.word)) ws ∧ pairsApart ws ws

/-- The state after a bundle of a slot with effect `g` on the state. -/
def State.issuedAll (s : State) (g : State → State) : State := (g s).setCore (s.core.issuedFrom (g s).core true)

/-- The same of a slot that does more than begin results. -/
def State.committedAll (s : State) (g : State → State) : State := (g s).setCore (s.core.issuedFrom (g s).core false)

end Sys2Proof.Machine
end

