-- ==== Sys2Proof/Certificates/Slice0/Obligations.lean ====
section
/-! DEFINITION. The statements for the provers: each `Obligations.X` is one proposition about the model. -/

namespace Sys2Proof.Claims

open Sys2Proof Sys2Proof.Machine

/-! ### What the statements on slot instructions share -/

/-- The guard of a form. -/
abbrev Guard := BitVec 1 × BitVec 3

/-- The slot of an S instruction. -/
def place (s1 : Bool) : Slot := if s1 then .s1 else .s0

/-- Instructions of one shape with what tells them apart. -/
abbrev Rows (F α : Type) := List ((F → Instr) × α)

/-- The S instructions of two sources with a type, their operation on the operands' low w bits, and their latency (R105). -/
def typedRows : Rows RForm ((Nat → Nat → Nat → Nat) × Nat) :=
  [(.add, opAdd, 1), (.sub, opSub, 1), (.mul, opMul, 3), (.mulh, opMulh, 3), (.mulhn, opMulhn, 3), (.div, opDiv, 24),
    (.divn, opDivn, 24), (.rem, opRem, 24), (.remn, opRemn, 24), (.and, opAnd, 1), (.or, opOr, 1), (.xor, opXor, 1),
    (.andn, opAndn, 1), (.min, opMin, 1), (.max, opMax, 1), (.minn, opMinn, 1), (.maxn, opMaxn, 1)]

/-- The shifts and rotates: the amount is the whole of b (R105). -/
def shiftRows : Rows RForm (Nat → Nat → Nat → Nat) := [(.shl, opShl), (.shr, opShr), (.sra, opSra), (.rol, opRol)]

/-- The S instructions of one source with a type (R105). -/
def typed1Rows : Rows RForm (Nat → Nat → Nat) := [(.clz, opClz), (.ctz, opCtz), (.popc, opPopc), (.bswap, opBswap)]

/-- The immediate instructions d := op a imm (R107). -/
def immRows : Rows IForm ((Word → Word → Word) × Nat) :=
  [(.addi, fun x y => x + y, 1), (.andi, fun x y => x &&& y, 1), (.ori, fun x y => x ||| y, 1), (.xori, fun x y => x ^^^ y, 1),
    (.muli, fun x y => x * y, 3), (.mini, fun x y => if y.toInt < x.toInt then y else x, 1),
    (.maxi, fun x y => if x.toInt < y.toInt then y else x, 1)]

/-- The immediate shifts (R107). -/
def immShiftRows : Rows IForm (Word → Nat → Word) :=
  [(.shli, fun x n => x <<< n), (.shri, fun x n => x >>> n), (.srai, fun x n => x.sshiftRight n)]

/-- The width in bits of a form-R type code (R92). -/
def tw (f : RForm) : Nat := typeWidth (field 0 4 f.x)

/-- A w-bit result as the destination receives it: extended to 64 bits by the type (R104). -/
def typedTo (f : RForm) (n : Nat) : Word := extendType (field 0 4 f.x) n

/-- The S slot of form R puts `x` on its way to scalar register D with `lat` cycles of latency. -/
def intoS (f : RForm) (lat : Nat) (x : Core → Word) (c : Core) : Core := c.result (place f.s1) lat (.s f.d (x c)) 0

/-- The same for form I. -/
def intoSI (f : IForm) (lat : Nat) (x : Core → Word) (c : Core) : Core := c.result (place f.s1) lat (.s f.d (x c)) 0

/-- The same for form L. -/
def intoSL (f : LForm) (lat : Nat) (x : Core → Word) (c : Core) : Core := c.result (place f.s1) lat (.s f.d (x c)) 0

/-- The S slot of form R puts `x` on its way to the predicate of D [5:3]. -/
def intoP (f : RForm) (lat : Nat) (x : Core → Bool) (fl : Core → Flags) (c : Core) : Core :=
  c.result (place f.s1) lat (.p (field 3 3 f.d) (x c)) (fl c)

/-- The same for form I. -/
def intoPI (f : IForm) (x : Core → Bool) (c : Core) : Core := c.result (place f.s1) 1 (.p (field 3 3 f.d) (x c)) 0

/-- A well-formed S instruction of form R with its sources readable and its guard true. -/
def goR (i : RForm → Instr) (f : RForm) (s : State) (rs : List PReg) : Prop :=
  (i f).wf = true ∧ s.mayIssue (some (f.gi, f.gp)) rs

/-- The same for form I. -/
def goI (i : IForm → Instr) (f : IForm) (s : State) (rs : List PReg) : Prop :=
  (i f).wf = true ∧ s.mayIssue (some (f.gi, f.gp)) rs

/-- The same for form L. -/
def goL (i : LForm → Instr) (f : LForm) (s : State) (rs : List PReg) : Prop :=
  (i f).wf = true ∧ s.mayIssue (some (f.gi, f.gp)) rs

/-- Compare on 64 bits by code (R91, R109). -/
def compare64 (cc : Nat) (x y : Word) : Bool :=
  match cc with
  | 0 => x == y
  | 1 => x != y
  | 2 => decide (x.toInt < y.toInt)
  | 3 => decide (x.toInt ≤ y.toInt)
  | 4 => decide (y.toInt < x.toInt)
  | 5 => decide (y.toInt ≤ x.toInt)
  | 6 => decide (x.toNat < y.toNat)
  | 7 => decide (x.toNat ≤ y.toNat)
  | 8 => decide (y.toNat < x.toNat)
  | _ => decide (y.toNat ≤ x.toNat)

/-- Predicate logic (R109). -/
def predRows : Rows RForm (Bool → Bool → Bool) := [(.pand, Bool.and), (.por, Bool.or), (.pxor, Bool.xor)]

/-- The rounding float instructions: latency, sources, and the exact result of their operands' values (R111). -/
def floatRows : Rows RForm (Nat × (RForm → List PReg) × (BitVec 3 → RForm → (BitVec 6 → Sys2Proof.Machine.Num) → Pre)) :=
  [(.fadd, 4, fun f => [.s f.a, .s f.b], fun rm f v => preAdd rm (v f.a) (v f.b)),
    (.fsub, 4, fun f => [.s f.a, .s f.b], fun rm f v => preAdd rm (v f.a) (v f.b).neg),
    (.fmul, 4, fun f => [.s f.a, .s f.b], fun _ f v => preMul (v f.a) (v f.b)),
    (.ffma, 4, fun f => [.s f.a, .s f.b, .s f.c], fun rm f v => preFma rm (v f.a) (v f.b) (v f.c)),
    (.fdiv, 16, fun f => [.s f.a, .s f.b], fun _ f v => preDiv (v f.a) (v f.b)),
    (.fsqrt, 16, fun f => [.s f.a], fun _ f v => preSqrt (v f.a))]

/-- `fmin` and `fmax` (R44). -/
def minMaxRows : Rows RForm Bool := [(.fmin, false), (.fmax, true)]

/-- A valid entry of KIND 0 to 2 (R32, R45). -/
def floatEntry (e : BitVec 32) : Prop := fmtV e = true ∧ fmtIsFloat e = true

end Sys2Proof.Claims

open Sys2Proof Sys2Proof.Machine Sys2Proof.Claims

/-- R30, R92, R103 to R106: the S instructions of two sources and of one, with a type; what their operations give on w-bit operands. -/
def Obligations.IntegerResults : Prop :=
  ((∀ e ∈ typedRows, ∀ (f : RForm) (s : State), goR e.1 f s [.s f.a, .s f.b] →
    exec (e.1 f) s = .next (s.issued (intoS f e.2.2 (fun c =>
      typedTo f (e.2.1 (tw f) ((c.sreg f.a).toNat % 2 ^ tw f) ((c.sreg f.b).toNat % 2 ^ tw f)))))) ∧
  (∀ e ∈ shiftRows, ∀ (f : RForm) (s : State), goR e.1 f s [.s f.a, .s f.b] →
    exec (e.1 f) s = .next (s.issued (intoS f 1 (fun c =>
      typedTo f (e.2 (tw f) ((c.sreg f.a).toNat % 2 ^ tw f) (c.sreg f.b).toNat))))) ∧
  (∀ e ∈ typed1Rows, ∀ (f : RForm) (s : State), goR e.1 f s [.s f.a] →
    exec (e.1 f) s = .next (s.issued (intoS f 1 (fun c => typedTo f (e.2 (tw f) ((c.sreg f.a).toNat % 2 ^ tw f))))))) ∧
  (∀ w ∈ [8, 16, 32, 64], ∀ x y : BitVec w,
    opAdd w x.toNat y.toNat = (x + y).toNat ∧ opSub w x.toNat y.toNat = (x - y).toNat ∧
    opMul w x.toNat y.toNat = (x * y).toNat ∧
    opMulh w x.toNat y.toNat = (BitVec.ofInt w (x.toInt * y.toInt / 2 ^ w)).toNat ∧
    opMulhn w x.toNat y.toNat = x.toNat * y.toNat / 2 ^ w ∧
    opDiv w x.toNat y.toNat = (if y = 0 then BitVec.allOnes w else x.sdiv y).toNat ∧
    opDivn w x.toNat y.toNat = (if y = 0 then BitVec.allOnes w else x / y).toNat ∧
    opRem w x.toNat y.toNat = (if y = 0 then x else x.srem y).toNat ∧
    opRemn w x.toNat y.toNat = (if y = 0 then x else x % y).toNat ∧
    opAnd w x.toNat y.toNat = (x &&& y).toNat ∧ opOr w x.toNat y.toNat = (x ||| y).toNat ∧
    opXor w x.toNat y.toNat = (x ^^^ y).toNat ∧ opAndn w x.toNat y.toNat = (x &&& ~~~y).toNat ∧
    opMin w x.toNat y.toNat = (if y.toInt < x.toInt then y else x).toNat ∧
    opMax w x.toNat y.toNat = (if x.toInt < y.toInt then y else x).toNat ∧
    opMinn w x.toNat y.toNat = (if y.toNat < x.toNat then y else x).toNat ∧
    opMaxn w x.toNat y.toNat = (if x.toNat < y.toNat then y else x).toNat ∧
    (if x = 0 then opClz w x.toNat = w
      else opClz w x.toNat < w ∧ 2 ^ (w - 1 - opClz w x.toNat) ≤ x.toNat ∧ x.toNat < 2 ^ (w - opClz w x.toNat)) ∧
    (if x = 0 then opCtz w x.toNat = w
      else opCtz w x.toNat < w ∧ x.getLsbD (opCtz w x.toNat) = true ∧ ∀ i < opCtz w x.toNat, x.getLsbD i = false) ∧
    opPopc w x.toNat = ((List.range w).filter (fun i => x.getLsbD i)).length ∧
    (opBswap w x.toNat < 2 ^ w ∧ ∀ i < w / 8, opBswap w x.toNat / 256 ^ i % 256 = x.toNat / 256 ^ (w / 8 - 1 - i) % 256) ∧
    (∀ n : Nat, opShl w x.toNat n = (x <<< (n % w)).toNat ∧ opShr w x.toNat n = (x >>> (n % w)).toNat ∧
      opSra w x.toNat n = (x.sshiftRight (n % w)).toNat ∧ opRol w x.toNat n = (x.rotateLeft (n % w)).toNat))

/-- R105, R107, R108: bit fields and selects; the immediate instructions. -/
def Obligations.BitFieldSelectAndImmediateResults : Prop :=
  ((∀ (f : RForm) (s : State), goR .exts f s [.s f.a] →
    exec (.exts f) s = .next (s.issued (intoS f 1 (fun c =>
      (((c.sreg f.a) >>> (field 6 6 f.x).toNat).setWidth ((field 0 6 f.x).toNat + 1)).signExtend 64)))) ∧
  (∀ (f : RForm) (s : State), goR .extz f s [.s f.a] →
    exec (.extz f) s = .next (s.issued (intoS f 1 (fun c =>
      (((c.sreg f.a) >>> (field 6 6 f.x).toNat).setWidth ((field 0 6 f.x).toNat + 1)).setWidth 64)))) ∧
  (∀ (f : RForm) (s : State), goR .ins f s [.s f.a, .s f.b] →
    ∃ x : Word, exec (.ins f) s = .next (s.issued (intoS f 1 (fun _ => x))) ∧ ∀ n < 64, x.getLsbD n =
      (if (field 6 6 f.x).toNat ≤ n ∧ n < (field 6 6 f.x).toNat + (field 0 6 f.x).toNat + 1
        then (s.core.sreg f.a).getLsbD (n - (field 6 6 f.x).toNat) else (s.core.sreg f.b).getLsbD n)) ∧
  (∀ (f : RForm) (s : State), goR .sel f s [.p (field 0 3 f.c), .s f.a, .s f.b] →
    exec (.sel f) s = .next (s.issued (intoS f 1 (fun c =>
      if c.preg (field 0 3 f.c) then c.sreg f.a else c.sreg f.b)))) ∧
  (∀ (f : RForm) (s : State), goR .lea f s [.s f.a, .s f.b] →
    exec (.lea f) s = .next (s.issued (intoS f 1 (fun c =>
      c.sreg f.a + c.sreg f.b * BitVec.ofNat 64 (2 ^ (field 0 3 f.x).toNat)))))) ∧
  ((∀ e ∈ immRows, ∀ (f : IForm) (s : State), goI e.1 f s [.s f.a] →
    exec (e.1 f) s = .next (s.issued (intoSI f e.2.2 (fun c => e.2.1 (c.sreg f.a) (f.imm.signExtend 64))))) ∧
  (∀ e ∈ immShiftRows, ∀ (f : IForm) (s : State), goI e.1 f s [.s f.a] →
    exec (e.1 f) s = .next (s.issued (intoSI f 1 (fun c => e.2 (c.sreg f.a) (field 0 6 f.imm).toNat)))) ∧
  (∀ (f : LForm) (s : State), goL .movi f s [] →
    exec (.movi f) s = .next (s.issued (intoSL f 1 (fun _ => f.imm.signExtend 64)))) ∧
  (∀ (f : LForm) (s : State), goL .moviz f s [] →
    exec (.moviz f) s = .next (s.issued (intoSL f 1 (fun _ => f.imm.setWidth 64)))) ∧
  (∀ (f : LForm) (s : State), goL .movm f s [.s f.d] →
    exec (.movm f) s = .next (s.issued (intoSL f 1 (fun c =>
      (c.sreg f.d).extractLsb' 60 4 ++ f.imm ++ (c.sreg f.d).extractLsb' 0 30)))) ∧
  (∀ (f : LForm) (s : State), goL .movt f s [.s f.d] →
    exec (.movt f) s = .next (s.issued (intoSL f 1 (fun c => f.imm.extractLsb' 0 4 ++ (c.sreg f.d).extractLsb' 0 60)))) ∧
  (∀ (f : LForm) (s : State), goL .addpc f s [] →
    exec (.addpc f) s = .next (s.issued (intoSL f 1 (fun c =>
      BitVec.ofInt 64 (((c.pc.toNat : Int) + f.imm.toInt) % 8192))))))

/-- R91, R109: comparisons and predicates. -/
def Obligations.PredicateResults : Prop :=
  (∀ (f : RForm) (s : State), goR .cmp f s [.s f.a, .s f.b] →
    exec (.cmp f) s = .next (s.issued (intoP f 1 (fun c =>
      compare64 (field 0 4 f.x).toNat (c.sreg f.a) (c.sreg f.b)) (fun _ => 0)))) ∧
  (∀ (f : IForm) (s : State), goI .cmpi f s [.s f.a] →
    exec (.cmpi f) s = .next (s.issued (intoPI f (fun c =>
      compare64 (field 0 4 f.b).toNat (c.sreg f.a) (f.imm.signExtend 64))))) ∧
  (∀ e ∈ predRows, ∀ (f : RForm) (s : State), goR e.1 f s [.p (field 0 3 f.a), .p (field 0 3 f.b)] →
    exec (e.1 f) s = .next (s.issued (intoP f 1 (fun c =>
      e.2 (c.preg (field 0 3 f.a) ^^ f.x.getLsbD 1) (c.preg (field 0 3 f.b) ^^ f.x.getLsbD 0)) (fun _ => 0)))) ∧
  (∀ (f : RForm) (s : State), goR .pmov f s [.p (field 0 3 f.a)] →
    exec (.pmov f) s = .next (s.issued (intoP f 1 (fun c => c.preg (field 0 3 f.a) ^^ f.x.getLsbD 1) (fun _ => 0)))) ∧
  (∀ (f : RForm) (s : State), goR .ptos f s [.p (field 0 3 f.a)] →
    exec (.ptos f) s = .next (s.issued (intoS f 1 (fun c => if c.preg (field 0 3 f.a) then 1 else 0)))) ∧
  (∀ (f : IForm) (s : State), goI .pset f s [] →
    exec (.pset f) s = .next (s.issued (intoPI f (fun _ => f.imm.getLsbD 0)))) ∧
  (∀ (f : IForm) (s : State), goI .ptst f s [.s f.a] →
    exec (.ptst f) s = .next (s.issued (intoPI f (fun c => decide (c.sreg f.a &&& f.imm.signExtend 64 ≠ 0)))))

/-- R44, R49, R110 to R112: scalar floating point and conversions. -/
def Obligations.FloatAndConversionResults : Prop :=
  ((∀ e ∈ floatRows, ∀ (f : RForm) (s : State), goR e.1 f s (e.2.2.1 f) → floatEntry (s.core.fmt (field 8 4 f.x)) →
    exec (e.1 f) s = .next (s.issued (fun c =>
      let q := c.fmt (field 8 4 f.x)
      let r := roundTo q (field 5 3 f.x) (f.x.getLsbD 4)
        (e.2.2.2 (field 5 3 f.x) f (fun r => c.decode q (c.sreg r).toNat))
      c.result (place f.s1) e.2.1 (.s f.d (BitVec.ofNat 64 r.1)) r.2))) ∧
  (∀ e ∈ minMaxRows, ∀ (f : RForm) (s : State), goR e.1 f s [.s f.a, .s f.b] → floatEntry (s.core.fmt (field 8 4 f.x)) →
    exec (e.1 f) s = .next (s.issued (fun c =>
      let q := c.fmt (field 8 4 f.x)
      let r := roundTo q 0 false (minMaxNum e.2 (c.decode q (c.sreg f.a).toNat) (c.decode q (c.sreg f.b).toNat)).pre
      c.result (place f.s1) 4 (.s f.d (BitVec.ofNat 64 r.1)) r.2))) ∧
  (∀ (f : RForm) (s : State), goR .fcmp f s [.s f.a, .s f.b] → floatEntry (s.core.fmt (field 8 4 f.x)) →
    exec (.fcmp f) s = .next (s.issued (intoP f 4
      (fun c => (cmpNum (field 0 4 f.x).toNat (c.decode (c.fmt (field 8 4 f.x)) (c.sreg f.a).toNat)
        (c.decode (c.fmt (field 8 4 f.x)) (c.sreg f.b).toNat)).1)
      (fun c => (cmpNum (field 0 4 f.x).toNat (c.decode (c.fmt (field 8 4 f.x)) (c.sreg f.a).toNat)
        (c.decode (c.fmt (field 8 4 f.x)) (c.sreg f.b).toNat)).2)))) ∧
  (∀ (f : RForm) (s : State), goR .fclass f s [.s f.a] → floatEntry (s.core.fmt (field 8 4 f.x)) →
    exec (.fclass f) s = .next (s.issued (intoS f 4 (fun c =>
      BitVec.ofNat 64 (2 ^ classNum (c.fmt (field 8 4 f.x)) (c.decode (c.fmt (field 8 4 f.x)) (c.sreg f.a).toNat)))))) ∧
  (∀ (f : RForm) (s : State), goR .fsgn f s [.s f.a, .s f.b] → floatEntry (s.core.fmt (field 8 4 f.x)) →
    ∃ x : Word, exec (.fsgn f) s = .next (s.issued (intoS f 4 (fun _ => x))) ∧
      ∀ n < 64, x.getLsbD n =
        (let e := s.core.fmt (field 8 4 f.x)
         let sa := (s.core.sreg f.a).getLsbD (fmtStore e - 1)
         let sb := (s.core.sreg f.b).getLsbD (fmtStore e - 1)
         if n < fmtStore e - 1 ∨ (n = fmtStore e - 1 ∧ fmtSgn e = false) then (s.core.sreg f.a).getLsbD n
         else if n = fmtStore e - 1 then
           (if field 0 2 f.x = 0 then sb else if field 0 2 f.x = 1 then !sb else sa ^^ sb)
         else false))) ∧
  ((∀ (f : RForm) (s : State), goR .fcvt f s [.s f.a] →
    fmtV (s.core.fmt (field 8 4 f.x)) = true → fmtKind (s.core.fmt (field 8 4 f.x)) ≤ 4 →
    fmtV (s.core.fmt (field 0 4 f.c)) = true →
    exec (.fcvt f) s = .next (s.issued (fun c =>
      let r := roundTo (c.fmt (field 8 4 f.x)) (field 5 3 f.x) (f.x.getLsbD 4)
        (c.decode (c.fmt (field 0 4 f.c)) (c.sreg f.a).toNat).pre
      c.result (place f.s1) 4 (.s f.d (BitVec.ofNat 64 r.1)) r.2))) ∧
  (∀ (f : RForm) (s : State), goR .fcvti f s [.s f.a] → fmtV (s.core.fmt (field 8 4 f.x)) = true →
    exec (.fcvti f) s = .next (s.issued (fun c =>
      let x := (c.decode (c.fmt (field 8 4 f.x)) (c.sreg f.a).toNat).pre
      let r := if typeSigned (field 0 4 f.x) then roundInt (-(2 ^ (tw f - 1))) (2 ^ (tw f - 1) - 1) (field 5 3 f.x) x
        else roundInt 0 (2 ^ tw f - 1) (field 5 3 f.x) x
      c.result (place f.s1) 4 (.s f.d (typedTo f (r.1 % 2 ^ tw f).toNat)) r.2))) ∧
  (∀ (f : RForm) (s : State), goR .icvtf f s [.s f.a] →
    fmtV (s.core.fmt (field 8 4 f.x)) = true → fmtKind (s.core.fmt (field 8 4 f.x)) ≤ 4 →
    exec (.icvtf f) s = .next (s.issued (fun c =>
      let i : Int := if typeSigned (field 0 4 f.x) then sintOf (tw f) (c.sreg f.a).toNat
        else ((c.sreg f.a).toNat % 2 ^ tw f : Nat)
      let r := roundTo (c.fmt (field 8 4 f.x)) (field 5 3 f.x) (f.x.getLsbD 4) (Sys2Proof.Machine.Num.ofInt i).pre
      c.result (place f.s1) 4 (.s f.d (BitVec.ofNat 64 r.1)) r.2))))

/-- R113, R115 to R117: target registers, format table, staging registers, loop counters, return-address store. -/
def Obligations.NamedRegisterMoves : Prop :=
  (∀ (f : LForm) (s : State), goL .prepr f s [] →
    exec (.prepr f) s = .next (s.issued (fun c => c.result (place f.s1) 1
      (.t (field 0 3 f.d) (BitVec.ofInt 13 ((c.pc.toNat : Int) + f.imm.toInt))) 0))) ∧
  (∀ (f : RForm) (s : State), goR .prep f s [.s f.a] →
    exec (.prep f) s = .next (s.issued (fun c => c.result (place f.s1) 1 (.t (field 0 3 f.d) (field 0 13 (c.sreg f.a))) 0))) ∧
  (∀ (f : IForm) (s : State), goI .setfmt f s [.s f.a] → 4 ≤ (field 0 4 f.imm).toNat →
    fmtLegal (field 0 32 (s.core.sreg f.a)) = true →
    exec (.setfmt f) s = .next (s.issued (fun c => c.result (place f.s1) 1 (.fmt (field 0 4 f.imm) (field 0 32 (c.sreg f.a))) 0))) ∧
  (∀ (f : IForm) (s : State), goI .getfmt f s [] →
    exec (.getfmt f) s = .next (s.issued (intoSI f 1 (fun c => (c.fmts.get (field 0 4 f.imm).toFin).setWidth 64)))) ∧
  (∀ (f : IForm) (s : State), goI .stg f s [.s f.a] →
    exec (.stg f) s = .next (s.issued (fun c => c.result (place f.s1) 1 (.stg (field 0 6 f.imm) (c.sreg f.a)) 0))) ∧
  (∀ (f : IForm) (s : State), goI .gtg f s [] →
    exec (.gtg f) s = .next (s.issued (intoSI f 1 (fun c => c.stg.toList.getD (field 0 6 f.imm).toNat 0)))) ∧
  (∀ (f : IForm) (s : State), goI .lcset f s [.s f.a] →
    exec (.lcset f) s = .next (s.issued (fun c => c.result (place f.s1) 1 (.lc (field 0 2 f.d) (field 0 32 (c.sreg f.a))) 0))) ∧
  (∀ (f : IForm) (s : State), goI .lcget f s [] →
    exec (.lcget f) s = .next (s.issued (intoSI f 1 (fun c => (c.lcregs.get (field 0 2 f.a).toFin).setWidth 64)))) ∧
  (∀ (f : IForm) (s : State), goI .rasrd f s [] →
    exec (.rasrd f) s = .next (s.issued (intoSI f 1 (fun c => (c.ras.get (field 0 4 f.imm).toFin).setWidth 64)))) ∧
  (∀ (f : IForm) (s : State), goI .raswr f s [.s f.a] →
    exec (.raswr f) s = .next (s.issued (fun c => c.result (place f.s1) 1 (.ras (field 0 4 f.imm) (field 0 13 (c.sreg f.a))) 0)))

namespace Sys2Proof.Claims

open Sys2Proof Sys2Proof.Machine

/-! ### The C slot -/

/-- A well-formed C instruction with its guard true. -/
def goC (i : Instr) (gi : BitVec 1) (gp : BitVec 3) (s : State) (rs : List PReg) : Prop :=
  i.wf = true ∧ s.mayIssue (some (gi, gp)) rs

/-- A taken transfer to `t` from bundle `src` (R21): it takes effect after this bundle and two more. -/
def taken (c : Core) (t : CodeIdx) : Core := { c with redirects := c.redirects ++ [{ target := t, left := 3, src := c.pc }] }

/-! ### The V slot -/

/-- A well-formed V instruction with its sources readable. -/
def goV (i : VForm → Instr) (f : VForm) (s : State) (rs : List PReg) : Prop := (i f).wf = true ∧ s.mayIssue none rs

/-- The lane width in bits (R128). -/
def lw (f : VForm) : Nat := laneWidth f.lw

/-- Lane `i` of va. -/
def la (f : VForm) (c : Core) (i : Nat) : Nat := lane (lw f) (c.vreg f.va) i

/-- Lane `i` of the vb operand: with SB = 1 the low bits of the scalar of [20:15] (R129). -/
def lb (f : VForm) (c : Core) (i : Nat) : Nat :=
  if f.sb = 1 then (c.sreg (field 15 6 f.fn)).toNat % 2 ^ lw f else lane (lw f) (c.vreg f.vb) i

/-- The registers of the vb operand. -/
def rb (f : VForm) : List PReg := if f.sb = 1 then [.s (field 15 6 f.fn)] else [.v f.vb]

/-- A masked instruction reads its destination (R128). -/
def rd (f : VForm) : List PReg := if f.mg = 0 then [] else [.v f.vd]

/-- Is lane `i` active (R128)? -/
def on (f : VForm) (c : Core) (i : Nat) : Bool := laneOn (lw f) (c.mreg f.mg) i

/-- The V slot puts vd on its way: `g` in active lanes, the old vd in the others (R128). -/
def intoV (f : VForm) (lat : Nat) (g : Core → Nat → Nat) (fl : Core → Flags) (c : Core) : Core :=
  c.result .v lat (.v f.vd (mergeLanes (lw f) (c.mreg f.mg) (c.vreg f.vd) (g c))) (fl c)

/-- The same into the mask of VD [3:0] (R132). -/
def intoM (f : VForm) (lat : Nat) (g : Core → Nat → Bool) (fl : Core → Flags) (c : Core) : Core :=
  c.result .v lat (.m (field 0 4 f.vd) (mergeMask (lw f) (c.mreg f.mg) (c.mreg (field 0 4 f.vd)) (g c))) (fl c)

/-- The flags of the active lanes together (R49, R128). -/
def laneFlags (f : VForm) (c : Core) (g : Nat → Flags) : Flags := orFlags (on f c) g (1024 / lw f) 0

/-- Integer instructions of two sources (R131). -/
def vec2Rows : Rows VForm (Nat → Nat → Nat → Nat) :=
  [(.vadd, opAdd), (.vsub, opSub), (.vmul, opMul), (.vmulh, opMulh), (.vmulhn, opMulhn), (.vmin, opMin), (.vmax, opMax),
    (.vminn, opMinn), (.vmaxn, opMaxn), (.vand, opAnd), (.vor, opOr), (.vxor, opXor), (.vandn, opAndn), (.vshl, opShl),
    (.vshr, opShr), (.vsra, opSra), (.vadds, opAdds), (.vaddsn, opAddsn), (.vsubs, opSubs), (.vsubsn, opSubsn)]

/-- Integer instructions of one source (R131). -/
def vec1Rows : Rows VForm (Nat → Nat → Nat) := [(.vabs, opAbs), (.vneg, opNeg), (.vclz, opClz), (.vpopc, opPopc)]

/-- A valid float entry whose width is the lane's (R45, R133). -/
def vecEntry (f : VForm) (c : Core) : Prop := floatEntry (c.fmt f.fmt) ∧ lw f = fmtStore (c.fmt f.fmt)

/-- Float instructions of two sources: latency and the exact result (R133). -/
def vecFloat2Rows : Rows VForm (Nat × (BitVec 3 → Sys2Proof.Machine.Num → Sys2Proof.Machine.Num → Pre)) :=
  [(.vfadd, 4, preAdd), (.vfsub, 4, fun rm a b => preAdd rm a b.neg), (.vfmul, 4, fun _ => preMul), (.vfdiv, 12, fun _ => preDiv)]

/-- Float instructions of one source (R133). -/
def vecFloat1Rows : Rows VForm (Sys2Proof.Machine.Num → Pre) :=
  [(.vfsqrt, preSqrt), (.vfexp2, preExp2), (.vflog2, preLog2), (.vfrcp, preRcp), (.vfrsq, preRsq)]

/-- `vfmin` and `vfmax`. -/
def vecMinMaxRows : Rows VForm Bool := [(.vfmin, false), (.vfmax, true)]

/-- The conversions: the registers read beside va, and the exact result from a source value and an FP32 scale (R136). -/
def convRows : Rows VForm ((VForm → List PReg) × (Sys2Proof.Machine.Num → Sys2Proof.Machine.Num → Pre)) :=
  [(.vcvt, fun _ => [], fun x _ => x.pre), (.vqnt, rb, preDiv), (.vdqnt, rb, preMul)]

/-- The entries of a conversion are valid, D writable, LW the wider storage of 8 to 32 bits and PART in range (R135). -/
def convEntries (f : VForm) (c : Core) : Prop :=
  let d := c.fmt f.fmt
  let s := c.fmt (field 0 4 f.fn)
  fmtV d = true ∧ fmtV s = true ∧ fmtKind d ≤ 4 ∧ lw f = max (fmtStore d) (fmtStore s) ∧ 8 ≤ lw f ∧ lw f ≤ 32 ∧
    (field 5 3 f.fn).toNat < max (fmtStore d) (fmtStore s) / min (fmtStore d) (fmtStore s)

/-- What a conversion writes (R135, R136): element i of the source segment, rounded, as element i of the destination
segment, the other elements of vd kept; and the flags. -/
def convTo (f : VForm) (g : Sys2Proof.Machine.Num → Sys2Proof.Machine.Num → Pre) (c : Core) : Vec × Flags :=
  let d := c.fmt f.fmt
  let s := c.fmt (field 0 4 f.fn)
  let n := 1024 / lw f
  let part := (field 5 3 f.fn).toNat
  let scale (i : Nat) : Sys2Proof.Machine.Num :=
    decodeFloat fmtFp32 (if f.sb = 1 then (c.sreg (field 15 6 f.fn)).toNat % 2 ^ 32 else lane 32 (c.vreg f.vb) (i / (n / 32)))
  let out (i : Nat) : Nat × Flags :=
    roundTo d f.rnd (f.sat == 1)
      (g (c.decode s (lane (fmtStore s) (c.vreg f.va) (if fmtStore s < fmtStore d then part * n + i else i))) (scale i))
  let first := if fmtStore d < fmtStore s then part * n else 0
  (packLanes (fmtStore d) (fun k =>
      if first ≤ k ∧ k < first + n ∧ laneOn (lw f) (c.mreg f.mg) (k - first) = true then (out (k - first)).1
      else lane (fmtStore d) (c.vreg f.vd) k),
    orFlags (laneOn (lw f) (c.mreg f.mg)) (fun i => (out i).2) n 0)

/-- A reduction's tree over leaves 0 to 2^k − 1 from leaf `j`·2^k on: neighbours combine first (R51). -/
def tree {α : Type} (g : α → α → α) (leaf : Nat → α) : Nat → Nat → α
  | 0, j => leaf j
  | k + 1, j => g (tree g leaf k (2 * j)) (tree g leaf k (2 * j + 1))

/-- Permutes and moves: the registers read, a condition on the lane numbers, and the lane taken (R138). -/
def moveRows : Rows VForm ((VForm → List PReg) × (VForm → Prop) × (VForm → Core → Nat → Nat)) :=
  [(.vmov, fun f => [.v f.va], fun _ => True, fun f c i => la f c i),
    (.vsplat, rb, fun f => f.sb = 1 ∨ (field 0 7 f.fn).toNat < 1024 / lw f, fun f c _ => lb f c (field 0 7 f.fn).toNat),
    (.vsplati, fun _ => [], fun _ => True, fun f _ _ => ((field 0 16 f.fn).toInt % 2 ^ lw f).toNat),
    (.vperm, fun f => .v f.va :: (if f.fn.getLsbD 0 then [.v f.vc] else []) ++ rb f, fun _ => True, fun f c i =>
      let j := lb f c i % (if f.fn.getLsbD 0 then 2 * (1024 / lw f) else 1024 / lw f)
      if j < 1024 / lw f then la f c j else lane (lw f) (c.vreg f.vc) (j - 1024 / lw f)),
    (.vperm2, fun f => .v f.va :: [.v f.vc] ++ rb f, fun _ => True, fun f c i =>
      let j := lb f c i % (2 * (1024 / lw f))
      if j < 1024 / lw f then la f c j else lane (lw f) (c.vreg f.vc) (j - 1024 / lw f)),
    (.vshuf, fun f => .v f.va :: (if (field 0 3 f.fn).toNat = 4 then [] else rb f), fun _ => True, fun f c i =>
      let h := 1024 / lw f / 2
      match (field 0 3 f.fn).toNat with
      | 0 => if i % 2 = 0 then la f c (i / 2) else lb f c (i / 2)
      | 1 => if i % 2 = 0 then la f c (h + i / 2) else lb f c (h + i / 2)
      | 2 => if i < h then la f c (2 * i) else lb f c (2 * (i - h))
      | 3 => if i < h then la f c (2 * i + 1) else lb f c (2 * (i - h) + 1)
      | _ => la f c (if i % 2 = 0 then i + 1 else i - 1)),
    (.vslide, fun f => .v f.va :: rb f, fun f => (field 0 7 f.fn).toNat < 1024 / lw f, fun f c i =>
      let n := 1024 / lw f
      let k := (field 0 7 f.fn).toNat
      if f.fn.getLsbD 7 then (if i < k then lb f c (n + i - k) else la f c (i - k))
      else (if i + k < n then la f c (i + k) else lb f c (i + k - n))),
    (.viota, fun f => if f.sb = 1 then [.s (field 15 6 f.fn)] else [], fun _ => True, fun f c i =>
      ((if f.sb = 1 then (c.sreg (field 15 6 f.fn)).toNat % 2 ^ lw f else 0) + i) % 2 ^ lw f)]

/-- Mask logic (R144). -/
def maskRows : Rows VForm (Bool → Bool → Bool) :=
  [(.mand, Bool.and), (.mor, Bool.or), (.mxor, Bool.xor), (.mnot, fun x _ => !x)]

/-- The V slot puts mask VD on its way: bit j is `g j` where MG's bit j is set, else the old bit (R144). -/
def intoMask (f : VForm) (x : Mask) (c : Core) : Core := c.result .v 2 (.m (field 0 4 f.vd) x) 0

/-- Element (row, j) of accumulator `a` (R52). -/
def elem (c : Core) (a : BitVec 2) (row j : Nat) : BitVec 96 := (c.accs.get a.toFin).toList.getD (16 * row + j) 0

/-- A valid entry of KIND 0 to 4 with 8, 16 or 32 bits of storage, the lane's width (R140). -/
def accEntry (f : VForm) (c : Core) : Prop :=
  fmtV (c.fmt f.fmt) = true ∧ fmtKind (c.fmt f.fmt) ≤ 4 ∧ 8 ≤ fmtStore (c.fmt f.fmt) ∧ lw f = fmtStore (c.fmt f.fmt)

/-- The strand may use the stream registers: a port tile whose port is bound to its context (R142, R244). -/
def streamReady (s : State) : Prop :=
  ∃ p, s.core.isMgmt = false ∧ portOf s.cur = some p ∧ (Tab.getD s.ports p Port.fresh).bnd = true ∧
    (Tab.getD s.ports p Port.fresh).bctx.toNat = s.core.pos.ctx.toNat ∧ s.core.waitedV = 0

end Sys2Proof.Claims

open Sys2Proof Sys2Proof.Machine Sys2Proof.Claims

/-- R21, R22, R120: the transfers and the return-address store's bounds, and the two bundles between a transfer and its target. -/
def Obligations.TransfersTakeEffectAfterTwoMore : Prop :=
  ((∀ (f : BrForm) (s : State), goC (.br f) f.gi f.gp s [] →
    exec (.br f) s = .next (s.issued (fun c => taken c (c.tregs.get f.t.toFin)))) ∧
  (∀ (f : BrForm) (s : State), goC (.call f) f.gi f.gp s [] → s.core.depth.toNat < 16 →
    exec (.call f) s = .next (s.issued (fun c => taken ((c.result .c 1 (.ras (field 0 4 c.depth) c.returnIndex) 0).result .c 1
      (.depth (c.depth + 1)) 0) (c.tregs.get f.t.toFin)))) ∧
  (∀ (f : BrForm) (s : State), goC (.call f) f.gi f.gp s [] → 16 ≤ s.core.depth.toNat →
    exec (.call f) s = .next (s.trapPrecise (precise .c 0x08 16))) ∧
  (∀ (f : BareForm) (s : State), goC (.ret f) f.gi f.gp s [] → 0 < s.core.depth.toNat →
    exec (.ret f) s = .next (s.issued (fun c => taken (c.result .c 1 (.depth (c.depth - 1)) 0)
      (c.ras.get (field 0 4 (c.depth - 1) : BitVec 4).toFin)))) ∧
  (∀ (f : BareForm) (s : State), goC (.ret f) f.gi f.gp s [] → s.core.depth = 0 →
    exec (.ret f) s = .next (s.trapPrecise (precise .c 0x09 0))) ∧
  (∀ (f : LoopForm) (s : State), goC (.loop f) f.gi f.gp s [] →
    exec (.loop f) s = .next (s.issued (fun c =>
      let v := c.lcregs.get f.lc.toFin
      if v = 0 then c
      else if v = 1 then c.result .c 1 (.lc f.lc 0) 0
      else taken (c.result .c 1 (.lc f.lc (v - 1)) 0) (c.tregs.get f.t.toFin))))) ∧
  ((∀ (c : Core) (h : Header) (t src : CodeIdx), c.eretDrain = false → c.redirects = [{ target := t, left := 1, src := src }] →
    (c.finish h).pc = t ∧ (c.finish h).pcFrom = some src ∧ (c.finish h).redirects = []) ∧
  (∀ (c : Core) (h : Header) (t src : CodeIdx) (n : Nat), c.eretDrain = false →
    c.redirects = [{ target := t, left := n + 2, src := src }] →
    (c.finish h).redirects = [{ target := t, left := n + 1, src := src }] ∧
      (c.finish h).pc = (if Tab.getD c.plane.code c.pc.toNat 0xFFFE = 0xFFFF then c.pc + 25 else c.pc + 1)) ∧
  (∀ (c : Core) (h : Header), c.eretDrain = false → c.redirects = [] →
    (c.finish h).pc = (if Tab.getD c.plane.code c.pc.toNat 0xFFFE = 0xFFFF then c.pc + 25 else c.pc + 1)))

/-- R121 to R123, R125, R127, R178: the rest of the C slot, but for traps and system instructions. The model's own: a `qfence` does not wait
for its own bundle's operations (log 18), when a command of the N or M queue performs, and that a triggered send is behind the join that
found it unfired (log 99). -/
def Obligations.WaitsEndsAndJoins : Prop :=
  (∀ (f : WaitForm) (s : State), goC (.wait f) f.gi f.gp s [] → s.core.cnt.l ≤ f.l.toNat → s.core.cnt.s ≤ f.s.toNat →
    s.core.cnt.k ≤ f.k.toNat → s.core.cnt.m ≤ f.m.toNat → s.core.cnt.n ≤ f.n.toNat →
    exec (.wait f) s = .next (s.issued id)) ∧
  (∀ (f : WaitForm) (s : State), goC (.wait f) f.gi f.gp s [] → (f.l.toNat < s.core.cnt.l ∨ f.s.toNat < s.core.cnt.s ∨
    f.k.toNat < s.core.cnt.k ∨ f.m.toNat < s.core.cnt.m ∨ f.n.toNat < s.core.cnt.n) → exec (.wait f) s = .next s) ∧
  (∀ (f : SyncForm) (s : State) (g : Gang), goC (.sync f) f.gi f.gp s [.p f.pv] → s.gangOf s.cur = some g →
    exec (.sync f) s = .next (s.issuedAll (fun u =>
      (u.setCore { u.core with strand := .sync f.bl f.pr }).putGang { g with
        lines := g.lines.set f.bl.toFin { g.lines.get f.bl.toFin with
          arrived := (g.lines.get f.bl.toFin).arrived ++ [(s.cur, s.core.preg f.pv)], lastTid := s.cur, lastAt := s.cycle } }))) ∧
  (∀ (f : BareForm) (s : State), goC (.done f) f.gi f.gp s [] →
    exec (.done f) s = .next (s.issued (fun c => { c with strand := .ended false, redirects := [] }))) ∧
  (∀ (f : BareForm) (s : State), goC (.swap f) f.gi f.gp s [] →
    exec (.swap f) s = .next (s.issued (fun c => { c with strand := .ended true, redirects := [] }))) ∧
  (∀ (f : BareForm) (s : State), goC (.eret f) f.gi f.gp s [] →
    exec (.eret f) s = .next (s.issued (fun c => { c with
      eretDrain := true
      mat := { c.mat with stopped := (c.deferred ++ c.failing).any (·.slot == .m) ||
        (match c.mat.exec with | some e => e.failed.isSome | none => false) || (match c.mat.epi with | some e => e.failed.isSome | none => false) }
      cpy := { c.cpy with stopped := (c.deferred ++ c.failing).any (·.slot == .k) ||
        (match c.cpy.exec with | some e => e.failed.isSome | none => false) }
      chn := { c.chn with stopped := (c.deferred ++ c.failing).any (·.slot == .n) } }))) ∧
  (∀ (f : QfenceForm) (s : State), goC (.qfence f) f.gi f.gp s [] → (∃ i j : Nat, i ≠ j ∧ f.mask.getLsbD i ∧ f.mask.getLsbD j) →
    exec (.qfence f) s = .next (s.issued (fun c => { c with qfences := c.qfences ++
      [{ mask := f.mask.setWidth 16, ord := c.issueNo
         waits := (c.openIn f.mask).filter (fun n => decide (n / 4 < c.issueNo)) ++
          (if f.mask.getLsbD 1 then (c.unfired.filter (fun n => decide (n < c.issueNo))).map lateName else []) }] }))) ∧
  (∀ (f : QfenceForm) (s : State), goC (.qfence f) f.gi f.gp s [] → (∀ i j : Nat, f.mask.getLsbD i → f.mask.getLsbD j → i = j) →
    exec (.qfence f) s = .next (s.issued id))

/-- R102, R126: `idle` and `halt` act on the management core in system mode, and trap with cause 0x1B elsewhere. -/
def Obligations.SystemInstructionsNeedSystemMode : Prop :=
  (∀ (f : BareForm) (s : State), goC (.idle f) f.gi f.gp s [] → s.core.isMgmt = true → s.core.sysMode = true →
    exec (.idle f) s = .next (s.issued (fun c => { c with strand := .coreIdle }))) ∧
  (∀ (f : BareForm) (s : State), goC (.halt f) f.gi f.gp s [] → s.core.isMgmt = true → s.core.sysMode = true →
    exec (.halt f) s = .next (s.issued (fun c => { c with strand := .coreHalt }))) ∧
  (∀ (f : BareForm) (s : State), goC (.idle f) f.gi f.gp s [] → (s.core.isMgmt = false ∨ s.core.sysMode = false) →
    exec (.idle f) s = .next (s.trapPrecise (precise .c 0x1B 0x0A))) ∧
  (∀ (f : BareForm) (s : State), goC (.halt f) f.gi f.gp s [] → (s.core.isMgmt = false ∨ s.core.sysMode = false) →
    exec (.halt f) s = .next (s.trapPrecise (precise .c 0x1B 0x0D))) ∧
  (∀ (f : IForm) (s : State), goI .gets f s [] → (s.core.isMgmt = false ∨ s.core.sysMode = false) →
    (s.readSpecial (field 0 12 f.imm : BitVec 12).toNat).isSome = true →
    exec (.gets f) s = .next (s.trapPrecise (precise (place f.s1) 0x1B 0x60))) ∧
  (∀ (f : IForm) (s : State), goI .sets f s [.s f.a] → (s.core.isMgmt = false ∨ s.core.sysMode = false) →
    (s.readSpecial (field 0 12 f.imm : BitVec 12).toNat).isSome = true →
    exec (.sets f) s = .next (s.trapPrecise (precise (place f.s1) 0x1B 0x61)))

/-- R24, R28, R124: `trap` and `brk` issue with their bundle's effects; at the boundary behind it their cause is taken, with TRAPPC
at the bundle that issues next. That it comes before a deferred cause known at the same boundary is the model's (log 91). -/
def Obligations.TrapAndBrkTakeTheirTraps : Prop :=
  (∀ (f : TrapForm) (s : State), goC (.trap f) f.gi f.gp s [] →
    exec (.trap f) s = .next (s.committed (fun c => { c with trapAfter := some (precise .c 0x19 (f.imm.setWidth 64)) }))) ∧
  (∀ (f : TrapForm) (s : State), goC (.brk f) f.gi f.gp s [] →
    exec (.brk f) s = .next (s.committed (fun c => { c with trapAfter := some (precise .c 0x1A (f.imm.setWidth 64)) }))) ∧
  (∀ (s : State) (t : Nat) (k : Cause), (s.at t).core.trapAfter = some k → (s.at t).core.frozen = false →
    (s.at t).core.failing = [] →
    exec (.trapDelivery t) s =
      .next (((s.at t).setCore { (s.at t).core with trapAfter := none }).takeTrap k (s.cycle + 1)))

/-- R27 to R29, R125, R397: what the delivery of a trap writes, when it halts instead, and what `eret` restores when its drain ends. -/
def Obligations.TrapEntryAndReturn : Prop :=
  ((∀ (s : State) (k : Cause) (g : Nat), s.core.trap.en = true → s.core.trap.inH = false →
    let c := (s.takeTrap k g).core
    c.trap.pc = s.core.pc ∧ c.trap.inH = true ∧ c.trap.cause = BitVec.ofNat 6 k.code ∧ c.trap.info0 = k.info ∧
    c.trap.info1 = k.info1 ∧ c.pc = s.core.trap.vec ∧ c.gate = g ∧ c.redirects = [] ∧ c.stall = 0 ∧
    c.snapTrap.redirects = s.core.redirects ∧ c.snapTrap.pb = s.core.pb ∧
    c.snapTrap.results = s.core.inflight.filter (fun r => !r.late && r.rem != 0) ∧
    c.inflight = s.core.inflight.filter (fun r => r.late || r.rem == 0) ∧
    (s.core.isMgmt = true → c.sysMode = true ∧ c.pmode = s.core.sysMode) ∧
    (s.core.isMgmt = false → c.sysMode = s.core.sysMode) ∧
    c.sregs = s.core.sregs ∧ c.pregs = s.core.pregs ∧ c.vregs = s.core.vregs ∧ c.mregs = s.core.mregs ∧
    c.spad = s.core.spad ∧ c.fstat = s.core.fstat ∧ c.trap.vec = s.core.trap.vec ∧ c.trap.en = true ∧
    (s.takeTrap k g).drawer = s.drawer ∧ (∀ t, t ≠ s.cur → (s.takeTrap k g).coreAt t = s.coreAt t)) ∧
  (∀ (s : State) (k : Cause) (g : Nat), (s.core.trap.en = false ∨ s.core.trap.inH = true) →
    (s.takeTrap k g).core.undelivered = some k ∧ (s.takeTrap k g).core.trap = s.core.trap ∧
    (s.core.isMgmt = false → (s.takeTrap k g).core.strand = .halted ∧ (s.takeTrap k g).aborts = s.aborts ++ [s.cur]) ∧
    (s.core.isMgmt = true → (s.takeTrap k g).core.strand = .coreHalt ∧ (s.takeTrap k g).aborts = s.aborts))) ∧
  (∀ c : Core,
    c.resume.pc = c.trap.pc ∧ c.resume.trap.inH = false ∧ c.resume.pb = c.snapTrap.pb ∧
    c.resume.inflight = c.inflight ++ c.snapTrap.results ∧ c.resume.eretDrain = false ∧
    c.resume.snapTrap.results = [] ∧ c.resume.snapTrap.redirects = [] ∧
    (c.redirects = [] → c.resume.redirects = c.snapTrap.redirects) ∧
    (c.isMgmt = true → c.resume.sysMode = c.pmode) ∧ (c.isMgmt = false → c.resume.sysMode = c.sysMode) ∧
    c.resume.sregs = c.sregs ∧ c.resume.pregs = c.pregs ∧ c.resume.vregs = c.vregs ∧ c.resume.spad = c.spad ∧
    c.resume.fstat = c.fstat)

/-- R10, R114: `get`, `set`, `gets` and `sets`. -/
def Obligations.SpecialRegisterMoves : Prop :=
  (∀ (f : IForm) (s : State) (x : Word), goI .get f s [] → (field 0 12 f.imm : BitVec 12).toNat < 0x800 →
    s.readUser (field 0 12 f.imm : BitVec 12).toNat = some x → exec (.get f) s = .next (s.issued (intoSI f 2 (fun _ => x)))) ∧
  (∀ (f : IForm) (s : State), goI .set f s [.s f.a] → userWritable (field 0 12 f.imm : BitVec 12).toNat = true →
    field 0 12 f.imm ≠ (0x023 : BitVec 12) →
    exec (.set f) s = .next (s.issued (fun c => c.result (place f.s1) 1 (.spr (field 0 12 f.imm) (c.sreg f.a)) 0))) ∧
  (∀ (f : IForm) (s : State), goI .set f s [.s f.a] → field 0 12 f.imm = (0x023 : BitVec 12) → (s.core.sreg f.a).toNat ≤ 16 →
    exec (.set f) s = .next (s.issued (fun c => c.result (place f.s1) 1 (.depth (field 0 5 (c.sreg f.a))) 0))) ∧
  (∀ (f : IForm) (s : State), goI .set f s [.s f.a] → (field 0 12 f.imm : BitVec 12).toNat < 0x800 →
    (s.readUser (field 0 12 f.imm : BitVec 12).toNat).isSome = true → userWritable (field 0 12 f.imm : BitVec 12).toNat = false →
    exec (.set f) s = .next (s.issued id)) ∧
  (∀ (f : IForm) (s : State) (x : Word), goI .gets f s [] → s.core.isMgmt = true → s.core.sysMode = true →
    s.readSpecial (field 0 12 f.imm : BitVec 12).toNat = some x →
    exec (.gets f) s = .next (s.issued (intoSI f 2 (fun _ => x)))) ∧
  (∀ (f : IForm) (s : State), goI .sets f s [.s f.a] → s.core.isMgmt = true → s.core.sysMode = true →
    0x800 ≤ (field 0 12 f.imm : BitVec 12).toNat → (s.readSys (field 0 12 f.imm : BitVec 12).toNat).isSome = true →
    exec (.sets f) s = .next (s.issued (fun c => c.result (place f.s1) 1 (.sys (field 0 12 f.imm) (c.sreg f.a)) 0)))

/-- R128, R131, R132: a merge keeps inactive lanes; the integer instructions of the V slot. -/
def Obligations.VectorIntegerResults : Prop :=
  (∀ (l : BitVec 2) (m : Mask) (old : Vec),
    (∀ (g : Nat → Nat) (i : Nat), i < 1024 / laneWidth l →
      lane (laneWidth l) (mergeLanes (laneWidth l) m old g) i =
        if m.getLsbD (laneWidth l / 8 * i) then g i % 2 ^ laneWidth l else lane (laneWidth l) old i) ∧
    (∀ (g : Nat → Bool) (q : Mask) (j : Nat), j < 128 →
      (mergeMask (laneWidth l) m q g).getLsbD j =
        if m.getLsbD (laneWidth l / 8 * (j / (laneWidth l / 8))) then g (j / (laneWidth l / 8)) else q.getLsbD j)) ∧
  ((∀ e ∈ vec2Rows, ∀ (f : VForm) (s : State), goV e.1 f s (.v f.va :: rb f ++ rd f) →
    exec (e.1 f) s = .next (s.issued (intoV f 2 (fun c i => e.2 (lw f) (la f c i) (lb f c i)) (fun _ => 0)))) ∧
  (∀ e ∈ vec1Rows, ∀ (f : VForm) (s : State), goV e.1 f s (.v f.va :: rd f) →
    exec (e.1 f) s = .next (s.issued (intoV f 2 (fun c i => e.2 (lw f) (la f c i)) (fun _ => 0)))) ∧
  (∀ (f : VForm) (s : State), goV .vsel f s (.v f.va :: rb f ++ rd f) →
    exec (.vsel f) s = .next (s.issued (intoV f 2 (fun c i =>
      if laneOn (lw f) (c.mreg (field 0 4 f.vc)) i then la f c i else lb f c i) (fun _ => 0)))) ∧
  (∀ (f : VForm) (s : State), goV .vcmp f s (.v f.va :: rb f) →
    exec (.vcmp f) s = .next (s.issued (intoM f 2 (fun c i =>
      cmpInt (field 0 4 f.fn).toNat (lw f) (la f c i) (lb f c i)) (fun _ => 0)))))

/-- R133, R134: the float vector instructions. -/
def Obligations.VectorFloatResults : Prop :=
  (∀ e ∈ vecFloat2Rows, ∀ (f : VForm) (s : State), goV e.1 f s (.v f.va :: rb f ++ rd f) → vecEntry f s.core →
    exec (e.1 f) s = .next (s.issued (fun c =>
      let r := fun i => roundTo (c.fmt f.fmt) f.rnd (f.sat == 1)
        (e.2.2 f.rnd (c.decode (c.fmt f.fmt) (la f c i)) (c.decode (c.fmt f.fmt) (lb f c i)))
      intoV f e.2.1 (fun _ i => (r i).1) (fun _ => laneFlags f c (fun i => (r i).2)) c))) ∧
  (∀ e ∈ vecFloat1Rows, ∀ (f : VForm) (s : State), goV e.1 f s (.v f.va :: rd f) → vecEntry f s.core →
    exec (e.1 f) s = .next (s.issued (fun c =>
      let r := fun i => roundTo (c.fmt f.fmt) f.rnd (f.sat == 1) (e.2 (c.decode (c.fmt f.fmt) (la f c i)))
      intoV f 12 (fun _ i => (r i).1) (fun _ => laneFlags f c (fun i => (r i).2)) c))) ∧
  (∀ (f : VForm) (s : State), goV .vfma f s (.v f.va :: .v f.vc :: rb f ++ rd f) → vecEntry f s.core →
    exec (.vfma f) s = .next (s.issued (fun c =>
      let d := c.decode (c.fmt f.fmt)
      let r := fun i => roundTo (c.fmt f.fmt) f.rnd (f.sat == 1)
        (preFma f.rnd (d (la f c i)) (d (lb f c i)) (d (lane (lw f) (c.vreg f.vc) i)))
      intoV f 4 (fun _ i => (r i).1) (fun _ => laneFlags f c (fun i => (r i).2)) c))) ∧
  (∀ e ∈ vecMinMaxRows, ∀ (f : VForm) (s : State), goV e.1 f s (.v f.va :: rb f ++ rd f) → vecEntry f s.core →
    exec (e.1 f) s = .next (s.issued (fun c =>
      let d := c.decode (c.fmt f.fmt)
      let r := fun i => roundTo (c.fmt f.fmt) 0 false (minMaxNum e.2 (d (la f c i)) (d (lb f c i))).pre
      intoV f 4 (fun _ i => (r i).1) (fun _ => laneFlags f c (fun i => (r i).2)) c))) ∧
  (∀ (f : VForm) (s : State), goV .vfabs f s (.v f.va :: rd f) → vecEntry f s.core →
    exec (.vfabs f) s = .next (s.issued (intoV f 4 (fun c i =>
      if fmtSgn (c.fmt f.fmt) then la f c i % 2 ^ (lw f - 1) else la f c i) (fun c => laneFlags f c (fun _ => 0))))) ∧
  (∀ (f : VForm) (s : State), goV .vfneg f s (.v f.va :: rd f) → vecEntry f s.core → fmtSgn (s.core.fmt f.fmt) = true →
    exec (.vfneg f) s = .next (s.issued (intoV f 4 (fun _ i => la f s.core i ^^^ 2 ^ (lw f - 1))
      (fun c => laneFlags f c (fun _ => 0))))) ∧
  (∀ (f : VForm) (s : State), goV .vfcmp f s (.v f.va :: rb f) → vecEntry f s.core →
    exec (.vfcmp f) s = .next (s.issued (fun c =>
      let d := c.decode (c.fmt f.fmt)
      let r := fun i => cmpNum (field 0 4 f.fn).toNat (d (la f c i)) (d (lb f c i))
      intoM f 4 (fun _ i => (r i).1) (fun _ => laneFlags f c (fun i => (r i).2)) c))) ∧
  (∀ (f : VForm) (s : State), goV .vfclass f s (.v f.va :: rd f) → vecEntry f s.core →
    exec (.vfclass f) s = .next (s.issued (intoV f 4 (fun c i =>
      classNum (c.fmt f.fmt) (decodeFloat (c.fmt f.fmt) (la f c i))) (fun c => laneFlags f c (fun _ => 0)))))

/-- R135, R136: conversion, quantisation and dequantisation; one that writes all of vd does not read it. -/
def Obligations.VectorConversionResults : Prop :=
  ∀ e ∈ convRows, ∀ (f : VForm) (s : State), goV e.1 f s (.v f.va :: e.2.1 f) → convEntries f s.core →
    (f.mg ≠ 0 ∨ fmtStore (s.core.fmt f.fmt) < fmtStore (s.core.fmt (field 0 4 f.fn)) → s.core.isPending (.v f.vd) = false) →
    exec (e.1 f) s = .next (s.issued (fun c => c.result .v 4 (.v f.vd (convTo f e.2.2 c).1) (convTo f e.2.2 c).2))

/-- R51, R137: the reductions; a lane that is not active counts as the identity. -/
def Obligations.VectorReductionResults : Prop :=
  (∀ (f : VForm) (s : State), goV .vredadd f s [.v f.va] →
    exec (.vredadd f) s = .next (s.issued (fun c => c.result .v 6 (.v f.vd (BitVec.ofNat 1024
      (tree (fun a b => if f.sat = 1 then (if f.fn.getLsbD 0 then opAddsn (lw f) a b else opAdds (lw f) a b)
          else (a + b) % 2 ^ lw f)
        (fun i => if on f c i then la f c i else 0) (1024 / lw f).log2 0))) 0))) ∧
  (∀ (f : VForm) (s : State), goV .vredmax f s [.v f.va] →
    exec (.vredmax f) s = .next (s.issued (fun c => c.result .v 6 (.v f.vd (BitVec.ofNat 1024
      (tree (fun a b => if f.fn.getLsbD 0 then max a b else opMax (lw f) a b)
        (fun i => if on f c i then la f c i else if f.fn.getLsbD 0 then 0 else 2 ^ (lw f - 1)) (1024 / lw f).log2 0))) 0))) ∧
  (∀ (f : VForm) (s : State), goV .vfredadd f s [.v f.va] → vecEntry f s.core →
    exec (.vfredadd f) s = .next (s.issued (fun c =>
      let e := c.fmt f.fmt
      let r := tree (rCombine false (.zero true) (c.decode e) (fun a b => roundTo e f.rnd (f.sat == 1) (preAdd f.rnd a b)))
        (fun i => (if on f c i then some (la f c i) else none, 0)) (1024 / lw f).log2 0
      c.result .v 6 (.v f.vd (BitVec.ofNat 1024 (r.1.getD (encodeFloat e (.zero true))))) r.2))) ∧
  (∀ (f : VForm) (s : State), goV .vfredmax f s [.v f.va] → vecEntry f s.core →
    exec (.vfredmax f) s = .next (s.issued (fun c =>
      let e := c.fmt f.fmt
      let r := tree (rCombine true (.inf true) (c.decode e) (fun a b => roundTo e 0 false (minMaxNum true a b).pre))
        (fun i => (if on f c i then some (la f c i) else none, 0)) (1024 / lw f).log2 0
      let least := if !fmtSgn e then 0 else if fmtKind e == 0 then encodeFloat e (.inf true)
        else encodeFloat e (.fin true (fmtTarget e).maxM (fmtTarget e).maxE)
      c.result .v 6 (.v f.vd (BitVec.ofNat 1024 (r.1.getD least))) r.2)))

/-- R138: moves, permutes, slides, and the moves of one lane. -/
def Obligations.VectorMoveResults : Prop :=
  (∀ e ∈ moveRows, ∀ (f : VForm) (s : State), goV e.1 f s (e.2.1 f ++ rd f) → e.2.2.1 f →
    exec (e.1 f) s = .next (s.issued (intoV f 2 (fun c i => e.2.2.2 f c i) (fun _ => 0)))) ∧
  (∀ (f : VForm) (s : State), goV .vextr f s [.v f.va] → (field 0 7 f.fn).toNat < 1024 / lw f →
    exec (.vextr f) s = .next (s.issued (fun c =>
      let x := la f c (field 0 7 f.fn).toNat
      c.result .v 2 (.s (field 15 6 f.fn)
        (if f.fn.getLsbD 7 then BitVec.ofInt 64 (sintOf (lw f) x) else BitVec.ofNat 64 x)) 0))) ∧
  (∀ (f : VForm) (s : State), goV .vinsr f s [.s (field 15 6 f.fn), .v f.vd] → (field 0 7 f.fn).toNat < 1024 / lw f →
    exec (.vinsr f) s = .next (s.issued (fun c => c.result .v 2 (.v f.vd (packLanes (lw f) (fun i =>
      if i = (field 0 7 f.fn).toNat ∧ on f c i = true then (c.sreg (field 15 6 f.fn)).toNat % 2 ^ lw f
      else lane (lw f) (c.vreg f.vd) i))) 0)))

/-- R139 to R143, R244: accumulator rows and stream registers. -/
def Obligations.AccumulatorRowsAndStreams : Prop :=
  (∀ (f : VForm) (s : State), goV .vacc f s (rd f) → s.core.isMgmt = false → accEntry f s.core →
    (field 0 4 f.fn).toNat < s.core.wmarks.get (field 4 2 f.fn : BitVec 2).toFin →
    exec (.vacc f) s = .next (s.issued (fun c =>
      let x := fun j => decodeWide (elem c (field 4 2 f.fn) (field 0 4 f.fn).toNat j)
      let r := fun j => roundTo (c.fmt f.fmt) f.rnd (f.sat == 1) (x j).pre
      c.result .v 4 (.v f.vd (packLanes (lw f) (fun j =>
          if 16 ≤ j then 0 else if on f c j then (r j).1 else lane (lw f) (c.vreg f.vd) j)))
        (orFlags (on f c) (fun j => (r j).2 ||| (if (x j).nonFinite then flNF else 0)) 16 0)))) ∧
  (∀ (f : VForm) (s : State), goV .vacc f s (rd f) → s.core.isMgmt = false →
    s.core.wmarks.get (field 4 2 f.fn : BitVec 2).toFin ≤ (field 0 4 f.fn).toNat → exec (.vacc f) s = .next s) ∧
  (∀ (f : VForm) (s : State), goV .vaccw f s [.v f.va] → s.core.isMgmt = false → accEntry f s.core →
    s.core.owners.get (field 4 2 f.fn : BitVec 2).toFin = [] →
    exec (.vaccw f) s = .next (s.issued (fun c =>
      let r := fun j => roundWide (c.decode (c.fmt f.fmt) (la f c j)).pre
      c.result .v 4 (.acc (field 4 2 f.fn) (field 0 4 f.fn)
          (BitVec.ofNat 16 (packFrom 1 (fun j => if on f c j then 1 else 0) 16 0))
          (BitVec.ofNat 1536 (packFrom 96 (fun j => (r j).1.toNat) 16 0)) (c.vreg f.va) f.fmt (c.fmt f.fmt))
        (orFlags (on f c) (fun j => (r j).2) 16 0)))) ∧
  (∀ (f : VForm) (s : State) (x : Vec) (r : List Vec), goV .vsin f s (rd f) → streamReady s →
    s.core.orx.get (field 0 2 f.fn : BitVec 2).toFin = x :: r →
    exec (.vsin f) s = .next (s.issued (fun c =>
      intoV f 2 (fun _ i => lane (lw f) x i) (fun _ => 0) { c with orx := c.orx.set (field 0 2 f.fn : BitVec 2).toFin r }))) ∧
  (∀ (f : VForm) (s : State), goV .vsout f s [.v f.va] → streamReady s →
    (s.core.otx.get (field 0 2 f.fn : BitVec 2).toFin).length < 64 →
    exec (.vsout f) s = .next (s.issued (fun c =>
      let o : BitVec 2 := field 0 2 f.fn
      { c with otx := c.otx.set o.toFin (c.otx.get o.toFin ++ [c.vreg f.va]) })))

/-- R144, R145: masks and votes. -/
def Obligations.MaskResults : Prop :=
  (∀ e ∈ maskRows, ∀ (f : VForm) (s : State), goV e.1 f s [] →
    ∃ x : Mask, exec (e.1 f) s = .next (s.issued (intoMask f x)) ∧ ∀ j < 128, x.getLsbD j =
      (if (s.core.mreg f.mg).getLsbD j then e.2 ((s.core.mreg (field 0 4 f.va)).getLsbD j) ((s.core.mreg (field 0 4 f.vb)).getLsbD j)
        else (s.core.mreg (field 0 4 f.vd)).getLsbD j)) ∧
  (∀ (f : VForm) (s : State), goV .mset f s [.v f.va] →
    ∃ x : Mask, exec (.mset f) s = .next (s.issued (intoMask f x)) ∧ ∀ j < 128, x.getLsbD j =
      (if (s.core.mreg f.mg).getLsbD j then decide (lane 8 (s.core.vreg f.va) j ≠ 0)
        else (s.core.mreg (field 0 4 f.vd)).getLsbD j)) ∧
  (∀ (f : VForm) (s : State), goV .mget f s (rd f) →
    ∃ x : Vec, exec (.mget f) s = .next (s.issued (fun c => c.result .v 2 (.v f.vd x) 0)) ∧ ∀ j < 128, lane 8 x j =
      (if (s.core.mreg f.mg).getLsbD j then (if (s.core.mreg (field 0 4 f.va)).getLsbD j then 255 else 0)
        else lane 8 (s.core.vreg f.vd) j)) ∧
  (∀ (f : VForm) (s : State), goV .vany f s [] →
    exec (.vany f) s = .next (s.issued (fun c => c.result .v 2 (.p (field 0 3 f.vd)
      (decide (∃ i < 1024 / lw f, on f c i = true ∧ laneOn (lw f) (c.mreg (field 0 4 f.va)) i = true))) 0))) ∧
  (∀ (f : VForm) (s : State), goV .vall f s [] →
    exec (.vall f) s = .next (s.issued (fun c => c.result .v 2 (.p (field 0 3 f.vd)
      (decide (∀ i < 1024 / lw f, on f c i = true → laneOn (lw f) (c.mreg (field 0 4 f.va)) i = true))) 0))) ∧
  (∀ (f : VForm) (s : State), goV .mpopc f s [] →
    exec (.mpopc f) s = .next (s.issued (fun c => c.result .v 2 (.s (field 15 6 f.fn) (BitVec.ofNat 64
      ((List.range (1024 / lw f)).countP (fun i => laneOn (lw f) (c.mreg (field 0 4 f.va)) i && on f c i)))) 0)))

namespace Sys2Proof.Claims

open Sys2Proof Sys2Proof.Machine

/-! ### The Z and L slots -/

/-- No word of the `n` bytes from `a` carries the poison mark (R151). -/
def clean (c : Core) (a n : Nat) : Prop := ∀ w, a / 8 ≤ w → 8 * w < a + n → w ∉ c.poison

/-- A Z instruction that may issue: well-formed, nothing holds the bundle, no access of class 0 stands before it (R146, R173). -/
def goZ (i : ZForm → Instr) (f : ZForm) (s : State) (rs : List PReg) : Prop :=
  (i f).wf = true ∧ s.mayIssue none rs ∧ s.core.classHeld 0 = false

/-- The address of a Z load, ZBASE + 32 × OFF (R146). -/
def za (f : ZForm) (c : Core) : Nat := (c.zbase + BitVec.ofNat 64 (32 * f.off.toNat)).toNat

/-- A Z load of `n` bytes that its core may read (R146, R151). -/
def zReads (f : ZForm) (c : Core) (n : Nat) : Prop := za f c + n ≤ c.spend ∧ clean c (za f c) n

/-- An L instruction that may issue, of class `cls` (R173). -/
def goLs (i : Instr) (gi : BitVec 1) (gp : BitVec 3) (cls : BitVec 4) (s : State) (rs : List PReg) : Prop :=
  i.wf = true ∧ s.mayIssue (some (gi, gp)) rs ∧ s.core.classHeld cls = false

/-- The effective address s[a] + disp (R149). -/
def ea {n : Nat} (c : Core) (a : BitVec 6) (disp : BitVec n) : Nat := (c.sreg a + disp.signExtend 64).toNat

/-- `n` bytes at `a`, aligned to `al`, inside the core's scratchpad (R149). -/
def inPad (c : Core) (a n al : Nat) : Prop := a % al = 0 ∧ a + n ≤ c.spend

/-- The bytes of an integer type (R92). -/
def tb (t : BitVec 4) : Nat := typeWidth t / 8

/-- Poisoned words among the `n` bytes at `a` are overwritten whole by the `n` bytes (R151). -/
def coversPoison (c : Core) (a n : Nat) : Prop := ∀ w ∈ c.poison, a < 8 * w + 8 → 8 * w < a + n → a ≤ 8 * w ∧ 8 * w + 8 ≤ a + n

/-- Lane `i`'s address of a strided access (R155). -/
def strideEa (f : LvsForm) (c : Core) (i : Nat) : Nat :=
  (c.sreg f.a + f.disp.signExtend 64 + BitVec.ofNat 64 i * c.sreg f.s).toNat

/-- Lane `i`'s address of a gather or scatter (R156). -/
def gatherEa (f : LvgForm) (c : Core) (i : Nat) : Nat :=
  (c.sreg f.a + BitVec.ofNat 64 (lane (laneWidth f.lw) (c.vreg f.vi) i * 2 ^ f.sc.toNat)).toNat

/-- No two of the words that the listed accesses of `n` bytes touch lie in one bank (R150). -/
def oneBankEach (as : List Nat) (n : Nat) : Prop :=
  ∀ a ∈ as, ∀ b ∈ as, ∀ v w : Nat, a / 8 ≤ v → 8 * v < a + n → b / 8 ≤ w → 8 * w < b + n → v % 384 = w % 384 → v = w

/-- The scratchpad words that accesses of `n` bytes at these addresses touch (R150). -/
def wordsAt (as : List Nat) (n : Nat) : List Nat := as.flatMap (fun a => wordsOf a n)

/-- No other port is pending at a bank that accesses of `n` bytes at these addresses need (R210). -/
def alone (c : Core) (as : List Nat) (n : Nat) : Prop := c.banksFree (wordsAt as n)

/-- The arrival word at `a` as the bank units know it: its two words are one operation (R239). -/
def arrivalAt (a : Nat) : List Nat := [pairWord (a / 8)]

/-- The atomics that take operand b, without predicate and neighbour: the new X (R170). -/
def atomRows : Rows AtForm (Nat → Nat → Nat → Nat) :=
  [(.aadd, fun w x b => (x + b) % 2 ^ w), (.amin, fun w x b => if sintOf w b < sintOf w x then b else x),
    (.amax, fun w x b => if sintOf w x < sintOf w b then b else x), (.aminn, fun _ x b => min x b),
    (.amaxn, fun _ x b => max x b), (.aand, fun _ x b => x &&& b), (.aor, fun _ x b => x ||| b),
    (.axor, fun _ x b => x ^^^ b), (.aswp, fun _ _ b => b)]

/-- The atomics with a success predicate: whether Y is read, new X and condition from w, X, Y, b and c (R170). -/
def atomPredRows : Rows AtForm (Bool × (Nat → Nat → Nat → Nat → Nat → Nat × Bool)) :=
  [(.acas, false, fun _ x _ b c => (if x = c then b else x, decide (x = c))),
    (.aincb, true, fun w x y _ _ => (if x = y then x else (x + 1) % 2 ^ w, decide (x ≠ y))),
    (.adecp, false, fun _ x _ _ _ => (if x = 0 then x else x - 1, decide (x ≠ 0))),
    (.afal, true, fun _ x y b _ => (if x + b ≤ y then x + b else x, decide (x + b ≤ y)))]

/-- All atomics: the opcode, whether the neighbouring word is read, whether there is a success predicate (R168, R170). -/
def remoteRows : Rows AtForm (BitVec 8 × Bool × Bool) :=
  [(.aadd, 0x30, false, false), (.amin, 0x31, false, false), (.amax, 0x32, false, false), (.aminn, 0x33, false, false),
    (.amaxn, 0x34, false, false), (.aand, 0x35, false, false), (.aor, 0x36, false, false), (.axor, 0x37, false, false),
    (.aswp, 0x38, false, false), (.acas, 0x39, false, true), (.aincb, 0x3A, true, true), (.aincw, 0x3B, true, false),
    (.adecp, 0x3C, false, true), (.afal, 0x3D, true, true), (.afadd, 0x3E, false, false)]

/-- Bytes of an atomic's word. -/
def ab (f : AtForm) : Nat := 4 * 2 ^ f.w.toNat

/-- A local atomic of word size `n`, reaching over `m` bytes, may perform (R149, R169 to R171). -/
def atomReady (f : AtForm) (c : Core) (m : Nat) : Prop :=
  (c.sreg f.a).getLsbD 63 = false ∧ (c.sreg f.a).toNat % m = 0 ∧ (c.sreg f.a).toNat + m ≤ c.spend ∧
    clean c (c.sreg f.a).toNat m

/-- What a local atomic does to its core (R170, R171): destinations pending, the new word stored, the old one on its way. -/
def atomDone (f : AtForm) (pd : Option Bool) (new : Nat) (fl : Flags) (c : Core) : Core :=
  let a := (c.sreg f.a).toNat
  let x := c.spad.readN a (ab f)
  let c1 := c.makePending (.s f.d)
  match pd with
  | none => (c1.store (storeAt a (ab f) new)).lateResult .l c.issueNo 6 (.s f.d (BitVec.ofNat 64 x)) fl
  | some ok =>
    (((c1.makePending (.p f.pd)).store (storeAt a (ab f) new)).lateResult .l c.issueNo 6
      (.s f.d (BitVec.ofNat 64 x)) fl).lateResult .l c.issueNo 6 (.p f.pd ok) 0

/-- The handle `h` serves an access at offset `off` of `n` bytes aligned to `al` (R162, R165). -/
def handleServes (h : Handle) (write : Bool) (off n al : Nat) : Prop :=
  h.p = false ∧ h.isEmpty = false ∧ h.isShot = false ∧ (h.v = true → (if write then h.wr else h.rd) = true) ∧
    off + n ≤ (if h.sz then 2 ^ 28 else 2 ^ 16) ∧ off % al = 0

/-- The offset of a drawer access, sI + disp (R165). -/
def dOff (c : Core) (i : BitVec 6) (disp : BitVec 12) : Word := c.sreg i + disp.setWidth 64

/-- The access that the L slot makes (R165 to R167). -/
def newAccess (c : Core) (cls : BitVec 4) (h : BitVec 4) (i : BitVec 6) (disp : BitVec 12) (k : AccKind) : Access :=
  { id := c.nextAcc, ord := c.issueNo, opc := c.pc, cls := cls, kind := k, h := c.hregs.get h.toFin, off := dOff c i disp,
    st := .queued, after := [], again := false, fresh := false }

/-! ### The M, K and N slots -/

/-- Staging register `i` of R116's numbering. -/
def sg (c : Core) (i : Nat) : Word := c.stg.toList.getD i 0

/-- Bits `lo` up, `n` of them, are zero. -/
def zeros (x : Word) (lo n : Nat) : Prop := x.toNat / 2 ^ lo % 2 ^ n = 0

/-- A command of kind `k` as it enters its queue: what R8 captures, with the sixteen staging registers from `base` on. -/
def entered (c : Core) (q : Cmd) (k : CmdKind) (ops : BitVec 27) (base : Nat) : Prop :=
  q.kind = k ∧ q.ops = ops ∧ q.ord = c.issueNo ∧ q.opc = c.pc ∧ q.stg = (List.range 16).map (fun i => sg c (base + i)) ∧
    q.gd = c.gd.toList ∧ q.gtab = c.gtab

/-- An M command may enter (R7, R20, R102). -/
def goM (i : Instr) (s : State) : Prop :=
  i.wf = true ∧ s.mayIssue none [] ∧ s.core.isMgmt = false ∧ s.core.mat.queue.length < 16 ∧ s.core.cnt.m < 63

/-- The state after an M command `q` on accumulator `a` (R139, R181): queued, counted, in the owner set. -/
def mEntered (s : State) (q : Cmd) (a : BitVec 2) (changes : Bool) : State :=
  s.committed (fun c =>
    { c with
      mat := { c.mat with queue := c.mat.queue ++ [q] }
      cnt := { c.cnt with m := c.cnt.m + 1 }
      owners := c.owners.set a.toFin (c.owners.get a.toFin ++ [(c.issueNo, changes)])
      wmarks := if changes then c.wmarks.set a.toFin 0 else c.wmarks })

/-- A K command may enter: its queue and counter have room, and the handles cx6 names are neither pending nor shot down (R7,
R20, R162, R176). -/
def goK (i : Instr) (s : State) : Prop :=
  i.wf = true ∧ s.mayIssue none [] ∧ s.core.cpy.queue.length < 16 ∧ s.core.cnt.k < 63 ∧
    ((sg s.core 22).getLsbD 4 = true → (s.core.hregs.get (field 0 4 (sg s.core 22) : BitVec 4).toFin).p = false ∧
      (s.core.hregs.get (field 0 4 (sg s.core 22) : BitVec 4).toFin).isShot = false) ∧
    ((sg s.core 22).getLsbD 9 = true → (s.core.hregs.get (field 5 4 (sg s.core 22) : BitVec 4).toFin).p = false ∧
      (s.core.hregs.get (field 5 4 (sg s.core 22) : BitVec 4).toFin).isShot = false)

/-- cx6 as a K command allows it (R190). -/
def cx6Ok (c : Core) (sd dd cfg : Bool) : Prop :=
  zeros (sg c 22) 16 48 ∧ (sd = false → (sg c 22).getLsbD 4 = false) ∧ (dd = false → (sg c 22).getLsbD 9 = false) ∧
    (cfg = false → (sg c 22).getLsbD 11 = false)

/-- cx2 as a K command allows it: NR at least 1, row bytes 1 to 1,048,576 (R189, R190). -/
def cx2Ok (c : Core) : Prop :=
  zeros (sg c 18) 48 16 ∧ (sg c 18).toNat / 2 ^ 32 % 2 ^ 16 ≠ 0 ∧ 1 ≤ (sg c 18).toNat % 2 ^ 32 ∧
    (sg c 18).toNat % 2 ^ 32 ≤ 1048576

/-- The state after a K command. -/
def kEntered (s : State) (q : Cmd) : State :=
  s.committed (fun c =>
    { c with cpy := { c.cpy with queue := c.cpy.queue ++ [q] }, cnt := { c.cnt with k := c.cnt.k + 1 } })

/-- The operand bits of a K command. -/
def kb (f : KForm) : BitVec 27 := f.aws ++ f.ring ++ f.swz ++ f.ops

/-- An N command may enter: its queue has room, and its counter if it is counted (R7, R20). -/
def goN (i : Instr) (s : State) (counted : Bool) : Prop :=
  i.wf = true ∧ s.mayIssue none [] ∧ s.core.chn.queue.length < 16 ∧ (counted = true → s.core.cnt.n < 63)

/-- The state after an N command. -/
def nEntered (s : State) (q : Cmd) (counted : Bool) : State :=
  s.committed (fun c =>
    { c with
      chn := { c.chn with queue := c.chn.queue ++ [q] }
      cnt := if counted then { c.cnt with n := c.cnt.n + 1 } else c.cnt })

/-- The operand bits of an N command. -/
def nb (f : NForm) : BitVec 27 := f.ch ++ f.aws ++ f.pm ++ f.ops

/-- nx0, nx1, nx6 and the release word of a send are in range (R199). -/
def sendOk (f : NForm) (c : Core) : Prop :=
  zeros (sg c 32) 20 44 ∧ zeros (sg c 33) 32 32 ∧ 1 ≤ (sg c 33).toNat % 2 ^ 32 ∧ (sg c 33).toNat % 2 ^ 32 ≤ 1048576 ∧
    zeros (sg c 38) 20 44 ∧ zeros (sg c (40 + f.aws.toNat)) 20 43

/-- A group relation is one R266 gives: its class and source are legal, and a descriptor it names is (R180, R266). -/
def relOk (c : Core) (sl : Slot) (n : Nat) (x : Word) : Prop := ∀ e ∈ relChecks sl n x c.gd.toList, e.1 = true

end Sys2Proof.Claims

open Sys2Proof Sys2Proof.Machine Sys2Proof.Claims

/-- R146, R147: the Z slot. -/
def Obligations.ZSlotResults : Prop :=
  (∀ (f : ZForm) (s : State), goZ .zld f s [] → zReads f s.core 64 → alone s.core [za f s.core] 64 →
    exec (.zld f) s = .next (s.issuedAsks (wordsAt [za f s.core] 64) (fun c => c.result .z 4 (.z f.d (BitVec.ofNat 512 (c.spad.readN (za f c) 64))) 0))) ∧
  (∀ (f : ZForm) (s : State), goZ .zldh f s [] → zReads f s.core 32 → alone s.core [za f s.core] 32 →
    exec (.zldh f) s = .next (s.issuedAsks (wordsAt [za f s.core] 32) (fun c => c.result .z 4 (.z f.d (BitVec.ofNat 512 (packFrom 32 (fun j =>
      2 ^ 16 * c.spad.readN (za f c + 2 * j) 2) 16 0))) 0))) ∧
  (∀ (f : ZForm) (s : State), goZ .zldb f s [] → zReads f s.core 16 → alone s.core [za f s.core] 16 →
    exec (.zldb f) s = .next (s.issuedAsks (wordsAt [za f s.core] 16) (fun c => c.result .z 4 (.z f.d (BitVec.ofNat 512 (packFrom 32 (fun j =>
      pow2Fp32 (c.spad.read (za f c + j)).toNat) 16 0))) 0))) ∧
  (∀ (f : ZForm) (s : State), goZ .kld f s [] → zReads f s.core 32 → alone s.core [za f s.core] 32 →
    exec (.kld f) s = .next (s.issuedAsks (wordsAt [za f s.core] 32) (fun c =>
      c.result .z 4 (.k (field 0 3 f.d) (BitVec.ofNat 256 (c.spad.readN (za f c) 32))) 0))) ∧
  (∀ (f : ZForm) (s : State), s.mayIssue none [] → s.core.classHeld 0 = false → f.d.getLsbD 3 = true →
    exec (.kld f) s = .next (s.trapPrecise (badField .z 122))) ∧
  (∀ (f : ZForm) (s : State), (Instr.zfromv f).wf = true → s.mayIssue none [.v (field 0 5 f.off)] →
    exec (.zfromv f) s = .next (s.issued (fun c => c.result .z 4 (.z f.d
      (if f.off.getLsbD 5 then (c.vreg (field 0 5 f.off)).extractLsb' 512 512
        else (c.vreg (field 0 5 f.off)).extractLsb' 0 512)) 0)))

/-- R149, R153 to R156: scratchpad loads. -/
def Obligations.ScratchpadLoads : Prop :=
  (∀ (f : LsForm) (s : State), goLs (.lds f) f.gi f.gp f.cls s [.s f.a] → inPad s.core (ea s.core f.a f.disp) (tb f.t) (tb f.t) →
    clean s.core (ea s.core f.a f.disp) (tb f.t) → alone s.core [ea s.core f.a f.disp] (tb f.t) →
    exec (.lds f) s = .next (s.issuedAsks (wordsAt [ea s.core f.a f.disp] (tb f.t)) (fun c => c.result .l 6
      (.s f.d (extendType f.t (c.spad.readN (ea c f.a f.disp) (tb f.t)))) 0))) ∧
  (∀ (f : LvForm) (s : State), goLs (.ldv f) f.gi f.gp f.cls s [.s f.a] → inPad s.core (ea s.core f.a f.disp) 128 8 →
    clean s.core (ea s.core f.a f.disp) 128 → alone s.core [ea s.core f.a f.disp] 128 →
    exec (.ldv f) s = .next (s.issuedAsks (wordsAt [ea s.core f.a f.disp] 128) (fun c => c.result .l 6
      (.v f.v (BitVec.ofNat 1024 (c.spad.readN (ea c f.a f.disp) 128))) 0))) ∧
  (∀ (f : LvsForm) (s : State), goLs (.ldvs f) f.gi f.gp f.cls s [.s f.a, .s f.s] →
    (∀ i < 1024 / laneWidth f.lw, inPad s.core (strideEa f s.core i) (laneWidth f.lw / 8) (laneWidth f.lw / 8) ∧
      clean s.core (strideEa f s.core i) (laneWidth f.lw / 8)) →
    oneBankEach ((List.range (1024 / laneWidth f.lw)).map (strideEa f s.core)) (laneWidth f.lw / 8) →
    alone s.core ((List.range (1024 / laneWidth f.lw)).map (strideEa f s.core)) (laneWidth f.lw / 8) →
    exec (.ldvs f) s = .next (s.issuedAsks (wordsAt ((List.range (1024 / laneWidth f.lw)).map (strideEa f s.core)) (laneWidth f.lw / 8))
      (fun c => c.result .l 6 (.v f.v (packLanes (laneWidth f.lw) (fun i =>
      c.spad.readN (strideEa f c i) (laneWidth f.lw / 8)))) 0))) ∧
  (∀ (f : LvgForm) (s : State), goLs (.ldvg f) f.gi f.gp f.cls s [.s f.a, .v f.vi, .v f.v] →
    (∀ i < 1024 / laneWidth f.lw, laneOn (laneWidth f.lw) (s.core.mreg f.m) i = true →
      inPad s.core (gatherEa f s.core i) (laneWidth f.lw / 8) (laneWidth f.lw / 8) ∧
      clean s.core (gatherEa f s.core i) (laneWidth f.lw / 8)) →
    oneBankEach (((List.range (1024 / laneWidth f.lw)).filter (laneOn (laneWidth f.lw) (s.core.mreg f.m))).map
      (gatherEa f s.core)) (laneWidth f.lw / 8) →
    alone s.core (((List.range (1024 / laneWidth f.lw)).filter (laneOn (laneWidth f.lw) (s.core.mreg f.m))).map
      (gatherEa f s.core)) (laneWidth f.lw / 8) →
    exec (.ldvg f) s = .next (s.issuedAsks (wordsAt (((List.range (1024 / laneWidth f.lw)).filter (laneOn (laneWidth f.lw) (s.core.mreg f.m))).map
      (gatherEa f s.core)) (laneWidth f.lw / 8))
      (fun c => c.result .l 10 (.v f.v (mergeLanes (laneWidth f.lw) (c.mreg f.m)
      (c.vreg f.v) (fun i => c.spad.readN (gatherEa f c i) (laneWidth f.lw / 8)))) 0)))

/-- R2, R149, R151 to R159: scratchpad stores, and that a store writes its bytes and no other. -/
def Obligations.ScratchpadStoresWriteTheirBytes : Prop :=
  ((∀ (f : LsForm) (s : State), goLs (.sts f) f.gi f.gp f.cls s [.s f.a, .s f.d] →
    inPad s.core (ea s.core f.a f.disp) (tb f.t) (tb f.t) → coversPoison s.core (ea s.core f.a f.disp) (tb f.t) → alone s.core [ea s.core f.a f.disp] (tb f.t) →
    exec (.sts f) s = .next (s.committedAsks (wordsAt [ea s.core f.a f.disp] (tb f.t)) (fun c => c.store (storeAt (ea c f.a f.disp) (tb f.t) (c.sreg f.d).toNat)))) ∧
  (∀ (f : LvForm) (s : State), goLs (.stv f) f.gi f.gp f.cls s [.s f.a, .v f.v] → inPad s.core (ea s.core f.a f.disp) 128 8 → alone s.core [ea s.core f.a f.disp] 128 →
    exec (.stv f) s = .next (s.committedAsks (wordsAt [ea s.core f.a f.disp] 128) (fun c => c.store (storeAt (ea c f.a f.disp) 128 (c.vreg f.v).toNat)))) ∧
  (∀ (f : LvsForm) (s : State), goLs (.stvs f) f.gi f.gp f.cls s [.s f.a, .s f.s, .v f.v] →
    (∀ i < 1024 / laneWidth f.lw, inPad s.core (strideEa f s.core i) (laneWidth f.lw / 8) (laneWidth f.lw / 8) ∧
      clean s.core (strideEa f s.core i) (laneWidth f.lw / 8)) →
    oneBankEach ((List.range (1024 / laneWidth f.lw)).map (strideEa f s.core)) (laneWidth f.lw / 8) →
    alone s.core ((List.range (1024 / laneWidth f.lw)).map (strideEa f s.core)) (laneWidth f.lw / 8) →
    exec (.stvs f) s = .next (s.committedAsks (wordsAt ((List.range (1024 / laneWidth f.lw)).map (strideEa f s.core)) (laneWidth f.lw / 8))
      (fun c => c.store ((List.range (1024 / laneWidth f.lw)).flatMap (fun i =>
      storeAt (strideEa f c i) (laneWidth f.lw / 8) (lane (laneWidth f.lw) (c.vreg f.v) i)))))) ∧
  (∀ (f : LvgForm) (s : State), goLs (.stvg f) f.gi f.gp f.cls s [.s f.a, .v f.vi, .v f.v] →
    (∀ i < 1024 / laneWidth f.lw, laneOn (laneWidth f.lw) (s.core.mreg f.m) i = true →
      inPad s.core (gatherEa f s.core i) (laneWidth f.lw / 8) (laneWidth f.lw / 8) ∧
      clean s.core (gatherEa f s.core i) (laneWidth f.lw / 8)) →
    oneBankEach (((List.range (1024 / laneWidth f.lw)).filter (laneOn (laneWidth f.lw) (s.core.mreg f.m))).map
      (gatherEa f s.core)) (laneWidth f.lw / 8) →
    alone s.core (((List.range (1024 / laneWidth f.lw)).filter (laneOn (laneWidth f.lw) (s.core.mreg f.m))).map
      (gatherEa f s.core)) (laneWidth f.lw / 8) →
    exec (.stvg f) s = .next (s.committedAsks (wordsAt (((List.range (1024 / laneWidth f.lw)).filter (laneOn (laneWidth f.lw) (s.core.mreg f.m))).map
      (gatherEa f s.core)) (laneWidth f.lw / 8))
      (fun c => c.store
      (((List.range (1024 / laneWidth f.lw)).filter (laneOn (laneWidth f.lw) (c.mreg f.m))).flatMap (fun i =>
        storeAt (gatherEa f c i) (laneWidth f.lw / 8) (lane (laneWidth f.lw) (c.vreg f.v) i)))))) ∧
  (∀ (f : StvmForm) (s : State), goLs (.stvm f) f.gi f.gp f.cls s [.s f.a, .v f.v] →
    inPad s.core (ea s.core f.a f.disp) 128 8 → clean s.core (ea s.core f.a f.disp) 128 → alone s.core [ea s.core f.a f.disp] 128 →
    exec (.stvm f) s = .next (s.committedAsks (wordsAt [ea s.core f.a f.disp] 128) (fun c => c.store
      (((List.range (1024 / laneWidth f.lw)).filter (laneOn (laneWidth f.lw) (c.mreg f.m))).flatMap (fun i =>
        storeAt (ea c f.a f.disp + i * (laneWidth f.lw / 8)) (laneWidth f.lw / 8) (lane (laneWidth f.lw) (c.vreg f.v) i)))))) ∧
  (∀ (f : AwForm) (s : State), goLs (.setaw f) f.gi f.gp f.cls s [.s f.a, .s f.r1, .s f.r2] →
    inPad s.core (ea s.core f.a f.disp) 16 16 → s.core.banksFree (arrivalAt (ea s.core f.a f.disp)) →
    exec (.setaw f) s = .next (s.committedAsks (arrivalAt (ea s.core f.a f.disp)) (fun c => c.store (storeAt (ea c f.a f.disp) 16
      ((c.sreg f.r1).toNat % 2 ^ 32 + 2 ^ 64 * ((c.sreg f.r2).toNat % 2 ^ 32))))))) ∧
  (∀ (c : Core) (a n x : Nat), c.spad.wf = true →
    (∀ b, ((c.store (storeAt a n x)).spad.read b).toNat =
      if a ≤ b ∧ b < a + n then x / 256 ^ (b - a) % 256 else (c.spad.read b).toNat) ∧
    (∀ w, w ∈ (c.store (storeAt a n x)).poison ↔ w ∈ c.poison ∧ ¬ (a ≤ 8 * w ∧ 8 * w + 8 ≤ a + n)) ∧
    (c.store (storeAt a n x)).spad.wf = true ∧
    (x < 256 ^ n → (c.store (storeAt a n x)).spad.readN a n = x))

/-- R149, R150, R153, R210: a bundle that touches k different words of one bank, at which no other port is pending, has one of them
served in each cycle and issues in the cycle that serves the last, so it freezes k − 1 cycles; a bank unit serves the first pending
port after the one it served last, one word a cycle, or both words of an arrival word (R239); a load or store that is not aligned
traps before one that is out of range (causes 0x0A and 0x0B, the address in TRAPINFO0). -/
def Obligations.ScratchpadConflictsAndTraps : Prop :=
  ((∀ (m : SlotSem) (s : State), m.slot = .l → m.waits s = none → m.waitsLate s = none → m.cause s = none → guardOn m.guard s.core = true →
    m.after s = none → (m.eff s).core.lockstepCount ≤ 32 → s.core.holdsLoad = false → s.core.slogWait = false →
    s.throttled = false →
    let left := match s.core.bankLeft with | some l => l | none => (m.words s).eraseDups
    let rest := left.filter (fun w => !(s.core.strandServed left).contains w)
    (rest ≠ [] → s.issueOne m = s.setCore (({ s.core with bankLeft := some rest, waitaSeen := true } : Core).asks left)) ∧
    (rest = [] → s.issueOne m = (m.eff s).setCore ((s.core.issuedFrom (m.eff s).core m.plain).asks left))) ∧
  (∀ (c : Core) (left : List Nat) (b : Nat), left.Nodup → c.banksFree left →
    (left.filter (fun w => !(c.strandServed left).contains w)).countP (fun w => w % 384 == b) =
      left.countP (fun w => w % 384 == b) - 1)) ∧
  (∀ (c : Core) (strand : List Nat) (b p : Nat), let last := Tab.getD c.bankLast b 5
    let asks (k : Nat) : Prop := if k = 1 then ∃ w ∈ strand, bankOf w = b else ∃ q ∈ c.bankWants, q.port = k ∧ bankOf q.word = b
    c.bankPort strand b = some p → asks p ∧ ∃ e < 5, p = (last + e) % 5 + 1 ∧ ∀ d < e, ¬ asks ((last + d) % 5 + 1)) ∧
  (∀ (c : Core) (old : Mem) (x : Xfer) (w : Nat), c.mat.exec = none → c.bankWant = [] → c.frozen = false → c.xfers = [x] →
    x.todo = [w] →
    2 ≤ x.port → x.port ≤ 5 →
    (x.write = true → (c.bankTurn old).xfers = [{ x with todo := [] }] ∧
      (c.bankTurn old).landing = c.landing ++ x.put.filter (fun e => (if isPair w then [w - 3 * 2 ^ 62, w - 3 * 2 ^ 62 + 1] else [w]).contains (e.1 / 8))) ∧
    (x.write = false → (c.bankTurn old).landing = c.landing ∧
      (c.bankTurn old).xfers = [{ x with
        todo := []
        got := if isPair w then
            Tab.put (Tab.put x.got (w - 3 * 2 ^ 62) (BitVec.ofNat 64 (old.readN (8 * (w - 3 * 2 ^ 62)) 8))) (w - 3 * 2 ^ 62 + 1)
              (BitVec.ofNat 64 (old.readN (8 * (w - 3 * 2 ^ 62 + 1)) 8))
          else Tab.put x.got w (BitVec.ofNat 64 (old.readN (8 * w) 8)) }])) ∧
  (∀ (f : LsForm) (s : State), goLs (.lds f) f.gi f.gp f.cls s [.s f.a] → ea s.core f.a f.disp % tb f.t ≠ 0 →
    exec (.lds f) s = .next (s.trapPrecise (precise .l 0x0A (s.core.sreg f.a + f.disp.signExtend 64)))) ∧
  (∀ (f : LsForm) (s : State), goLs (.lds f) f.gi f.gp f.cls s [.s f.a] → ea s.core f.a f.disp % tb f.t = 0 →
    s.core.spend < ea s.core f.a f.disp + tb f.t →
    exec (.lds f) s = .next (s.trapPrecise (precise .l 0x0B (s.core.sreg f.a + f.disp.signExtend 64)))) ∧
  (∀ (f : LsForm) (s : State), goLs (.sts f) f.gi f.gp f.cls s [.s f.a, .s f.d] → ea s.core f.a f.disp % tb f.t ≠ 0 →
    exec (.sts f) s = .next (s.trapPrecise (precise .l 0x0A (s.core.sreg f.a + f.disp.signExtend 64)))) ∧
  (∀ (f : LsForm) (s : State), goLs (.sts f) f.gi f.gp f.cls s [.s f.a, .s f.d] → ea s.core f.a f.disp % tb f.t = 0 →
    s.core.spend < ea s.core f.a f.disp + tb f.t →
    exec (.sts f) s = .next (s.trapPrecise (precise .l 0x0B (s.core.sreg f.a + f.disp.signExtend 64))))

/-- R160, R161, R239: `waita` and spill memory. Nothing else holding its bundle, `waita` reads GEN at its bank units: one whose first read
is satisfied issues in that cycle; one that has read in vain issues in the cycle after the read that is. The counting of its wait, and
that a read that satisfies wins over the watchdog, are the model's (log 85), as is where the two words of the arrival word wait for their
turn (log 103). -/
def Obligations.ArrivalWaitsAndSpillMemory : Prop :=
  (∀ (f : AwForm) (s : State), goLs (.waita f) f.gi f.gp f.cls s [.s f.a, .s f.r1] →
    inPad s.core (ea s.core f.a f.disp) 16 16 → (ea s.core f.a f.disp) / 8 + 1 ∉ s.core.poison →
    s.core.waitaSeen = false → s.core.waitaRead = false → s.core.waitedL < max 1024 s.core.wdog.toNat →
    (BitVec.ofNat 32 (s.core.spad.readN (ea s.core f.a f.disp + 8) 4) - (field 0 32 (s.core.sreg f.r1))).toNat < 2 ^ 31 →
    s.core.banksFree (arrivalAt (ea s.core f.a f.disp)) →
    exec (.waita f) s = .next (s.committedAsks (arrivalAt (ea s.core f.a f.disp)) id)) ∧
  (∀ (f : AwForm) (s : State), goLs (.waita f) f.gi f.gp f.cls s [.s f.a, .s f.r1] →
    inPad s.core (ea s.core f.a f.disp) 16 16 → s.core.waitaSeen = false → s.core.waitaRead = true →
    (BitVec.ofNat 32 (s.core.spad.readN (ea s.core f.a f.disp + 8) 4) - (field 0 32 (s.core.sreg f.r1))).toNat < 2 ^ 31 →
    s.core.banksFree (arrivalAt (ea s.core f.a f.disp)) →
    exec (.waita f) s = .next (s.setCore (({ s.core with
      waitaSeen := true
      waitedL := s.core.waitedL + (if s.wdHeld.contains s.core.pos.ctx.toNat then 0 else 1) } : Core).asks
        (arrivalAt (ea s.core f.a f.disp))))) ∧
  (∀ (f : AwForm) (s : State), goLs (.waita f) f.gi f.gp f.cls s [.s f.a, .s f.r1] →
    inPad s.core (ea s.core f.a f.disp) 16 16 → (ea s.core f.a f.disp) / 8 + 1 ∉ s.core.poison →
    s.core.waitaSeen = true → exec (.waita f) s = .next (s.committed id)) ∧
  (∀ (f : AwForm) (s : State), goLs (.waita f) f.gi f.gp f.cls s [.s f.a, .s f.r1] →
    inPad s.core (ea s.core f.a f.disp) 16 16 → s.core.waitaSeen = false →
    2 ^ 31 ≤ (BitVec.ofNat 32 (s.core.spad.readN (ea s.core f.a f.disp + 8) 4) - (field 0 32 (s.core.sreg f.r1))).toNat →
    s.core.waitedL < max 1024 s.core.wdog.toNat → s.core.banksFree (arrivalAt (ea s.core f.a f.disp)) →
    exec (.waita f) s = .next (s.setCore (({ s.core with
      waitaRead := true
      waitedL := s.core.waitedL + (if s.wdHeld.contains s.core.pos.ctx.toNat then 0 else 1) } : Core).asks
        (arrivalAt (ea s.core f.a f.disp))))) ∧
  (∀ (f : AwForm) (s : State), goLs (.waita f) f.gi f.gp f.cls s [.s f.a, .s f.r1] →
    inPad s.core (ea s.core f.a f.disp) 16 16 → s.core.waitaSeen = false → s.core.waitedL < max 1024 s.core.wdog.toNat →
    (s.core.strandServed (arrivalAt (ea s.core f.a f.disp))).contains (pairWord ((ea s.core f.a f.disp) / 8)) = false →
    exec (.waita f) s = .next (s.setCore (({ s.core with
      waitedL := s.core.waitedL +
        (if s.core.waitaRead = false ∨ s.wdHeld.contains s.core.pos.ctx.toNat then 0 else 1) } : Core).asks
          (arrivalAt (ea s.core f.a f.disp))))) ∧
  (∀ (f : AwForm) (s : State), goLs (.waita f) f.gi f.gp f.cls s [.s f.a, .s f.r1] →
    inPad s.core (ea s.core f.a f.disp) 16 16 → s.core.waitaSeen = false →
    2 ^ 31 ≤ (BitVec.ofNat 32 (s.core.spad.readN (ea s.core f.a f.disp + 8) 4) - (field 0 32 (s.core.sreg f.r1))).toNat →
    max 1024 s.core.wdog.toNat ≤ s.core.waitedL →
    exec (.waita f) s = .next (s.trapPrecise (precise .l 0x12 (s.core.sreg f.a + f.disp.signExtend 64)))) ∧
  (∀ (f : SpForm) (s : State), (Instr.spl f).wf = true → s.mayIssue (some (f.gi, f.gp)) [.s f.d] →
    exec (.spl f) s = .next (s.committed (fun c => { c with spill := c.spill.setIfInBounds f.off.toNat (c.sreg f.d) }))) ∧
  (∀ (f : SpForm) (s : State), (Instr.fil f).wf = true → s.mayIssue (some (f.gi, f.gp)) [] →
    exec (.fil f) s = .next (s.issued (fun c => c.result .l 1 (.s f.d (c.spill.toList.getD f.off.toNat 0)) 0))) ∧
  (∀ (f : SpvForm) (s : State), (Instr.splv f).wf = true → s.mayIssue (some (f.gi, f.gp)) [.v f.v] →
    ∃ m : Vector Word 512, exec (.splv f) s = .next (s.committed (fun c => { c with spill := m })) ∧
      ∀ i < 512, m.toList.getD i 0 = (if f.off.toNat ≤ i ∧ i < f.off.toNat + 16
        then BitVec.ofNat 64 (lane 64 (s.core.vreg f.v) (i - f.off.toNat)) else s.core.spill.toList.getD i 0)) ∧
  (∀ (f : SpvForm) (s : State), (Instr.filv f).wf = true → s.mayIssue (some (f.gi, f.gp)) [] →
    exec (.filv f) s = .next (s.issued (fun c => c.result .l 1
      (.v f.v (packLanes 64 (fun i => (c.spill.toList.getD (f.off.toNat + i) 0).toNat))) 0)))

/-- R162, R163, R307: handles. -/
def Obligations.HandleInstructions : Prop :=
  (∀ (f : XlateForm) (s : State), (Instr.xlate f).wf = true → s.mayIssue (some (f.gi, f.gp)) [.s f.a] →
    exec (.xlate f) s = .next (s.committedAll (fun u =>
      let r := u.lookup u.cur u.core.pos.ctx.toNat (u.core.sreg f.a)
      r.2.setCore (r.2.core.result .l 48 (.h f.h r.1) 0)))) ∧
  (∀ (s : State) (t ctx : Nat) (va : Word), (s.cache (cacheKey t)).leaves.find? (·.holds ctx va) = none →
    (s.lookup t ctx va).1.p = true ∧ (s.lookup t ctx va).1.v = false ∧ (s.lookup t ctx va).1.f = false) ∧
  (∀ (f : HinvForm) (s : State), (Instr.hinv f).wf = true → s.mayIssue (some (f.gi, f.gp)) [] →
    exec (.hinv f) s = .next (s.issued (fun c => c.result .l 1 (.h f.h Handle.empty) 0))) ∧
  (∀ (f : HgetForm) (s : State), (Instr.hget f).wf = true → s.mayIssue (some (f.gi, f.gp)) [] →
    (f.sel = 0 ∨ (s.core.hregs.get f.h.toFin).p = false) →
    exec (.hget f) s = .next (s.issued (fun c =>
      let h := c.hregs.get f.h.toFin
      c.result .l 1 (.s f.d (if f.sel = 0 then h.word
        else if f.sel = 1 then (if h.v then h.base.setWidth 64 else 0)
        else if h.isEmpty then 0 else h.vpage)) 0)))

/-- R165 to R167, R20: drawer loads and stores enter the tile's drawer path. -/
def Obligations.DrawerAccessesEnter : Prop :=
  (∀ (f : LdhForm) (s : State), (Instr.ldh f).wf = true → s.mayIssue (some (f.gi, f.gp)) [.s f.i] →
    handleServes (s.core.hregs.get f.h.toFin) false (dOff s.core f.i f.disp).toNat (tb f.t) (tb f.t) → s.core.cnt.l < 63 →
    exec (.ldh f) s = .next (s.committed (fun c => ({ c with
      dacc := c.dacc ++ [newAccess c f.cls f.h f.i f.disp (.ldh f.d f.t)], nextAcc := c.nextAcc + 1
      cnt := { c.cnt with l := c.cnt.l + 1 } } : Core).makePending (.s f.d)))) ∧
  (∀ (f : LdvhForm) (s : State), (Instr.ldvh f).wf = true → s.mayIssue (some (f.gi, f.gp)) [.s f.i] →
    handleServes (s.core.hregs.get f.h.toFin) false (dOff s.core f.i f.disp).toNat 128 8 → s.core.cnt.l < 63 →
    exec (.ldvh f) s = .next (s.committed (fun c => ({ c with
      dacc := c.dacc ++ [newAccess c f.cls f.h f.i f.disp (.ldvh f.v)], nextAcc := c.nextAcc + 1
      cnt := { c.cnt with l := c.cnt.l + 1 } } : Core).makePending (.v f.v)))) ∧
  (∀ (f : LdhForm) (s : State), (Instr.sth f).wf = true → s.mayIssue (some (f.gi, f.gp)) [.s f.i, .s f.d] →
    handleServes (s.core.hregs.get f.h.toFin) true (dOff s.core f.i f.disp).toNat (tb f.t) (tb f.t) → s.core.cnt.s < 63 →
    s.core.slog.length < 256 →
    exec (.sth f) s = .next (s.committed (fun c => { c with
      dacc := c.dacc ++ [newAccess c f.cls f.h f.i f.disp (.sth (c.sreg f.d) (tb f.t))], nextAcc := c.nextAcc + 1
      cnt := { c.cnt with s := c.cnt.s + 1 } }))) ∧
  (∀ (f : LdvhForm) (s : State), (Instr.stvh f).wf = true → s.mayIssue (some (f.gi, f.gp)) [.s f.i, .v f.v] →
    handleServes (s.core.hregs.get f.h.toFin) true (dOff s.core f.i f.disp).toNat 128 8 → s.core.cnt.s < 63 →
    s.core.slog.length < 256 →
    exec (.stvh f) s = .next (s.committed (fun c => { c with
      dacc := c.dacc ++ [newAccess c f.cls f.h f.i f.disp (.stvh (c.vreg f.v))], nextAcc := c.nextAcc + 1
      cnt := { c.cnt with s := c.cnt.s + 1 } })))

/-- R169, R171: a remote atomic leaves as an access of the strand, its destinations pending and nothing stored; a seventeenth
waits. -/
def Obligations.RemoteAtomicsLeave : Prop :=
  ∀ e ∈ remoteRows, ∀ (f : AtForm) (s : State), (e.1 f).wf = true → s.mayIssue (some (f.gi, f.gp)) [.s f.a, .s f.b, .s f.c] →
    (s.core.sreg f.a).getLsbD 63 = true → zeros (s.core.sreg f.a) 54 9 → zeros (s.core.sreg f.a) 20 24 →
    (s.core.sreg f.a).toNat % 2 ^ 20 % (if e.2.2.1 then 2 * ab f else ab f) = 0 →
    (s.core.atomicsOut < 16 → exec (e.1 f) s = .next (s.committed (fun c =>
      let d := if e.2.2.2 then (c.makePending (.s f.d)).makePending (.p f.pd) else c.makePending (.s f.d)
      { d with
        dacc := d.dacc ++ [{ id := c.nextAcc, ord := c.issueNo, opc := c.pc, cls := f.cls
                             kind := .atomic e.2.1 f.w f.d f.pd (c.sreg f.b) (c.sreg f.c) (c.sreg f.a), h := Handle.empty
                             off := BitVec.ofNat 64 ((c.sreg f.a).toNat % 2 ^ 20), st := .queued, after := [], again := false, fresh := false }]
        nextAcc := c.nextAcc + 1 }))) ∧
    (16 ≤ s.core.atomicsOut → exec (e.1 f) s = .next s)

/-- R168 to R171, R174, R175: atomics on the own scratchpad; fences. -/
def Obligations.LocalAtomicsAndFences : Prop :=
  ((∀ e ∈ atomRows, ∀ (f : AtForm) (s : State), goLs (e.1 f) f.gi f.gp f.cls s [.s f.a, .s f.b, .s f.c] →
    atomReady f s.core (ab f) → alone s.core [(s.core.sreg f.a).toNat] (ab f) →
    exec (e.1 f) s = .next (s.committedAsks (wordsAt [(s.core.sreg f.a).toNat] (ab f)) (fun c => atomDone f none (e.2 (8 * ab f) (c.spad.readN (c.sreg f.a).toNat (ab f))
      ((c.sreg f.b).toNat % 2 ^ (8 * ab f))) 0 c))) ∧
  (∀ e ∈ atomPredRows, ∀ (f : AtForm) (s : State), goLs (e.1 f) f.gi f.gp f.cls s [.s f.a, .s f.b, .s f.c] →
    atomReady f s.core (if e.2.1 then 2 * ab f else ab f) → alone s.core [(s.core.sreg f.a).toNat] (if e.2.1 then 2 * ab f else ab f) →
    exec (e.1 f) s = .next (s.committedAsks (wordsAt [(s.core.sreg f.a).toNat] (if e.2.1 then 2 * ab f else ab f)) (fun c =>
      let a := (c.sreg f.a).toNat
      let r := e.2.2 (8 * ab f) (c.spad.readN a (ab f)) (c.spad.readN (a + ab f) (ab f)) ((c.sreg f.b).toNat % 2 ^ (8 * ab f))
        ((c.sreg f.c).toNat % 2 ^ (8 * ab f))
      atomDone f (some r.2) r.1 0 c))) ∧
  (∀ (f : AtForm) (s : State), goLs (.aincw f) f.gi f.gp f.cls s [.s f.a, .s f.b, .s f.c] → atomReady f s.core (2 * ab f) →
    alone s.core [(s.core.sreg f.a).toNat] (2 * ab f) →
    exec (.aincw f) s = .next (s.committedAsks (wordsAt [(s.core.sreg f.a).toNat] (2 * ab f)) (fun c =>
      let a := (c.sreg f.a).toNat
      let x := c.spad.readN a (ab f)
      let y := c.spad.readN (a + ab f) (ab f)
      atomDone f none (if y ≠ 0 ∧ y ≤ x + 1 then 0 else (x + 1) % 2 ^ (8 * ab f)) 0 c))) ∧
  (∀ (f : AtForm) (s : State), goLs (.afadd f) f.gi f.gp f.cls s [.s f.a, .s f.b, .s f.c] → atomReady f s.core 4 →
    alone s.core [(s.core.sreg f.a).toNat] 4 →
    exec (.afadd f) s = .next (s.committedAsks (wordsAt [(s.core.sreg f.a).toNat] 4) (fun c =>
      let r := roundTo fmtFp32 0 false (preAdd 0 (decodeFloat fmtFp32 (c.spad.readN (c.sreg f.a).toNat 4))
        (decodeFloat fmtFp32 ((c.sreg f.b).toNat % 2 ^ 32)))
      atomDone f none r.1 r.2 c)))) ∧
  ((∀ (f : FenceForm) (s : State), (Instr.fence f).wf = true → s.mayIssue (some (f.gi, f.gp)) [] →
    exec (.fence f) s = .next (s.committed (fun c => { c with fences := c.fences ++
      [{ mask := f.mask, ord := c.issueNo
         waits := (c.dacc.filter (fun a => a.st != .performed && f.mask.getLsbD a.cls.toNat)).map (·.id) }] }))) ∧
  (∀ (f : FenceScForm) (s : State), (Instr.fenceSc f).wf = true → s.mayIssue (some (f.gi, f.gp)) [] →
    (∀ a ∈ s.core.dacc, a.st = .performed) →
    (f.scope = 0 ∨ s.fenceBusy f.scope (s.core.fenceLate.getD s.core.unfired) = false) →
    exec (.fenceSc f) s = .next (s.committed id)) ∧
  (∀ (f : FenceScForm) (s : State), (Instr.fenceSc f).wf = true → s.mayIssue (some (f.gi, f.gp)) [] →
    ((∃ a ∈ s.core.dacc, a.st ≠ .performed) ∨
      (f.scope ≠ 0 ∧ s.fenceBusy f.scope (s.core.fenceLate.getD s.core.unfired) = true)) →
    exec (.fenceSc f) s = .next (s.setCore { s.core with fenceLate := some (s.core.fenceLate.getD s.core.unfired) })))

/-- R8, R180 to R182: matrix commands enter their queue. -/
def Obligations.MatrixCommandsEnter : Prop :=
  (∀ (f : MForm) (s : State), goM (.mma f) s →
    let c := s.core
    let fa := c.fmt (field 15 4 f.ops)
    let fb := c.fmt (field 11 4 f.ops)
    let ra := c.rings.get (field 22 3 f.ops : BitVec 3).toFin
    let rb := c.rings.get (field 19 3 f.ops : BitVec 3).toFin
    fmtV fa = true → fmtV fb = true → exactBf16 fa = true → fmtStore fa = 16 → bFormatOk fb = true →
    (f.ops.getLsbD 9 = true → fmtStore fb = 4 ∧ zeros (sg c 1) 6 58 ∧ (sg c 1).toNat % 64 ∈ [8, 16, 32]) →
    (f.ops.getLsbD 8 = true → fmtStore fb = 4 ∧ f.ops.getLsbD 9 = false) →
    zeros (sg c 0) 13 51 → 1 ≤ (sg c 0).toNat % 2 ^ 13 → (sg c 0).toNat % 2 ^ 13 ≤ 4096 →
    ra.count ≠ 0 → rb.count ≠ 0 → (field 22 3 f.ops : BitVec 3) ≠ field 19 3 f.ops → 2048 ≤ ra.size * 128 →
    (if fmtStore fb = 16 then 2048 else if fmtStore fb = 8 then 1024
      else if f.ops.getLsbD 9 then 128 + 8 * ((sg c 1).toNat % 64) else if f.ops.getLsbD 8 then 528 else 512) ≤ rb.size * 128 →
    ∃ q, entered c q .mma f.ops 0 ∧ q.fa = fa ∧ q.fb = fb ∧
      exec (.mma f) s = .next (mEntered s q (field 25 2 f.ops) true)) ∧
  (∀ (f : MForm) (s : State), goM (.mepi f) s → fmtV (s.core.fmt (field 15 4 f.ops)) = true →
    fmtKind (s.core.fmt (field 15 4 f.ops)) ≤ 4 → 8 ≤ fmtStore (s.core.fmt (field 15 4 f.ops)) → zeros (sg s.core 2) 36 28 →
    ∃ q, entered s.core q .mepi f.ops 0 ∧ q.fa = s.core.fmt (field 15 4 f.ops) ∧
      exec (.mepi f) s = .next (mEntered s q (field 25 2 f.ops) false)) ∧
  (∀ (f : MForm) (s : State), goM (.msend f) s → (sg s.core 3).toNat / 2 ^ 10 % 4 ≠ 3 → zeros (sg s.core 3) 12 52 →
    zeros (sg s.core 4) 20 12 → zeros (sg s.core 4) 52 12 →
    ((sg s.core 5).getLsbD 15 = true → relOk s.core .m 5 (sg s.core 5) ∧ zeros (sg s.core 5) 12 3 ∧ zeros (sg s.core 5) 24 40) →
    ∃ q, entered s.core q .msend f.ops 0 ∧ exec (.msend f) s = .next (mEntered s q (field 25 2 f.ops) false)) ∧
  (∀ (f : MForm) (s : State), goM (.mred f) s → zeros (sg s.core 4) 20 12 → zeros (sg s.core 4) 52 12 →
    zeros (sg s.core 6) 32 32 →
    ∃ q, entered s.core q .mred f.ops 0 ∧ exec (.mred f) s = .next (mEntered s q (field 25 2 f.ops) true)) ∧
  (∀ (f : MForm) (s : State), goM (.mclr f) s →
    ∃ q, entered s.core q .mclr f.ops 0 ∧ exec (.mclr f) s = .next (mEntered s q (field 25 2 f.ops) true)) ∧
  (∀ (f : MForm) (s : State), goM (.mstat f) s →
    ∃ q, entered s.core q .mstat f.ops 0 ∧ exec (.mstat f) s = .next (s.committed (fun c =>
      { (({ c with mat := { c.mat with queue := c.mat.queue ++ [q] } } : Core).makePending (.s (field 21 6 f.ops))) with
        cnt := { c.cnt with m := c.cnt.m + 1 } })))

/-- R8, R189, R190, R196, R197: copy commands enter their queue; a `kfill` with CFG configures its ring. -/
def Obligations.CopyCommandsEnter : Prop :=
  (∀ (f : KForm) (s : State), goK (.kcpy f) s → cx6Ok s.core true true false → cx2Ok s.core →
    ∃ q, entered s.core q .kcpy (kb f) 16 ∧ q.sh = s.core.hregs.get (field 0 4 (sg s.core 22) : BitVec 4).toFin ∧
      q.dh = s.core.hregs.get (field 5 4 (sg s.core 22) : BitVec 4).toFin ∧ exec (.kcpy f) s = .next (kEntered s q)) ∧
  (∀ (f : KForm) (s : State), goK (.kput f) s → cx6Ok s.core false false false → cx2Ok s.core →
    ∃ q, entered s.core q .kput (kb f) 16 ∧ exec (.kput f) s = .next (kEntered s q)) ∧
  (∀ (f : KForm) (s : State), goK (.kloc f) s → cx6Ok s.core false false false → cx2Ok s.core →
    ∃ q, entered s.core q .kloc (kb f) 16 ∧ exec (.kloc f) s = .next (kEntered s q)) ∧
  (∀ (f : KForm) (s : State), goK (.kzero f) s → cx6Ok s.core false true false → cx2Ok s.core →
    ∃ q, entered s.core q .kzero (kb f) 16 ∧ exec (.kzero f) s = .next (kEntered s q)) ∧
  (∀ (f : KForm) (s : State), goK (.kdec f) s → cx6Ok s.core true false false → zeros (sg s.core 18) 48 16 →
    (sg s.core 18).toNat / 2 ^ 32 % 2 ^ 16 = 1 → zeros (sg s.core 23) 20 44 → (sg s.core 23).toNat % 2 ^ 20 ≠ 0 →
    (∀ i < 16, (sg s.core 21).toNat / 16 ^ i % 16 ≤ 12) → kdecFinal (sg s.core 21) = 8192 →
    ∃ q, entered s.core q .kdec (kb f) 16 ∧ exec (.kdec f) s = .next (kEntered s q)) ∧
  (∀ i ∈ [Instr.kfill, Instr.kfillConfigure], ∀ (f : KForm) (s : State), goK (i f) s → cx6Ok s.core true false true →
    (sg s.core 22).getLsbD 11 = false → cx2Ok s.core → (s.core.rings.get f.ring.toFin).count ≠ 0 →
    (sg s.core 18).toNat / 2 ^ 32 % 2 ^ 16 * ((sg s.core 18).toNat % 2 ^ 32) ≤ (s.core.rings.get f.ring.toFin).size * 128 →
    ∃ q, entered s.core q .kfill (kb f) 16 ∧ exec (i f) s = .next (kEntered s q)) ∧
  (∀ i ∈ [Instr.kfill, Instr.kfillConfigure], ∀ (f : KForm) (s : State), goK (i f) s → cx6Ok s.core true false true →
    (sg s.core 22).getLsbD 11 = true →
    let x := (sg s.core 23).toNat
    zeros (sg s.core 23) 39 25 → zeros (sg s.core 23) 30 2 →
    (x / 2 ^ 32 % 128 ≠ 0 → 1 ≤ x / 2 ^ 20 % 1024 ∧ x / 2 ^ 20 % 1024 ≤ 512 ∧ x / 2 ^ 32 % 128 ≤ 64 ∧ x % 128 = 0 ∧
      x % 2 ^ 20 + x / 2 ^ 20 % 1024 * 128 * (x / 2 ^ 32 % 128) ≤ s.core.spend) →
    (s.core.rings.get f.ring.toFin).fill = 0 → s.core.ringBusy f.ring = false →
    ∃ q, entered s.core q .kfill (kb f) 16 ∧ exec (i f) s = .next (s.committed (fun c =>
      { c with
        cpy := { c.cpy with queue := c.cpy.queue ++ [q] }, cnt := { c.cnt with k := c.cnt.k + 1 }
        rings := c.rings.set f.ring.toFin
          { fill := 0, tail := 0, head := 0, tags := Vector.replicate 64 0, count := x / 2 ^ 32 % 128
            size := if x / 2 ^ 32 % 128 = 0 then 0 else x / 2 ^ 20 % 1024
            base := if x / 2 ^ 32 % 128 = 0 then 0 else x % 2 ^ 20 } })))

/-- R8, R198 to R206: channel commands enter their queue. -/
def Obligations.ChannelCommandsEnter : Prop :=
  (∀ (f : NForm) (s : State), goN (.nsend f) s true → sendOk f s.core →
    ∃ q, entered s.core q .nsend (nb f) 32 ∧ exec (.nsend f) s = .next (nEntered s q true)) ∧
  (∀ (f : NForm) (s : State), goN (.nsendt f) s true → sendOk f s.core → zeros (sg s.core 34) 20 44 → zeros (sg s.core 35) 32 32 →
    ∃ q, entered s.core q .nsendt (nb f) 32 ∧ exec (.nsendt f) s = .next (nEntered s q true)) ∧
  (∀ (f : NForm) (s : State), goN (.nrot f) s true → sendOk f s.core → (sg s.core (40 + f.aws.toNat)).getLsbD 63 = true →
    ∃ q, entered s.core q .nrot (nb f) 32 ∧ exec (.nrot f) s = .next (nEntered s q true)) ∧
  (∀ (f : NForm) (s : State), goN (.ngsend f) s true → sendOk f s.core → relOk s.core .n 5 (sg s.core 37) →
    zeros (sg s.core 37) 12 4 → zeros (sg s.core 37) 24 40 →
    ∃ q, entered s.core q .ngsend (nb f) 32 ∧ exec (.ngsend f) s = .next (nEntered s q true)) ∧
  (∀ (f : NForm) (s : State), goN (.npost f) s false → zeros (sg s.core 32) 20 44 → zeros (sg s.core 33) 32 32 →
    (sg s.core 33).toNat % 2 ^ 32 ≤ 0xC0000 →
    ((sg s.core 33).toNat % 2 ^ 32 ≠ 0 → (sg s.core (40 + f.aws.toNat)).getLsbD 63 = true ∧
      zeros (sg s.core (40 + f.aws.toNat)) 20 43) →
    ∃ q, entered s.core q .npost (nb f) 32 ∧ exec (.npost f) s = .next (nEntered s q false)) ∧
  (∀ (f : NForm) (s : State), goN (.npush f) s true → zeros (sg s.core 32) 20 44 → (sg s.core 36).toNat < 131072 →
    ∃ q, entered s.core q .npush (nb f) 32 ∧ exec (.npush f) s = .next (nEntered s q true)) ∧
  (∀ (f : NForm) (s : State), goN (.nclose f) s false → (sg s.core 36).toNat < 131072 →
    ∃ q, entered s.core q .nclose (nb f) 32 ∧ exec (.nclose f) s = .next (nEntered s q false)) ∧
  (∀ (f : NForm) (s : State), goN (.ndisarm f) s false →
    ∃ q, entered s.core q .ndisarm (nb f) 32 ∧ exec (.ndisarm f) s = .next (nEntered s q false)) ∧
  (∀ (f : NForm) (s : State), goN (.npop f) s false → (sg s.core 36).toNat < 131072 →
    ∃ q t, entered s.core q .npop (nb f) 32 ∧ exec (.npop f) s = .next t ∧ t.core.chn.queue = s.core.chn.queue ++ [q] ∧
      t.core.cnt = s.core.cnt ∧ (∀ i < 8, t.core.isPending (.s (BitVec.ofNat 6 (56 + i))) = true) ∧
      (field 9 3 f.ops ≠ (0 : BitVec 3) → t.core.isPending (.p (field 9 3 f.ops)) = true) ∧
      t.core.sregs = s.core.sregs ∧ t.core.pregs = s.core.pregs ∧ t.core.spad = s.core.spad)

namespace Sys2Proof.Claims

open Sys2Proof Sys2Proof.Machine

/-! ### Engines -/

/-- The matrix engine takes up its head command: on, not stopped, not held by a table fault or a `qfence` (R127, R178, R184). -/
def mGoes (c : Core) (k : Cmd) (rest : List Cmd) : Prop :=
  c.mat.queue = k :: rest ∧ c.engineOn = true ∧ c.mat.stopped = false ∧ c.mat.held = false ∧ c.qHeld 3 k.ord = false

/-- A command as its execution starts in cycle `n`. -/
def started (k : Cmd) (n : Nat) : MExec :=
  { cmd := k, since := n, pass := 0, passes := [], row := 0, fl := 0, failed := none, segs := [], expect := none, want := [], got := []
    out := [], accept := none }

/-- The epilogue command `e` may have row `e.row` taken in cycle `n` (R178, R184, R185). -/
def rowReady (c : Core) (e : MExec) (n : Nat) : Prop :=
  c.mat.epi = some e ∧ e.failed = none ∧ c.mat.stopped = false ∧ c.engineOn = true ∧ e.row < 16 ∧ e.since + e.row ≤ n ∧
    e.row < c.rowsFinal (accOf e.cmd.ops) e.cmd.ord n

/-- None of the words that `n` bytes at `a` touch is poisoned. -/
def sound (c : Core) (a n : Nat) : Prop := ∀ w ∈ c.poison, ¬ (a < 8 * w + 8 ∧ 8 * w < a + n)

/-- No byte outside the `n` from `a` on differs. -/
def keeps (m m' : Mem) (a n : Nat) : Prop := ∀ b, ¬ (a ≤ b ∧ b < a + n) → m'.read b = m.read b

/-- Bytes `bs` stand from `a` on. -/
def holds (m : Mem) (a : Nat) (bs : List (BitVec 8)) : Prop := ∀ j < bs.length, m.read (a + j) = bs.getD j 0

/-- Core `c'` is `c` with one access more before its bank units: a write of `bs` from `a` on (R210). -/
def asksWrite (c c' : Core) (o : XferOwner) (port a : Nat) (bs : List (BitVec 8)) : Prop :=
  ∃ x, c'.xfers = c.xfers ++ [x] ∧ x.owner = o ∧ x.port = port ∧ x.write = true ∧
    x.put = (List.range bs.length).map (fun j => (a + j, bs.getD j 0)) ∧ ∀ w, w ∈ x.todo ↔ ∃ j < bs.length, w = (a + j) / 8

/-- The same, a read of `n` bytes. -/
def asksRead (c c' : Core) (o : XferOwner) (port a n : Nat) : Prop :=
  c'.xfers = c.xfers ++ [{ owner := o, port, todo := wordsOf a n, put := [], write := false, got := [] }]

/-- The element's bits after `mepi`'s scale and rounding, and its flags (R59, R185). -/
def epilogued (c : Core) (k : Cmd) (i j : Nat) : Nat × Flags :=
  let x := decodeWide (elem c (field 25 2 k.ops) i j)
  let p := if k.ops.getLsbD 6 then
      preMul x (decodeFloat fmtFp32 ((c.zregs.get (field 7 4 k.ops : BitVec 4).toFin).toNat / 2 ^ (32 * j) % 2 ^ 32))
    else x.pre
  let r := roundTo k.fa (field 12 3 k.ops) (k.ops.getLsbD 11) p
  (r.1, r.2 ||| (if x.nonFinite then flNF else 0))

/-- A row of a command done: the next row, or after row 15 the command retired (R20, R49, R187, R188). -/
def rowDone (e : MExec) (now : Option MExec) (fl : Flags) (c c' : Core) : Prop :=
  (e.row < 15 → now = some { e with row := e.row + 1, fl := e.fl ||| fl } ∧ c'.mat.retired = c.mat.retired) ∧
    (e.row = 15 → now = none ∧ c'.mat.retired = c.mat.retired + 1 ∧ c'.mat.fl = c.mat.fl ||| (e.fl ||| fl))

/-- A row of `mred` or `mclr` in execution that is due (R187, R188). -/
def rowDue (c : Core) (kind : CmdKind) (e : MExec) (n : Nat) : Prop :=
  c.mat.exec = some e ∧ e.cmd.kind = kind ∧ e.failed = none ∧ c.engineOn = true ∧ e.since < n

/-- Bytes of an element that `msend` sends or `mred` reads, by format code (R186, R187). -/
def partBytes (f : BitVec 2) : Nat := if f = 0 then 16 else if f = 1 then 4 else 2

/-- The number that `n` bytes at `a` of words read make. -/
def gotNat (got : Tab Word) (a n : Nat) : Nat :=
  ((List.range n).map (fun j => (Tab.getD got ((a + j) / 8) 0).toNat / 256 ^ ((a + j) % 8) % 256 * 256 ^ j)).sum

/-- The place of row `i` of the partial that `mred` adds (R187). -/
def partAt (k : Cmd) (i : Nat) : Nat := (k.stg.getD 4 0).toNat / 2 ^ 32 % 2 ^ 20 + 16 * i * partBytes (field 23 2 k.ops)

/-- The partial's element (i, j) that `mred` adds, out of the words read (R187). -/
def incoming (k : Cmd) (got : Tab Word) (i j : Nat) : Sys2Proof.Machine.Num :=
  let n := partBytes (field 23 2 k.ops)
  let a := partAt k i + j * n
  if n = 16 then decodeWide (BitVec.ofNat 96 (gotNat got a 12))
  else if n = 4 then decodeFloat fmtFp32 (gotNat got a 4) else decodeFloat fmtBf16 (gotNat got a 2)

/-- The words of row `i` of a partial, as a `mred` asks for them. -/
def partWants (k : Cmd) (i : Nat) : List (Nat × Nat) :=
  (wordsOf (partAt k i) (16 * partBytes (field 23 2 k.ops))).map (fun w => (0, w))

/-- `mred`'s arrival word, as it asks for it: its two words are one operation (R187, R239). -/
def genWant (k : Cmd) : List (Nat × Nat) := [(0, pairWord ((k.stg.getD 4 0).toNat % 2 ^ 20 / 8))]

/-- A GEN read has reached RGEN (R187). -/
def partCame (e : MExec) : Prop :=
  ∃ w, Tab.get? e.got ((e.cmd.stg.getD 4 0).toNat % 2 ^ 20 / 8 + 1) = some w ∧
    ((field 0 32 w : BitVec 32) - field 0 32 (e.cmd.stg.getD 6 0)).toNat < 2 ^ 31

/-- A copy as its execution starts. -/
def copying (c : Core) (k : Cmd) : KExec :=
  { cmd := k, next := 0, chunks := [], data := [], blocks := [], bit := 0, held := false, failed := none, failedAt := 0, total := k.chunkCount
    drawerDone := !k.drawerSide || k.chunkCount == 0, mark := c.nextAcc }

/-- The core with a read of an armed send's trigger word begun: both of its words as one operation, through port 4 (R202, R210, R239). -/
def asking (c : Core) (k : Cmd) : Core :=
  { c with xfers := c.xfers ++
      [{ owner := .trigger k.ord, port := 4, todo := [pairWord (k.taw / 8)], put := [], write := false, got := [] }] }

/-- GEN as that read has brought it has reached TGEN (R160, R202). -/
def came (c : Core) (k : Cmd) : Bool :=
  decide ((BitVec.ofNat 32 (bytesNat (c.xferBytes (.trigger k.ord) (k.taw + 8) 4)) - k.tgen).toNat < 2 ^ 31)

/-- A packet that has come whole to its tile and is the next of its channel there (R228, R231, R234). -/
def standing (s : State) (p : Packet) : Prop :=
  s.net.find? (fun q => q.id == p.id) = some p ∧ p.place = .net ∧ p.arrived = p.flits ∧ 1 < p.flits ∧ p.begun = 0 ∧ p.done = 0 ∧
    (s.coreAt p.dst).takes p = true ∧ s.takenBefore p = true ∧ s.inSeq p = true ∧ (s.coreAt p.dst).xfersOf (.packet p.id) = []

/-- A packet that its tile has taken in and that has come whole. -/
def atTile (s : State) (p : Packet) (base : Nat) (aw : Option Nat) : Prop :=
  s.net.find? (fun q => q.id == p.id) = some p ∧ p.place = .taken base aw ∧ p.arrived = p.flits ∧ (s.coreAt p.dst).frozen = false

/-- A message or reply that its network has brought to its tile in order, the tile taking packets in (R228, R231). -/
def arrived (s : State) (p : Packet) : Prop :=
  s.net.find? (fun q => q.id == p.id) = some p ∧ p.wholeDue ≤ s.cycle ∧ p.stuck = false ∧ (s.coreAt p.dst).takes p = true ∧ p.place = .net ∧
    s.inSeq p = true

/-- The master of a packet may reach its target in the way asked, and the target is no home tile (R283, R322). -/
def granted (s : State) (p : Packet) (bit : Nat) : Prop := (s.grant p.dst p.ctx).getLsbD bit = true ∧ s.isHome p.dst = false

/-- The target's gang has started, and the packet names no other member (R235, R269). -/
def welcome (s : State) (p : Packet) : Prop := (∃ g, s.gangOf p.dst = some g ∧ g.started = true) ∧ p.expect = none

/-- The core with the data flits of a deposit at `a` on their way through the bank units, each an access of its own (R210, R247). -/
def writing (c : Core) (p : Packet) (port a : Nat) : Core :=
  (List.range (p.flits - 1)).foldl (fun x k =>
    x.beginWrite (.packet p.id) port (bytesAt (a + 64 * k) ((p.data.drop (64 * k)).take 64))) c

/-- The step of a deposit that takes it in at `a`, counted at `aw` (R200, R201, R235): its flits begin to be written. -/
def takenIn (s t : State) (p : Packet) (port a : Nat) (aw : Option Nat) : Prop :=
  t.coreAt p.dst = writing (s.coreAt p.dst) p port a ∧
    t.net = s.net.map (fun q => if q.id = p.id then { p with place := .taken a aw, begun := p.flits - 1 } else q)

end Sys2Proof.Claims

open Sys2Proof Sys2Proof.Machine Sys2Proof.Claims

/-- R183, R184, R187, R188, R210, R212, R213, R216 to R219: matrix commands leave the head of their queue, unless a row of their
accumulator is still on its way from a `vaccw` (the wait at dispatch is log 95); a `mred` asks the bank units for its arrival word as one
operation. A pass of `mma` takes its slots and asks for its words, among them the masks of a sparse B in the first cycle of the pass
(log 101); a word not served, or a pass that waits for a slot, holds the whole array (log 102 where the array has taken every slot);
a column of a sparse B with another count of bits stops the pass before it changes an element. -/
def Obligations.MatrixCommandsAndPasses : Prop :=
  (∀ (s : State) (t : Nat) (k : Cmd) (rest : List Cmd), mGoes (s.coreAt t) k rest →
    ((s.coreAt t).rowHeld k = true → exec (.matrixDispatch t) s = .next (s.at t)) ∧
    ((s.coreAt t).rowHeld k = false → (s.coreAt t).mat.exec = none → (s.coreAt t).mat.epi = none → (k.kind = .mma ∨ k.kind = .mclr) →
      exec (.matrixDispatch t) s = .next ((s.at t).setCore { s.coreAt t with
        mat := { (s.coreAt t).mat with queue := rest, exec := some (started k s.cycle) } })) ∧
    ((s.coreAt t).rowHeld k = false → (s.coreAt t).mat.exec = none → (s.coreAt t).mat.epi = none → k.kind = .mred →
      (s.coreAt t).mredCheck k = none →
      exec (.matrixDispatch t) s = .next ((s.at t).setCore { s.coreAt t with
        mat := { (s.coreAt t).mat with queue := rest, exec := some { started k s.cycle with want := genWant k } } })) ∧
    ((s.coreAt t).rowHeld k = false → (s.coreAt t).mat.epi = none → k.kind = .mepi → (s.coreAt t).mepiCheck k = none →
      exec (.matrixDispatch t) s = .next ((s.at t).setCore { s.coreAt t with
        mat := { (s.coreAt t).mat with queue := rest, epi := some (started k s.cycle) } })) ∧
    ((s.coreAt t).rowHeld k = false → (s.coreAt t).mat.exec = none → (s.coreAt t).mat.epi = none → k.kind = .mstat →
      ∃ u x, exec (.matrixDispatch t) s = .next u ∧ u.cur = t ∧ u.core.mat.queue = rest ∧
        u.core.mat.retired = (s.coreAt t).mat.retired + 1 ∧
        u.core.inflight = (s.coreAt t).inflight ++
          [{ w := .s (field 21 6 k.ops) x, fl := 0, slot := .m, rem := 1, lat := 1, ord := k.ord, late := true }] ∧
        ((s.coreAt t).mat.passes < 2 ^ 16 → x.toNat / 2 ^ 16 = (s.coreAt t).mat.passes ∧
          ∀ a : BitVec 2, x.getLsbD a.toNat = ((s.coreAt t).accs.get a.toFin).toList.any (fun y => (decodeWide y).nonFinite)))) ∧
  (∀ (s : State) (t : Nat) (e : MExec), let c := s.coreAt t
    let ra := c.rings.get e.cmd.ringA.toFin
    let rb := c.rings.get e.cmd.ringB.toFin
    c.mat.exec = some e → e.cmd.kind = .mma → e.failed = none → e.pass < e.cmd.passCount → e.passes = [] → c.engineOn = true →
    0 < ra.fill → 0 < rb.fill → c.passCause e (ra.head % ra.count) (rb.head % rb.count) = none →
    ∃ u e', exec (.mmaPassStart t) s = .next u ∧ u.cur = t ∧ u.core.mat.exec = some e' ∧ e'.pass = e.pass + 1 ∧
      e'.passes = [{ p := e.pass, start := s.cycle, slotA := ra.head % ra.count, slotB := rb.head % rb.count
                     book := c.kregs.get (BitVec.ofNat 3 (fmtCB e.cmd.fb)).toFin, cycles := 0
                     got := [] }] ∧
      u.core.rings = c.rings ∧ u.core.spad = c.spad ∧ u.core.accs = c.accs ∧
      (e.cmd.sparse = false → (e.pass, c.slotAddr e.cmd.ringA (ra.head % ra.count) e.cmd.swz 0 / 8) ∈ e'.want) ∧
      (e.cmd.sparse = true → ∀ j < 16,
        (e.pass, c.slotAddr e.cmd.ringB (rb.head % rb.count) e.cmd.swz (8 * j) / 8) ∈ e'.want)) ∧
  (∀ (c : Core) (e : MExec), c.mat.exec = some e → e.cmd.kind = .mma →
    (e.want ≠ [] ∨ (∃ ps ∈ e.passes, c.passWants e.cmd ps ≠ []) ∨ c.slotWait e = true → c.advanceArray.accs = c.accs ∧
      c.advanceArray.mat.exec = some { e with passes := e.passes.map (fun ps => { ps with start := ps.start + 1 }) }) ∧
    (∀ ps j, e.want = [] → c.passWants e.cmd ps = [] → c.slotWait e = false → e.passes = [ps] → ps.cycles = 0 →
      e.cmd.sparse = true → j < 16 → (c.keptRows e.cmd ps.got ps.slotB j).length ≠ e.cmd.kept →
      c.advanceArray.accs = c.accs ∧ c.advanceArray.rings = c.rings ∧ c.advanceArray.spad = c.spad ∧
      c.advanceArray.mat.stopped = true ∧ ∃ e' x, c.advanceArray.mat.exec = some e' ∧ e'.pass = ps.p ∧ e'.passes = [] ∧
        e'.failed = some x ∧ x.code = 0x0F ∧ x ∈ c.advanceArray.deferred) ∧
    (∀ ps, e.want = [] → c.passWants e.cmd ps = [] → c.slotWait e = false → e.passes = [ps] → ps.cycles = 0 →
      (e.cmd.sparse = true → c.maskFault e.cmd ps = none) →
      c.advanceArray.spad = c.spad ∧ (∃ e', c.advanceArray.mat.exec = some e' ∧ e'.passes = [{ ps with cycles := 1 }]) ∧
      (∀ i, 0 < i → i < 16 → ∀ j < 16, elem c.advanceArray (accOf e.cmd.ops) i j = elem c (accOf e.cmd.ops) i j) ∧
      (e.cmd.zeroInit = false → ∀ j < 16, elem c.advanceArray (accOf e.cmd.ops) 0 j =
        (stepCell (elem c (accOf e.cmd.ops) 0 j) (c.stepFactors e.cmd ps 0 j 0)).1))) ∧
  (∀ (s : State) (t : Nat) (e : MExec) (ps : Pass), let c := s.coreAt t
    c.mat.exec = some e → e.passes = [ps] → e.cmd.ringA ≠ e.cmd.ringB → ps.start + 15 + e.cmd.passShape.1 ≤ s.cycle →
    ps.p + 1 = e.cmd.passCount →
    ∃ u, exec (.mmaPassRetire t) s = .next u ∧ u.cur = t ∧ u.core.mat.exec = none ∧ u.core.mat.passes = e.cmd.passCount ∧
      u.core.mat.retired = c.mat.retired + 1 ∧ u.core.cnt = c.cnt ∧
      ∀ g : BitVec 3, u.core.rings.get g.toFin =
        (if g = e.cmd.ringA ∨ g = e.cmd.ringB then
          { c.rings.get g.toFin with
            head := ((c.rings.get g.toFin).head + 1) % (c.rings.get g.toFin).count, fill := (c.rings.get g.toFin).fill - 1 }
        else c.rings.get g.toFin)) ∧
  (∀ (s : State) (t : Nat), ∃ u, exec (.accRowFinal t) s = .next u ∧ u.cur = t ∧ ∀ a : BitVec 2,
    (s.coreAt t).wmarks.get a.toFin ≤ u.core.wmarks.get a.toFin ∧
    ((∀ m ∈ (s.coreAt t).owners.get a.toFin, m.2 = false) → 16 ≤ u.core.wmarks.get a.toFin) ∧
    (∀ e m, (s.coreAt t).mat.exec = some e → e.cmd.kind ≠ .mma → (s.coreAt t).owners.get a.toFin = [m] → m = (e.cmd.ord, true) →
      u.core.wmarks.get a.toFin = max ((s.coreAt t).wmarks.get a.toFin) e.row))

/-- R185 to R188, R210: rows of `mepi`, `msend`, `mred` and `mclr`; behind its last row an epilogue command retires; a `mred` asks for
its arrival word until GEN has reached RGEN, then for its first row. -/
def Obligations.MatrixRows : Prop :=
  (∀ (s : State) (t : Nat) (e : MExec), let c := s.coreAt t
    let n := fmtStore e.cmd.fa / 8
    let a := (e.cmd.stg.getD 2 0).toNat % 2 ^ 20 + e.row * ((e.cmd.stg.getD 2 0).toNat / 2 ^ 20 % 2 ^ 16)
    rowReady c e s.cycle → e.cmd.kind = .mepi → sound c a (16 * n) →
    ∃ u, exec (.mepiRowWrite t) s = .next u ∧ u.cur = t ∧
      asksWrite c u.core .epiRow 2 a ((List.range 16).flatMap (fun j => leBytes n (epilogued c e.cmd e.row j).1)) ∧
      u.core.spad = c.spad ∧ u.core.mat.epi = some { e with
        row := e.row + 1, fl := e.fl ||| (List.range 16).foldl (fun f j => f ||| (epilogued c e.cmd e.row j).2) 0 }) ∧
  (∀ (s : State) (t : Nat) (e : MExec) (w : Walked), let c := s.coreAt t
    let data := (List.range 16).flatMap (fun j => leBytes 12 (elem c (field 25 2 e.cmd.ops) e.row j).toNat ++ leBytes 4 0)
    rowReady c e s.cycle → e.cmd.kind = .msend → e.out = [] → e.accept = none → field 10 2 (e.cmd.stg.getD 3 0) = (0 : BitVec 2) →
    (∀ j < 16, (decodeWide (elem c (field 25 2 e.cmd.ops) e.row j)).nonFinite = false) →
    (s.at t).hasCredit e.cmd.mch 5 = true → s.route t e.segs = .tile w →
    ∃ u p, exec (.msendRowSend t) s = .next u ∧ u.cur = t ∧ u.net = s.net ++ [p] ∧ p.kind = 1 ∧ p.src = t ∧ p.dst = w.tid ∧
      p.off = (e.cmd.stg.getD 4 0).toNat / 2 ^ 32 % 2 ^ 20 + 256 * e.row ∧ p.awv = true ∧
      p.aw = (e.cmd.stg.getD 4 0).toNat % 2 ^ 20 ∧ p.expect = e.expect ∧ p.data = data ∧
      u.core.mat.epi = some { e with row := e.row + 1, out := [(e.row, data)], accept := some (s.cycle + 5) }) ∧
  (∀ (c : Core) (e : MExec) (n : Nat), c.mat.epi = some e → e.failed = none → e.row = 16 → e.out = [] →
    (∀ x ∈ c.xfersOf .epiRow, x.todo = []) →
    (c.endEpi n).mat.epi = none ∧ (c.endEpi n).mat.retired = c.mat.retired + 1 ∧ (c.endEpi n).mat.fl = c.mat.fl ||| e.fl) ∧
  (∀ (s : State) (t : Nat) (e : MExec), let c := s.coreAt t
    let a := accOf e.cmd.ops
    let n := partBytes (field 23 2 e.cmd.ops)
    let fl := (List.range 16).foldl (fun f j => f |||
      (roundWide (preAdd 0 (decodeWide (elem c a e.row j)) (incoming e.cmd e.got e.row j))).2) 0
    rowDue c .mred e s.cycle → sound c (partAt e.cmd e.row) (16 * n) →
    (∀ w ∈ wordsOf (partAt e.cmd e.row) (16 * n), (Tab.get? e.got w).isSome = true) →
    (∀ j < 16, (decodeWide (elem c a e.row j)).nonFinite = false ∧ (incoming e.cmd e.got e.row j).nonFinite = false) →
    ∃ u, exec (.mredRowAdd t) s = .next u ∧ u.cur = t ∧
      (∀ i < 16, ∀ j < 16, elem u.core a i j =
        if i = e.row then (roundWide (preAdd 0 (decodeWide (elem c a i j)) (incoming e.cmd e.got i j))).1 else elem c a i j) ∧
      u.core.spad = c.spad ∧
      (e.row < 15 → u.core.mat.retired = c.mat.retired ∧
        u.core.mat.exec = some { e with row := e.row + 1, fl := e.fl ||| fl, got := [], want := partWants e.cmd (e.row + 1) }) ∧
      (e.row = 15 → u.core.mat.exec = none ∧ u.core.mat.retired = c.mat.retired + 1 ∧
        u.core.mat.fl = c.mat.fl ||| (e.fl ||| fl))) ∧
  (∀ (s : State) (t : Nat) (e : MExec), let c := s.coreAt t
    rowDue c .mred e s.cycle → e.row = 0 → (∀ x ∈ partWants e.cmd 0, Tab.get? e.got x.2 = none) →
    ∃ u, exec (.mredRowAdd t) s = .next u ∧ u.cur = t ∧ u.core.spad = c.spad ∧ u.core.accs = c.accs ∧
      (partCame e → u.core.mat.exec = some { e with want := partWants e.cmd 0 }) ∧
      (¬ partCame e → u.core.mat.exec = some { e with want := genWant e.cmd, got := [] })) ∧
  (∀ (s : State) (t : Nat) (e : MExec), let c := s.coreAt t
    rowDue c .mclr e s.cycle →
    ∃ u, exec (.mclrRowWrite t) s = .next u ∧ u.cur = t ∧
      (∀ i < 16, ∀ j < 16, elem u.core (accOf e.cmd.ops) i j = if i = e.row then 0 else elem c (accOf e.cmd.ops) i j) ∧
      rowDone e u.core.mat.exec 0 c u.core ∧ u.core.spad = c.spad)

/-- R191 to R193, R196, R210: a copy starts; a chunk between local places is read through port 3 of the bank units, then written
through it; the last one retires the copy; a read fault holds it. -/
def Obligations.CopyProgress : Prop :=
  (∀ (s : State) (t : Nat) (k : Cmd) (rest : List Cmd), let c := s.coreAt t
    c.cpy.queue = k :: rest → c.cpy.exec = none → c.engineOn = true → c.cpy.stopped = false → c.qHeld 2 k.ord = false →
    (k.drawerSide = true → c.qHeld 0 k.ord = false) → k.configures = false → c.copyCheck k = none →
    ((k.kind = .kput ∨ k.kind = .kloc) → (s.at t).reaches (entrySegs (c.routeEntry k.kch)) = true) →
    exec (.copyDispatch t) s = .next ((s.at t).setCore { c with cpy := { c.cpy with queue := rest, exec := some (copying c k) } })) ∧
  (∀ (s : State) (t : Nat) (e : KExec), let c := s.coreAt t
    let a := (e.cmd.srcOf e.next).toNat
    c.cpy.exec = some e → e.cmd.kind = .kcpy → e.cmd.sd = false → e.cmd.dd = false → e.chunks = [] →
    e.next < e.cmd.chunkCount → c.engineOn = true → c.cpy.stopped = false → e.held = false → e.failed = none →
    sound c a (e.cmd.chunkLen e.next) →
    ∃ u, exec (.chunkIssue t) s = .next u ∧ u.cur = t ∧ u.core.spad = c.spad ∧
      asksRead c u.core (.chunkRead e.next) 3 a (e.cmd.chunkLen e.next) ∧
      u.core.cpy.exec = some { e with chunks := [(e.next, .flying)] }) ∧
  (∀ (s : State) (t n : Nat) (e : KExec), let c := s.coreAt t
    let bs := c.xferBytes (.chunkRead n) (e.cmd.srcOf n).toNat (e.cmd.chunkLen n)
    c.cpy.exec = some e → e.cmd.kind = .kcpy → e.cmd.dd = false → e.chunks = [(n, .flying)] → c.xferDone (.chunkRead n) = true →
    sound c (e.cmd.dstOf n).toNat (e.cmd.chunkLen n) →
    ∃ u, exec (.chunkComplete t n) s = .next u ∧ (u.coreAt t).spad = c.spad ∧ (u.coreAt t).cpy.exec = some e ∧
      asksWrite (c.endXfer (.chunkRead n)) (u.coreAt t) (.chunkWrite n) 3 (e.cmd.dstOf n).toNat bs) ∧
  (∀ (s : State) (t n : Nat) (e : KExec), let c := s.coreAt t
    c.cpy.exec = some e → e.cmd.kind = .kcpy → e.chunks = [(n, .flying)] → e.next = n → c.xfersOf (.chunkRead n) = [] →
    e.blocks = [] → (∀ r ∈ s.reqs, ¬ (r.core = t ∧ r.owner = .chunk n)) → c.xferDone (.chunkWrite n) = true → e.cmd.counts = false → e.failed = none → c.cpy.stopped = false →
    ∃ u, exec (.chunkComplete t n) s = .next u ∧ (u.coreAt t).spad = c.spad ∧
      (n + 1 < e.cmd.chunkCount → (u.coreAt t).cpy.exec = some { e with next := n + 1, chunks := [] }) ∧
      (n + 1 = e.cmd.chunkCount → (u.coreAt t).cpy.exec = none ∧ (u.coreAt t).cnt.k = c.cnt.k - 1)) ∧
  (∀ (s : State) (t n ty lev : Nat) (en va : Word) (st : BitVec 16) (rest : Tab ChunkState) (e : KExec), let c := s.coreAt t
    c.cpy.exec = some e → e.chunks = (n, .faulted ty lev en va st) :: rest → (∀ x ∈ rest, x.2 ≠ .flying ∧ x.2 ≠ .logged) →
    e.held = false → e.failed = none →
    ∃ u r, exec (.chunkReadFault t) s = .next u ∧ u.fbWait = s.fbWait ++ [r] ∧ r.vaddr = va ∧ r.type = ty ∧ r.source = 2 ∧
      r.stamp = st ∧ r.chunk = n ∧ r.opc = e.cmd.opc.toNat ∧ (u.coreAt t).cpy.exec = some { e with held := true })

/-- R199 to R202, R228, R233, R239, R250: sends start, arm and fire, an armed one by reads of its trigger word that it makes one after
another (log 42); postings are set and cleared; a packet's header leaves, then its data
flits one by one, each read through port 4 just before; behind the last flit of the last packet the send retires. -/
def Obligations.ChannelProgress : Prop :=
  (∀ (s : State) (t : Nat) (k : Cmd) (rest : List Cmd), let c := s.coreAt t
    c.chn.queue = k :: rest → c.engineOn = true → c.chn.stopped = false → c.chn.held = false → c.chn.exec = none →
    c.chn.waiting = none → c.chn.fired = [] → c.qHeld 1 k.ord = false →
    (k.kind = .nsend → c.sendCheck k k.nbytes k.nxOn = none → (s.at t).reaches (entrySegs (c.routeEntry k.nch)) = true →
      exec (.channelDispatch t) s = .next ((s.at t).setCore { c with chn := { c.chn with
        queue := rest
        exec := some { cmd := k, next := 0, src := k.laddr, roff := k.roff, segs := entrySegs (c.routeEntry k.nch)
                       dch := entryDch (c.routeEntry k.nch), expect := none, pkt := none, flit := 0 } } })) ∧
    (k.kind = .npost → k.nbytes ≠ 0 → c.sendCheck k k.nbytes true = none →
      exec (.channelDispatch t) s = .next ((s.at t).setCore { c with chn := { c.chn with
        queue := rest, posts := Tab.put c.chn.posts k.nch { base := k.laddr, bytes := k.nbytes, aw := k.nxAw } } })) ∧
    (k.kind = .npost → k.nbytes = 0 → k.laddr % 8 = 0 →
      exec (.channelDispatch t) s = .next ((s.at t).setCore { c with chn := { c.chn with
        queue := rest, posts := Tab.del c.chn.posts k.nch } })) ∧
    (k.kind = .nsendt → c.sendCheck k k.nbytes k.nxOn = none → (s.at t).reaches (entrySegs (c.routeEntry k.nch)) = true →
      (∀ x ∈ c.chn.armed, x.nch ≠ k.nch) →
      exec (.channelDispatch t) s = .next ((s.at t).setCore
        (if (BitVec.ofNat 32 (c.spad.readN (k.taw + 8) 4) - k.tgen).toNat < 2 ^ 31 then
          { c with chn := { c.chn with queue := rest, fired := [k] } }
        else asking { c with chn := { c.chn with queue := rest, armed := c.chn.armed ++ [k] } } k)))) ∧
  (∀ (s : State) (t : Nat), let c := s.coreAt t
    c.engineOn = true →
    ∃ u, exec (.triggeredSendFire t) s = .next u ∧ u.cur = t ∧ u.core.spad = c.spad ∧ u.core.chn = { c.chn with
      fired := c.chn.fired ++ c.chn.armed.filter (fun k => c.xferDone (.trigger k.ord) && came c k)
      armed := c.chn.armed.filter (fun k => !(c.xferDone (.trigger k.ord) && came c k)) }) ∧
  (∀ (s : State) (t : Nat) (k : Cmd), let c := s.coreAt t
    let d : Core := { c with xfers := c.xfers.filter (fun x => x.owner != .trigger k.ord) }
    c.engineOn = true → c.chn.armed = [k] →
    (c.xferDone (.trigger k.ord) = true → came c k = true → exec (.triggeredSendFire t) s = .next ((s.at t).setCore
      { d with chn := { c.chn with fired := c.chn.fired ++ [k], armed := [] } })) ∧
    (c.xferDone (.trigger k.ord) = true → came c k = false → exec (.triggeredSendFire t) s = .next ((s.at t).setCore (asking d k))) ∧
    (c.xferDone (.trigger k.ord) = false → c.xfersOf (.trigger k.ord) ≠ [] →
      exec (.triggeredSendFire t) s = .next ((s.at t).setCore c))) ∧
  (∀ (s : State) (t : Nat) (e : NExec) (w : Walked), let c := s.coreAt t
    let n := min 1024 (e.cmd.nbytes - 1024 * e.next)
    (∀ a ∈ c.dacc, a.isAtomic = false) → c.chn.waiting = none → c.chn.exec = some e → e.pkt = none → c.chn.stopped = false →
    c.engineOn = true → s.route t e.segs = .tile w → sound c (e.src + 1024 * e.next) n →
    (s.at t).hasCredit e.cmd.nch (dataFlits n + 1) = true →
    ∃ u p, exec (.packetSend t) s = .next u ∧ u.cur = t ∧ u.net = s.net ++ [p] ∧ p.kind = 0 ∧ p.src = t ∧ p.dst = w.tid ∧
      p.sch = e.cmd.nch ∧ p.dch = e.dch ∧ p.off = e.roff + 1024 * e.next ∧ p.len = n ∧ p.data = [] ∧ p.sent = 0 ∧
      p.flits = dataFlits n + 1 ∧ p.due = s.cycle + w.cost ∧ p.fs = (if w.seam then 2 else 1) ∧ p.credit = true ∧
      Tab.getD u.core.chn.spent e.cmd.nch 0 = Tab.getD c.chn.spent e.cmd.nch 0 + (dataFlits n + 1) ∧
      u.core.chn.exec = some { e with pkt := some p.id, flit := 0 } ∧
      asksRead c u.core .flit 4 (e.src + 1024 * e.next) (min 64 n)) ∧
  (∀ (s : State) (t id : Nat) (e : NExec), let c := s.coreAt t
    let n := min 1024 (e.cmd.nbytes - 1024 * e.next)
    let bs := c.xferBytes .flit (e.src + 1024 * e.next + 64 * e.flit) (min 64 (n - 64 * e.flit))
    c.chn.waiting = none → c.chn.exec = some e → e.pkt = some id → c.frozen = false →
    (e.flit < dataFlits n → c.xferDone .flit = true →
      ∃ u, exec (.packetSend t) s = .next u ∧ u.cur = t ∧
        u.net = s.net.map (fun p => if p.id = id then { p with data := p.data ++ bs, sent := p.sent + 1 } else p) ∧
        u.core.chn.exec = some { e with flit := e.flit + 1 } ∧ u.core.spad = c.spad) ∧
    (e.flit = dataFlits n → e.cmd.nbytes ≤ 1024 * (e.next + 1) → c.chn.fired = [] → (∀ a ∈ c.dacc, a.isAtomic = false) →
      ∃ u, exec (.packetSend t) s = .next u ∧ u.cur = t ∧ u.core.chn.exec = none ∧ u.core.cnt.n = c.cnt.n - 1 ∧
        (e.cmd.releases = true → ∃ x ∈ u.arrivals, x.core = t ∧ x.aw = e.cmd.nxAw ∧ x.bytes = n)))

/-- R200, R201, R210, R228, R233 to R239, R355: a packet that its target accepts is taken in and its flits go to the bank units, on a
channel when it is its turn; written whole it leaves, its arrival goes on its way, as one operation on both words of the arrival word
(its arbitration is log 103), and its credit back; an arrival counts; credit returns. The port of a read reply (log 100), the header
flit's credit (log 110) and the cycle between two packets of a channel (log 114) are the model's. -/
def Obligations.PacketsArrive : Prop :=
  (∀ (s : State) (p : Packet), standing s p → granted s p 1 → welcome s p → p.awv = true → p.kind = 1 →
    p.off + p.len ≤ (s.coreAt p.dst).spend → p.aw + 16 ≤ (s.coreAt p.dst).spend → coversPoison (s.coreAt p.dst) p.off p.len →
    ∃ u, exec (.packetDeposit p.id) s = .next u ∧ takenIn s u p 5 p.off (some p.aw)) ∧
  (∀ (s : State) (p : Packet) (q : Posting), standing s p → granted s p 1 → welcome s p → p.kind = 0 →
    Tab.get? (s.coreAt p.dst).chn.posts p.dch = some q → p.off + p.len ≤ q.bytes →
    coversPoison (s.coreAt p.dst) (q.base + p.off) p.len →
    (s.channelTurn p = true →
      ∃ u, exec (.packetDeposit p.id) s = .next u ∧ takenIn s u p 4 (q.base + p.off) (some q.aw)) ∧
    (∀ x ∈ s.net, x.id ≠ p.id → x.kind = 0 → x.dst = p.dst → x.dch = p.dch → x.here = true → x.arrived ≠ 0 → x.turn < p.turn →
      ∃ u, exec (.packetDeposit p.id) s = .next u ∧ (u.coreAt p.dst).xfers = (s.coreAt p.dst).xfers ∧
        { p with place := .taken (q.base + p.off) (some q.aw) } ∈ u.net)) ∧
  (∀ (s : State) (p : Packet), standing s p → p.kind = 4 →
    ∃ u, exec (.packetDeposit p.id) s = .next u ∧ takenIn s u p 3 p.off (if p.awv then some p.aw else none)) ∧
  (∀ (s : State) (p : Packet) (a aw : Nat), let c := s.coreAt p.dst
    atTile s p a (some aw) → (p.kind = 0 ∨ p.kind = 1 ∨ p.kind = 4) → 1 < p.flits → p.begun = p.flits - 1 → p.returned < p.flits →
    (∀ x ∈ c.xfersOf (.packet p.id), x.todo = []) → p.done + (c.xfersOf (.packet p.id)).length = p.flits - 1 →
    ∃ u, exec (.packetDeposit p.id) s = .next u ∧ u.net = s.net.filter (fun q => q.id != p.id) ∧ (u.coreAt p.dst).spad = c.spad ∧
      (∃ x ∈ u.arrivals, x.core = p.dst ∧ x.aw = aw ∧ x.bytes = p.len ∧ (u.coreAt p.dst).xfersOf (.arrival x.id) =
        c.xfersOf (.arrival x.id) ++
          [{ owner := .arrival x.id, port := 4, todo := [pairWord (aw / 8)], put := [], write := true, got := [] }]) ∧
      (p.credit = true → ∃ k ∈ u.credits, k.core = p.src ∧ k.ch = p.sch ∧ k.flits = p.flits - p.returned ∧
        k.due = s.cycle + p.back)) ∧
  (∀ (s : State) (x : Arrival), s.arrivals.find? (fun y => y.id == x.id) = some x →
    (s.coreAt x.core).xferDone (.arrival x.id) = true → x.chunk = none → (s.coreAt x.core).spad.wf = true →
    let m := (s.coreAt x.core).spad
    let target := m.readN x.aw 4
    let sum := m.readN (x.aw + 4) 4 + x.bytes
    ∃ u, exec (.arrival x.id) s = .next u ∧ u.arrivals = s.arrivals.filter (fun y => y.id != x.id) ∧
      (u.coreAt x.core).spad.readN x.aw 4 = target ∧
      (u.coreAt x.core).spad.readN (x.aw + 4) 4 = (if target = 0 then sum else sum % target) % 2 ^ 32 ∧
      (u.coreAt x.core).spad.readN (x.aw + 8) 4 = (m.readN (x.aw + 8) 4 + (if target = 0 then 0 else sum / target)) % 2 ^ 32 ∧
      (u.coreAt x.core).spad.read (x.aw + 12) =
        (if target ≠ 0 ∧ 1 < sum / target then m.read (x.aw + 12) ||| 1 else m.read (x.aw + 12)) ∧
      keeps m (u.coreAt x.core).spad x.aw 16) ∧
  (∀ (s : State) (k : Credit), s.credits.find? (fun y => y.id == k.id) = some k → k.due ≤ s.cycle →
    exec (.creditReturn k.id) s = .next (State.putCore { s with credits := s.credits.filter (fun y => y.id != k.id) } k.core
      { s.coreAt k.core with chn := { (s.coreAt k.core).chn with
        spent := Tab.put (s.coreAt k.core).chn.spent k.ch (Tab.getD (s.coreAt k.core).chn.spent k.ch 0 - k.flits) } }))

/-- R170 to R172, R195, R210, R241: a remote atomic and a remote read ask their target's bank units; once they are served the atomic is
performed there and its reply leaves, and the read's bytes leave; the atomic's reply is taken. -/
def Obligations.RequestsAreServed : Prop :=
  (∀ (s : State) (p : Packet) (base : Nat) (aw : Option Nat) (id : Nat) (op : BitVec 8) (w : BitVec 2) (b cc : Word),
    let c := s.coreAt p.dst
    let n := 4 * 2 ^ w.toNat
    let m := if atPair op then 2 * n else n
    atTile s p base aw → p.op = .atomic id op w b cc → p.begun = 0 → granted s p 0 → granted s p 1 → p.off + m ≤ c.spend →
    p.off % m = 0 → sound c p.off m →
    ∃ u, exec (.remoteAtomicService p.id) s = .next u ∧ (u.coreAt p.dst).spad = c.spad ∧ { p with begun := 1 } ∈ u.net ∧
      (u.coreAt p.dst).xfers = c.xfers ++
        [{ owner := .packet p.id, port := 5, todo := [if m = 16 then pairWord (p.off / 8) else p.off / 8], put := [], write := true
           got := [] }]) ∧
  (∀ (s : State) (p : Packet) (base : Nat) (aw : Option Nat) (id : Nat) (op : BitVec 8) (w : BitVec 2) (b cc : Word) (v : Walked),
    let c := s.coreAt p.dst
    let n := 4 * 2 ^ w.toNat
    let r := atomicStep op.toNat (8 * n) (c.spad.readN p.off n) (c.spad.readN (p.off + n) n) (b.toNat % 2 ^ (8 * n))
      (cc.toNat % 2 ^ (8 * n))
    atTile s p base aw → p.op = .atomic id op w b cc → p.begun ≠ 0 → c.xferDone (.packet p.id) = true → p.foreign = false →
    c.spad.wf = true → s.route p.dst (mirrorSegs p.route []) = .tile v →
    ∃ u q, exec (.remoteAtomicService p.id) s = .next u ∧ (u.coreAt p.dst).spad.readN p.off n = r.1 % 256 ^ n ∧
      keeps c.spad (u.coreAt p.dst).spad p.off n ∧ q ∈ u.net ∧ q.kind = 3 ∧ q.src = p.dst ∧ q.dst = v.tid ∧
      q.op = .reply id (BitVec.ofNat 64 (c.spad.readN p.off n)) r.2.1 none r.2.2 ∧
      ∀ a ∈ (u.coreAt p.src).dacc, a.id = id → a.st = .performed) ∧
  (∀ (s : State) (p : Packet) (id : Nat) (old : Word) (ok : Bool) (fl : Flags) (a : Access) (op : BitVec 8) (w : BitVec 2)
    (d : BitVec 6) (pd : BitVec 3) (b cc addr : Word),
    arrived s p → p.op = .reply id old ok none fl → (s.coreAt p.dst).dacc.find? (fun x => x.id == id) = some a →
    a.kind = .atomic op w d pd b cc addr →
    ∃ u, exec (.remoteAtomicReply p.id) s = .next u ∧ (u.coreAt p.dst).inflight = (s.coreAt p.dst).inflight ++
        ({ w := .s d old, fl := fl, slot := .l, rem := 1, lat := 1, ord := a.ord, late := true } ::
          if atPred op then [{ w := .p pd ok, fl := 0, slot := .l, rem := 1, lat := 1, ord := a.ord, late := true }] else []) ∧
      (u.coreAt p.dst).dacc = (s.coreAt p.dst).dacc.filter (fun x => x.id != id) ∧ u.net = s.net.filter (fun q => q.id != p.id)) ∧
  (∀ (s : State) (p : Packet) (base : Nat) (aw : Option Nat) (len back : Nat), let c := s.coreAt p.dst
    atTile s p base aw → p.op = .read len back → p.begun = 0 → p.off + len ≤ c.spend → sound c p.off len →
    ∃ u, exec (.readRequestService p.id) s = .next u ∧ (u.coreAt p.dst).spad = c.spad ∧ { p with begun := 1 } ∈ u.net ∧
      asksRead c (u.coreAt p.dst) (.packet p.id) 5 p.off len) ∧
  (∀ (s : State) (p : Packet) (base : Nat) (aw : Option Nat) (len back : Nat) (v : Walked), let c := s.coreAt p.dst
    atTile s p base aw → p.op = .read len back → p.begun ≠ 0 → c.xferDone (.packet p.id) = true → p.foreign = false →
    s.route p.dst (mirrorSegs p.route []) = .tile v →
    ∃ u q, exec (.readRequestService p.id) s = .next u ∧ q ∈ u.net ∧ q.kind = 4 ∧ q.src = p.dst ∧ q.dst = v.tid ∧ q.off = back ∧
      q.len = len ∧ q.aw = p.aw ∧ q.awv = p.awv ∧ q.data = c.xferBytes (.packet p.id) p.off len ∧ (u.coreAt p.dst).spad = c.spad)

namespace Sys2Proof.Claims

open Sys2Proof Sys2Proof.Machine

/-! ### Queues, drawer path and translation -/

/-- A queue message that the home tile of queue `q` serves (R205, R283, R322). -/
def atHome (s : State) (p : Packet) (q : Nat) : Prop :=
  arrived s p ∧ (s.grant p.dst p.ctx).getLsbD 1 = true ∧ s.isHome p.dst = true ∧
    qdCtx (s.queueDesc q) = p.ctx ∧ qdHome (s.queueDesc q) = p.dst

/-- The eight words of a continuation entry (R206). -/
def words8 (e : List (BitVec 8)) : List Word :=
  (List.range 8).map (fun i => BitVec.ofNat 64 (bytesNat ((e.drop (8 * i)).take 8)))

/-- A pop's answer on its way to the popping tile: its words and predicate (R206). -/
def popAnswer (u : State) (p : Packet) (v : Walked) (ws : List Word) (ok : Bool) : Prop :=
  ∃ r ∈ u.net, r.kind = 6 ∧ r.src = p.dst ∧ r.dst = v.tid ∧ r.ord = p.ord ∧ r.op = .popped ws ok

/-- A result of an engine, atomic or drawer access that lands at this core's next boundary. -/
def lateRes (sl : Slot) (ord : Nat) (w : Write) (fl : Flags) : Res :=
  { w := w, fl := fl, slot := sl, rem := 1, lat := 1, ord := ord, late := true }

/-- Some event of this source and code is buffered for the arbiter (R381). -/
def buffered (u : State) (org code : Nat) : Prop := ∃ o ∈ u.offered, o.org = org ∧ o.code = code

/-- A request that waits at the network port of tile `t`, or is held back there for a fresh address (R258, R337). -/
def atPort (t : Nat) (r : Req) : Bool :=
  r.core == t && (r.place == .stale || (r.place == .port && (match r.owner with | .job _ | .walk _ => false | _ => true)))

/-- The requester that link `n`'s next slot is granted to, and whether the slot is lent (R341). -/
def nextGrant (s : State) (n : Nat) : Option (Nat × Bool) :=
  let l := s.link n
  let o := (s.slotEntry true n (l.slot % 1024)).toNat
  grantTo o (o < 64 && (s.ctx o).v) l.last (fun k => !(s.queued n k).isEmpty)

/-- The one request of access `a` of tile `t`, ended with bytes `d`. -/
def oneReply (s : State) (t : Nat) (a : Access) (d : List (BitVec 8)) : Prop :=
  ∃ r m n, s.reqs.filter (fun r => r.core == t && r.owner == .access a.id) = [r] ∧ r.res = some (.ok d) ∧ r.place = .served m n ∧
    n ≤ s.cycle

end Sys2Proof.Claims

open Sys2Proof Sys2Proof.Machine Sys2Proof.Claims

/-- R205, R206, R284 to R287: pushes, pops, closing and spill traffic at the home tile; the outcome of a pop at its tile. -/
def Obligations.QueueOperations : Prop :=
  (∀ (s : State) (p : Packet) (q : Nat), atHome s p q → p.op = .push q → qdClosed (s.queueDesc q) = false →
    s.spilling.contains q = false → s.job? moduleUnit (.spillOut q p.id) = none → s.firstInLine ⟨q, s.cycle, p.id⟩ false = true →
    (s.queueRec q).blocked = [] → (s.queueRec q).out = (s.queueRec q).inn → (s.queueRec q).head.length < qdHn (s.queueDesc q) →
    ∃ u, exec (.queueAppend p.id) s = .next u ∧ u.queueRec q = { s.queueRec q with head := (s.queueRec q).head ++ [p.data] } ∧
      u.net = s.net.filter (fun x => x.id != p.id) ∧
      ∀ k, (s.coreAt p.src).chn.waiting = some k → k.ord = p.ord →
        (u.coreAt p.src).chn.waiting = none ∧ (u.coreAt p.src).cnt.n =
          (if (s.coreAt p.src).chn.accept = some 0 then (s.coreAt p.src).cnt.n else (s.coreAt p.src).cnt.n - 1)) ∧
  (∀ (s : State) (p : Packet) (q : Nat) (tag aff : BitVec 16) (fail : Bool) (v : Walked), atHome s p q →
    p.op = .pop q tag aff fail → s.route p.dst (computedSegs p.dst p.src) = .tile v →
    (∀ i, (s.queueRec q).head.findIdx? (fun e => p.takesKey (entryKey e)) = some i →
      ∃ u, exec (.queuePop p.id) s = .next u ∧ u.queueRec q = { s.queueRec q with head := (s.queueRec q).head.eraseIdx i } ∧
        popAnswer u p v (words8 ((s.queueRec q).head.getD i [])) true) ∧
    ((s.queueRec q).head.findIdx? (fun e => p.takesKey (entryKey e)) = none → (s.queueRec q).spillHas p = false →
      (qdClosed (s.queueDesc q) = true → (s.queueRec q).blocked = [] →
        ∃ u, exec (.queuePop p.id) s = .next u ∧ popAnswer u p v (2 :: List.replicate 7 0) false) ∧
      (qdClosed (s.queueDesc q) = false → fail = true → (s.queueRec q).blocked = [] →
        ∃ u, exec (.queuePop p.id) s = .next u ∧ popAnswer u p v (1 :: List.replicate 7 0) false) ∧
      (qdClosed (s.queueDesc q) = false → fail = false → (∀ x ∈ (s.queueRec q).blocked, x.popFails = false) →
        ∃ u, exec (.queuePop p.id) s = .next u ∧
          u.queueRec q = { s.queueRec q with blocked := (s.queueRec q).blocked ++ [p] }))) ∧
  (∀ (s : State) (p : Packet) (ws : List Word) (ok : Bool) (k : Cmd), arrived s p → p.op = .popped ws ok →
    (s.coreAt p.dst).chn.waiting = some k → k.ord = p.ord →
    ∃ u, exec (.npopResultWrite p.id) s = .next u ∧ (u.coreAt p.dst).chn.waiting = none ∧
      (u.coreAt p.dst).inflight = (s.coreAt p.dst).inflight ++
        ws.zipIdx.map (fun w => lateRes .n k.ord (.s (BitVec.ofNat 6 (56 + w.2)) w.1) 0) ++
        [lateRes .n k.ord (.p (field 9 3 k.ops) ok) 0]) ∧
  (∀ (s : State) (p : Packet) (q : Nat), atHome s p q → p.op = .close q → qdLaunch (s.queueDesc q) = false →
    ∃ u, exec (.queueClose p.id) s = .next u ∧ qdClosed (u.queueDesc q) = true ∧ (u.queueRec q).waiting = [] ∧
      (u.queueRec q).taken = (s.queueRec q).tail ∧ (u.queueRec q).head = (s.queueRec q).head) ∧
  (∀ (s t : State) (q : Nat) (e : List (BitVec 8)), let d := s.queueDesc q
    let r := s.queueRec q
    r.heldSpill = false → r.inn ≠ r.out → r.head.length < qdHn d → r.blocked = [] →
    s.unitRead moduleUnit (.spillIn q) (cacheKey (qdHome d)) (qdCtx d)
      (qdSbase d + BitVec.ofNat 64 (r.out % 2 ^ qdSlog d * qdSize d)) (qdSize d) false = .done e t →
    ∃ u, exec (.spillMove q) s = .next u ∧ u.queueRec q = { r with out := r.out + 1, keys := r.keys.drop 1, head := r.head ++ [e] } ∧
      Tab.getD u.charged (qdCtx d) 0 = Tab.getD t.charged (qdCtx d) 0 - qdSize d / 64)

/-- R256, R280 to R282, R322: the host window: TAIL offers entries, a staging entry is appended and TAKEN rises, an event counter is
written, TAIL and TAKEN are read; and a drawer access enters as a request. -/
def Obligations.HostWindowWrites : Prop :=
  (∀ (s : State) (port q : Nat) (x : Word), port < 4 → q < 131072 → s.hostPending port = false → qdV (s.queueDesc q) = true →
    (s.hostSets.toList.getD port 0).getLsbD (qdCtx (s.queueDesc q)) = true → qdHosten (s.queueDesc q) = true →
    (field 0 32 x - (s.queueRec q).tail : BitVec 32).toNat + ((s.queueRec q).tail - (s.queueRec q).taken).toNat ≤
      2 ^ qdHlog (s.queueDesc q) → qdClosed (s.queueDesc q) = false →
    exec (.tailRegisterWrite port q x) s = .next (s.putQueue q { s.queueRec q with tail := field 0 32 x })) ∧
  (∀ (s : State) (port q : Nat) (x : Word), port < 4 → q < 131072 → s.hostPending port = false →
    (qdV (s.queueDesc q) = false ∨ (s.hostSets.toList.getD port 0).getLsbD (qdCtx (s.queueDesc q)) = false) →
    ∃ u, exec (.tailRegisterWrite port q x) s = .next u ∧ u.queues = s.queues ∧ buffered u 5 0x0007) ∧
  (∀ (s t u : State) (q : Nat) (e : List (BitVec 8)), let d := s.queueDesc q
    let r := s.queueRec q
    qdV d = true → r.heldStage = false → r.taken ≠ r.tail →
    s.unitRead moduleUnit (.stage q) (cacheKey (qdHome d)) (qdCtx d)
      (qdHring d + BitVec.ofNat 64 (r.taken.toNat % 2 ^ qdHlog d * qdSize d)) (qdSize d) true = .done e t →
    t.append q (r.since.getD s.cycle) (stageName q) e = .done u →
    ∃ v, exec (.stagingEntryTake q) s = .next v ∧ v.queueRec q = { u.queueRec q with taken := r.taken + 1, since := none } ∧
      v.cores = u.cores ∧ v.job? moduleUnit (.stage q) = none) ∧
  (∀ (s : State) (port c e : Nat) (x : BitVec 32), port < 4 → c < 64 → e < 1024 → s.hostPending port = false →
    ((s.hostSets.toList.getD port 0).getLsbD c = true →
      exec (.eventCounterWrite port c e x) s = .next { s with evctr := Tab.put s.evctr (1024 * c + e) x }) ∧
    ((s.hostSets.toList.getD port 0).getLsbD c = false →
      ∃ u, exec (.eventCounterWrite port c e x) s = .next u ∧ u.evctr = s.evctr ∧ buffered u 5 0x0007)) ∧
  (∀ (s : State) (port q : Nat), port < 4 → q < 131072 → s.hostPending port = false → qdV (s.queueDesc q) = true →
    (s.hostSets.toList.getD port 0).getLsbD (qdCtx (s.queueDesc q)) = true →
    exec (.hostDrawerAccess port false ⟨true, 8 * q⟩ 8 []) s = .next { s with outbox := s.outbox ++
      [.hostRead port (8 * q) (leBytes 8 ((s.queueRec q).tail.toNat + 2 ^ 32 * (s.queueRec q).taken.toNat))] }) ∧
  (∀ (s : State) (port addr len : Nat), port < 4 → 0 < len → addr % 64 + len ≤ 64 → (∀ e ∈ s.hostWait, e.1 ≠ port) →
    ∃ u, exec (.hostDrawerAccess port false ⟨false, addr⟩ len []) s = .next u ∧ u.drawer = s.drawer ∧
      ∃ r ∈ u.reqs, r.core = 0x10000 + port ∧ r.mid = 65 + port ∧ r.rq = 64 ∧ r.addr = addr ∧ r.len = len ∧ r.write = none ∧
        r.place = .port ∧ r.res = none)

/-- R166, R167, R307, R322, R337, R341, R343: a request leaves its port, a slot serves it, and the load's data lands or the store has
performed. A walk's read that would else miss its bound goes before the requester of the slot (log 116). -/
def Obligations.DrawerRequestsAreServed : Prop :=
  (∀ (s : State) (t : Nat) (r : Req), t < 0x10000 → (∀ a ∈ (s.coreAt t).dacc, a.st ≠ .queued) →
    s.reqs.find? (atPort t) = some r → r.place = .port → (s.coreAt t).frozen = false →
    (t ≠ mgmtCore → s.isMetered r.rq = true → 0 < (s.coreAt t).bucket) →
    ∃ u, exec (.drawerRequestSend t) s = .next u ∧
      u.reqs = s.reqs.map (fun q => if q.id = r.id then { q with place := .net (s.cycle + (s.linkCost t r.addr false + 2)) } else q) ∧
      (u.coreAt t).bucket =
        (if t ≠ mgmtCore ∧ s.isMetered r.rq = true then (s.coreAt t).bucket - 1 else (s.coreAt t).bucket)) ∧
  (∀ (s : State) (n k : Nat) (lent : Bool) (r : Req), (s.link n).st = 2 → (s.link n).t0 + 5 * (s.link n).slot / 14 ≤ s.cycle →
    s.urgentAt n = none → nextGrant s n = some (k, lent) → oldestReq (s.queued n k) = some r → r.res = none → s.drawer.wf = true →
    s.portAllows r.mid r.addr r.len r.write.isSome = true → s.drwOffline.contains (r.addr / 2 ^ 16) = false →
    ∃ u, exec (.slotGrant n) s = .next u ∧ (u.link n).slot = (s.link n).slot + 1 ∧
      (∀ bs, r.write = some bs → holds u.drawer r.addr bs ∧ keeps s.drawer u.drawer r.addr bs.length) ∧
      (r.write = none → (∀ w ∈ s.drwPoison, ¬ (r.addr < 8 * w + 8 ∧ 8 * w < r.addr + r.len)) → u.drawer = s.drawer ∧
        ∃ q ∈ u.reqs, q.id = r.id ∧ q.res = some (.ok (s.drawer.bytes r.addr r.len)))) ∧
  (∀ (s : State) (n : Nat) (r : Req), (s.link n).st = 2 → (s.link n).t0 + 5 * (s.link n).slot / 14 ≤ s.cycle →
    s.urgentAt n = some r → r.res = none → r.write = none → s.portAllows r.mid r.addr r.len false = true →
    s.drwOffline.contains (r.addr / 2 ^ 16) = false → (∀ w ∈ s.drwPoison, ¬ (r.addr < 8 * w + 8 ∧ 8 * w < r.addr + r.len)) →
    ∃ u, exec (.slotGrant n) s = .next u ∧ (u.link n).slot = (s.link n).slot + 1 ∧ (u.link n).last = (s.link n).last ∧
      u.drawer = s.drawer ∧ ∃ q ∈ u.reqs, q.id = r.id ∧ q.res = some (.ok (s.drawer.bytes r.addr r.len))) ∧
  (∀ (s : State) (n k : Nat) (lent : Bool) (r : Req), (s.link n).st = 2 → (s.link n).t0 + 5 * (s.link n).slot / 14 ≤ s.cycle →
    s.urgentAt n = none → nextGrant s n = some (k, lent) → oldestReq (s.queued n k) = some r → r.res = none →
    s.portAllows r.mid r.addr r.len r.write.isSome = false →
    ∃ u, exec (.slotGrant n) s = .next u ∧ u.drawer = s.drawer ∧ buffered u 3 0x0007 ∧
      ∃ q ∈ u.reqs, q.id = r.id ∧ q.res = some .denied) ∧
  (∀ (s : State) (t : Nat) (a : Access) (d : BitVec 6) (ty : BitVec 4) (bs : List (BitVec 8)),
    (s.coreAt t).dacc.find? (fun x => x.id == a.id && x.isLoad && x.st == .sent) = some a → a.kind = .ldh d ty →
    oneReply s t a bs → (s.coreAt t).frozen = false →
    ∃ u, exec (.drawerLoadReturn t a.id) s = .next u ∧ (u.coreAt t).cnt.l = (s.coreAt t).cnt.l - 1 ∧
      (u.coreAt t).inflight = (s.coreAt t).inflight ++ [lateRes .l a.ord (.s d (extendType ty (bytesNat bs))) 0] ∧
      (u.coreAt t).dacc = (s.coreAt t).dacc.filter (fun x => x.id != a.id)) ∧
  (∀ (s : State) (t : Nat) (a : Access) (bs : List (BitVec 8)),
    (s.coreAt t).dacc.find? (fun x => x.id == a.id && !x.isLoad && !x.isAtomic && x.st == .sent) = some a →
    oneReply s t a bs → (s.coreAt t).frozen = false →
    ∃ u, exec (.drawerStoreAccept t a.id) s = .next u ∧ (u.coreAt t).sFalls = (s.coreAt t).sFalls + 1 ∧
      (u.coreAt t).dacc = (s.coreAt t).dacc.filter (fun x => x.id != a.id) ∧ u.drawer = s.drawer)

/-- R258, R312, R315, R316, R341: a fault record goes to its place as a transfer of the memory unit, whose blocks leave as requests of its
context (in the cycle they leave they are at their links, log 107), those for a frozen tile not before its thaw; a flush releases what faults hold; a held load leaves again with fresh addresses, and a logged store is replayed. -/
def Obligations.FaultService : Prop :=
  (∀ (s : State) (r : FaultRec) (rest : List FaultRec),
    let log := (field 0 5 s.sys.fbBase : BitVec 5).toNat
    let a := (field 12 36 s.sys.fbBase : BitVec 36).toNat * 4096 + 64 * (s.sys.prod.toNat % 2 ^ log)
    let j := physJob moduleUnit .record r.ctx a r.bytes
    s.fbWait = r :: rest → 6 ≤ log → log ≤ 15 → (s.sys.prod - s.sys.cons).toNat < 2 ^ log →
    (s.job? moduleUnit .record = none → exec .faultRecordWrite s = .next (s.startJob j)) ∧
    (∀ d t, s.transfer j false = .done d t →
      ∃ u, exec .faultRecordWrite s = .next u ∧ u.fbWait = rest ∧ u.drawer = t.drawer ∧ u.sys.prod = t.sys.prod + 1 ∧
        (t.sys.prod = t.sys.cons → buffered u 2 0x0005))) ∧
  (∀ (s : State) (j : Job), s.jobs.find? (fun k => k.id == j.id) = some j → j.ended = none → j.walk = none → j.sent = false →
    j.todo = [] → j.plain = false → (j.core < 0x10000 → (s.coreAt j.core).frozen = false) →
    (s.stepJob j.id).reqs = s.reqs ++ j.pas.zipIdx.map (fun b =>
      { id := s.serial + b.2, core := j.core, mid := j.mid, rq := j.ctx, owner := .job j.id, addr := b.1.2.2
        va := j.va + BitVec.ofNat 64 b.1.1, write := j.write.map (fun w => (w.drop b.1.1).take b.1.2.1), len := b.1.2.1
        place := .net s.cycle, res := none, patient := j.patient, waited := 0 })) ∧
  (∀ (s : State) (x : Word), field 0 16 x = s.sys.fgen →
    ∃ u, exec (.faultBufferFlush x) s = .next u ∧ u.sys.fgen = s.sys.fgen + 1 ∧ u.sys.cons = s.sys.prod ∧ u.fbWait = [] ∧
      u.drawer = s.drawer ∧ ∀ t, (∀ a ∈ (u.coreAt t).dacc, a.st ≠ .held) ∧ (∀ e ∈ (u.coreAt t).slog, e.ready = true) ∧
        (∀ r : BitVec 4, ((u.coreAt t).hregs.get r.toFin).f = false) ∧ (u.coreAt t).mat.held = false ∧
        (u.coreAt t).chn.held = false) ∧
  (∀ (s : State) (x : Word), field 0 16 x ≠ s.sys.fgen → exec (.faultBufferFlush x) s = .next s) ∧
  (∀ (s t : State) (id : Nat) (a : Access) (d : BitVec 6) (ty : BitVec 4) (bs : List (BitVec 8)) (ps : List (Nat × Nat × Nat)),
    (s.coreAt id).dacc.find? (fun a => a.st == .held || a.st == .retry) = some a → a.st = .retry → a.kind = .ldh d ty →
    (s.coreAt id).frozen = false → (s.coreAt id).halting = false → s.loggedBefore id a.id a.cls = false →
    s.canLeave id a = true →
    s.freshBlocks id (.load a.id) (cacheKey id) (s.coreAt id).pos.ctx.toNat a.va (typeWidth ty / 8) = (.done bs t, ps) →
    ∃ u, exec (.heldLoadReissue id) s = .next u ∧
      (u.coreAt id).dacc = (t.coreAt id).dacc.map (fun b => if b.id = a.id then { b with st := .sent, fresh := true } else b) ∧
      ∀ b ∈ ps, ∃ q ∈ u.reqs, q.core = id ∧ q.owner = .access a.id ∧ q.addr = b.2.2 ∧ q.len = b.2.1 ∧ q.write = none ∧
        q.place = .port) ∧
  (∀ (s t : State) (id cls n : Nat) (e : LogEntry) (d : List (BitVec 8)),
    (s.coreAt id).slog.find? (fun e => e.cls.toNat == cls) = some e → s.mayReplay id e = true → e.acc = some n →
    s.transfer { newJob id (.replay cls) (cacheKey id) (s.coreAt id).pos.ctx.toNat e.addr e.bytes.length (some e.bytes) with
      mid := s.masterOf id, patient := true } false = .done d t →
    ∃ u, exec (.sideLogReplay id cls) s = .next u ∧ u.drawer = t.drawer ∧
      (u.coreAt id).slog = (t.coreAt id).slog.filter (fun x => x != e) ∧ (u.coreAt id).sFalls = (t.coreAt id).sFalls + 1 ∧
      (u.coreAt id).dacc = (t.coreAt id).dacc.filter (fun x => x.id != n))

/-- R307 to R310: a walk ends in the handles that await it; a shootdown withdraws what it covers, is acknowledged and completes. -/
def Obligations.WalksAndShootdowns : Prop :=
  (∀ (s : State) (k : Nat) (w : Walk) (l : Leaf) (ps : List PathEntry),
    ((s.cache k).walks.take 16).find? (fun x => x.id == w.id) = some w → w.marked = false → w.ending = some (.leaf l ps) →
    ∃ u, exec (.handleWalkEnd k w.id false) s = .next u ∧ (∀ x ∈ (u.cache k).walks, x.id ≠ w.id) ∧
      ∀ (id : Nat) (r : BitVec 4), ((s.coreAt id).hregs.get r.toFin).p = true → ((s.coreAt id).hregs.get r.toFin).walk = w.id →
        (u.coreAt id).hregs.get r.toFin = { Handle.empty with
          v := true, tp := true, rd := l.rd, wr := l.wr, sz := l.big, gen := l.gen, base := BitVec.ofNat 48 l.base
          vpage := BitVec.ofNat 64 l.page }) ∧
  (∀ (s : State) (k : Nat) (w : Walk) (ty lev : Nat) (en : Word) (ps : List PathEntry),
    ((s.cache k).walks.take 16).find? (fun x => x.id == w.id) = some w → w.marked = false →
    w.ending = some (.fault ty lev en ps) →
    ∃ u, exec (.handleWalkEnd k w.id (decide (ty = 5))) s = .next u ∧
      ∀ (id : Nat) (r : BitVec 4), ((s.coreAt id).hregs.get r.toFin).p = true → ((s.coreAt id).hregs.get r.toFin).walk = w.id →
        ((u.coreAt id).hregs.get r.toFin).f = true ∧ ((u.coreAt id).hregs.get r.toFin).p = false ∧
          ((u.coreAt id).hregs.get r.toFin).v = false ∧ ((u.coreAt id).hregs.get r.toFin).ftype = ty) ∧
  (∀ (s : State) (x : Word), s.sys.sdCtl.getLsbD 62 = false → x.getLsbD 63 = true →
    (x.getLsbD 58 = true ∨ field 0 32 x ≠ (0 : BitVec 32)) →
    ∃ u, exec (.shootdownRequest x) s = .next u ∧ u.sys.sdCtl.getLsbD 62 = true ∧ u.sys.sdRun = x ∧ u.sys.sdRunVa = s.sys.sdVa ∧
      (∀ k, ∀ l ∈ (u.cache k).leaves, l.ctx = sdCtx x → sdCovers s.sys.sdVa x l.page (if l.big then 2 ^ 28 else 2 ^ 16) = false) ∧
      (∀ k, ∀ w ∈ (u.cache k).walks, w.ctx = sdCtx x → w.marked = true) ∧
      ∀ (id : Nat) (r : BitVec 4), (s.coreAt id).pos.ctx.toNat = sdCtx x → ((s.coreAt id).hregs.get r.toFin).v = true →
        sdCovers s.sys.sdVa x ((s.coreAt id).hregs.get r.toFin).vpage.toNat ((s.coreAt id).hregs.get r.toFin).pageBytes = true →
        ((u.coreAt id).hregs.get r.toFin).isShot = true) ∧
  (∀ (s : State) (x : Word), (s.sys.sdCtl.getLsbD 62 = true ∨ x.getLsbD 63 = false) →
    ∃ u, exec (.shootdownRequest x) s = .next u ∧ u.cores = s.cores ∧ u.caches = s.caches ∧ u.sys.sdRun = s.sys.sdRun) ∧
  (∀ (s : State) (t : Nat) (ns : List Nat), s.sdWait.find? (fun w => w.1 == t) = some (t, ns) →
    ((s.coreAt t).frozen = true ∨ ∀ n ∈ ns, s.sdPerformed t n = true) →
    ∃ u, exec (.shootdownAck t) s = .next u ∧ u.sdWait = s.sdWait.filter (fun v => v.1 != t) ∧
      (u.coreAt t).hregs = (s.coreAt t).hregs ∧ u.drawer = s.drawer) ∧
  (∀ (s : State), s.sys.sdCtl.getLsbD 62 = true → s.sdWait = [] →
    ∃ u, exec .shootdownComplete s = .next u ∧ u.sys.sdCtl.getLsbD 62 = false ∧
      (u.ctx (sdCtx s.sys.sdRun)).tgen = (s.ctx (sdCtx s.sys.sdRun)).tgen + 1 ∧ buffered u 2 0x0004 ∧
      ∀ k, ∀ w ∈ (u.cache k).walks, w.ctx = sdCtx s.sys.sdRun → w.marked = false)

namespace Sys2Proof.Claims

open Sys2Proof Sys2Proof.Machine

/-! ### Strands, gangs, launches and contexts -/

/-- Bundle `w` stands at the PC of the current plane: as a literal or by its dictionary index (R72, R73). -/
def codeHolds (c : Core) (w : BundleWord) : Prop :=
  (c.plane.half c.pc = 0xFFFF ∧ ∀ j < 24, c.plane.half (c.pc + 1 + BitVec.ofNat 13 j) = field (16 * j) 16 w) ∨
    ((c.plane.half c.pc).toNat < 0x400 ∧ (c.plane.half c.pc).toNat < c.plane.ndict ∧
      Tab.getD c.plane.dict (c.plane.half c.pc).toNat 0 = w)

/-- The current core's strand is at a boundary at which its bundle is due, and that bundle holds instruction `i` alone under a
zero header. -/
def dueAlone (s : State) (i : Instr) : Prop :=
  s.core.strand = .running ∧ s.core.frozen = false ∧ s.core.gate ≤ s.cycle ∧ s.core.eretDrain = false ∧ s.core.stall = 0 ∧
    s.core.haltReq = false ∧ s.core.pcFrom = none ∧ (∀ t, i ≠ .bundleIssue t) ∧
    ∃ w, codeHolds s.core w ∧ decodeTableWord 384 w.toNat = some i

/-- The state behind the cycle of core `t` in which its strand has brought it to `u`: its bank units have served their words of the cycle,
out of the scratchpad as the cycle found it; of a frozen tile those of its engines' work under way (R210, R258, R370). -/
def banked (s : State) (t : Nat) (u : State) : State := u.setCore (u.core.bankTurn (s.coreAt t).spad)

/-- A core whose one result in flight has landed: its register written, its flags and the engine's in FSTAT (R13, R49). -/
def landed (c : Core) (r : Res) : Core :=
  let d := ({ c with inflight := [], mat := { c.mat with fl := 0 } } : Core).apply r.w
  { d with fstat := d.fstat ||| c.mat.fl ||| r.fl }

/-- A member that holds nothing back at its drain point (R123). -/
def drainedOut (c : Core) : Prop :=
  c.inflight = [] ∧ c.mat.queue = [] ∧ c.mat.exec = none ∧ c.mat.epi = none ∧ c.cpy.queue = [] ∧ c.cpy.exec = none ∧
    c.chn.queue = [] ∧ c.chn.exec = none ∧ c.chn.fired = [] ∧ c.chn.waiting = none ∧
    c.cnt = { l := 0, s := 0, k := 0, m := 0, n := 0 } ∧ c.dacc = [] ∧ c.deferred = [] ∧ c.failing = []

/-- The tile of a dependence on an arrival word, and that word's address (R291). -/
def depTile (s : State) (l : Launch) (i : Nat) : Nat :=
  tidOf ((s.ctx l.ctx).x0.toNat + (l.deps.getD i 0).toNat / 2 ^ 16 % 256) ((s.ctx l.ctx).y0.toNat + (l.deps.getD i 0).toNat / 2 ^ 24 % 256)

/-- See `depTile`. -/
def depWord (l : Launch) (i : Nat) : Nat := 16 * ((l.deps.getD i 0).toNat % 2 ^ 16)

/-- Dependence `i` of a launch holds, that on an arrival word by what the read of the word in this round has brought (R291, R296). -/
def depMet (s : State) (l : Launch) (i : Nat) : Prop :=
  let w := l.deps.getD i 0
  match geomDepk l.geom i with
  | 0 => True
  | 1 =>
    let c := s.coreAt (depTile s l i)
    c.xferDone (.dep l.id i) = true ∧
      (BitVec.ofNat 32 (bytesNat (c.xferBytes (.dep l.id i) (depWord l i + 8) 4)) - field 32 32 w).toNat < 2 ^ 31
  | _ => (Tab.getD s.evctr (1024 * l.ctx + w.toNat % 2 ^ 10) 0 - field 32 32 w : BitVec 32).toNat < 2 ^ 31

/-- A placed launch whose rectangle meets no migration's region (R372). -/
def unmoved (s : State) (l : Launch) : Prop := ∀ t ∈ l.tiles, s.inRegion t = false

/-- Its completion has been reported: its event counter raised, and *launch complete* sent (R282, R293). -/
def reported (s u : State) (l : Launch) : Prop :=
  u.evctr = (if geomCen l.geom then
    Tab.put s.evctr (1024 * l.ctx + geomCevt l.geom) (Tab.getD s.evctr (1024 * l.ctx + geomCevt l.geom) 0 + 1) else s.evctr) ∧
    buffered u 2 0x0002

/-- GO of PRE_CTL with operation `op` (R326). -/
def goPre (x : Word) (op : Nat) : Prop := x.getLsbD 63 = true ∧ x.toNat / 2 ^ 60 % 4 = op

/-- The context that a PRE_CTL word names. -/
def ctxOf (x : Word) : Nat := x.toNat / 2 ^ 52 % 64

/-- Tile `t` has halted for a save: strand stopped, nothing in flight, engines at rest (R179, R327). -/
def atRest (s : State) (t : Nat) : Prop :=
  let c := s.coreAt t
  c.haltReq = true ∧ c.frozen = false ∧ c.strand = .saved ∧ (∀ r ∈ c.inflight, r.late = false) ∧ c.mat.exec = none ∧
    c.mat.epi = none ∧ c.cpy.exec = none ∧ c.chn.exec = none ∧ (∀ x ∈ c.xfers, ∃ n, x.owner = .trigger n) ∧ c.landing = [] ∧
    c.dacc = [] ∧ s.net = [] ∧
    ∀ e ∈ s.queues, ∀ p ∈ e.2.blocked, p.src ≠ t

end Sys2Proof.Claims

open Sys2Proof Sys2Proof.Machine Sys2Proof.Claims

/-- R13, R17, R18, R24, R28, R29, R61, R63, R123, R143, R160, R235, R370, R374, R413: the cycles of a strand, in one of which the bundle that
is due issues, and what its boundaries bring; a freeze lets no result land, behind the strand's end neither. That a halted management
core's results keep their counts is log 93; that an abort drops the drawer accesses of its members logs 43 and 53. -/
def Obligations.StrandBoundaries : Prop :=
  ((∀ (s : State) (t : Nat), ∃ u, exec (.bundleIssue t) s = .next u) ∧
  (∀ (s : State) (t : Nat) (i : Instr), dueAlone (s.at t) i →
    ∃ u, exec i (s.at t) = .next u ∧ exec (.bundleIssue t) s = .next (banked s t u)) ∧
  (∀ (s : State) (t : Nat), let c := s.coreAt t
    c.strand = .running → c.frozen = false → c.gate ≤ s.cycle → c.eretDrain = false →
    (0 < c.stall → (s.at t).issueFrozen = false →
      exec (.bundleIssue t) s = .next (banked s t ((s.at t).setCore ({ c with stall := c.stall - 1 } : Core).countDown))) ∧
    (0 < c.stall → (s.at t).issueFrozen = true → exec (.bundleIssue t) s = .next (banked s t (s.at t))) ∧
    (∀ k, c.stall = 0 → c.haltReq = false → c.bundleCause = some k →
      exec (.bundleIssue t) s = .next (banked s t ((s.at t).trapPrecise k)))) ∧
  (∀ (s : State) (t : Nat), let c := s.coreAt t
    (c.strand = .running → c.frozen = true → exec (.bundleIssue t) s = .next (banked s t (s.at t))) ∧
    (c.strand = .running → s.cycle < c.gate → exec (.bundleIssue t) s = .next (banked s t (s.at t))) ∧
    (∀ w, c.strand = .ended w → c.frozen = false → (s.at t).issueFrozen = false →
      exec (.bundleIssue t) s = .next (banked s t ((s.at t).setCore c.countDown))) ∧
    (∀ w, c.strand = .ended w → (c.frozen = true ∨ (s.at t).issueFrozen = true) →
      exec (.bundleIssue t) s = .next (banked s t (s.at t))) ∧
    ((c.strand = .none ∨ c.strand = .saved ∨ c.strand = .halted ∨ c.strand = .coreHalt ∨ (∃ b p, c.strand = .sync b p) ∨
      (∃ w, c.strand = .drained w)) → exec (.bundleIssue t) s = .next (banked s t (s.at t))))) ∧
  (∀ (s : State) (t : Nat) (r : Res), let c := s.coreAt t
    c.inflight = [r] → r.w.discarded = false → (∀ n x, r.w ≠ .sys n x) → c.pend = [] → r.late = false → r.rem = 0 →
    ∃ u, exec (.lockstepResultLanding t) s = .next u ∧ u.coreAt t = landed c r ∧ u.drawer = s.drawer) ∧
  (∀ (s : State) (t : Nat) (r : Res) (q : PReg), let c := s.coreAt t
    c.inflight = [r] → r.w.discarded = false → r.w.preg? = some q → c.pend = [(q, r.ord)] → r.late = true → r.rem = 1 →
    ∃ u, exec (.lockstepResultLanding t) s = .next u ∧ u.coreAt t = { landed c r with pend := [] }) ∧
  (∀ (s : State) (t : Nat) (k : Cause), let c := s.coreAt t
    k ∈ c.deferred → k.fresh = false → (∀ q ∈ c.deferred, q.fresh = false → q ≠ k → k.ord < q.ord) → c.failing = [] →
    c.strand = .running → c.trap.inH = false → c.trap.en = true → c.stall = 0 → c.frozen = false → c.trapAfter = none →
    c.eretDrain = false →
    ∃ u, exec (.trapDelivery t) s = .next u ∧ u.cur = t ∧ u.core.pc = c.trap.vec ∧ u.core.gate = s.cycle + 1 ∧
      u.core.trap = { c.trap with pc := c.pc, inH := true, cause := BitVec.ofNat 6 k.code, info0 := k.info, info1 := k.info1 } ∧
      k ∉ u.core.deferred ∧ u.core.snapTrap.redirects = c.redirects ∧ u.core.redirects = [] ∧ u.core.sregs = c.sregs) ∧
  (∀ (s : State) (t : Nat) (w : Bool), (s.coreAt t).strand = .ended w → drainedOut (s.coreAt t) → (s.coreAt t).frozen = false →
    ∃ u, exec (.drainPoint t) s = .next u ∧ (u.coreAt t).strand = .drained w ∧
      (u.coreAt t).chn.posts = (if w then (s.coreAt t).chn.posts else []) ∧ (u.coreAt t).spad = (s.coreAt t).spad) ∧
  (∀ (s : State) (t : Nat) (f : VForm), dueAlone (s.at t) (.vsin f) → goV .vsin f (s.at t) (rd f) →
    (s.coreAt t).isMgmt = false → (∃ p, portOf t = some p) → (s.coreAt t).orx.get (field 0 2 f.fn : BitVec 2).toFin = [] → max 1024 (s.coreAt t).wdog.toNat ≤ (s.coreAt t).waitedV →
    exec (.streamRegisterWatchdog t) s = .next ((s.at t).trapPrecise (precise .v 0x11 ((field 0 2 f.fn : BitVec 2).setWidth 64)))) ∧
  (∀ (s : State) (t : Nat) (f : AwForm), let c := s.coreAt t
    dueAlone (s.at t) (.waita f) → goLs (.waita f) f.gi f.gp f.cls (s.at t) [.s f.a, .s f.r1] →
    inPad c (ea c f.a f.disp) 16 16 → c.waitaSeen = false →
    (2 ^ 31 ≤ (BitVec.ofNat 32 (c.spad.readN (ea c f.a f.disp + 8) 4) - (field 0 32 (c.sreg f.r1))).toNat) →
    max 1024 c.wdog.toNat ≤ c.waitedL →
    exec (.arrivalWaitWatchdog t) s = .next ((s.at t).trapPrecise (precise .l 0x12 (c.sreg f.a + f.disp.signExtend 64)))) ∧
  (∀ (s : State) (t : Nat) (g : Gang), t ∈ s.aborts → s.gangOf t = some g → g.isOver = false → (s.ctx g.ctx).st ≠ 2 →
    (s.ctx g.ctx).st ≠ 3 →
    ∃ u, exec (.gangAbort t) s = .next u ∧ (∀ x ∈ u.gangs, x.id ≠ g.id) ∧ reported s u g.launch ∧ buffered u 2 0x0023 ∧
      ∀ m ∈ g.tiles, m ∉ g.left → (u.coreAt m).strand = .halted ∧ (u.coreAt m).dacc = [] ∧ (u.coreAt m).inflight = [] ∧
        (u.coreAt m).spad = (s.coreAt m).spad ∧
        ((s.coreAt m).undelivered = none → (u.coreAt m).trap.cause = 0x16 ∧ (u.coreAt m).trap.info0.toNat = t % 2 ^ 64))

/-- R210, R239, R291 to R298, R301: a record becomes head and is checked; the arrival words of its dependences are read through port 5 in
every round, one beyond SPEND never (log 52); its launch becomes eligible, is placed, loaded, or completes with a status, or is stale. -/
def Obligations.LaunchesArePlaced : Prop :=
  (∀ (s : State) (q : Nat) (e : List (BitVec 8)) (r : List (List (BitVec 8))), let d := s.queueDesc q
    (s.queueRec q).head = e :: r → qdV d = true → qdLaunch d = true → (s.ctx (qdCtx d)).st ≠ 5 →
    (∀ l ∈ s.launches, l.qid = q → l.waits = false) →
    ∃ l, (s.admitHead q).launches = s.launches ++ [l] ∧ l.qid = q ∧ l.ctx = qdCtx d ∧ l.st = .head ∧ l.headAt = s.cycle ∧
      l.image = recWord e 0 ∧ l.looptab = recWord e 1 ∧ l.geom = recWord e 2 ∧ (∀ i < 4, l.deps.getD i 0 = recWord e (4 + i)) ∧
      (∀ i < 8, l.args.getD i 0 = recWord e (8 + i)) ∧ l.bad = s.headStatus l (recWord e 3)) ∧
  (∀ (s : State) (l : Launch) (x : Word), let d := s.ctx l.ctx
    ((geomW l.geom = 0 ∨ geomH l.geom = 0 ∨ geomPolicy l.geom = 3 ∨ 5 ≤ geomWin l.geom ∨ x ≠ 0) → s.headStatus l x = 6) ∧
    (s.headStatus l x ≠ 6 → (d.w.toNat < geomW l.geom ∨ d.h.toNat < geomH l.geom) → s.headStatus l x = 2)) ∧
  (∀ (s : State) (l : Launch) (i : Nat), s.launch? l.id = some l → s.cycle % 256 = 0 → (l.st = .head ∨ l.st = .eligible) →
    i < 4 → geomDepk l.geom i = 1 →
    (∀ j < 4, j ≠ i → geomDepk l.geom j ≠ 1) →
    let c := s.coreAt (depTile s l i)
    ∃ u, exec (.dependenceRead l.id) s = .next u ∧ u.launches = s.launches ∧ (∀ t, (u.coreAt t).spad = (s.coreAt t).spad) ∧
      (u.coreAt (depTile s l i)).xfers = (if depWord l i + 16 ≤ c.spend ∧ c.xfersOf (.dep l.id i) = [] then
        c.xfers ++ [{ owner := .dep l.id i, port := 5, todo := [pairWord (depWord l i / 8)], put := [], write := false, got := [] }]
      else c.xfers)) ∧
  (∀ (s : State) (l : Launch), s.launches = [l] → s.cycle % 256 = 0 → (l.st = .head ∨ l.st = .eligible) →
    ((s.ctx l.ctx).st ≠ 1 ∨ l.bad ≠ 0 → (∀ i < 4, depMet s l i) →
      ∃ u, exec .placementRound s = .next u ∧ u.launches = [{ l with st := .eligible }]) ∧
    ((∃ i < 4, ¬ depMet s l i) → ∃ u n, exec .placementRound s = .next u ∧ u.launches = [{ l with st := .head, firsts := n }] ∧
      u.queues = s.queues)) ∧
  (∀ (s : State) (l : Launch), let d := s.ctx l.ctx
    let ox := d.x0.toNat + geomOx l.geom
    let oy := d.y0.toNat + geomOy l.geom
    s.launches = [l] → s.cycle % 256 = 0 → (l.st = .head ∨ l.st = .eligible) → (∀ i < 4, depMet s l i) → d.st = 1 → l.bad = 0 →
    s.gangs = [] → s.saved = [] → geomPolicy l.geom = 1 → geomOx l.geom + geomW l.geom ≤ d.w.toNat →
    geomOy l.geom + geomH l.geom ≤ d.h.toNat →
    (∀ i < geomW l.geom, ∀ j < geomH l.geom, s.placeable (tidOf (ox + i) (oy + j)) = true) →
    ∃ u m, exec .placementRound s = .next u ∧ m ∈ u.launches ∧
      m = { l with st := .placed, ox, oy, behind := false, placedAt := s.cycle, firsts := 0 } ∧
      (u.queueRec l.qid).head = (s.queueRec l.qid).head.drop 1 ∧ ∀ t, (u.coreAt t).spad = (s.coreAt t).spad) ∧
  (∀ (s : State), s.cycle % 256 ≠ 0 → exec .placementRound s = .next s) ∧
  (∀ (s t : State) (l : Launch) (p : Plane) (cost addr : Nat) (data : List (BitVec 8)), s.launch? l.id = some l → l.st = .placed →
    l.loaded = false → l.hold = false → l.placedAt + 1 ≤ s.cycle →
    s.readImage (imageReader (.image l.id) (fieldOf (tidOf l.ox l.oy)) l.ctx) l.image l.looptab (geomW l.geom)
      (geomH l.geom) 0xC0000 = (.ok p cost addr data, t) →
    ∃ u, exec (.planeLoad l.id) s = .next u ∧ u.launches = t.launches.map (fun x => if x.id = l.id then
        { l with loaded := true, loadedAt := s.cycle, cost, data, dataAddr := addr } else x) ∧
      ∀ m ∈ l.tiles, (u.coreAt m).plane = (t.coreAt m).plane ∧ (u.coreAt m).curPlane = (t.coreAt m).curPlane ∧
        (if (t.coreAt m).curPlane then (u.coreAt m).planes.get 0 else (u.coreAt m).planes.get 1) = p) ∧
  (∀ (s t : State) (l : Launch) (n : Nat), s.launch? l.id = some l → l.st = .placed →
    l.loaded = false → l.hold = false → l.placedAt + 1 ≤ s.cycle →
    s.readImage (imageReader (.image l.id) (fieldOf (tidOf l.ox l.oy)) l.ctx) l.image l.looptab (geomW l.geom)
      (geomH l.geom) 0xC0000 = (.status n, t) →
    ∃ u, exec (.planeLoad l.id) s = .next u ∧ u.launch? l.id = none ∧ reported t u l ∧ u.cores = t.cores) ∧
  (∀ (s : State) (l : Launch), s.launch? l.id = some l → (∀ g ∈ s.gangs, g.id ≠ l.id) → (l.st = .head ∨ l.st = .eligible) →
    l.bad ≠ 0 →
    ∃ u, exec (.launchComplete l.id) s = .next u ∧ u.launch? l.id = none ∧ reported s u l ∧
      (u.queueRec l.qid).head = (s.queueRec l.qid).head.drop 1) ∧
  (∀ (s : State) (l : Launch), s.launch? l.id = some l → l.st = .head → l.stale = false →
    0 < s.sys.lnchAge.toNat % 2 ^ 32 → 65536 * (s.sys.lnchAge.toNat % 2 ^ 32) < s.cycle - l.headAt →
    ∃ u, exec (.staleLaunch l.id) s = .next u ∧ u.launch? l.id = some { l with stale := true } ∧ buffered u 2 0x0003)

/-- R9, R122, R259, R262, R264, R265, R293, R297, R299: barrier rounds; the grant, the start tokens, the boundaries that make a member
ready, the start and the completion of a gang. The order in which the scratchpad is cleared (log 50) and that the data section is kept with the launch (log
49) are the model's. -/
def Obligations.GangsAndBarriers : Prop :=
  ((∀ (s : State) (g : Gang) (b : BitVec 2), let l := g.lines.get b.toFin
    s.gangs.find? (fun x => x.id == g.id) = some g → l.release = none → l.arrived.length = g.w * g.h →
    l.lastAt + g.delay l.lastTid ≤ s.cycle → (∀ t ∈ g.tiles, (s.coreAt t).frozen = false) → (s.ctx g.ctx).st ≠ 2 →
    (s.ctx g.ctx).st ≠ 3 →
    ∃ u, exec (.barrierDetect g.id b.toNat) s = .next u ∧ u.cores = s.cores ∧
      u.gangs.find? (fun x => x.id == g.id) =
        some { g with lines := g.lines.set b.toFin { l with release := some (s.cycle + 96) } }) ∧
  (∀ (s : State) (g : Gang) (b : BitVec 2) (t : Nat), s.gangs.find? (fun x => x.id == g.id) = some g → t ∈ g.tiles →
    (s.coreAt t).frozen = true → exec (.barrierDetect g.id b.toNat) s = .next s) ∧
  (∀ (s : State) (g : Gang) (b : BitVec 2) (n : Nat), let l := g.lines.get b.toFin
    s.gangs.find? (fun x => x.id == g.id) = some g → l.release = some n → n ≤ s.cycle →
    ∃ u, exec (.barrierRelease g.id b.toNat) s = .next u ∧
      u.gangs.find? (fun x => x.id == g.id) = some { g with lines := g.lines.set b.toFin Line.fresh } ∧
      ∀ m v pr, (m, v) ∈ l.arrived → (s.coreAt m).strand = .sync b pr →
        u.coreAt m = { s.coreAt m with strand := .running, inflight := (s.coreAt m).inflight ++
          (if pr = 0 then [] else [{ w := .p pr (l.arrived.all (·.2)), fl := 0, slot := .c, rem := 0, lat := 0
                                     ord := (s.coreAt m).issueNo - 1, late := false }]) })) ∧
  ((∀ (s : State) (l : Launch), s.launch? l.id = some l → l.st = .placed → l.loaded = true → l.loadedAt + l.cost ≤ s.cycle →
    (∀ t ∈ l.tiles, s.gangOf t = none ∨ ∃ g, s.gangOf t = some g ∧ ∀ m ∈ g.tiles, m ∉ g.left → ∃ w, (s.coreAt m).strand = .drained w) →
    unmoved s l →
    ∃ u, exec (.launchGrant l.id) s = .next u ∧ u.cores = s.cores ∧ u.launch? l.id =
      some { l with st := .starting, grant := s.cycle, startAt := s.cycle + 352 + (l.data.length + 7) / 8 }) ∧
  (∀ (s : State) (l : Launch) (t : Nat),
    s.launch? l.id = some l → l.st = .starting → t ∈ l.tiles → (∀ k ∈ l.tokens, k.1 ≠ t) → unmoved s l →
    ∃ u, exec (.startToken l.id t) s = .next u ∧ u.coreAt t = { s.coreAt t with gate := l.startAt } ∧ u.gangOf t = none ∧
      u.launch? l.id = some { l with tokens := (t, s.cycle) :: l.tokens }) ∧
  (∀ (s : State) (l : Launch) (t r : Nat), let c := s.coreAt t
    let d := (s.prepareMember l t r).coreAt t
    s.cycle ≠ l.startAt → s.cycle < l.grant + 349 →
    (s.cycle = r + 1 → d = { c with curPlane := !c.curPlane, strand := .none }) ∧
    (∀ i < 256, s.cycle = r + 2 + i → ∀ a,
      d.spad.read a = if 3072 * i ≤ a ∧ a < 3072 * (i + 1) then 0 else c.spad.read a)) ∧
  (∀ (s : State) (l : Launch) (t r j : Nat), let c := s.coreAt t
    let d := (s.prepareMember l t r).coreAt t
    s.cycle ≠ l.startAt → r + 258 ≤ s.cycle → s.cycle = l.grant + 349 + j → 8 * j < l.data.length → c.spad.wf = true →
    holds d.spad (l.dataAddr + 8 * j) ((l.data.drop (8 * j)).take 8) ∧
      keeps c.spad d.spad (l.dataAddr + 8 * j) ((l.data.drop (8 * j)).take 8).length) ∧
  (∀ (s : State) (l : Launch) (t r : Nat), let c := s.coreAt t
    let d := (s.prepareMember l t r).coreAt t
    s.cycle = l.startAt → r + 258 ≤ s.cycle → l.data.length ≤ 8 * (s.cycle - (l.grant + 349)) → l.args.length = 8 →
      d.curPlane = c.curPlane ∧ d.planes = c.planes ∧ d.pc = d.plane.entry ∧ d.strand = .none ∧ d.gate = l.startAt ∧
      (∀ i < 8, d.sreg (BitVec.ofNat 6 (i + 1)) = l.args.getD i 0) ∧ (∀ i < 64, 9 ≤ i → d.sreg (BitVec.ofNat 6 i) = 0) ∧
      d.vregs = Vector.replicate 32 0 ∧ d.fstat = 0 ∧ d.trap.en = false ∧ d.chn.posts = [] ∧ d.cnt.word = 0 ∧
      d.pos.ctx = BitVec.ofNat 7 l.ctx ∧ d.pos.gangW = BitVec.ofNat 8 (geomW l.geom) ∧
      d.pos.gangH = BitVec.ofNat 8 (geomH l.geom) ∧ d.pos.orgX = BitVec.ofNat 8 l.ox ∧ d.pos.orgY = BitVec.ofNat 8 l.oy ∧
      d.spad = c.spad) ∧
  (∀ (s : State) (l : Launch), s.launch? l.id = some l → l.st = .starting → s.cycle = l.startAt → (∀ t ∈ l.tiles, ∃ k ∈ l.tokens, k.1 = t) →
    unmoved s l →
    ∃ u g, exec (.gangStart l.id) s = .next u ∧ u.gangs = s.gangs ++ [g] ∧ g.id = l.id ∧ g.ctx = l.ctx ∧ g.ox = l.ox ∧ g.oy = l.oy ∧
      g.w = geomW l.geom ∧ g.h = geomH l.geom ∧ g.lines = Vector.replicate 4 Line.fresh ∧ u.launch? l.id = none ∧
      ∀ t ∈ l.tiles, u.coreAt t = { s.coreAt t with strand := .running }) ∧
  (∀ (s : State) (g : Gang), s.gangs.find? (fun x => x.id == g.id) = some g → g.isOver = false → g.left = [] →
    (∀ t ∈ g.tiles, (s.coreAt t).strand = .drained false) →
    ∃ u, exec (.launchComplete g.id) s = .next u ∧ (∀ x ∈ u.gangs, x.id ≠ g.id) ∧ reported s u g.launch ∧
      ∀ t ∈ g.tiles, (u.coreAt t).strand = .none ∧ (u.coreAt t).spad = (s.coreAt t).spad))

/-- R321, R326 to R330: the operations of PRE_CTL; at a restore a tile's record is read back: what stands at a stated place is as the record
now holds it, a part whose places are open, when its bytes are those that were written, as it was saved (log 22). -/
def Obligations.ContextOperations : Prop :=
  (∀ (s : State) (x : Word) (ns : List Nat), let c := ctxOf x
    goPre x 0 → s.preBusy = false → (s.ctx c).st = 1 → (∀ l ∈ s.launches, l.ctx = c → l.waits = true) → s.residents c = ns →
    ns ≠ [] → (∀ g ∈ s.gangs, g.ctx = c → g.isOver = false) →
    ∃ u, exec (.contextSaveRequest x) s = .next u ∧ (u.ctx c).st = 2 ∧ u.preBusy = true ∧ u.preWait = ns ∧ u.cores = s.cores) ∧
  (∀ (s : State) (x : Word), x.getLsbD 63 = true → s.preBusy = true →
    (goPre x 0 → ∃ u, exec (.contextSaveRequest x) s = .next u ∧ u.ctxs = s.ctxs ∧ u.gangs = s.gangs ∧ buffered u 6 0x0008) ∧
    (goPre x 1 → ∃ u, exec (.contextRestoreRequest x) s = .next u ∧ u.ctxs = s.ctxs ∧ u.gangs = s.gangs ∧ buffered u 6 0x0008) ∧
    (goPre x 2 → ∃ u, exec (.contextDestroyRequest x) s = .next u ∧ u.ctxs = s.ctxs ∧ u.gangs = s.gangs ∧ buffered u 6 0x0008)) ∧
  (∀ (s : State) (x : Word), goPre x 1 → s.preBusy = false → (s.ctx (ctxOf x)).st = 4 →
    ∃ u, exec (.contextRestoreRequest x) s = .next u ∧ u.ctx (ctxOf x) = { s.ctx (ctxOf x) with st := 6 } ∧ u.preBusy = true ∧
      u.cores = s.cores) ∧
  (∀ (s : State) (x : Word), let c := ctxOf x
    goPre x 2 → s.preBusy = false → ((s.ctx c).st = 1 ∨ (s.ctx c).st = 4) →
    ∃ u, exec (.contextDestroyRequest x) s = .next u ∧ (u.ctx c).st = 5 ∧ u.preBusy = true ∧ (∀ g ∈ u.gangs, g.ctx ≠ c) ∧
      (∀ l ∈ u.launches, l.ctx ≠ c) ∧ (∀ v ∈ u.saved, v.gang.ctx ≠ c)) ∧
  (∀ (s : State) (t : Nat) (g : Gang), s.gangOf t = some g → (s.ctx g.ctx).st = 2 → (s.coreAt t).haltReq = false →
    exec (.haltToken t) s = .next (s.putCore t { s.coreAt t with haltReq := true, haltNew := true })) ∧
  (∀ (s : State) (t : Nat) (g : Gang), s.gangOf t = some g → (s.ctx g.ctx).st = 2 → t ∈ s.preWait → atRest s t →
    ((∀ n ∈ s.preWait, n = t) →
      ∃ u, exec (.tileHalted t) s = .next u ∧ (u.ctx g.ctx).st = 3 ∧ u.preWait = s.residents g.ctx ∧ buffered u 2 0x000C ∧
        ((s.residents g.ctx).Nodup →
          ∀ i < (s.residents g.ctx).length, Tab.getD u.recNums ((s.residents g.ctx).getD i 0) 0 = i)) ∧
    ((∃ n ∈ s.preWait, n ≠ t) →
      ∃ u, exec (.tileHalted t) s = .next u ∧ u.preWait = s.preWait.filter (· != t) ∧ u.ctxs = s.ctxs ∧
        ∀ n, u.coreAt n = s.coreAt n)) ∧
  (∀ (s : State) (t : Nat) (g : Gang), let a := (s.ctx g.ctx).save.toNat * 2 ^ 16 + 0x8000 + 860160 * Tab.getD s.recNums t 0
    let bs := s.record g t
    s.gangOf t = some g → (s.ctx g.ctx).st = 3 → t ∈ s.preWait → (s.coreAt t).frozen = false →
    (s.job? t .save = none →
      ∃ u j, exec (.tileRecordWritten t) s = .next u ∧ u.jobs = s.jobs ++ [j] ∧ j.core = t ∧ j.mid = 64 ∧ j.write = some bs ∧
        j.pas = (blocksOf a bs.length).map (fun b => (b.1, b.2, a + b.1)) ∧ u.preWait = s.preWait ∧ u.cores = s.cores ∧
        Tab.getD u.recBytes t [] = bs.take 73728) ∧
    (∀ j, s.job? t .save = some j → j.ended = some (.done []) → (∀ k ∈ s.jobs, k.id = j.id → k = j) →
      (∃ n ∈ s.preWait, n ≠ t) →
      ∃ u, exec (.tileRecordWritten t) s = .next u ∧ u.preWait = s.preWait.filter (· != t) ∧ u.cores = s.cores ∧ u.ctxs = s.ctxs) ∧
    (∀ j, s.job? t .save = some j → j.ended = some (.done []) → (∀ k ∈ s.jobs, k.id = j.id → k = j) →
      (∀ n ∈ s.preWait, n = t) →
      ∃ u, exec (.tileRecordWritten t) s = .next u ∧ (u.ctx g.ctx).st = 4 ∧ u.preBusy = false ∧ buffered u 2 0x0009 ∧
        ∀ x ∈ u.gangs, x.ctx ≠ g.ctx)) ∧
  (∀ (s : State) (v : SavedGang), (s.ctx v.gang.ctx).st = 6 → s.saved = [v] → v.place = none →
    ∃ u, exec (.gangRestore v.gang.ctx) s = .next u ∧ u.saved = [{ v with place := s.restoreOrigin v }] ∧ u.cores = s.cores ∧
      u.ctxs = s.ctxs) ∧
  (∀ (s : State) (v : SavedGang) (ox oy k : Nat) (p : Option Plane) (j : Job) (b bs : List (BitVec 8)), let g := v.gang
    (s.ctx g.ctx).st = 6 → s.saved = [v] → v.place = some (ox, oy) → v.image = some p → v.startAt = none → g.w = 1 → g.h = 1 →
    (rectTiles ox oy 1 1).all s.placeable = true → v.tiles = [k] → v.blocks = [b] → k ≠ tidOf ox oy → s.jobs = [j] → j.core = k →
    j.who = .recall → j.ended = some (.done bs) →
    ∃ u h, exec (.gangRestore g.ctx) s = .next u ∧
      u.saved = [{ v with gang := h, startAt := some (s.cycle + 352 + Config.recordCycles) }] ∧ h.id = g.id ∧ h.launch = g.launch ∧
      (b.take 0xC00 = bs.take 0xC00 → h = g ∧ (u.coreAt k).sregs = (s.coreAt k).sregs ∧ (u.coreAt k).hregs = (s.coreAt k).hregs) ∧
      (∀ i : Fin 512, (u.coreAt k).spill.get i = BitVec.ofNat 64 (bytesNat ((bs.drop (0x2000 + 8 * i)).take 8))) ∧
      (u.coreAt (tidOf ox oy)).gate = s.cycle + 352 + Config.recordCycles ∧
      (∀ i : Fin 16, (u.coreAt k).zregs.get i = BitVec.ofNat 512 (bytesNat ((bs.drop (0xC00 + 64 * i)).take 64))) ∧
      (∀ i : Fin 32, (u.coreAt k).vregs.get i = BitVec.ofNat 1024 (bytesNat ((bs.drop (0x1000 + 128 * i)).take 128)))) ∧
  (∀ (s : State) (v : SavedGang) (ox oy k : Nat) (p : Plane), let g := v.gang
    (s.ctx g.ctx).st = 6 → s.saved = [v] → v.place = some (ox, oy) → v.image = some (some p) → v.startAt = some s.cycle → g.w = 1 →
    g.h = 1 → g.left = [] → (rectTiles ox oy 1 1).all s.placeable = true → v.tiles = [k] → (s.coreAt k).strand = .saved →
    (s.coreAt k).dacc = [] → g.ox < 184 →
    (∀ r ∈ (s.coreAt k).inflight ++ (s.coreAt k).snapPre.results, ∀ n x, r.w ≠ .h n x) →
    ∃ u d, exec (.gangRestore g.ctx) s = .next u ∧ u.coreAt (tidOf ox oy) = d ∧ (u.ctx g.ctx).st = 1 ∧ u.preBusy = false ∧
      buffered u 2 0x000A ∧ u.saved = [] ∧ (∃ h ∈ u.gangs, h.id = g.id ∧ h.ox = ox ∧ h.oy = oy) ∧ d.strand = .running ∧
      d.plane = p ∧ d.gate = s.cycle ∧ d.sregs = (s.coreAt k).sregs ∧ d.spad = (s.coreAt k).spad ∧ d.pc = (s.coreAt k).pc ∧
      d.inflight = (s.coreAt k).inflight ++ (s.coreAt k).snapPre.results ∧ d.redirects = (s.coreAt k).snapPre.redirects ∧
      d.pos.x = BitVec.ofNat 8 (tileX (tidOf ox oy)) ∧ d.pos.y = BitVec.ofNat 8 (tileY (tidOf ox oy))) ∧
  (∀ (s : State) (c : Nat), (s.ctx c).st = 5 → s.queuesOf c = [] → (∀ e ∈ s.cores, e.2.pos.ctx.toNat = c → e.2.slogSlot = none) →
    ∃ u, exec (.contextDestroyed c) s = .next u ∧ u.ctx c = { Ctx.fresh with tgen := (s.ctx c).tgen } ∧ u.preBusy = false ∧
      buffered u 2 0x000B ∧ (∀ e ∈ u.evctr, e.1 / 1024 ≠ c) ∧ u.cores = s.cores)

namespace Sys2Proof.Claims

open Sys2Proof Sys2Proof.Machine

/-! ### Tables, links, power and system registers -/

/-- A table in rising order of its keys. -/
def rising {α : Type} (t : Tab α) : Prop := t.Pairwise (fun a b => a.1 < b.1)

/-- DSC_CTL's GO with DSC_SEL on the table `ctx` (R400). -/
def goDsc (s : State) (x : Word) (ctx : Bool) : Prop := x.getLsbD 63 = true ∧ s.sys.dscSel.getLsbD 63 = ctx

/-- The index of DSC_SEL. -/
def dscIndex (s : State) : Nat := s.sys.dscSel.toNat % 2 ^ 17

/-- ATB_CTL's GO with ATB_SEL on table `tbl` (R402). -/
def goAtb (s : State) (x : Word) (tbl : Nat) : Prop := x.getLsbD 63 = true ∧ s.sys.atbSel.toNat / 2 ^ 62 = tbl

/-- The tile lies in the rectangle of `w` × `h` at (x0, y0). -/
def within (x0 y0 w h t : Nat) : Bool :=
  decide (x0 ≤ t % 184 ∧ t % 184 < x0 + w ∧ y0 ≤ t / 184 ∧ t / 184 < y0 + h)

/-- The rows a context descriptor's reserved fields and ranges must keep (R320). -/
def ctxWordOk (x : BitVec 256) : Prop :=
  let d := Ctx.ofBits x
  d.x0.toNat + d.w.toNat ≤ 184 ∧ d.y0.toNat + d.h.toNat ≤ 184 ∧ d.homen.toNat ≤ d.w.toNat ∧ field 136 12 x = (0 : BitVec 12) ∧
    field 64 64 x = (0 : Word) ∧ field 12 20 x = (0 : BitVec 20) ∧ field 1 4 x = (0 : BitVec 4)

/-- Does a gang of context `c` hold tile `t`, or a launch of it that is placed (R297, R344)? -/
def tokenTile (s : State) (c t : Nat) : Bool :=
  s.gangs.any (fun g => g.ctx == c && g.holds t) ||
    s.launches.any (fun l => l.ctx == c && (l.st == .placed || l.st == .starting) &&
      inRect l.ox l.oy (geomW l.geom) (geomH l.geom) t)

/-- The bits of DSC_Di that a write sets, with a context descriptor selected or a queue descriptor (R5, R283, R320). -/
def dscWritable (ctx : Bool) (i : Nat) : Word :=
  (if ctx then [0xFFFFFFFF000000E1, 0, 0xFFFFFFFF000000FF, 0xFFFFFFFFFFFFFFFF]
    else [0x3FF, 0x003FFFFFFFFFFFFF, 0xFFFFFFFFFFFFFFFF, 0xFFFFFFFFFFFFFFFF]).getD i 0

/-- Those that it leaves alone: STATE and TGEN (R5, R320). -/
def dscKept (ctx : Bool) (i : Nat) : Word := if ctx then [0xF00, 0, 0xFFF00000, 0].getD i 0 else 0

/-- The one metered context is `c` (R343). -/
def soleMetered (s : State) (c : Nat) : Prop :=
  c < 64 ∧ s.isMetered c = true ∧ ∀ d < 64, d ≠ c → s.isMetered d = false

/-- Offer `a` is stamped before `b`: offered earlier, then by ORIGIN, then by WHERE (R381). -/
def stampedFirst (a b : Offer) : Prop :=
  a.since < b.since ∨ a.since = b.since ∧ (a.org < b.org ∨ a.org = b.org ∧ a.loc < b.loc)

/-- System registers without behaviour of their own and their writable bits (R400). -/
def plainRegs : List (Nat × Word) :=
  [(0x802, 0xFFFFFFFFFFFFFFFF), (0x803, 0x1FF), (0x804, 0xFFFFFFFFFFFFFFFF), (0x818, 0xFFFFFFFFFFFFFFFF),
    (0x819, 0xFFFFFFFFFFFFFFFF), (0x81A, 0xFFFFFFFFFFFFFFFF), (0x81B, 0xFFFFFFFFFFFFFFFF), (0x81C, 0xFFFFFFFFFFFFFFFF),
    (0x820, 0xFFFFFFFFFFFF0000), (0x824, 0x0000FFFFFFFFF01F), (0x828, 0xFFFFFFFFFFFF0000), (0x839, 0xFFFFFFFFFFFFFFFF),
    (0x83A, 0xFFFFFFFFFFFFFFFF), (0x83C, 0xFFFFFFFF), (0x841, 0x0000000000FF007F), (0x844, 0x7F), (0x848, 0x1F3F),
    (0x850, 0x3F), (0x85A, 0x000000000FFF0FFF)]

end Sys2Proof.Claims

open Sys2Proof Sys2Proof.Machine Sys2Proof.Claims

/-- R283, R320, R322, R339, R340, R400, R402: descriptors, access tables and slot tables. -/
def Obligations.TablesAreSelectedAndCommitted : Prop :=
  (∀ (s : State) (x : Word), ∃ u, exec (.descriptorSelect x) s = .next u ∧ u.sys.dscSel = x &&& 0x800000000001FFFF ∧
    ∀ i < 4, u.sys.dscD.toList.getD i 0 = field (64 * i) 64
      (if x.getLsbD 63 then (if x.toNat % 2 ^ 17 < 64 then (s.ctx (x.toNat % 2 ^ 17)).bits else 0)
        else s.queueDesc (x.toNat % 2 ^ 17))) ∧
  (∀ (s : State) (x : Word), goDsc s x false → qdV (s.queueDesc (dscIndex s)) = false →
    (s.goodQueueDesc s.stagedDesc = true → qdClosed s.stagedDesc = false →
      ∃ u, exec (.queueDescriptorCommit x) s = .next u ∧ u.queueDesc (dscIndex s) = s.stagedDesc ∧ u.sys.dscCtl = 1 ∧
        u.cores = s.cores ∧ u.queues = s.queues) ∧
    (s.goodQueueDesc s.stagedDesc = false →
      ∃ u, exec (.queueDescriptorCommit x) s = .next u ∧ u.qdesc = s.qdesc ∧ u.sys.dscCtl = 2 ∧ buffered u 6 0x0006)) ∧
  (∀ (s : State) (x : Word), let c := dscIndex s
    let d := Ctx.ofBits s.stagedDesc
    goDsc s x true → c < 64 → ctxWordOk s.stagedDesc → d.v = true → (s.ctx c).st = 0 →
    (∀ e ∈ s.ctxs, e.1 ≠ c → e.2.v = true → d.meets e.2 = false) →
    ∃ u, exec (.contextDescriptorCommit x) s = .next u ∧ u.ctx c = { d with tgen := (s.ctx c).tgen, st := 1 } ∧ u.sys.dscCtl = 1 ∧
      (∀ e ∈ u.evctr, e.1 / 1024 ≠ c) ∧ ∀ t m, m < 128 → within d.x0.toNat d.y0.toNat d.w.toNat d.h.toNat t → u.grant t m = if m = c then 3 else 0) ∧
  (∀ (s : State) (x : Word), let d := Ctx.ofBits s.stagedDesc
    goDsc s x true → (64 ≤ dscIndex s ∨ ¬ ctxWordOk s.stagedDesc ∨ ∃ e ∈ s.ctxs, e.1 ≠ dscIndex s ∧ e.2.v = true ∧ d.meets e.2 = true) →
    ∃ u, exec (.contextDescriptorCommit x) s = .next u ∧ u.ctxs = s.ctxs ∧ u.grants = s.grants ∧ u.sys.dscCtl = 2 ∧
      buffered u 6 0x0006) ∧
  (∀ (s : State) (x : Word), ∃ u, exec (.accessTableSelect x) s = .next u ∧ u.sys.atbSel = x &&& 0xC0000000007FFFFF ∧
    (x.toNat / 2 ^ 62 = 0 → u.sys.atbD1 = (s.grant (x.toNat % 2 ^ 16) (x.toNat / 2 ^ 16 % 2 ^ 7)).setWidth 64) ∧
    (x.toNat / 2 ^ 62 = 2 → u.sys.atbD0 = s.hostSets.toList.getD (x.toNat % 4) 0)) ∧
  (∀ (s : State) (x : Word), let a := s.sys.atbD0
    let m := s.sys.atbSel.toNat / 2 ^ 16 % 2 ^ 7
    let w := a.toNat % 2 ^ 8
    let h := a.toNat / 2 ^ 8 % 2 ^ 8
    let x0 := a.toNat / 2 ^ 16 % 2 ^ 8
    let y0 := a.toNat / 2 ^ 24 % 2 ^ 8
    goAtb s x 0 → field 2 62 s.sys.atbD1 = (0 : BitVec 62) →
    (m ≤ 64 → a.toNat / 2 ^ 32 = 0 → 0 < w → 0 < h → x0 + w ≤ 184 → y0 + h ≤ 184 → rising s.grants →
      ∃ u, exec (.tileGrantCommit x) s = .next u ∧ u.sys.atbCtl = 1 ∧ ∀ t k, k < 128 →
        u.grant t k = if within x0 y0 w h t ∧ k = m then field 0 2 s.sys.atbD1 else s.grant t k) ∧
    ((64 < m ∨ w = 0 ∨ h = 0 ∨ 184 < x0 + w ∨ 184 < y0 + h) →
      ∃ u, exec (.tileGrantCommit x) s = .next u ∧ u.sys.atbCtl = 2 ∧ u.grants = s.grants ∧ buffered u 6 0x0008)) ∧
  (∀ (s : State) (x : Word), let a := s.sys.atbD0
    let b := s.sys.atbD1
    let m := s.sys.atbSel.toNat / 2 ^ 16 % 2 ^ 7
    let i := s.sys.atbSel.toNat % 8
    goAtb s x 1 → field 48 15 a = (0 : BitVec 15) → field 0 16 a = (0 : BitVec 16) → field 48 16 b = (0 : BitVec 16) →
    field 2 14 b = (0 : BitVec 14) → m ≤ 68 →
    (¬ (m = 64 ∧ i = 0) →
      (a.getLsbD 63 = true → (field 16 32 a : BitVec 32) ≤ field 16 32 b) → (field 16 32 b : BitVec 32).toNat * 2 ^ 16 < s.cap →
      ∃ u, exec (.drawerRangeCommit x) s = .next u ∧ u.sys.atbCtl = 1 ∧ Tab.getD u.ranges (8 * m + i) Range.none =
        { v := a.getLsbD 63, base := field 16 32 a, limit := field 16 32 b, rd := b.getLsbD 0, wr := b.getLsbD 1 }) ∧
    (m = 64 ∧ i = 0 ∨ a.getLsbD 63 = true ∧ (field 16 32 b : BitVec 32) < field 16 32 a ∨
        s.cap ≤ (field 16 32 b : BitVec 32).toNat * 2 ^ 16 →
      ∃ u, exec (.drawerRangeCommit x) s = .next u ∧ u.sys.atbCtl = 2 ∧ u.ranges = s.ranges ∧ buffered u 6 0x0008)) ∧
  (∀ (s : State) (x : Word), goAtb s x 2 → s.sys.atbD1 = 0 →
    ∃ u, exec (.hostContextSetCommit x) s = .next u ∧ u.sys.atbCtl = 1 ∧
      u.hostSets.toList.getD (s.sys.atbSel.toNat % 4) 0 = s.sys.atbD0) ∧
  (∀ (s : State) (x : Word), let n := s.sys.sltAddr.toNat / 2 ^ 16 % 2 ^ 7
    let g := s.sys.sltAddr.toNat % 2 ^ 7
    n < 112 →
    ∃ u, exec (.sltDataWrite x) s = .next u ∧ u.slotsA = s.slotsA ∧ u.sys.sltAddr.toNat % 2 ^ 7 = (g + 1) % 128 ∧
      ∀ k i, i < 1024 → u.slotEntry false k i =
        if k = n ∧ i / 8 = g then field (8 * (i % 8)) 8 x else s.slotEntry false k i) ∧
  (∀ (s : State) (x : Word), let n := x.toNat % 2 ^ 7
    s.sys.sltCtl.getLsbD 62 = false → x.getLsbD 63 = true → x.getLsbD 61 = false → n < 112 →
    (s.badShadow n = false →
      ∃ u, exec (.slotTableCommit x) s = .next u ∧ u.sltWait = [n] ∧ u.sys.sltCtl.getLsbD 62 = true ∧ u.slotsA = s.slotsA) ∧
    (s.badShadow n = true →
      ∃ u, exec (.slotTableCommit x) s = .next u ∧ u.sltWait = s.sltWait ∧ u.sys.sltCtl.getLsbD 62 = false ∧ buffered u 6 0x000D)) ∧
  (∀ (s : State) (x : Word), s.sys.sltCtl.getLsbD 62 = false → x.getLsbD 63 = true → 112 ≤ x.toNat % 2 ^ 7 →
    ∃ u, exec (.slotTableCommit x) s = .next u ∧ u.sltWait = s.sltWait ∧ u.sys.sltCtl.getLsbD 62 = false ∧ buffered u 6 0x000D) ∧
  (∀ (s : State) (n : Nat), n ∈ s.sltWait → (s.link n).st = 2 → (s.link n).slot % 1024 = 0 → rising s.slotsS →
    ∃ u, exec (.slotTableSwitch n) s = .next u ∧ (∀ i < 1024, u.slotEntry true n i = s.slotEntry false n i) ∧ n ∉ u.sltWait ∧
      u.slotsS = s.slotsS ∧ (u.sltWait = [] → u.sys.sltCtl.getLsbD 62 = false))

/-- R342 to R349: tokens, training links and requests whose link stays down; what a retraining cuts off is sent again. That such a read can
time out, and that the strand's accesses share one 0x18, is log 112. -/
def Obligations.TokensAndLinks : Prop :=
  (∀ (s : State) (n : Nat) (x : Word), n < 64 →
    ∃ u, exec (.bwcWrite n x) s = .next u ∧ u.bwc = s.bwc ∧
      u.bwcRead n = BitVec.ofNat 64 (min 1024 (x.toNat % 2 ^ 11) + min 1024 (x.toNat / 2 ^ 32 % 2 ^ 11) * 2 ^ 32)) ∧
  (∀ (s : State) (c : Nat), soleMetered s c → s.cycle % 1024 = 0 → s.bwcNext = [] → rising s.cores →
    ∃ u, exec .tokenRefill s = .next u ∧ u.metered = [] ∧
      ∀ t, t ≠ mgmtCore → t ∈ s.cores.map (·.1) → (u.coreAt t).bucket =
        (if tokenTile s c t then min ((s.coreAt t).bucket + bwcTq (Tab.getD s.bwc c 0)) (2 * bwcTq (Tab.getD s.bwc c 0))
        else (s.coreAt t).bucket)) ∧
  (∀ (s : State) (n : Nat), n < 112 → (s.link n).st = 1 →
    (Tab.getD s.env.lat n 0 ≤ 1680 →
      ∃ u, exec (.linkTraining n) s = .next u ∧ u.linkUp n = true ∧ (u.link n).lat = Tab.getD s.env.lat n 0 ∧
        (u.link n).slot = 0 ∧ (u.link n).t0 = s.cycle + 1 ∧ (u.link n).retr = (s.link n).retr ∧ buffered u 3 0x000E) ∧
    (1680 < Tab.getD s.env.lat n 0 →
      ∃ u, exec (.linkTraining n) s = .next u ∧ (u.link n).st = 0 ∧ buffered u 3 0x000E ∧ buffered u 3 0x000F)) ∧
  (∀ (s : State) (n : Nat), n < 112 → (s.link n).st = 2 →
    ∃ u, exec (.linkTraining n) s = .next u ∧ (u.link n).st = 1 ∧ (u.link n).retr = min 0xFFFF ((s.link n).retr + 1) ∧
      buffered u 3 0x000E ∧ u.slotsA = s.slotsA ∧ u.drawer = s.drawer ∧ u.reqs = s.reqs.map (fun r =>
        match r.place with
        | .served d _ => if linkOf r.addr = n ∧ r.res.isSome = true ∧ s.cycle < d then { r with place := .resend } else r
        | _ => r)) ∧
  (∀ (s : State) (n k : Nat) (lent : Bool) (r : Req) (e : ReqEnd), (s.link n).st = 2 →
    (s.link n).t0 + 5 * (s.link n).slot / 14 ≤ s.cycle → s.urgentAt n = none → nextGrant s n = some (k, lent) →
    oldestReq (s.queued n k) = some r → r.res = some e →
    ∃ u, exec (.slotGrant n) s = .next u ∧ u.drawer = s.drawer ∧ (u.link n).slot = (s.link n).slot + 1 ∧
      u.reqs.map (·.res) = s.reqs.map (·.res) ∧ ∃ q ∈ u.reqs, q.id = r.id ∧ ∃ d m, q.place = .served d m) ∧
  (∀ (s : State) (r : Req), s.reqs.find? (fun q => q.id == r.id) = some r → 62500 ≤ r.waited → s.linkUp (linkOf r.addr) = false →
    r.res = none → r.patient = false → r.owner ≠ .host → r.traps = false →
    exec (.linkWaitTimeout r.id) s = .next { s with reqs := s.reqs.map (fun x =>
      if x.id = r.id then { x with place := .served s.cycle s.cycle, res := some .stalled } else x) }) ∧
  (∀ (s : State) (r : Req), (s.reqs.map (·.id)).Nodup → r ∈ s.reqs → 62500 ≤ r.waited → s.linkUp (linkOf r.addr) = false →
    r.res = none → r.patient = false → r.traps = true →
    (∀ x ∈ s.reqs, x.core = r.core → x.id ≠ r.id → x.waited < 62500) →
    exec (.linkWaitTimeout r.id) s = .next { s with reqs := s.reqs.map (fun x =>
      if x.core = r.core ∧ x.traps = true ∧ s.stranded x = true ∧ linkOf x.addr = linkOf r.addr then
        { x with place := .served s.cycle s.cycle, res := some (if x.id ≠ r.id ∧ x.ofStrand = true then .returned else .stalled) }
      else x) }) ∧
  (∀ (s : State) (q r : Req), (s.reqs.map (·.id)).Nodup → q ∈ s.reqs → r ∈ s.reqs → 62500 ≤ q.waited → 62500 ≤ r.waited →
    s.linkUp (linkOf q.addr) = false → s.linkUp (linkOf r.addr) = false → q.res = none → r.res = none → q.patient = false →
    r.patient = false → q.ofStrand = true → r.ofStrand = true → q.core = r.core → r.core < 0x10000 →
    linkOf q.addr < linkOf r.addr →
    (∀ x ∈ s.reqs, x.core = r.core → x.id ≠ q.id → x.id ≠ r.id → x.waited < 62500) →
    ∃ u, exec (.linkWaitTimeout r.id) s = .next u ∧ { q with place := .served s.cycle s.cycle, res := some .stalled } ∈ u.reqs ∧
      { r with place := .served s.cycle s.cycle, res := some .returned } ∈ u.reqs) ∧
  (∀ (s : State) (t : Nat) (a : Access) (r : Req) (m d : Nat),
    (s.coreAt t).dacc.find? (fun x => x.id == a.id && x.isLoad && x.st == .sent) = some a →
    s.reqs.filter (fun x => x.core == t && x.owner == .access a.id) = [r] → r.res = some .returned → r.place = .served m d →
    d ≤ s.cycle → (s.coreAt t).frozen = false →
    ∃ u, exec (.drawerLoadReturn t a.id) s = .next u ∧ (u.coreAt t).cnt.l = (s.coreAt t).cnt.l - 1 ∧
      (u.coreAt t).inflight = (s.coreAt t).inflight ∧ (u.coreAt t).deferred = (s.coreAt t).deferred ∧
      (u.coreAt t).dacc = (s.coreAt t).dacc.filter (fun x => x.id != a.id) ∧ ∀ x, (u.coreAt t).sreg x = (s.coreAt t).sreg x) ∧
  (∀ (s : State) (r : Req) (p : Nat), s.reqs.find? (fun q => q.id == r.id) = some r → 62500 ≤ r.waited →
    s.linkUp (linkOf r.addr) = false → r.res = none → r.patient = false → r.owner = .host → r.core = 0x10000 + p → r.write = none →
    ∃ u, exec (.linkWaitTimeout r.id) s = .next u ∧ u.outbox = s.outbox ++ [.hostAbort p r.addr] ∧ buffered u 5 0x0010 ∧
      ∀ q ∈ u.reqs, q.id ≠ r.id)

/-- R381, R382, R389 to R395, R398 to R401: power, temperature, throttle, the arbiter and the core's registers. -/
def Obligations.PowerAndSystemRegisters : Prop :=
  (∀ (s : State), s.nextSample ≤ s.cycle → (∀ f < 64, ∀ n < 4, s.sensorCode f n < 1840) →
    ∃ u, exec .sensorSample s = .next u ∧ u.cores = s.cores ∧ u.sys = s.sys ∧ u.nextSample = s.cycle + 12500 ∧ ∀ f < 64,
      (∀ n < 4, (Tab.getD u.sens f 0).toNat / 2 ^ (16 * n) % 2 ^ 12 = s.sensorCode f n) ∧
      (let hot := s.sys.thermCfg.toNat % 2 ^ 12
       let cool := s.sys.thermCfg.toNat / 2 ^ 16 % 2 ^ 12
       let old := (Tab.getD s.sens f 0).getLsbD 63
       (old = false → (∃ n < 4, hot ≤ s.sensorCode f n) →
          (Tab.getD u.sens f 0).getLsbD 63 = true ∧ ∃ o ∈ u.offered, o.org = 7 ∧ o.loc = f ∧ o.code = 0x0030) ∧
        (old = true → (∀ n < 4, s.sensorCode f n < cool) → (Tab.getD u.sens f 0).getLsbD 63 = false) ∧
        (old = true → (∃ n < 4, cool ≤ s.sensorCode f n) → (Tab.getD u.sens f 0).getLsbD 63 = true))) ∧
  (∀ (s : State), s.cycle < s.nextSample → exec .sensorSample s = .next s) ∧
  (∀ (s : State) (f n : Nat), s.nextSample ≤ s.cycle → s.shutdown = false → f < 64 → n < 4 → 1840 ≤ s.sensorCode f n →
    ∃ u, exec .sensorSample s = .next u ∧ u.shutdown = true ∧ u.sys.fpwrEn = 0 ∧ u.sys.fpwrSt = 0 ∧ u.switching = [] ∧
      buffered u 7 0x0031 ∧ u.gangs = [] ∧ u.launches = [] ∧ (∀ c, (u.ctx c).v = false ∧ (u.ctx c).st = 0) ∧ u.drawer = s.drawer) ∧
  (∀ (s : State) (f : Nat) (x : Word), f < 64 →
    ∃ u, exec (.throttleWrite f x) s = .next u ∧ u.throttleRead f = x &&& 7 ∧
      (u.throttleAt f).k = (if s.cycle % 8 = 0 then x.toNat % 8 else (s.throttleAt f).k)) ∧
  (∀ (s : State) (x : Word), s.shutdown = false →
    ((∀ f < 64, s.sys.fpwrEn.getLsbD f = true → x.getLsbD f = false → s.fieldBusy f = false) →
      ∃ u, exec (.fieldPowerWrite x) s = .next u ∧ u.sys.fpwrEn = x ∧ u.sys.fpwrSt = s.sys.fpwrSt &&& x ∧
        ∀ f < 64, x.getLsbD f = true → s.sys.fpwrEn.getLsbD f = false → { fld := f, stage := 0, since := s.cycle } ∈ u.switching) ∧
    ((∃ f < 64, s.sys.fpwrEn.getLsbD f = true ∧ x.getLsbD f = false ∧ s.fieldBusy f = true) →
      ∃ u, exec (.fieldPowerWrite x) s = .next u ∧ u.sys = s.sys ∧ u.switching = s.switching ∧ buffered u 6 0x0008)) ∧
  (∀ (s : State) (w v : Switching) (r : List Switching) (x : Word), s.shutdown = false → s.switching = w :: v :: r →
    x.getLsbD w.fld = false → x.getLsbD v.fld = true →
    (∀ f < 64, s.sys.fpwrEn.getLsbD f = true → x.getLsbD f = false → s.fieldBusy f = false) →
    ∃ u, exec (.fieldPowerWrite x) s = .next u ∧ u.switching.head? = some { v with since := s.cycle }) ∧
  (∀ (s : State) (w : Switching) (r : List Switching), s.switching = w :: r → w.since + 1250 ≤ s.cycle →
    (w.stage < 15 → exec .fieldPowerStage s = .next { s with switching := { w with stage := w.stage + 1, since := s.cycle } :: r }) ∧
    (w.stage = 15 → w.fld < 64 → ∃ u, exec .fieldPowerStage s = .next u ∧ u.sys.fpwrSt.getLsbD w.fld = true ∧
      (∀ f < 64, f ≠ w.fld → u.sys.fpwrSt.getLsbD f = s.sys.fpwrSt.getLsbD f) ∧ u.switching.length = r.length)) ∧
  (∀ (s : State), s.sys.wake.getLsbD 63 = true → s.sys.wake.toNat % 2 ^ 63 ≤ s.cycle → (s.coreAt mgmtCore).strand = .coreIdle →
    exec .wakeTimer s = .next (s.putCore mgmtCore { s.coreAt mgmtCore with strand := .running })) ∧
  (∀ (s : State) (o : Offer), s.stampedNow = false → o ∈ s.offered → o.since ≤ s.cycle →
    (∀ x ∈ s.offered, x ≠ o → stampedFirst o x) →
    ∃ u, exec .eventStamp s = .next u ∧ u.sys.evtLast = s.sys.evtLast + 1 ∧ u.stampedNow = true ∧ u.offered = s.offered.erase o ∧
      Tab.getD u.bbox (u.sys.evtLast.toNat % 4096) [] = leBytes 8 u.sys.evtLast.toNat ++ leBytes 8 s.cycle ++ leBytes 2 o.code ++
        leBytes 1 o.org ++ leBytes 1 o.ctx ++ leBytes 2 o.loc ++ leBytes 2 o.merged ++ (o.data ++ List.replicate 40 0).take 40) ∧
  (∀ (s : State) (x : Word), ∃ u, exec (.bbIdxWrite x) s = .next u ∧ u.sys.bbIdx = x &&& 0xFFF ∧ u.bbox = s.bbox ∧
    ∀ i < 8, u.readSys (0x810 + i) = some (BitVec.ofNat 64
      (bytesNat (((Tab.getD s.bbox (x.toNat % 4096) (List.replicate 64 0)).drop (8 * i)).take 8)))) ∧
  (∀ (s : State) (x : Word),
    (0x40 ≤ x.toNat % 2 ^ 16 → x.toNat % 2 ^ 16 ≤ 0x7F →
      ∃ u, exec (.bbWcodeWrite x) s = .next u ∧ buffered u 6 (x.toNat % 2 ^ 16) ∧ u.sys = s.sys) ∧
    ((x.toNat % 2 ^ 16 < 0x40 ∨ 0x7F < x.toNat % 2 ^ 16) →
      ∃ u, exec (.bbWcodeWrite x) s = .next u ∧ buffered u 6 0x0008 ∧ u.sys = s.sys)) ∧
  (∀ (s : State) (x : Word),
    ((∀ e ∈ s.ctxs, e.2.v = false) →
      exec (.modRankWrite x) s = .next { s with sys := { s.sys with modRank := x &&& 0x3FF } }) ∧
    ((∃ e ∈ s.ctxs, e.2.v = true) → ∃ u, exec (.modRankWrite x) s = .next u ∧ u.sys = s.sys ∧ buffered u 6 0x0008)) ∧
  (∀ r ∈ plainRegs, ∀ (s : State) (x : Word), ∃ u, exec (.systemRegisterWrite r.1 x) s = .next u ∧
    u.readSys r.1 = some (x &&& r.2) ∧ u.cores = s.cores ∧ u.drawer = s.drawer) ∧
  (∀ (s : State) (i : Nat) (x : Word), i < 4 → let k := s.sys.dscSel.getLsbD 63
    ∃ u, exec (.systemRegisterWrite (0x831 + i) x) s = .next u ∧ u.readSys (0x831 + i) =
      some ((x &&& dscWritable k i) ||| (s.sys.dscD.toList.getD i 0 &&& dscKept k i)) ∧ u.cores = s.cores ∧ u.drawer = s.drawer) ∧
  (∀ (s : State) (x : Word), ∃ u, exec (.systemRegisterWrite 0x825 x) s = .next u ∧ u.sys = { s.sys with cons := field 0 16 x }) ∧
  (∀ (s : State) (n : Nat) (x : Word), n ∈ [0x801, 0x840, 0x845, 0x849, 0x84A, 0x84B, 0x851, 0x859] →
    exec (.systemRegisterWrite n x) s = .next s)

namespace Sys2Proof.Claims

open Sys2Proof Sys2Proof.Machine

/-! ### Repair, management port, optical ports and boot -/

/-- The service commands and their OP (R366). -/
def isService (i : Word → Instr) (op : Nat) : Prop :=
  (i = .clearRow ∧ op = 1) ∨ (i = .clearColumn ∧ op = 2) ∨ (i = .clearHole ∧ op = 3) ∨ (i = .clearDeadLink ∧ op = 4) ∨
    (i = .addRow ∧ op = 5) ∨ (i = .addColumn ∧ op = 6) ∨ (i = .addHole ∧ op = 7)

/-- A logical tile that is no hole, and its unit `n` (R368). -/
def mayFail (s : State) (t n : Nat) : Prop := t < 184 * 184 ∧ s.isHole t = false ∧ n ≤ 4

/-- The log selector of unit `n` of tile `t` (R405). -/
def logKey (s : State) (t n : Nat) : Nat := n + 16 * fieldOf t + 1024 * (s.physOf t).1 + 32768 * (s.physOf t).2

/-- The newest record of a fault log has this KIND. -/
def newestKind (u : State) (key kind : Nat) : Prop := ∃ r rest, Tab.getD u.flogs key [] = r :: rest ∧ r.kind = kind

/-- The row retirement of tile `t` has begun: detected, not yet ordered (R369). -/
def rowRetiring (s u : State) (t : Nat) : Prop :=
  ∃ m, Tab.get? u.migrations (fieldOf t) = some m ∧ m.failed = t ∧ m.row = true ∧ m.index = (s.physOf t).1 ∧ m.e = s.cycle ∧
    m.stage = .detected ∧ m.next = []

/-- A request is answered: the response is the newest datagram sent, and is kept (R404). -/
def answered (s u : State) (src op : Nat) (seq : BitVec 32) (status : Nat) (payload : List (BitVec 8)) : Prop :=
  u.outbox = s.outbox ++ [.datagram src (message (op + 0x80) seq.toNat status payload)] ∧
    { src, seq := seq.toNat, resp := message (op + 0x80) seq.toNat status payload } ∈ u.kept

/-- The orders but bind, with their ORDER (R405). -/
def isOrder (i : Nat → Instr) (k : Nat) : Prop :=
  (i = .portUnbind ∧ k = 2) ∨ (i = .portUp ∧ k = 3) ∨ (i = .portLowPower ∧ k = 4) ∨ (i = .portDown ∧ k = 5)

/-- Port `p` now stands as `x`, and *fabric-manager order* was sent (R407). -/
def portIs (u : State) (p : Nat) (x : Port) : Prop := u.portAt p = x ∧ buffered u 8 0x0038

/-- The tables and memories that outlive a module reset (R364, R380 to R382, R403). -/
def outlives (s u : State) : Prop :=
  u.fields = s.fields ∧ u.journal = s.journal ∧ u.flogs = s.flogs ∧ u.bbox = s.bbox ∧ u.sys.evtLast = s.sys.evtLast ∧
    u.flash = s.flash ∧ u.drawer = s.drawer

end Sys2Proof.Claims

open Sys2Proof Sys2Proof.Machine Sys2Proof.Claims

/-- R366 to R371, R373 to R380 and, for what a thaw withdraws and a discard tells, R308 and R323: service commands, detected errors,
migration, poison and links. Zeros come to the successor position with the copy (R374). How a retry names its link is the model's choice
(log 119), and so is the moment at which a boundary closes, with the freeze order. -/
def Obligations.RepairAndMigration : Prop :=
  (∀ (i : Word → Instr) (op : Nat), isService i op → ∀ (s : State) (x : Word), x.toNat / 2 ^ 36 % 2 ^ 4 = op →
    ∃ u, exec (i x) s = .next u ∧ u.journal.getLast? = some { cmd := x, pending := true } ∧ buffered u 6 0x0028 ∧
      u.fields = s.fields ∧ u.cores = s.cores) ∧
  (∀ (s : State) (t n : Nat), mayFail s t n → Tab.get? s.migrations (fieldOf t) = none →
    (s.fieldMap (fieldOf t)).rowA = none →
    ((s.coreAt t).undo = none ∨ n ≠ 0 →
      ∃ u, exec (.containedError t n) s = .next u ∧ u.coreAt t = { s.coreAt t with frozen := true } ∧ rowRetiring s u t ∧
        newestKind u (logKey s t n) 1 ∧ buffered u 1 0x0020) ∧
    (∀ x, n = 0 → (s.coreAt t).undo = some x → (s.coreAt t).frozen = false → (s.coreAt t).strand = .running →
      (s.coreAt t).issueNo = x.ord + 1 → (s.coreAt t).inflight.countP (fun r => r.ord == x.ord) = x.results →
      ∃ u, exec (.containedError t n) s = .next u ∧ (u.coreAt t).frozen = true ∧ (u.coreAt t).pc = x.pc ∧ (u.coreAt t).stall = 0 ∧
        (u.coreAt t).inflight = (s.coreAt t).inflight.filter (fun r => r.ord != x.ord) ∧ (u.coreAt t).sregs = (s.coreAt t).sregs ∧
        (u.coreAt t).vregs = (s.coreAt t).vregs ∧ rowRetiring s u t) ∧
    ((∀ g, s.gangOf t = some g → g.isOver = false ∧ (s.ctx g.ctx).st ≠ 2 ∧ (s.ctx g.ctx).st ≠ 3) →
      ∃ u, exec (.uncontainedError t n) s = .next u ∧ (u.coreAt t).frozen = true ∧ (u.coreAt t).lost = true ∧
        rowRetiring s u t ∧ newestKind u (logKey s t n) 2 ∧ buffered u 1 0x0027 ∧
        ∀ g, s.gangOf t = some g → ∀ x ∈ u.gangs, x.id ≠ g.id)) ∧
  (∀ (s : State) (t n : Nat), mayFail s t n →
    (∃ u, exec (.containedError t (16 + n)) s = .next u ∧ newestKind u (logKey s t n) 0 ∧ u.cores = s.cores ∧
      u.migrations = s.migrations ∧ u.offered = s.offered) ∧
    ∀ m, Tab.get? s.migrations (fieldOf t) = some m →
      (∃ u, exec (.containedError t n) s = .next u ∧ (u.coreAt t).frozen = true ∧
        Tab.get? u.migrations (fieldOf t) = some { m with next := m.next ++ [(t, (s.physOf t).1, (s.physOf t).2)] }) ∧
      (m.stage = .ordered → m.region.contains t = true → s.gangOf t = none →
        ∃ u, exec (.uncontainedError t n) s = .next u ∧ (u.coreAt t).lost = true ∧ u.migrations = s.migrations ∧
          buffered u 1 0x0027)) ∧
  (∀ (s : State) (t n a b c d : Nat), mayFail s t n → Tab.get? s.migrations (fieldOf t) = none → s.gangOf t = none → s.qdesc = [] →
    (s.fieldMap (fieldOf t)).rowA = some a → (s.fieldMap (fieldOf t)).rowB = some b → (s.fieldMap (fieldOf t)).colA = some c →
    (s.fieldMap (fieldOf t)).colB = some d →
    ∃ u, exec (.containedError t n) s = .next u ∧ u.isHole t = true ∧ buffered u 1 0x0024 ∧
      (u.fieldMap (fieldOf t)).gen = (s.fieldMap (fieldOf t)).gen + 1) ∧
  (∀ (s : State) (f : Nat) (m : Migration), Tab.get? s.migrations f = some m → m.stage = .detected → m.e + 8 ≤ s.cycle →
    (∀ l ∈ s.launches, l.st ≠ .starting) →
    ∃ u, exec (.migrationFreezeOrder f) s = .next u ∧ Tab.get? u.migrations f = some { m with stage := .ordered } ∧
      buffered u 1 0x0021 ∧ (∀ t ∈ m.region, u.coreAt t = { s.coreAt t with frozen := true }) ∧
      ∀ p ∈ s.net, ∀ a, p.entersAt m.region = some a → s.cycle ≤ a → { p with stuck := true } ∈ u.net) ∧
  (∀ (s : State) (f : Nat) (m : Migration), Tab.get? s.migrations f = some m → m.stage = .ordered → m.e + 512 ≤ s.cycle →
    ∃ u, exec (.migrationCopy f) s = .next u ∧ Tab.get? u.migrations f = some { m with stage := .copied } ∧
      ∀ t, (t ∈ m.region → (s.coreAt t).lost = true → (u.coreAt t).spad = [] ∧ (u.coreAt t).sregs = Vector.replicate 64 0 ∧
          (u.coreAt t).vregs = Vector.replicate 32 0 ∧ (u.coreAt t).wdog = 0 ∧ (u.coreAt t).frozen = true) ∧
        (t ∉ m.region ∨ (s.coreAt t).lost = false → u.coreAt t = s.coreAt t)) ∧
  (∀ (s : State) (f : Nat) (m : Migration) (x : FieldMap), Tab.get? s.migrations f = some m → m.stage = .copied →
    m.e + 8384 ≤ s.cycle →
    (if m.row then (s.fieldMap f).retireRow m.index else (s.fieldMap f).retireCol m.index) = some x →
    ∃ u, exec (.mapChange f) s = .next u ∧ u.fieldMap f = x ∧ (u.fieldMap f).gen = (s.fieldMap f).gen + 1 ∧
      Tab.get? u.migrations f = some { m with stage := .mapped } ∧ u.cores = s.cores) ∧
  (∀ (s : State) (f : Nat) (m : Migration), Tab.get? s.migrations f = some m → m.stage = .mapped → m.e + 8392 ≤ s.cycle →
    m.region.Nodup → (∀ e ∈ s.meshPorts, s.meshDead (e.1 / 2) = true → e.2.held = []) →
    (m.next = [] →
      ∃ u, exec (.migrationThaw f) s = .next u ∧ Tab.get? u.migrations f = none ∧ buffered u 1 0x0022 ∧
        (∀ t, t ∉ m.region → u.coreAt t = s.coreAt t) ∧
        (∀ p a, s.net = [p] → s.migrations = [(f, m)] → p.stuck = true → p.entersAt m.region = some a →
          ∃ k, u.net = [k] ∧ k.id = p.id ∧ k.data = p.data ∧ k.stuck = false ∧ k.due = p.due + (s.cycle - a)) ∧
        ∀ t ∈ m.region,
          u.coreAt t = (({ s.coreAt t with frozen := false } : Core).mapHandles Handle.withdraw).mapCaptured Handle.withdraw ∧
          (u.coreAt t).spad = (s.coreAt t).spad ∧ (u.coreAt t).inflight = (s.coreAt t).inflight ∧
          ∀ r : BitVec 4, ((s.coreAt t).hregs.get r.toFin).isEmpty = false → ((u.coreAt t).hregs.get r.toFin).isShot = true) ∧
    ∀ t p q x, m.next = [(t, p, q)] → s.tileAt f p q = some x → fieldOf x = f → (s.fieldMap f).rowB = none →
      ∃ u n, exec (.migrationThaw f) s = .next u ∧ Tab.get? u.migrations f = some n ∧ n.failed = x ∧ n.row = true ∧ n.e = s.cycle ∧
        n.stage = .detected ∧ (u.coreAt x).frozen = true) ∧
  (∀ (s : State) (t a : Nat), t < 184 * 184 → a < (s.coreAt t).spend →
    ∃ u, exec (.poisonMarked t a) s = .next u ∧ buffered u 0 0x0026 ∧ newestKind u (logKey s t 0) 3 ∧
      (u.coreAt t).spad = (s.coreAt t).spad ∧ ∀ w, w ∈ (u.coreAt t).poison ↔ w = a / 8 ∨ w ∈ (s.coreAt t).poison) ∧
  (∀ (s : State) (n d : Nat), n / 2 < 184 * 184 → (neighbour (n / 2) (1 + n % 2)).isSome = true →
    (∃ u, exec (.linkFlitRetry n d) s = .next u ∧ newestKind u (logKey s (n / 2) 4) 4 ∧ u.cores = s.cores ∧ u.net = s.net) ∧
    (∃ u, exec (.linkFlitRetry (2 * 184 * 184 + n / 2) d) s = .next u ∧ newestKind u (logKey s (n / 2) 4) 4 ∧ u.cores = s.cores) ∧
    (∀ k, k < 112 → ∃ u, exec (.linkFlitRetry (3 * 184 * 184 + k) d) s = .next u ∧ newestKind u (6 + 2 ^ 20 * k) 4) ∧
    (∀ k, k < 56 → ∃ u, exec (.linkFlitRetry (3 * 184 * 184 + 112 + k) d) s = .next u ∧ newestKind u (7 + 2 ^ 20 * k) 4) ∧
    (s.meshDead n = false → (s.meshPort (2 * n)).held = [] → (s.meshPort (2 * n + 1)).held = [] →
      ∃ u, exec (.meshLinkDead n) s = .next u ∧ u.meshDead n = true ∧ buffered u 1 0x0025 ∧ u.net = s.net)) ∧
  (∀ (s : State) (t d n : Nat) (q : Packet), s.net.find? (fun x => x.id == q.id) = some q → s.tailThere q = false →
    q.foreign = false →
    (s.detour t d = 2 → (s.resend t d n q.id).net = s.net.filter (fun x => x.id != q.id) ∧
      buffered (s.resend t d n q.id) 0 0x0007 ∧
      (q.kind = 0 → q.op = .deposit → q.slot = .n →
        (∀ x ∈ (s.coreAt q.src).failing ++ (s.coreAt q.src).deferred, x.slot = .n → x.ord ≠ q.ord) →
        ((s.resend t d n q.id).coreAt q.src).failing =
          (s.coreAt q.src).failing ++ [deferredCause .n 0x14 (BitVec.ofNat 64 (0xFFFF * 2 ^ 48 + q.sch)) q.opc q.ord])) ∧
    (∀ a, s.detour t d ≠ 2 → q.links.find? (fun x => x.1 == n) = some (n, a) →
      ∃ k ∈ (s.resend t d n q.id).net, k.id = q.id ∧ k.data = q.data ∧ k.due = q.due + (max s.cycle a - a) + 2 ∧
        k.arrived = 0 ∧ k.begun = 0 ∧ k.done = 0 ∧ k.again = q.returned ∧ k.stuck = false ∧
        k.links.map (·.1) = (q.links.takeWhile (fun x => x.1 != n)).map (·.1) ++
          detourPorts t d (s.detour t d) (((q.links.dropWhile (fun x => x.1 != n)).drop 1).map (·.1)))) ∧
  (∀ (s : State) (t d n : Nat) (q : Packet), s.net.find? (fun x => x.id == q.id) = some q → s.tailThere q = false →
    ∀ h, (s.meshPort n).held = [h] → h.pkt = q.id →
    (h.acc = false → s.inRegion t = true →
      ((s.portDies t d n).meshPort n).held = [h] ∧
        ∃ k ∈ (s.portDies t d n).net, k.id = q.id ∧ k.data = q.data ∧ k.due = q.due ∧ k.arrived = 0 ∧ k.begun = 0 ∧ k.done = 0 ∧
          k.again = q.returned ∧ k.stuck = true) ∧
    (h.acc = true → s.inRegion t = false →
      ((s.portDies t d n).meshPort n).held = [] ∧ (s.portDies t d n).net = s.net)) ∧
  (∀ (s : State) (n : Nat) (h : Held), (s.meshPort n).held = [h] →
    (h.acc = true → ∃ u, exec (.tailAcknowledge n) s = .next u ∧ u.meshPort n = { s.meshPort n with held := [] } ∧ u.net = s.net) ∧
    (h.acc = false → h.out = true →
      ∃ u, exec (.tailAcknowledge n) s = .next u ∧ u.net = s.net ∧
        u.meshPort n = { s.meshPort n with tin := (s.meshPort n).tin + 1, held := [{ h with acc := true }] }) ∧
    (∀ q, h.acc = false → h.out = false → s.net.find? (fun p => p.id == h.pkt) = some q → q.sent = q.nd → q.stuck = false →
      h.since + q.nd * q.fs ≤ s.cycle →
      ∃ u, exec (.tailAcknowledge n) s = .next u ∧ u.net = s.net ∧
        u.meshPort n = { s.meshPort n with tout := (s.meshPort n).tout + 1, held := [{ h with out := true }] }))

/-- R126, R364, R380 to R382, R400, R403 to R405, R407: requests over the management port and their responses. The model's choices: what
a module reset leaves (log 10), status 1 for an unassigned register (log 70), the form of a fault-log answer (log 71), a response in the
step of its request (log 74), and the naming of what is no datagram to the port (log 115). -/
def Obligations.ManagementPort : Prop :=
  (∀ (s : State) (src : Nat) (seq arg : BitVec 32),
    (∀ x, 0x800 ≤ arg.toNat → arg.toNat ≤ 0xFFF → s.readSys arg.toNat = some x →
      ∃ u, exec (.systemRegisterReadRequest src seq arg []) s = .next u ∧ answered s u src 1 seq 0 (leBytes 8 x.toNat) ∧
        u.sys = s.sys ∧ u.cores = s.cores) ∧
    (s.readSys arg.toNat = none →
      ∃ u, exec (.systemRegisterReadRequest src seq arg []) s = .next u ∧ answered s u src 1 seq 1 [])) ∧
  (∀ r ∈ plainRegs, ∀ (s : State) (src : Nat) (seq : BitVec 32) (x : Word),
    ∃ u, exec (.systemRegisterWriteRequest src seq (BitVec.ofNat 32 r.1) (leBytes 8 x.toNat)) s = .next u ∧
      u.readSys r.1 = some (x &&& r.2) ∧ answered s u src 2 seq 0 []) ∧
  (∀ (s : State) (src : Nat) (seq : BitVec 32) (x : Word), s.sys.sdCtl.getLsbD 62 = true →
    ∃ u, exec (.systemRegisterWriteRequest src seq 0x821 (leBytes 8 x.toNat)) s = .next u ∧ u.sys = s.sys ∧ u.caches = s.caches ∧
      answered s u src 2 seq 3 []) ∧
  (∀ (s : State) (src : Nat) (seq arg : BitVec 32) (rs : List LogRec), goodSelector arg = true →
    Tab.getD s.flogs arg.toNat [] = rs → rs.length = 16 →
    ∃ u, exec (.faultLogRead src seq arg []) s = .next u ∧ u.flogs = s.flogs ∧
      answered s u src 3 seq 0 (leBytes 4 15 ++ rs.reverse.flatMap (fun r =>
        leBytes 8 r.seq ++ leBytes 8 r.cycle ++ leBytes 1 r.unit ++ leBytes 1 r.kind ++ leBytes 2 r.count ++ leBytes 4 r.place ++
          leBytes 8 r.detail))) ∧
  (∀ (s : State) (src i n : Nat) (seq : BitVec 32), i < 4096 → 1 ≤ n → n ≤ 16 →
    ∃ u, exec (.blackBoxRead src seq (BitVec.ofNat 32 (i + n * 2 ^ 16)) []) s = .next u ∧ u.bbox = s.bbox ∧
      answered s u src 4 seq 0
        ((List.range n).flatMap (fun k => Tab.getD s.bbox ((i + k) % 4096) (List.replicate 64 0)))) ∧
  (∀ (s : State) (src n : Nat) (seq arg : BitVec 32), arg.toNat % 1024 = 0 → arg.toNat < 2 ^ 26 → 1 ≤ n → n ≤ 1024 →
    ∃ u, exec (.flashRead src seq arg (leBytes 4 n)) s = .next u ∧ u.flash = s.flash ∧
      answered s u src 5 seq 0 (s.flash.bytes arg.toNat n)) ∧
  (∀ (s : State) (src : Nat) (seq arg : BitVec 32) (d : List (BitVec 8)), arg.toNat % 1024 = 0 → arg.toNat < 2 ^ 26 →
    d.length = 1024 → s.flash.wf = true →
    ∃ u, exec (.flashWrite src seq arg d) s = .next u ∧ holds u.flash arg.toNat d ∧ keeps s.flash u.flash arg.toNat 1024 ∧
      answered s u src 6 seq 0 []) ∧
  (∀ (s : State) (src : Nat) (seq : BitVec 32),
    (∃ u, exec (.moduleReset src seq) s = .next u ∧ u.boot = .reset ∧ u.cycle = 0 ∧ u.cores = [] ∧ u.gangs = [] ∧ u.ctxs = [] ∧
      u.grants = [] ∧ u.links = [] ∧ outlives s u ∧ answered s u src 7 seq 0 []) ∧
    (∃ u, exec (.recoveryBoot src seq) s = .next u ∧ u.boot = .recovery ∧ u.cycle = 0 ∧ u.cores = [] ∧ outlives s u ∧
      answered s u src 7 seq 0 [])) ∧
  (∀ (s : State) (src : Nat) (seq : BitVec 32), (s.coreAt mgmtCore).strand = .coreHalt →
    ∃ u, exec (.coreRelease src seq) s = .next u ∧ answered s u src 8 seq 0 [] ∧
      u.coreAt mgmtCore = { s.coreAt mgmtCore with strand := .running, undelivered := none }) ∧
  (∀ (s : State) (src : Nat) (bs : List (BitVec 8)), src < 2 ^ 48 → goodDatagram bs = false →
    exec (.managementDatagram src bs) s = .next s) ∧
  (∀ (s : State) (src : Nat) (bs : List (BitVec 8)), src < 2 ^ 48 → goodDatagram bs = true → s.awaited ≠ [] →
    exec (.managementDatagram src bs) s = .next { s with portWait := s.portWait ++ [(src, bs)] }) ∧
  (∀ (s : State) (src : Nat) (bs : List (BitVec 8)), 2 ^ 48 ≤ src →
    (∀ a, s.portAddress = some a → src < 2 * 2 ^ 48 →
      exec (.managementDatagram src bs) s = .next { s with outbox := s.outbox ++ [.datagram src bs] }) ∧
    (s.portAddress = none → exec (.managementDatagram src bs) s = .next s)) ∧
  (∀ (s : State) (src : Nat) (bs r : List (BitVec 8)), src < 2 ^ 48 → goodDatagram bs = true → s.awaited = [] →
    s.kept.find? (fun k => k.src == src && k.seq == bytesNat ((bs.drop 4).take 4)) =
      some { src, seq := bytesNat ((bs.drop 4).take 4), resp := r } →
    exec (.managementDatagram src bs) s = .next { s with outbox := s.outbox ++ [.datagram src r] }) ∧
  (∀ (s : State) (src : Nat) (seq arg : BitVec 32) (d : List (BitVec 8)), src < 2 ^ 48 → s.awaited = [] → d.length < 2 ^ 16 →
    (∀ k ∈ s.kept, ¬ (k.src = src ∧ k.seq = seq.toNat)) →
    (∀ i k u, isOrder i k → arg.toNat < 56 → d = leBytes 8 (k * 2 ^ 24) → exec (i arg.toNat) s = .next u →
      exec (.managementDatagram src (message 9 seq.toNat arg.toNat d)) s =
        .next { u with awaited := [{ src, seq, port := arg.toNat, order := k }] }) ∧
    exec (.managementDatagram src (message 1 seq.toNat arg.toNat d)) s = exec (.systemRegisterReadRequest src seq arg d) s ∧
    exec (.managementDatagram src (message 2 seq.toNat arg.toNat d)) s = exec (.systemRegisterWriteRequest src seq arg d) s ∧
    exec (.managementDatagram src (message 6 seq.toNat arg.toNat d)) s = exec (.flashWrite src seq arg d) s) ∧
  (∀ (s : State) (o : Offer) (a : Awaited), s.stampedNow = false → s.offered = [o] → o.since ≤ s.cycle → o.org = 8 → o.code = 0x0038 →
    s.awaited = [a] → a.port = o.loc → a.order = (o.data.getD 1 0).toNat →
    ∃ u, exec .eventStamp s = .next u ∧ u.awaited = [] ∧ answered s u a.src 9 a.seq 0 [])

/-- R226, R233, R241, R243, R244, R364, R406 to R408: orders to the optical ports, what crosses them, and the boot. The model's
choices: the form of what crosses beside R232's header, and of a refusal (log 3); what of the state goes with CYCLE to 0 (log 32); how often
a waiting packet or vector raises its hint (log 73). -/
def Obligations.PortsAndBoot : Prop :=
  (∀ (s : State) (p : Nat) (x : Word), p < 56 →
    (∃ u, exec (.portBind p x) s = .next u ∧
      portIs u p { s.portAt p with bnd := true, bctx := field 0 6 x, pport := field 6 6 x, pmod := field 12 10 x }) ∧
    (∃ u, exec (.portUnbind p) s = .next u ∧ portIs u p { s.portAt p with bnd := false }) ∧
    (∃ u, exec (.portUp p) s = .next u ∧ portIs u p { s.portAt p with state := 3, hint := false }) ∧
    (s.hintNow p = false → ∃ u, exec (.portLowPower p) s = .next u ∧ portIs u p { s.portAt p with state := 2 }) ∧
    (∃ u, exec (.portDown p) s = .next u ∧ portIs u p { s.portAt p with state := 0, hint := false }) ∧
    ((s.portAt p).state = 3 →
      ∃ u, exec (.opticalPortTrainingEnd p) s = .next u ∧ u.portAt p = { s.portAt p with state := 1 })) ∧
  (∀ (s : State) (p : Nat), p < 56 → (s.portAt p).state = 2 →
    (∃ u, exec (.wakeHint p true) s = .next u ∧ (u.portAt p).hint = true ∧ buffered u 4 0x003A) ∧
    ((s.portAt p).hint = false → 1024 ≤ (s.portAt p).waited →
      ∃ u, exec (.wakeHint p false) s = .next u ∧ (u.portAt p).hint = true ∧ (u.portAt p).state = 2 ∧ buffered u 4 0x003A)) ∧
  (∀ (s : State) (p : Nat) (q : Packet) (x : Port), s.ports = [(p, x)] → s.net = [q] → q.place = .port p → q.due ≤ s.cycle + 64 →
    Tab.getD ((s.tickPorts).portAt p).packets q.id 0 = Tab.getD x.packets q.id 0 + (if x.state = 2 then 1 else 0)) ∧
  (∀ (s : State) (p : Nat) (l : BitVec 2) (x : Vec), p < 56 → (s.portAt p).state = 1 →
    (((s.coreAt (portTile p)).orx.get l.toFin).length < 64 →
      ∃ u, exec (.opticalVectorDelivery p l.toNat true x) s = .next u ∧
        (u.coreAt (portTile p)).orx.get l.toFin = (s.coreAt (portTile p)).orx.get l.toFin ++ [x]) ∧
    (∀ y r, (s.coreAt (portTile p)).otx.get l.toFin = y :: r →
      ∃ u, exec (.opticalVectorDelivery p l.toNat false x) s = .next u ∧ (u.coreAt (portTile p)).otx.get l.toFin = r ∧
        u.outbox = s.outbox ++ [.vector p l.toNat y])) ∧
  (∀ (s : State) (p : Nat) (q : Packet) (h : BitVec 512) (d : List (BitVec 8)), s.net.find? (fun x => x.id == q.id) = some q →
    q.place = .port p → q.due ≤ s.cycle + 64 → q.stuck = false → q.sent = q.nd → s.firstAtPort p q = true →
    ((s.portAt p).bnd = true → (s.portAt p).state = 1 → q.off < 2 ^ 20 →
      ∃ u, exec (.opticalHop p q.id false h d) s = .next u ∧ u.outbox = s.outbox ++ [.packet p (headerFlit q) q.payload] ∧
        (q.kind ≠ 3 → q.kind ≠ 4 → ∃ k ∈ u.net, k.id = q.id ∧ k.place = .peer ∧ s.cycle + 64 + q.back ≤ k.due)) ∧
    ((s.portAt p).bnd = false → q.foreign = false →
      ∃ u, exec (.opticalHop p q.id false h d) s = .next u ∧ u.net = s.net.filter (fun x => x.id != q.id) ∧
        buffered u 4 0x0007)) ∧
  (∀ (s : State) (p : Nat) (q : Packet) (h : BitVec 512) (d : List (BitVec 8)), s.net.find? (fun x => x.id == q.id) = some q →
    q.place = .peer → q.due ≤ s.cycle → q.off < 2 ^ 20 → q.slot = .n → q.again = 0 → q.done = 0 → 0 < q.flits →
    ∃ u, exec (.opticalHop p q.id false h d) s = .next u ∧ u.net = s.net.filter (fun x => x.id != q.id) ∧
      (q.credit = true → ∃ k ∈ u.credits, k.core = q.src ∧ k.ch = q.sch ∧ k.flits = q.flits)) ∧
  (∀ (s : State) (p : Nat) (h : BitVec 512) (d : List (BitVec 8)) (w : Walked), p < 56 → (s.portAt p).state = 1 →
    (s.portAt p).bnd = true → (field 509 3 h : BitVec 3) = 0 →
    s.route (portTile p) ((((List.range 6).map (fun i => (field (369 - 8 * i) 8 h : BitVec 8).toNat))).drop
      ((field 326 3 h : BitVec 3).toNat + 1)) = .tile w →
    ∃ u k, exec (.opticalHop p 0 true h d) s = .next u ∧ u.net = s.net ++ [k] ∧ k.dst = w.tid ∧ k.data = d.take (d.length - 37) ∧
      k.kind = (if h.getLsbD 508 then 1 else 0) ∧ k.ctx = (s.portAt p).bctx.toNat ∧
      k.off = (field 414 20 h : BitVec 20).toNat ∧ k.aw = (field 394 20 h : BitVec 20).toNat ∧ k.awv = h.getLsbD 393 ∧ k.place = .net) ∧
  (∀ (s : State) (p : Nat) (h : BitVec 512) (d : List (BitVec 8)) (r : RouteEnd), p < 56 → (field 509 3 h : BitVec 3) = 0 →
    s.route (portTile p) ((((List.range 6).map (fun i => (field (369 - 8 * i) 8 h : BitVec 8).toNat))).drop
      ((field 326 3 h : BitVec 3).toNat + 1)) = r →
    ((s.portAt p).state ≠ 1 →
      ∃ u, exec (.opticalHop p 0 true h d) s = .next u ∧ (s.cycle, .opticalHop p 0 true h d) ∈ u.tape ∧ u.net = s.net ∧
        u.outbox = s.outbox ∧ u.cores = s.cores) ∧
    ((s.portAt p).state = 1 → (s.portAt p).bnd = false →
      ∃ u m n bs, exec (.opticalHop p 0 true h d) s = .next u ∧ u.net = s.net ∧ u.outbox = s.outbox ++ [.refusal m n bs] ∧
        buffered u 4 0x0007) ∧
    ((s.portAt p).state = 1 → (s.portAt p).bnd = true → (∀ w, r ≠ .tile w) → (∀ k w l, r ≠ .port k w l) →
      ∃ u m n bs, exec (.opticalHop p 0 true h d) s = .next u ∧ u.net = s.net ∧ u.outbox = s.outbox ++ [.refusal m n bs] ∧
        buffered u 0 0x0007) ∧
    (∀ k w l, (s.portAt p).state = 1 → (s.portAt p).bnd = true → r = .port k w l →
      ∃ u q, exec (.opticalHop p 0 true h d) s = .next u ∧ u.net = s.net ++ [q] ∧ q.place = .port k ∧ q.dst = w.tid)) ∧
  (∀ (s : State), s.boot = .reset →
    (s.firmware = none → exec .boot s = .next { s with boot := .recovery }) ∧
    (∀ p a d, s.firmware = some (p, a, d) → ∃ u c, exec .boot s = .next u ∧ u.boot = .started ∧ u.coreAt mgmtCore = c ∧
      c.strand = .running ∧ c.pc = p.entry ∧ c.plane = p ∧ c.sysMode = true ∧ c.isMgmt = true ∧ holds c.spad a d)) ∧
  (∀ (s : State), s.boot = .started → s.sys.fpwrEn ≠ 0 → s.sys.fpwrSt = s.sys.fpwrEn → s.switching = [] → s.offered = [] →
    ∃ u, exec .boot s = .next u ∧ u.cycle = 0 ∧ u.boot = .powered ∧ u.bootFields = s.sys.fpwrSt) ∧
  (∀ (s : State) (n : Nat), s.boot = .powered → n < 112 → s.bootFields.getLsbD (fieldOf (linkTile n)) = true → (s.link n).st = 0 →
    ∃ u, exec .boot s = .next u ∧ u.boot = .ready ∧ (u.link n).st = 1 ∧ ∀ j ∈ u.journal, j.pending = false)

namespace Sys2Proof.Claims

open Sys2Proof Sys2Proof.Machine

/-! ### The whole machine -/

/-- Every memory of the machine is in canonical form. -/
def memoriesOk (s : State) : Prop := s.storesOk = true ∧ s.spadsOk = true

/-- The architectural registers of a core that no instruction changes before its results land; rings, which a `kfill` configures, apart. -/
def sameRegisters (c d : Core) : Prop :=
  d.sregs = c.sregs ∧ d.pregs = c.pregs ∧ d.vregs = c.vregs ∧ d.mregs = c.mregs ∧ d.tregs = c.tregs ∧ d.lcregs = c.lcregs ∧
    d.zregs = c.zregs ∧ d.kregs = c.kregs ∧ d.accs = c.accs ∧ d.stg = c.stg ∧
    d.ras = c.ras ∧ d.depth = c.depth ∧ d.fmts = c.fmts ∧ d.pos = c.pos ∧ d.fstat = c.fstat ∧ d.zbase = c.zbase ∧ d.gd = c.gd ∧
    d.gtab = c.gtab ∧ d.wdog = c.wdog

/-- The local stores and atomics: what else of the L slot leaves the scratchpad alone. -/
def storesLocally (i : Instr) : Prop :=
  (∃ f, i = .sts f) ∨ (∃ f, i = .stv f) ∨ (∃ f, i = .stvs f) ∨ (∃ f, i = .stvg f) ∨ (∃ f, i = .stvm f) ∨ (∃ f, i = .setaw f) ∨
    (∃ f e, e ∈ remoteRows ∧ i = e.1 f)

end Sys2Proof.Claims

open Sys2Proof Sys2Proof.Machine Sys2Proof.Claims

/-- R61, R72, R73, R413: a step takes the next event of the cycle's agenda; the issue of a due bundle that holds instruction i alone is
exec of i, after which the core's bank units serve their words of the cycle, and every event's step is exec of the event's own instruction. (The agenda is the model's own order of what R413 and the
event rules place in a cycle: logs 1 and 29.) -/
def Obligations.StepRunsDecodedInstruction : Prop :=
  (∀ (s : State) (t : Nat) (i : Instr) (r : List Event), s.agenda = .bundleIssue t :: r →
    dueAlone { s with agenda := r, cur := t } i →
    ∃ u, exec i { s with agenda := r, cur := t } = .next u ∧ step s = .next (banked s t u)) ∧
  (∀ (s : State) (e : Event) (r : List Event), s.agenda = e :: r → step s = runEvent e { s with agenda := r }) ∧
  (∀ s : State, s.agenda = [] → step s = .next s.nextCycle ∧ s.nextCycle.cycle = s.cycle + 1) ∧
  (∀ s : State,
    (∀ t, runEvent (.bundleIssue t) s = exec (.bundleIssue t) s) ∧
    (∀ t, runEvent (.lockstepResultLanding t) s = exec (.lockstepResultLanding t) s) ∧
    (∀ t, runEvent (.trapDelivery t) s = exec (.trapDelivery t) s) ∧ (∀ t, runEvent (.gangAbort t) s = exec (.gangAbort t) s) ∧
    (∀ t a, runEvent (.drawerLoadReturn t a) s = exec (.drawerLoadReturn t a) s) ∧
    (∀ t a, runEvent (.drawerStoreAccept t a) s = exec (.drawerStoreAccept t a) s) ∧
    (∀ t, runEvent (.heldLoadReissue t) s = exec (.heldLoadReissue t) s) ∧
    (∀ t cls, runEvent (.sideLogReplay t cls) s = exec (.sideLogReplay t cls) s) ∧
    (∀ p, runEvent (.remoteAtomicService p) s = exec (.remoteAtomicService p) s) ∧
    (∀ p, runEvent (.remoteAtomicReply p) s = exec (.remoteAtomicReply p) s) ∧
    (∀ k w stalled, runEvent (.handleWalkEnd k w stalled) s = exec (.handleWalkEnd k w stalled) s) ∧
    (∀ x, runEvent (.shootdownRequest x) s = exec (.shootdownRequest x) s) ∧
    (∀ t, runEvent (.shootdownAck t) s = exec (.shootdownAck t) s) ∧ runEvent .shootdownComplete s = exec .shootdownComplete s ∧
    runEvent .faultRecordWrite s = exec .faultRecordWrite s ∧
    (∀ x, runEvent (.faultBufferFlush x) s = exec (.faultBufferFlush x) s) ∧
    (∀ t, runEvent (.matrixDispatch t) s = exec (.matrixDispatch t) s) ∧
    (∀ t, runEvent (.mmaPassStart t) s = exec (.mmaPassStart t) s) ∧
    (∀ t, runEvent (.mmaPassRetire t) s = exec (.mmaPassRetire t) s) ∧
    (∀ t, runEvent (.accRowFinal t) s = exec (.accRowFinal t) s) ∧
    (∀ t, runEvent (.mepiRowWrite t) s = exec (.mepiRowWrite t) s) ∧
    (∀ t, runEvent (.msendRowSend t) s = exec (.msendRowSend t) s) ∧ (∀ t, runEvent (.mredRowAdd t) s = exec (.mredRowAdd t) s) ∧
    (∀ t, runEvent (.mclrRowWrite t) s = exec (.mclrRowWrite t) s) ∧
    (∀ t, runEvent (.copyDispatch t) s = exec (.copyDispatch t) s) ∧ (∀ t, runEvent (.chunkIssue t) s = exec (.chunkIssue t) s) ∧
    (∀ t n, runEvent (.chunkComplete t n) s = exec (.chunkComplete t n) s) ∧
    (∀ t, runEvent (.chunkReadFault t) s = exec (.chunkReadFault t) s) ∧
    (∀ t, runEvent (.channelDispatch t) s = exec (.channelDispatch t) s) ∧
    (∀ t, runEvent (.packetSend t) s = exec (.packetSend t) s) ∧
    (∀ p, runEvent (.packetDeposit p) s = exec (.packetDeposit p) s) ∧ (∀ a, runEvent (.arrival a) s = exec (.arrival a) s) ∧
    (∀ c, runEvent (.creditReturn c) s = exec (.creditReturn c) s) ∧
    (∀ t, runEvent (.triggeredSendFire t) s = exec (.triggeredSendFire t) s) ∧
    (∀ p, runEvent (.queueAppend p) s = exec (.queueAppend p) s) ∧ (∀ p, runEvent (.queuePop p) s = exec (.queuePop p) s) ∧
    (∀ p, runEvent (.queueClose p) s = exec (.queueClose p) s) ∧ (∀ q, runEvent (.spillMove q) s = exec (.spillMove q) s) ∧
    (∀ g bl, runEvent (.barrierDetect g bl) s = exec (.barrierDetect g bl) s) ∧
    (∀ g bl, runEvent (.barrierRelease g bl) s = exec (.barrierRelease g bl) s) ∧
    (∀ t, runEvent (.streamRegisterWatchdog t) s = exec (.streamRegisterWatchdog t) s) ∧
    (∀ t, runEvent (.arrivalWaitWatchdog t) s = exec (.arrivalWaitWatchdog t) s) ∧
    (∀ p lane inward x, runEvent (.opticalVectorDelivery p lane inward x) s = exec (.opticalVectorDelivery p lane inward x) s) ∧
    (∀ p id inward hdr data, runEvent (.opticalHop p id inward hdr data) s = exec (.opticalHop p id inward hdr data) s) ∧
    (∀ t, runEvent (.drainPoint t) s = exec (.drainPoint t) s) ∧
    (∀ port q x, runEvent (.tailRegisterWrite port q x) s = exec (.tailRegisterWrite port q x) s) ∧
    (∀ q, runEvent (.stagingEntryTake q) s = exec (.stagingEntryTake q) s) ∧
    (∀ port c e x, runEvent (.eventCounterWrite port c e x) s = exec (.eventCounterWrite port c e x) s) ∧
    (∀ port write addr len data, runEvent (.hostDrawerAccess port write addr len data) s =
      exec (.hostDrawerAccess port write addr len data) s) ∧
    runEvent .placementRound s = exec .placementRound s ∧ (∀ l, runEvent (.dependenceRead l) s = exec (.dependenceRead l) s) ∧
    (∀ l, runEvent (.planeLoad l) s = exec (.planeLoad l) s) ∧ (∀ l, runEvent (.launchGrant l) s = exec (.launchGrant l) s) ∧
    (∀ g t, runEvent (.startToken g t) s = exec (.startToken g t) s) ∧ (∀ g, runEvent (.gangStart g) s = exec (.gangStart g) s) ∧
    (∀ g, runEvent (.launchComplete g) s = exec (.launchComplete g) s) ∧
    (∀ l, runEvent (.staleLaunch l) s = exec (.staleLaunch l) s) ∧
    (∀ x, runEvent (.contextSaveRequest x) s = exec (.contextSaveRequest x) s) ∧
    (∀ x, runEvent (.contextRestoreRequest x) s = exec (.contextRestoreRequest x) s) ∧
    (∀ x, runEvent (.contextDestroyRequest x) s = exec (.contextDestroyRequest x) s) ∧
    (∀ t, runEvent (.haltToken t) s = exec (.haltToken t) s) ∧ (∀ t, runEvent (.tileHalted t) s = exec (.tileHalted t) s) ∧
    (∀ t, runEvent (.tileRecordWritten t) s = exec (.tileRecordWritten t) s) ∧
    (∀ c, runEvent (.gangRestore c) s = exec (.gangRestore c) s) ∧
    (∀ x, runEvent (.descriptorSelect x) s = exec (.descriptorSelect x) s) ∧
    (∀ x, runEvent (.queueDescriptorCommit x) s = exec (.queueDescriptorCommit x) s) ∧
    (∀ x, runEvent (.contextDescriptorCommit x) s = exec (.contextDescriptorCommit x) s) ∧
    (∀ x, runEvent (.accessTableSelect x) s = exec (.accessTableSelect x) s) ∧
    (∀ x, runEvent (.tileGrantCommit x) s = exec (.tileGrantCommit x) s) ∧
    (∀ x, runEvent (.drawerRangeCommit x) s = exec (.drawerRangeCommit x) s) ∧
    (∀ x, runEvent (.hostContextSetCommit x) s = exec (.hostContextSetCommit x) s) ∧
    (∀ t, runEvent (.drawerRequestSend t) s = exec (.drawerRequestSend t) s) ∧
    (∀ n, runEvent (.slotGrant n) s = exec (.slotGrant n) s) ∧ (∀ x, runEvent (.sltDataWrite x) s = exec (.sltDataWrite x) s) ∧
    (∀ x, runEvent (.slotTableCommit x) s = exec (.slotTableCommit x) s) ∧
    (∀ n, runEvent (.slotTableSwitch n) s = exec (.slotTableSwitch n) s) ∧ runEvent .tokenRefill s = exec .tokenRefill s ∧
    (∀ n x, runEvent (.bwcWrite n x) s = exec (.bwcWrite n x) s) ∧
    (∀ n, runEvent (.linkTraining n) s = exec (.linkTraining n) s) ∧
    (∀ r, runEvent (.linkWaitTimeout r) s = exec (.linkWaitTimeout r) s) ∧ runEvent .sensorSample s = exec .sensorSample s ∧
    (∀ f x, runEvent (.throttleWrite f x) s = exec (.throttleWrite f x) s) ∧
    (∀ x, runEvent (.fieldPowerWrite x) s = exec (.fieldPowerWrite x) s) ∧
    runEvent .fieldPowerStage s = exec .fieldPowerStage s ∧ runEvent .wakeTimer s = exec .wakeTimer s ∧
    runEvent .eventStamp s = exec .eventStamp s ∧ (∀ x, runEvent (.bbIdxWrite x) s = exec (.bbIdxWrite x) s) ∧
    (∀ x, runEvent (.bbWcodeWrite x) s = exec (.bbWcodeWrite x) s) ∧
    (∀ x, runEvent (.modRankWrite x) s = exec (.modRankWrite x) s) ∧
    (∀ n x, runEvent (.systemRegisterWrite n x) s = exec (.systemRegisterWrite n x) s) ∧
    (∀ x, runEvent (.clearRow x) s = exec (.clearRow x) s) ∧ (∀ x, runEvent (.clearColumn x) s = exec (.clearColumn x) s) ∧
    (∀ x, runEvent (.clearHole x) s = exec (.clearHole x) s) ∧ (∀ x, runEvent (.clearDeadLink x) s = exec (.clearDeadLink x) s) ∧
    (∀ x, runEvent (.addRow x) s = exec (.addRow x) s) ∧ (∀ x, runEvent (.addColumn x) s = exec (.addColumn x) s) ∧
    (∀ x, runEvent (.addHole x) s = exec (.addHole x) s) ∧
    (∀ t u, runEvent (.containedError t u) s = exec (.containedError t u) s) ∧
    (∀ f, runEvent (.migrationFreezeOrder f) s = exec (.migrationFreezeOrder f) s) ∧
    (∀ f, runEvent (.migrationCopy f) s = exec (.migrationCopy f) s) ∧ (∀ f, runEvent (.mapChange f) s = exec (.mapChange f) s) ∧
    (∀ f, runEvent (.migrationThaw f) s = exec (.migrationThaw f) s) ∧
    (∀ t u, runEvent (.uncontainedError t u) s = exec (.uncontainedError t u) s) ∧
    (∀ t a, runEvent (.poisonMarked t a) s = exec (.poisonMarked t a) s) ∧
    (∀ n detail, runEvent (.linkFlitRetry n detail) s = exec (.linkFlitRetry n detail) s) ∧
    (∀ n, runEvent (.tailAcknowledge n) s = exec (.tailAcknowledge n) s) ∧
    (∀ n, runEvent (.meshLinkDead n) s = exec (.meshLinkDead n) s) ∧
    (∀ src bytes, runEvent (.managementDatagram src bytes) s = exec (.managementDatagram src bytes) s) ∧
    (∀ src seq arg data, runEvent (.systemRegisterReadRequest src seq arg data) s = exec (.systemRegisterReadRequest src seq arg data) s) ∧
    (∀ src seq arg data, runEvent (.systemRegisterWriteRequest src seq arg data) s = exec (.systemRegisterWriteRequest src seq arg data) s) ∧
    (∀ src seq arg data, runEvent (.faultLogRead src seq arg data) s = exec (.faultLogRead src seq arg data) s) ∧
    (∀ src seq arg data, runEvent (.blackBoxRead src seq arg data) s = exec (.blackBoxRead src seq arg data) s) ∧
    (∀ src seq arg data, runEvent (.flashRead src seq arg data) s = exec (.flashRead src seq arg data) s) ∧
    (∀ src seq arg data, runEvent (.flashWrite src seq arg data) s = exec (.flashWrite src seq arg data) s) ∧
    (∀ src seq, runEvent (.moduleReset src seq) s = exec (.moduleReset src seq) s) ∧
    (∀ src seq, runEvent (.recoveryBoot src seq) s = exec (.recoveryBoot src seq) s) ∧
    (∀ src seq, runEvent (.coreRelease src seq) s = exec (.coreRelease src seq) s) ∧
    (∀ port order, runEvent (.portBind port order) s = exec (.portBind port order) s) ∧
    (∀ port, runEvent (.portUnbind port) s = exec (.portUnbind port) s) ∧
    (∀ port, runEvent (.portUp port) s = exec (.portUp port) s) ∧
    (∀ port, runEvent (.portLowPower port) s = exec (.portLowPower port) s) ∧
    (∀ port, runEvent (.portDown port) s = exec (.portDown port) s) ∧
    (∀ port sideband, runEvent (.wakeHint port sideband) s = exec (.wakeHint port sideband) s) ∧
    runEvent .boot s = exec .boot s ∧ (∀ c, runEvent (.contextDestroyed c) s = exec (.contextDestroyed c) s) ∧
    (∀ p, runEvent (.readRequestService p) s = exec (.readRequestService p) s) ∧
    (∀ p, runEvent (.npopResultWrite p) s = exec (.npopResultWrite p) s) ∧
    (∀ port, runEvent (.opticalPortTrainingEnd port) s = exec (.opticalPortTrainingEnd port) s))

/-- Every step, and the execution of every instruction in every state, answers a next state: no trap, halt or refusal of the spec stops
the machine (R24, R29; log 4). -/
def Obligations.EveryInstructionGoesOn : Prop :=
  (∀ s : State, ∃ t, step s = .next t) ∧ ∀ (i : Instr) (s : State), ∃ t, exec i s = .next t

/-- R60, R66 to R71, R87: words that the spec's worked examples give, in the bundle bits of their slots. -/
def Obligations.DecodeWords : Prop :=
  decodeTableWord 384 (0x20010103FFF8 * 2 ^ 320) =
      some (.addi { s1 := false, gi := 0, gp := 0, d := 4, a := 1, b := 0, imm := 0x3FFF8 }) ∧
    decodeTableWord 384 (0x2A01400003E8 * 2 ^ 320) = some (.movi { s1 := false, gi := 0, gp := 0, d := 5, imm := 1000 }) ∧
    decodeTableWord 384 (0x310201100000 * 2 ^ 272) =
      some (.cmpi { s1 := true, gi := 0, gp := 0, d := 8, a := 1, b := 4, imm := 0 }) ∧
    decodeTableWord 384 (0x04400000 * 2 ^ 240) = some (.br { gi := 0, gp := 1, t := 0, z := 0 }) ∧
    decodeTableWord 384 (0x1804C000 * 2 ^ 240) = some (.sync { gi := 0, gp := 0, bl := 0, pv := 2, pr := 3, z := 0 }) ∧
    decodeTableWord 384 (0x3001086700000020 * 2 ^ 176) =
      some (.vcvt { mg := 0, fmt := 1, rnd := 0, sat := 0, lw := 2, vd := 3, va := 7, vb := 0, vc := 0, sb := 0, fn := 0x20 }) ∧
    decodeTableWord 384 (0x01021C450100 * 2 ^ 128) =
      some (.lds { gi := 0, gp := 0, cls := 2, d := 7, a := 4, t := 5, disp := 0x100 }) ∧
    decodeTableWord 384 (0x3A0314400010 * 2 ^ 128) =
      some (.aincb { gi := 0, gp := 0, cls := 3, d := 5, a := 4, b := 0, c := 0, w := 0, pd := 2, z := 0 }) ∧
    decodeTableWord 384 (0x0CE0AD00 * 2 ^ 72) = some (.mma { ops := 0x4E0AD00 }) ∧
    decodeTableWord 384 (0x18200000 * 2 ^ 40) = some (.kfill { aws := 0, ring := 1, swz := 0, ops := 0 }) ∧
    decodeTableWord 384 (0x10180000 * 2 ^ 8) = some (.nsendt { ch := 12, aws := 0, pm := 0, ops := 0 })

/-- R60, R66 to R71, R86 to R100: decoding the word of a well-formed instruction gives the instruction back, with every operand (a
`kfill` that configures has the word of the other, R196); and a bundle that decodes to one instruction is that instruction's word,
so no bit of it is passed over. -/
def Obligations.EncodeDecodeRoundTrip : Prop :=
  (∀ (i : Instr) (sl : Slot) (w : Nat), i.wf = true → encode i = some (sl, w) →
    decodeTableWord 384 (joinBundle (slotBundle sl w)).toNat =
      some (match i with | .kfillConfigure f => .kfill f | j => j)) ∧
  (∀ (b : BundleWord) (i : Instr), decodeTableWord 384 b.toNat = some i → (∀ t, i ≠ .bundleIssue t) →
    ∃ sl w, encode i = some (sl, w) ∧ joinBundle (slotBundle sl w) = b)

/-- Every step keeps every memory of the machine in canonical form: scratchpads, drawer memory and flash (R2, R148, R335, R403; the form
is the model's own, log 6). -/
def Obligations.StepKeepsMemoriesCanonical : Prop :=
  ∀ s t : State, memoriesOk s → step s = .next t → memoriesOk t

/-- What reset leaves: memories in canonical form and the values that the spec gives (R9, R10, R31, R139, R211, R320, R322, R339, R346,
R382, R392, R397, R398). -/
def Obligations.ResetState : Prop :=
  memoriesOk State.reset ∧ State.reset.cycle = 0 ∧ State.reset.boot = .reset ∧ State.reset.sys.evtLast = 0 ∧
    State.reset.sys.evtMask = 0x1FF ∧ State.reset.sys.thermCfg = 0x05C00640 ∧ State.reset.sys.fpwrSt = 0 ∧
    State.reset.sys.fpwrEn = 0 ∧ (State.reset.coreAt mgmtCore).inSystem = true ∧
    (∀ t, t ≠ mgmtCore → (State.reset.coreAt t).inSystem = false) ∧
    (∀ t, (State.reset.coreAt t).strand = .none ∧ (State.reset.coreAt t).wdog = 65536 ∧ (State.reset.coreAt t).trap.en = false ∧
      (State.reset.coreAt t).trap.inH = false ∧ (State.reset.coreAt t).depth = 0 ∧ (State.reset.coreAt t).fstat = 0 ∧
      (State.reset.coreAt t).fmt 0 = fmtFp32 ∧ (State.reset.coreAt t).fmt 1 = fmtBf16 ∧ (State.reset.coreAt t).fmt 2 = fmtFp16 ∧
      (State.reset.coreAt t).fmt 3 = fmtInt8 ∧ (∀ n : BitVec 4, 4 ≤ n → fmtV ((State.reset.coreAt t).fmt n) = false) ∧
      ∀ a : BitVec 2, (State.reset.coreAt t).wmarks.get a.toFin = 16) ∧
    (∀ t m, State.reset.grant t m = 0) ∧ (∀ n i, State.reset.slotEntry true n i = 0x7F) ∧ (∀ n, State.reset.linkUp n = false) ∧
    (∀ c, (State.reset.ctx c).v = false ∧ (State.reset.ctx c).st = 0) ∧ (State.reset.rangeOf 64 0).rd = true ∧
    (State.reset.rangeOf 64 0).wr = true ∧ ∀ m i, (m, i) ≠ (64, 0) → i < 8 → (State.reset.rangeOf m i).v = false

/-- R9, R66, R103, R129: s0, p0 and m0 read as constants, writes to them are discarded, and an instruction whose guard is false does
nothing but issue. -/
def Obligations.DiscardedWritesAndFalseGuards : Prop :=
  (∀ c : Core, c.sreg 0 = 0 ∧ c.preg 0 = true ∧ c.mreg 0 = BitVec.allOnes 128) ∧
  (∀ e ∈ typedRows, ∀ (f : RForm) (s : State), goR e.1 f s [.s f.a, .s f.b] → f.d = 0 →
    exec (e.1 f) s = .next (s.issued id)) ∧
  (∀ e ∈ immRows, ∀ (f : IForm) (s : State), goI e.1 f s [.s f.a] → f.d = 0 → exec (e.1 f) s = .next (s.issued id)) ∧
  (∀ e ∈ predRows, ∀ (f : RForm) (s : State), goR e.1 f s [.p (field 0 3 f.a), .p (field 0 3 f.b)] → f.d = 0 →
    exec (e.1 f) s = .next (s.issued id)) ∧
  (∀ e ∈ maskRows, ∀ (f : VForm) (s : State), goV e.1 f s [] → f.vd = 0 → exec (e.1 f) s = .next (s.issued id)) ∧
  (∀ (i : Instr) (m : SlotSem) (s : State), slotSem i = some m → i.wf = true → m.absent s = none →
    guardPending m.guard s.core = false → guardOn m.guard s.core = false → s.unheld → exec i s = .next (s.issued id))

/-- R62, R101, R105, R109, R115, R116: a reserved field traps with the bundle bit of the lowest offending field, whatever the guard; a
sub-code out of range traps when the instruction executes; a rejected format word leaves its entry as it was. -/
def Obligations.ReservedFieldsTrap : Prop :=
  (∀ (i : Instr) (m : SlotSem) (s : State) (bit : Nat), slotSem i = some m → lowestBit m.enc = some bit → m.absent s = none →
    m.waits s = none → m.waitsLate s = none → s.unheld → (m.effect s).core.lockstepCount ≤ 32 → exec i s = .next (s.trapPrecise (badField m.slot bit))) ∧
  (∀ (i : Instr) (m : SlotSem), slotSem i = some m → i.wf = true → lowestBit m.enc = none) ∧
  (∀ e ∈ typedRows, ∀ (f : RForm) (s : State), s.mayIssue (some (f.gi, f.gp)) [.s f.a, .s f.b] → field 4 8 f.x = (0 : BitVec 8) →
    (f.c ≠ 0 → exec (e.1 f) s = .next (s.trapPrecise (badField (place f.s1) (if f.s1 then 284 else 332)))) ∧
    (f.c = 0 → 8 ≤ (field 0 4 f.x : BitVec 4).toNat →
      exec (e.1 f) s = .next (s.trapPrecise (badField (place f.s1) (if f.s1 then 272 else 320))))) ∧
  (∀ i ∈ [Instr.exts, .extz], ∀ (f : RForm) (s : State), s.mayIssue (some (f.gi, f.gp)) [.s f.a] → f.b = 0 → f.c = 0 →
    64 < (field 6 6 f.x : BitVec 6).toNat + (field 0 6 f.x : BitVec 6).toNat + 1 →
    exec (i f) s = .next (s.trapPrecise (badField (place f.s1) (if f.s1 then 272 else 320)))) ∧
  (∀ (f : RForm) (s : State), s.mayIssue (some (f.gi, f.gp)) [.s f.a, .s f.b] → field 0 3 f.d = (0 : BitVec 3) → f.c = 0 →
    field 4 8 f.x = (0 : BitVec 8) → 9 < (field 0 4 f.x : BitVec 4).toNat →
    exec (.cmp f) s = .next (s.trapPrecise (badField (place f.s1) (if f.s1 then 272 else 320)))) ∧
  (∀ (f : IForm) (s : State), goI .setfmt f s [.s f.a] →
    ((field 0 4 f.imm : BitVec 4).toNat < 4 ∨ fmtLegal (field 0 32 (s.core.sreg f.a)) = false) →
    exec (.setfmt f) s = .next (s.trapPrecise (precise (place f.s1) 0x06 ((field 0 32 (s.core.sreg f.a) : BitVec 32).setWidth 64)))) ∧
  (∀ (f : IForm) (s : State), s.mayIssue (some (f.gi, f.gp)) [.s f.a] → f.d = 0 → f.b = 0 → field 6 12 f.imm = (0 : BitVec 12) →
    48 ≤ (field 0 6 f.imm : BitVec 6).toNat →
    exec (.stg f) s = .next (s.trapPrecise (badField (place f.s1) (if f.s1 then 272 else 320))))

/-- R1, R13, R28, R101, R149, R165, R176: what an instruction leaves as it was, when exec answers a next state, whether it issues, waits or traps. No instruction changes
another core, drawer memory, flash, a system register, the network, a queue or a launch as it issues; only `sync` changes its gang;
registers change when results land, but for the handles that the use of a shot-down one re-walks and for the ring that a `kfill` with
CFG configures (R196); of the scratchpad only the local stores and atomics change bytes, and each of them none but those it stores to. -/
def Obligations.InstructionsKeepTheRest : Prop :=
  (∀ (i : Instr) (sl : Slot) (w : Nat) (s t : State), encode i = some (sl, w) → exec i s = .next t →
    t.cur = s.cur ∧ (∀ k, k ≠ s.cur → t.coreAt k = s.coreAt k) ∧ t.drawer = s.drawer ∧ t.flash = s.flash ∧ t.sys = s.sys ∧
    t.net = s.net ∧ t.queues = s.queues ∧ t.launches = s.launches ∧ (sl ≠ .c → t.gangs = s.gangs) ∧
    sameRegisters s.core t.core ∧
    ((∀ f, i ≠ .kfill f ∧ i ≠ .kfillConfigure f) ∨ (sg s.core 22).getLsbD 11 = false → t.core.rings = s.core.rings) ∧
    (∀ f, i = .kfill f ∨ i = .kfillConfigure f → ∀ r : BitVec 3, r ≠ f.ring →
      t.core.rings.get r.toFin = s.core.rings.get r.toFin) ∧
    (sl ≠ .l → sl ≠ .k → t.core.hregs = s.core.hregs) ∧
    (¬ storesLocally i → t.core.spad = s.core.spad)) ∧
  (∀ (f : LsForm) (s t : State), s.core.spad.wf = true → exec (.sts f) s = .next t →
    keeps s.core.spad t.core.spad (ea s.core f.a f.disp) (tb f.t)) ∧
  (∀ (f : LvForm) (s t : State), s.core.spad.wf = true → exec (.stv f) s = .next t →
    keeps s.core.spad t.core.spad (ea s.core f.a f.disp) 128) ∧
  (∀ (f : AwForm) (s t : State), s.core.spad.wf = true → exec (.setaw f) s = .next t →
    keeps s.core.spad t.core.spad (ea s.core f.a f.disp) 16) ∧
  (∀ (f : LvsForm) (s t : State), s.core.spad.wf = true → exec (.stvs f) s = .next t →
    ∀ b, (∀ i < 1024 / laneWidth f.lw, ¬ (strideEa f s.core i ≤ b ∧ b < strideEa f s.core i + laneWidth f.lw / 8)) →
      t.core.spad.read b = s.core.spad.read b) ∧
  (∀ (f : LvgForm) (s t : State), s.core.spad.wf = true → exec (.stvg f) s = .next t →
    ∀ b, (∀ i < 1024 / laneWidth f.lw, laneOn (laneWidth f.lw) (s.core.mreg f.m) i = true →
        ¬ (gatherEa f s.core i ≤ b ∧ b < gatherEa f s.core i + laneWidth f.lw / 8)) →
      t.core.spad.read b = s.core.spad.read b) ∧
  (∀ (f : StvmForm) (s t : State), s.core.spad.wf = true → exec (.stvm f) s = .next t →
    ∀ b, (∀ i < 1024 / laneWidth f.lw, laneOn (laneWidth f.lw) (s.core.mreg f.m) i = true →
        ¬ (ea s.core f.a f.disp + i * (laneWidth f.lw / 8) ≤ b ∧
          b < ea s.core f.a f.disp + i * (laneWidth f.lw / 8) + laneWidth f.lw / 8)) →
      t.core.spad.read b = s.core.spad.read b) ∧
  (∀ e ∈ remoteRows, ∀ (f : AtForm) (s t : State), s.core.spad.wf = true → exec (e.1 f) s = .next t →
    keeps s.core.spad t.core.spad (s.core.sreg f.a).toNat (ab f))
end

