-- ==== Sys2Proof/Laws/State.lean ====
section
/-! SUPPORT. Tables, and what each update of the state leaves alone: one lemma a field, true by `rfl`. -/

namespace Sys2Proof.Machine

/-! ### Tables -/

@[simp] theorem Tab.get?_nil {α : Type} (k : Nat) : Tab.get? ([] : Tab α) k = none := rfl

/-- An entry put is read back. -/
@[simp] theorem Tab.get?_put_same {α : Type} (t : Tab α) (k : Nat) (x : α) : Tab.get? (Tab.put t k x) k = some x := by
  induction t with
  | nil => simp [Tab.put, Tab.get?]
  | cons e r ih =>
    obtain ⟨j, y⟩ := e
    simp only [Tab.put]
    split_ifs with h1 h2
    · simp [Tab.get?]
    · simp [Tab.get?]
    · simp [Tab.get?, h2, h1, ih]

/-- A put leaves every other entry as it was. -/
theorem Tab.get?_put_other {α : Type} (t : Tab α) {k j : Nat} (x : α) (h : j ≠ k) :
    Tab.get? (Tab.put t k x) j = Tab.get? t j := by
  induction t with
  | nil => simp [Tab.put, Tab.get?, h]
  | cons e r ih =>
    obtain ⟨i, y⟩ := e
    simp only [Tab.put]
    split_ifs with h1 h2
    · simp only [Tab.get?]; split_ifs <;> first | rfl | omega
    · subst h2; simp [Tab.get?, h]
    · simp only [Tab.get?, ih]

@[simp] theorem Tab.getD_put_same {α : Type} (t : Tab α) (k : Nat) (x d : α) : Tab.getD (Tab.put t k x) k d = x := by
  simp [Tab.getD]

theorem Tab.getD_put_other {α : Type} (t : Tab α) {k j : Nat} (x d : α) (h : j ≠ k) :
    Tab.getD (Tab.put t k x) j d = Tab.getD t j d := by
  simp [Tab.getD, Tab.get?_put_other t x h]

/-- What holds of every entry of a table and of a new one holds of every entry after the put. -/
theorem Tab.all_put {α : Type} (t : Tab α) (k : Nat) (x : α) (p : Nat × α → Bool) (h : t.all p = true)
    (hx : p (k, x) = true) : (Tab.put t k x).all p = true := by
  induction t with
  | nil => simp [Tab.put, hx]
  | cons e r ih =>
    obtain ⟨i, y⟩ := e
    simp only [List.all_cons, Bool.and_eq_true] at h
    simp only [Tab.put]
    split_ifs
    · simp [hx, h]
    · simp [hx, h]
    · simp only [List.all_cons, Bool.and_eq_true]
      exact ⟨h.1, ih h.2⟩

/-- What holds of every entry holds of one found. -/
theorem Tab.all_get {α : Type} {t : Tab α} {p : α → Bool} (h : t.all (fun e => p e.2) = true) {k : Nat} {x : α}
    (g : Tab.get? t k = some x) : p x = true := by
  induction t with
  | nil => simp at g
  | cons e r ih =>
    obtain ⟨i, y⟩ := e
    simp only [List.all_cons, Bool.and_eq_true] at h
    simp only [Tab.get?] at g
    split_ifs at g with h1 h2
    · simp only [Option.some.injEq] at g; rw [← g]; exact h.1
    · exact ih h.2 g

/-! ### Cores in the state -/

@[simp] theorem State.setCore_core (s : State) (c : Core) : (s.setCore c).core = c := by
  simp [State.setCore, State.putCore, State.core, State.coreAt]

@[simp] theorem State.putCore_coreAt (s : State) (t : CoreId) (c : Core) : (s.putCore t c).coreAt t = c := by
  simp [State.putCore, State.coreAt]

theorem State.putCore_coreAt_other (s : State) {t u : CoreId} (c : Core) (h : u ≠ t) :
    (s.putCore t c).coreAt u = s.coreAt u := by
  simp [State.putCore, State.coreAt, Tab.getD_put_other _ _ _ h]

theorem State.setCore_coreAt_other (s : State) {u : CoreId} (c : Core) (h : u ≠ s.cur) :
    (s.setCore c).coreAt u = s.coreAt u := State.putCore_coreAt_other s c h

@[simp] theorem State.setCore_cycle (s : State) (c : Core) : (s.setCore c).cycle = s.cycle := rfl
@[simp] theorem State.setCore_hostWait (s : State) (c : Core) : (s.setCore c).hostWait = s.hostWait := rfl
@[simp] theorem State.setCore_preSince (s : State) (c : Core) : (s.setCore c).preSince = s.preSince := rfl
@[simp] theorem State.setCore_jobs (s : State) (c : Core) : (s.setCore c).jobs = s.jobs := rfl
@[simp] theorem State.setCore_cur (s : State) (c : Core) : (s.setCore c).cur = s.cur := rfl
@[simp] theorem State.setCore_agenda (s : State) (c : Core) : (s.setCore c).agenda = s.agenda := rfl
@[simp] theorem State.setCore_tape (s : State) (c : Core) : (s.setCore c).tape = s.tape := rfl
@[simp] theorem State.setCore_free (s : State) (c : Core) : (s.setCore c).free = s.free := rfl
@[simp] theorem State.setCore_serial (s : State) (c : Core) : (s.setCore c).serial = s.serial := rfl
@[simp] theorem State.setCore_env (s : State) (c : Core) : (s.setCore c).env = s.env := rfl
@[simp] theorem State.setCore_outbox (s : State) (c : Core) : (s.setCore c).outbox = s.outbox := rfl
@[simp] theorem State.setCore_boot (s : State) (c : Core) : (s.setCore c).boot = s.boot := rfl
@[simp] theorem State.setCore_bootFields (s : State) (c : Core) : (s.setCore c).bootFields = s.bootFields := rfl
@[simp] theorem State.setCore_shutdown (s : State) (c : Core) : (s.setCore c).shutdown = s.shutdown := rfl
@[simp] theorem State.setCore_aborts (s : State) (c : Core) : (s.setCore c).aborts = s.aborts := rfl
@[simp] theorem State.setCore_sys (s : State) (c : Core) : (s.setCore c).sys = s.sys := rfl
@[simp] theorem State.setCore_drawer (s : State) (c : Core) : (s.setCore c).drawer = s.drawer := rfl
@[simp] theorem State.setCore_drwPoison (s : State) (c : Core) : (s.setCore c).drwPoison = s.drwPoison := rfl
@[simp] theorem State.setCore_drwOffline (s : State) (c : Core) : (s.setCore c).drwOffline = s.drwOffline := rfl
@[simp] theorem State.setCore_reqs (s : State) (c : Core) : (s.setCore c).reqs = s.reqs := rfl
@[simp] theorem State.setCore_links (s : State) (c : Core) : (s.setCore c).links = s.links := rfl
@[simp] theorem State.setCore_slotsA (s : State) (c : Core) : (s.setCore c).slotsA = s.slotsA := rfl
@[simp] theorem State.setCore_slotsS (s : State) (c : Core) : (s.setCore c).slotsS = s.slotsS := rfl
@[simp] theorem State.setCore_sltWait (s : State) (c : Core) : (s.setCore c).sltWait = s.sltWait := rfl
@[simp] theorem State.setCore_bwc (s : State) (c : Core) : (s.setCore c).bwc = s.bwc := rfl
@[simp] theorem State.setCore_bwcNext (s : State) (c : Core) : (s.setCore c).bwcNext = s.bwcNext := rfl
@[simp] theorem State.setCore_metered (s : State) (c : Core) : (s.setCore c).metered = s.metered := rfl
@[simp] theorem State.setCore_caches (s : State) (c : Core) : (s.setCore c).caches = s.caches := rfl
@[simp] theorem State.setCore_sdWait (s : State) (c : Core) : (s.setCore c).sdWait = s.sdWait := rfl
@[simp] theorem State.setCore_fbWait (s : State) (c : Core) : (s.setCore c).fbWait = s.fbWait := rfl
@[simp] theorem State.setCore_slogUsed (s : State) (c : Core) : (s.setCore c).slogUsed = s.slogUsed := rfl
@[simp] theorem State.setCore_ctxs (s : State) (c : Core) : (s.setCore c).ctxs = s.ctxs := rfl
@[simp] theorem State.setCore_charged (s : State) (c : Core) : (s.setCore c).charged = s.charged := rfl
@[simp] theorem State.setCore_evctr (s : State) (c : Core) : (s.setCore c).evctr = s.evctr := rfl
@[simp] theorem State.setCore_saveCount (s : State) (c : Core) : (s.setCore c).saveCount = s.saveCount := rfl
@[simp] theorem State.setCore_saved (s : State) (c : Core) : (s.setCore c).saved = s.saved := rfl
@[simp] theorem State.setCore_preWait (s : State) (c : Core) : (s.setCore c).preWait = s.preWait := rfl
@[simp] theorem State.setCore_grants (s : State) (c : Core) : (s.setCore c).grants = s.grants := rfl
@[simp] theorem State.setCore_ranges (s : State) (c : Core) : (s.setCore c).ranges = s.ranges := rfl
@[simp] theorem State.setCore_hostSets (s : State) (c : Core) : (s.setCore c).hostSets = s.hostSets := rfl
@[simp] theorem State.setCore_qdesc (s : State) (c : Core) : (s.setCore c).qdesc = s.qdesc := rfl
@[simp] theorem State.setCore_queues (s : State) (c : Core) : (s.setCore c).queues = s.queues := rfl
@[simp] theorem State.setCore_launches (s : State) (c : Core) : (s.setCore c).launches = s.launches := rfl
@[simp] theorem State.setCore_gangs (s : State) (c : Core) : (s.setCore c).gangs = s.gangs := rfl
@[simp] theorem State.setCore_net (s : State) (c : Core) : (s.setCore c).net = s.net := rfl
@[simp] theorem State.setCore_arrivals (s : State) (c : Core) : (s.setCore c).arrivals = s.arrivals := rfl
@[simp] theorem State.setCore_credits (s : State) (c : Core) : (s.setCore c).credits = s.credits := rfl
@[simp] theorem State.setCore_seqOut (s : State) (c : Core) : (s.setCore c).seqOut = s.seqOut := rfl
@[simp] theorem State.setCore_seqIn (s : State) (c : Core) : (s.setCore c).seqIn = s.seqIn := rfl
@[simp] theorem State.setCore_meshPorts (s : State) (c : Core) : (s.setCore c).meshPorts = s.meshPorts := rfl
@[simp] theorem State.setCore_fields (s : State) (c : Core) : (s.setCore c).fields = s.fields := rfl
@[simp] theorem State.setCore_journal (s : State) (c : Core) : (s.setCore c).journal = s.journal := rfl
@[simp] theorem State.setCore_migrations (s : State) (c : Core) : (s.setCore c).migrations = s.migrations := rfl
@[simp] theorem State.setCore_wdHeld (s : State) (c : Core) : (s.setCore c).wdHeld = s.wdHeld := rfl
@[simp] theorem State.setCore_flogs (s : State) (c : Core) : (s.setCore c).flogs = s.flogs := rfl
@[simp] theorem State.setCore_ports (s : State) (c : Core) : (s.setCore c).ports = s.ports := rfl
@[simp] theorem State.setCore_throttles (s : State) (c : Core) : (s.setCore c).throttles = s.throttles := rfl
@[simp] theorem State.setCore_sens (s : State) (c : Core) : (s.setCore c).sens = s.sens := rfl
@[simp] theorem State.setCore_portWait (s : State) (c : Core) : (s.setCore c).portWait = s.portWait := rfl
@[simp] theorem State.setCore_recNums (s : State) (c : Core) : (s.setCore c).recNums = s.recNums := rfl
@[simp] theorem State.setCore_recBytes (s : State) (c : Core) : (s.setCore c).recBytes = s.recBytes := rfl
@[simp] theorem State.setCore_seqGone (s : State) (c : Core) : (s.setCore c).seqGone = s.seqGone := rfl
@[simp] theorem State.setCore_nextSample (s : State) (c : Core) : (s.setCore c).nextSample = s.nextSample := rfl
@[simp] theorem State.setCore_evtOver (s : State) (c : Core) : (s.setCore c).evtOver = s.evtOver := rfl
@[simp] theorem State.setCore_awaited (s : State) (c : Core) : (s.setCore c).awaited = s.awaited := rfl
@[simp] theorem State.setCore_switching (s : State) (c : Core) : (s.setCore c).switching = s.switching := rfl
@[simp] theorem State.setCore_offered (s : State) (c : Core) : (s.setCore c).offered = s.offered := rfl
@[simp] theorem State.setCore_stampedNow (s : State) (c : Core) : (s.setCore c).stampedNow = s.stampedNow := rfl
@[simp] theorem State.setCore_bbox (s : State) (c : Core) : (s.setCore c).bbox = s.bbox := rfl
@[simp] theorem State.setCore_flash (s : State) (c : Core) : (s.setCore c).flash = s.flash := rfl
@[simp] theorem State.setCore_kept (s : State) (c : Core) : (s.setCore c).kept = s.kept := rfl

@[simp] theorem State.putCore_cycle (s : State) (t : CoreId) (c : Core) : (s.putCore t c).cycle = s.cycle := rfl
@[simp] theorem State.putCore_hostWait (s : State) (t : CoreId) (c : Core) : (s.putCore t c).hostWait = s.hostWait := rfl
@[simp] theorem State.putCore_preSince (s : State) (t : CoreId) (c : Core) : (s.putCore t c).preSince = s.preSince := rfl
@[simp] theorem State.putCore_jobs (s : State) (t : CoreId) (c : Core) : (s.putCore t c).jobs = s.jobs := rfl
@[simp] theorem State.putCore_cur (s : State) (t : CoreId) (c : Core) : (s.putCore t c).cur = s.cur := rfl
@[simp] theorem State.putCore_agenda (s : State) (t : CoreId) (c : Core) : (s.putCore t c).agenda = s.agenda := rfl
@[simp] theorem State.putCore_tape (s : State) (t : CoreId) (c : Core) : (s.putCore t c).tape = s.tape := rfl
@[simp] theorem State.putCore_free (s : State) (t : CoreId) (c : Core) : (s.putCore t c).free = s.free := rfl
@[simp] theorem State.putCore_serial (s : State) (t : CoreId) (c : Core) : (s.putCore t c).serial = s.serial := rfl
@[simp] theorem State.putCore_env (s : State) (t : CoreId) (c : Core) : (s.putCore t c).env = s.env := rfl
@[simp] theorem State.putCore_outbox (s : State) (t : CoreId) (c : Core) : (s.putCore t c).outbox = s.outbox := rfl
@[simp] theorem State.putCore_boot (s : State) (t : CoreId) (c : Core) : (s.putCore t c).boot = s.boot := rfl
@[simp] theorem State.putCore_bootFields (s : State) (t : CoreId) (c : Core) : (s.putCore t c).bootFields = s.bootFields := rfl
@[simp] theorem State.putCore_shutdown (s : State) (t : CoreId) (c : Core) : (s.putCore t c).shutdown = s.shutdown := rfl
@[simp] theorem State.putCore_aborts (s : State) (t : CoreId) (c : Core) : (s.putCore t c).aborts = s.aborts := rfl
@[simp] theorem State.putCore_sys (s : State) (t : CoreId) (c : Core) : (s.putCore t c).sys = s.sys := rfl
@[simp] theorem State.putCore_drawer (s : State) (t : CoreId) (c : Core) : (s.putCore t c).drawer = s.drawer := rfl
@[simp] theorem State.putCore_drwPoison (s : State) (t : CoreId) (c : Core) : (s.putCore t c).drwPoison = s.drwPoison := rfl
@[simp] theorem State.putCore_drwOffline (s : State) (t : CoreId) (c : Core) : (s.putCore t c).drwOffline = s.drwOffline := rfl
@[simp] theorem State.putCore_reqs (s : State) (t : CoreId) (c : Core) : (s.putCore t c).reqs = s.reqs := rfl
@[simp] theorem State.putCore_links (s : State) (t : CoreId) (c : Core) : (s.putCore t c).links = s.links := rfl
@[simp] theorem State.putCore_slotsA (s : State) (t : CoreId) (c : Core) : (s.putCore t c).slotsA = s.slotsA := rfl
@[simp] theorem State.putCore_slotsS (s : State) (t : CoreId) (c : Core) : (s.putCore t c).slotsS = s.slotsS := rfl
@[simp] theorem State.putCore_sltWait (s : State) (t : CoreId) (c : Core) : (s.putCore t c).sltWait = s.sltWait := rfl
@[simp] theorem State.putCore_bwc (s : State) (t : CoreId) (c : Core) : (s.putCore t c).bwc = s.bwc := rfl
@[simp] theorem State.putCore_bwcNext (s : State) (t : CoreId) (c : Core) : (s.putCore t c).bwcNext = s.bwcNext := rfl
@[simp] theorem State.putCore_metered (s : State) (t : CoreId) (c : Core) : (s.putCore t c).metered = s.metered := rfl
@[simp] theorem State.putCore_caches (s : State) (t : CoreId) (c : Core) : (s.putCore t c).caches = s.caches := rfl
@[simp] theorem State.putCore_sdWait (s : State) (t : CoreId) (c : Core) : (s.putCore t c).sdWait = s.sdWait := rfl
@[simp] theorem State.putCore_fbWait (s : State) (t : CoreId) (c : Core) : (s.putCore t c).fbWait = s.fbWait := rfl
@[simp] theorem State.putCore_slogUsed (s : State) (t : CoreId) (c : Core) : (s.putCore t c).slogUsed = s.slogUsed := rfl
@[simp] theorem State.putCore_ctxs (s : State) (t : CoreId) (c : Core) : (s.putCore t c).ctxs = s.ctxs := rfl
@[simp] theorem State.putCore_charged (s : State) (t : CoreId) (c : Core) : (s.putCore t c).charged = s.charged := rfl
@[simp] theorem State.putCore_evctr (s : State) (t : CoreId) (c : Core) : (s.putCore t c).evctr = s.evctr := rfl
@[simp] theorem State.putCore_saveCount (s : State) (t : CoreId) (c : Core) : (s.putCore t c).saveCount = s.saveCount := rfl
@[simp] theorem State.putCore_saved (s : State) (t : CoreId) (c : Core) : (s.putCore t c).saved = s.saved := rfl
@[simp] theorem State.putCore_preWait (s : State) (t : CoreId) (c : Core) : (s.putCore t c).preWait = s.preWait := rfl
@[simp] theorem State.putCore_grants (s : State) (t : CoreId) (c : Core) : (s.putCore t c).grants = s.grants := rfl
@[simp] theorem State.putCore_ranges (s : State) (t : CoreId) (c : Core) : (s.putCore t c).ranges = s.ranges := rfl
@[simp] theorem State.putCore_hostSets (s : State) (t : CoreId) (c : Core) : (s.putCore t c).hostSets = s.hostSets := rfl
@[simp] theorem State.putCore_qdesc (s : State) (t : CoreId) (c : Core) : (s.putCore t c).qdesc = s.qdesc := rfl
@[simp] theorem State.putCore_queues (s : State) (t : CoreId) (c : Core) : (s.putCore t c).queues = s.queues := rfl
@[simp] theorem State.putCore_launches (s : State) (t : CoreId) (c : Core) : (s.putCore t c).launches = s.launches := rfl
@[simp] theorem State.putCore_gangs (s : State) (t : CoreId) (c : Core) : (s.putCore t c).gangs = s.gangs := rfl
@[simp] theorem State.putCore_net (s : State) (t : CoreId) (c : Core) : (s.putCore t c).net = s.net := rfl
@[simp] theorem State.putCore_arrivals (s : State) (t : CoreId) (c : Core) : (s.putCore t c).arrivals = s.arrivals := rfl
@[simp] theorem State.putCore_credits (s : State) (t : CoreId) (c : Core) : (s.putCore t c).credits = s.credits := rfl
@[simp] theorem State.putCore_seqOut (s : State) (t : CoreId) (c : Core) : (s.putCore t c).seqOut = s.seqOut := rfl
@[simp] theorem State.putCore_seqIn (s : State) (t : CoreId) (c : Core) : (s.putCore t c).seqIn = s.seqIn := rfl
@[simp] theorem State.putCore_meshPorts (s : State) (t : CoreId) (c : Core) : (s.putCore t c).meshPorts = s.meshPorts := rfl
@[simp] theorem State.putCore_fields (s : State) (t : CoreId) (c : Core) : (s.putCore t c).fields = s.fields := rfl
@[simp] theorem State.putCore_journal (s : State) (t : CoreId) (c : Core) : (s.putCore t c).journal = s.journal := rfl
@[simp] theorem State.putCore_migrations (s : State) (t : CoreId) (c : Core) : (s.putCore t c).migrations = s.migrations := rfl
@[simp] theorem State.putCore_wdHeld (s : State) (t : CoreId) (c : Core) : (s.putCore t c).wdHeld = s.wdHeld := rfl
@[simp] theorem State.putCore_flogs (s : State) (t : CoreId) (c : Core) : (s.putCore t c).flogs = s.flogs := rfl
@[simp] theorem State.putCore_ports (s : State) (t : CoreId) (c : Core) : (s.putCore t c).ports = s.ports := rfl
@[simp] theorem State.putCore_throttles (s : State) (t : CoreId) (c : Core) : (s.putCore t c).throttles = s.throttles := rfl
@[simp] theorem State.putCore_sens (s : State) (t : CoreId) (c : Core) : (s.putCore t c).sens = s.sens := rfl
@[simp] theorem State.putCore_portWait (s : State) (t : CoreId) (c : Core) : (s.putCore t c).portWait = s.portWait := rfl
@[simp] theorem State.putCore_recNums (s : State) (t : CoreId) (c : Core) : (s.putCore t c).recNums = s.recNums := rfl
@[simp] theorem State.putCore_recBytes (s : State) (t : CoreId) (c : Core) : (s.putCore t c).recBytes = s.recBytes := rfl
@[simp] theorem State.putCore_seqGone (s : State) (t : CoreId) (c : Core) : (s.putCore t c).seqGone = s.seqGone := rfl
@[simp] theorem State.putCore_nextSample (s : State) (t : CoreId) (c : Core) : (s.putCore t c).nextSample = s.nextSample := rfl
@[simp] theorem State.putCore_evtOver (s : State) (t : CoreId) (c : Core) : (s.putCore t c).evtOver = s.evtOver := rfl
@[simp] theorem State.putCore_awaited (s : State) (t : CoreId) (c : Core) : (s.putCore t c).awaited = s.awaited := rfl
@[simp] theorem State.putCore_switching (s : State) (t : CoreId) (c : Core) : (s.putCore t c).switching = s.switching := rfl
@[simp] theorem State.putCore_offered (s : State) (t : CoreId) (c : Core) : (s.putCore t c).offered = s.offered := rfl
@[simp] theorem State.putCore_stampedNow (s : State) (t : CoreId) (c : Core) : (s.putCore t c).stampedNow = s.stampedNow := rfl
@[simp] theorem State.putCore_bbox (s : State) (t : CoreId) (c : Core) : (s.putCore t c).bbox = s.bbox := rfl
@[simp] theorem State.putCore_flash (s : State) (t : CoreId) (c : Core) : (s.putCore t c).flash = s.flash := rfl
@[simp] theorem State.putCore_kept (s : State) (t : CoreId) (c : Core) : (s.putCore t c).kept = s.kept := rfl

/-! ### Results and stores of a core -/

@[simp] theorem Core.countDown_sregs (c : Core) : c.countDown.sregs = c.sregs := rfl
@[simp] theorem Core.countDown_pregs (c : Core) : c.countDown.pregs = c.pregs := rfl
@[simp] theorem Core.countDown_vregs (c : Core) : c.countDown.vregs = c.vregs := rfl
@[simp] theorem Core.countDown_mregs (c : Core) : c.countDown.mregs = c.mregs := rfl
@[simp] theorem Core.countDown_tregs (c : Core) : c.countDown.tregs = c.tregs := rfl
@[simp] theorem Core.countDown_lcregs (c : Core) : c.countDown.lcregs = c.lcregs := rfl
@[simp] theorem Core.countDown_hregs (c : Core) : c.countDown.hregs = c.hregs := rfl
@[simp] theorem Core.countDown_zregs (c : Core) : c.countDown.zregs = c.zregs := rfl
@[simp] theorem Core.countDown_kregs (c : Core) : c.countDown.kregs = c.kregs := rfl
@[simp] theorem Core.countDown_rings (c : Core) : c.countDown.rings = c.rings := rfl
@[simp] theorem Core.countDown_accs (c : Core) : c.countDown.accs = c.accs := rfl
@[simp] theorem Core.countDown_wmarks (c : Core) : c.countDown.wmarks = c.wmarks := rfl
@[simp] theorem Core.countDown_owners (c : Core) : c.countDown.owners = c.owners := rfl
@[simp] theorem Core.countDown_stg (c : Core) : c.countDown.stg = c.stg := rfl
@[simp] theorem Core.countDown_orx (c : Core) : c.countDown.orx = c.orx := rfl
@[simp] theorem Core.countDown_otx (c : Core) : c.countDown.otx = c.otx := rfl
@[simp] theorem Core.countDown_ras (c : Core) : c.countDown.ras = c.ras := rfl
@[simp] theorem Core.countDown_depth (c : Core) : c.countDown.depth = c.depth := rfl
@[simp] theorem Core.countDown_fmts (c : Core) : c.countDown.fmts = c.fmts := rfl
@[simp] theorem Core.countDown_pos (c : Core) : c.countDown.pos = c.pos := rfl
@[simp] theorem Core.countDown_fstat (c : Core) : c.countDown.fstat = c.fstat := rfl
@[simp] theorem Core.countDown_zbase (c : Core) : c.countDown.zbase = c.zbase := rfl
@[simp] theorem Core.countDown_gd (c : Core) : c.countDown.gd = c.gd := rfl
@[simp] theorem Core.countDown_gtab (c : Core) : c.countDown.gtab = c.gtab := rfl
@[simp] theorem Core.countDown_wdog (c : Core) : c.countDown.wdog = c.wdog := rfl
@[simp] theorem Core.countDown_trap (c : Core) : c.countDown.trap = c.trap := rfl
@[simp] theorem Core.countDown_cnt (c : Core) : c.countDown.cnt = c.cnt := rfl
@[simp] theorem Core.countDown_sFalls (c : Core) : c.countDown.sFalls = c.sFalls := rfl
@[simp] theorem Core.countDown_sysMode (c : Core) : c.countDown.sysMode = c.sysMode := rfl
@[simp] theorem Core.countDown_pmode (c : Core) : c.countDown.pmode = c.pmode := rfl
@[simp] theorem Core.countDown_pc (c : Core) : c.countDown.pc = c.pc := rfl
@[simp] theorem Core.countDown_pcFrom (c : Core) : c.countDown.pcFrom = c.pcFrom := rfl
@[simp] theorem Core.countDown_stall (c : Core) : c.countDown.stall = c.stall := rfl
@[simp] theorem Core.countDown_redirects (c : Core) : c.countDown.redirects = c.redirects := rfl
@[simp] theorem Core.countDown_pb (c : Core) : c.countDown.pb = c.pb := rfl
@[simp] theorem Core.countDown_pend (c : Core) : c.countDown.pend = c.pend := rfl
@[simp] theorem Core.countDown_issueNo (c : Core) : c.countDown.issueNo = c.issueNo := rfl
@[simp] theorem Core.countDown_snapTrap (c : Core) : c.countDown.snapTrap = c.snapTrap := rfl
@[simp] theorem Core.countDown_snapPre (c : Core) : c.countDown.snapPre = c.snapPre := rfl
@[simp] theorem Core.countDown_deferred (c : Core) : c.countDown.deferred = c.deferred := rfl
@[simp] theorem Core.countDown_failing (c : Core) : c.countDown.failing = c.failing := rfl
@[simp] theorem Core.countDown_undelivered (c : Core) : c.countDown.undelivered = c.undelivered := rfl
@[simp] theorem Core.countDown_strand (c : Core) : c.countDown.strand = c.strand := rfl
@[simp] theorem Core.countDown_eretDrain (c : Core) : c.countDown.eretDrain = c.eretDrain := rfl
@[simp] theorem Core.countDown_haltReq (c : Core) : c.countDown.haltReq = c.haltReq := rfl
@[simp] theorem Core.countDown_frozen (c : Core) : c.countDown.frozen = c.frozen := rfl
@[simp] theorem Core.countDown_trapAfter (c : Core) : c.countDown.trapAfter = c.trapAfter := rfl
@[simp] theorem Core.countDown_haltNew (c : Core) : c.countDown.haltNew = c.haltNew := rfl
@[simp] theorem Core.countDown_bankLeft (c : Core) : c.countDown.bankLeft = c.bankLeft := rfl
@[simp] theorem Core.countDown_bankWant (c : Core) : c.countDown.bankWant = c.bankWant := rfl
@[simp] theorem Core.countDown_bankLast (c : Core) : c.countDown.bankLast = c.bankLast := rfl
@[simp] theorem Core.countDown_xfers (c : Core) : c.countDown.xfers = c.xfers := rfl
@[simp] theorem Core.countDown_landing (c : Core) : c.countDown.landing = c.landing := rfl
@[simp] theorem Core.countDown_waitaRead (c : Core) : c.countDown.waitaRead = c.waitaRead := rfl
@[simp] theorem Core.countDown_fenceLate (c : Core) : c.countDown.fenceLate = c.fenceLate := rfl
@[simp] theorem Core.countDown_slogWait (c : Core) : c.countDown.slogWait = c.slogWait := rfl
@[simp] theorem Core.countDown_waitedV (c : Core) : c.countDown.waitedV = c.waitedV := rfl
@[simp] theorem Core.countDown_waitedL (c : Core) : c.countDown.waitedL = c.waitedL := rfl
@[simp] theorem Core.countDown_waitaSeen (c : Core) : c.countDown.waitaSeen = c.waitaSeen := rfl
@[simp] theorem Core.countDown_gate (c : Core) : c.countDown.gate = c.gate := rfl
@[simp] theorem Core.countDown_spad (c : Core) : c.countDown.spad = c.spad := rfl
@[simp] theorem Core.countDown_poison (c : Core) : c.countDown.poison = c.poison := rfl
@[simp] theorem Core.countDown_spill (c : Core) : c.countDown.spill = c.spill := rfl
@[simp] theorem Core.countDown_planes (c : Core) : c.countDown.planes = c.planes := rfl
@[simp] theorem Core.countDown_curPlane (c : Core) : c.countDown.curPlane = c.curPlane := rfl
@[simp] theorem Core.countDown_mat (c : Core) : c.countDown.mat = c.mat := rfl
@[simp] theorem Core.countDown_cpy (c : Core) : c.countDown.cpy = c.cpy := rfl
@[simp] theorem Core.countDown_chn (c : Core) : c.countDown.chn = c.chn := rfl
@[simp] theorem Core.countDown_dacc (c : Core) : c.countDown.dacc = c.dacc := rfl
@[simp] theorem Core.countDown_undo (c : Core) : c.countDown.undo = c.undo := rfl
@[simp] theorem Core.countDown_held (c : Core) : c.countDown.held = c.held := rfl
@[simp] theorem Core.countDown_lost (c : Core) : c.countDown.lost = c.lost := rfl
@[simp] theorem Core.countDown_nextAcc (c : Core) : c.countDown.nextAcc = c.nextAcc := rfl
@[simp] theorem Core.countDown_fences (c : Core) : c.countDown.fences = c.fences := rfl
@[simp] theorem Core.countDown_qfences (c : Core) : c.countDown.qfences = c.qfences := rfl
@[simp] theorem Core.countDown_slog (c : Core) : c.countDown.slog = c.slog := rfl
@[simp] theorem Core.countDown_slogSlot (c : Core) : c.countDown.slogSlot = c.slogSlot := rfl
@[simp] theorem Core.countDown_bucket (c : Core) : c.countDown.bucket = c.bucket := rfl

@[simp] theorem Core.result_sregs (c : Core) (sl : Slot) (n : Nat) (w : Write) (fl : Flags) :
    (c.result sl n w fl).sregs = c.sregs := by unfold Core.result; split <;> rfl
@[simp] theorem Core.result_pregs (c : Core) (sl : Slot) (n : Nat) (w : Write) (fl : Flags) :
    (c.result sl n w fl).pregs = c.pregs := by unfold Core.result; split <;> rfl
@[simp] theorem Core.result_vregs (c : Core) (sl : Slot) (n : Nat) (w : Write) (fl : Flags) :
    (c.result sl n w fl).vregs = c.vregs := by unfold Core.result; split <;> rfl
@[simp] theorem Core.result_mregs (c : Core) (sl : Slot) (n : Nat) (w : Write) (fl : Flags) :
    (c.result sl n w fl).mregs = c.mregs := by unfold Core.result; split <;> rfl
@[simp] theorem Core.result_tregs (c : Core) (sl : Slot) (n : Nat) (w : Write) (fl : Flags) :
    (c.result sl n w fl).tregs = c.tregs := by unfold Core.result; split <;> rfl
@[simp] theorem Core.result_lcregs (c : Core) (sl : Slot) (n : Nat) (w : Write) (fl : Flags) :
    (c.result sl n w fl).lcregs = c.lcregs := by unfold Core.result; split <;> rfl
@[simp] theorem Core.result_hregs (c : Core) (sl : Slot) (n : Nat) (w : Write) (fl : Flags) :
    (c.result sl n w fl).hregs = c.hregs := by unfold Core.result; split <;> rfl
@[simp] theorem Core.result_zregs (c : Core) (sl : Slot) (n : Nat) (w : Write) (fl : Flags) :
    (c.result sl n w fl).zregs = c.zregs := by unfold Core.result; split <;> rfl
@[simp] theorem Core.result_kregs (c : Core) (sl : Slot) (n : Nat) (w : Write) (fl : Flags) :
    (c.result sl n w fl).kregs = c.kregs := by unfold Core.result; split <;> rfl
@[simp] theorem Core.result_rings (c : Core) (sl : Slot) (n : Nat) (w : Write) (fl : Flags) :
    (c.result sl n w fl).rings = c.rings := by unfold Core.result; split <;> rfl
@[simp] theorem Core.result_accs (c : Core) (sl : Slot) (n : Nat) (w : Write) (fl : Flags) :
    (c.result sl n w fl).accs = c.accs := by unfold Core.result; split <;> rfl
@[simp] theorem Core.result_wmarks (c : Core) (sl : Slot) (n : Nat) (w : Write) (fl : Flags) :
    (c.result sl n w fl).wmarks = c.wmarks := by unfold Core.result; split <;> rfl
@[simp] theorem Core.result_owners (c : Core) (sl : Slot) (n : Nat) (w : Write) (fl : Flags) :
    (c.result sl n w fl).owners = c.owners := by unfold Core.result; split <;> rfl
@[simp] theorem Core.result_stg (c : Core) (sl : Slot) (n : Nat) (w : Write) (fl : Flags) :
    (c.result sl n w fl).stg = c.stg := by unfold Core.result; split <;> rfl
@[simp] theorem Core.result_orx (c : Core) (sl : Slot) (n : Nat) (w : Write) (fl : Flags) :
    (c.result sl n w fl).orx = c.orx := by unfold Core.result; split <;> rfl
@[simp] theorem Core.result_otx (c : Core) (sl : Slot) (n : Nat) (w : Write) (fl : Flags) :
    (c.result sl n w fl).otx = c.otx := by unfold Core.result; split <;> rfl
@[simp] theorem Core.result_ras (c : Core) (sl : Slot) (n : Nat) (w : Write) (fl : Flags) :
    (c.result sl n w fl).ras = c.ras := by unfold Core.result; split <;> rfl
@[simp] theorem Core.result_depth (c : Core) (sl : Slot) (n : Nat) (w : Write) (fl : Flags) :
    (c.result sl n w fl).depth = c.depth := by unfold Core.result; split <;> rfl
@[simp] theorem Core.result_fmts (c : Core) (sl : Slot) (n : Nat) (w : Write) (fl : Flags) :
    (c.result sl n w fl).fmts = c.fmts := by unfold Core.result; split <;> rfl
@[simp] theorem Core.result_pos (c : Core) (sl : Slot) (n : Nat) (w : Write) (fl : Flags) :
    (c.result sl n w fl).pos = c.pos := by unfold Core.result; split <;> rfl
@[simp] theorem Core.result_fstat (c : Core) (sl : Slot) (n : Nat) (w : Write) (fl : Flags) :
    (c.result sl n w fl).fstat = c.fstat := by unfold Core.result; split <;> rfl
@[simp] theorem Core.result_zbase (c : Core) (sl : Slot) (n : Nat) (w : Write) (fl : Flags) :
    (c.result sl n w fl).zbase = c.zbase := by unfold Core.result; split <;> rfl
@[simp] theorem Core.result_gd (c : Core) (sl : Slot) (n : Nat) (w : Write) (fl : Flags) :
    (c.result sl n w fl).gd = c.gd := by unfold Core.result; split <;> rfl
@[simp] theorem Core.result_gtab (c : Core) (sl : Slot) (n : Nat) (w : Write) (fl : Flags) :
    (c.result sl n w fl).gtab = c.gtab := by unfold Core.result; split <;> rfl
@[simp] theorem Core.result_wdog (c : Core) (sl : Slot) (n : Nat) (w : Write) (fl : Flags) :
    (c.result sl n w fl).wdog = c.wdog := by unfold Core.result; split <;> rfl
@[simp] theorem Core.result_trap (c : Core) (sl : Slot) (n : Nat) (w : Write) (fl : Flags) :
    (c.result sl n w fl).trap = c.trap := by unfold Core.result; split <;> rfl
@[simp] theorem Core.result_cnt (c : Core) (sl : Slot) (n : Nat) (w : Write) (fl : Flags) :
    (c.result sl n w fl).cnt = c.cnt := by unfold Core.result; split <;> rfl
@[simp] theorem Core.result_sFalls (c : Core) (sl : Slot) (n : Nat) (w : Write) (fl : Flags) :
    (c.result sl n w fl).sFalls = c.sFalls := by unfold Core.result; split <;> rfl
@[simp] theorem Core.result_sysMode (c : Core) (sl : Slot) (n : Nat) (w : Write) (fl : Flags) :
    (c.result sl n w fl).sysMode = c.sysMode := by unfold Core.result; split <;> rfl
@[simp] theorem Core.result_pmode (c : Core) (sl : Slot) (n : Nat) (w : Write) (fl : Flags) :
    (c.result sl n w fl).pmode = c.pmode := by unfold Core.result; split <;> rfl
@[simp] theorem Core.result_pc (c : Core) (sl : Slot) (n : Nat) (w : Write) (fl : Flags) :
    (c.result sl n w fl).pc = c.pc := by unfold Core.result; split <;> rfl
@[simp] theorem Core.result_pcFrom (c : Core) (sl : Slot) (n : Nat) (w : Write) (fl : Flags) :
    (c.result sl n w fl).pcFrom = c.pcFrom := by unfold Core.result; split <;> rfl
@[simp] theorem Core.result_stall (c : Core) (sl : Slot) (n : Nat) (w : Write) (fl : Flags) :
    (c.result sl n w fl).stall = c.stall := by unfold Core.result; split <;> rfl
@[simp] theorem Core.result_redirects (c : Core) (sl : Slot) (n : Nat) (w : Write) (fl : Flags) :
    (c.result sl n w fl).redirects = c.redirects := by unfold Core.result; split <;> rfl
@[simp] theorem Core.result_pb (c : Core) (sl : Slot) (n : Nat) (w : Write) (fl : Flags) :
    (c.result sl n w fl).pb = c.pb := by unfold Core.result; split <;> rfl
@[simp] theorem Core.result_pend (c : Core) (sl : Slot) (n : Nat) (w : Write) (fl : Flags) :
    (c.result sl n w fl).pend = c.pend := by unfold Core.result; split <;> rfl
@[simp] theorem Core.result_issueNo (c : Core) (sl : Slot) (n : Nat) (w : Write) (fl : Flags) :
    (c.result sl n w fl).issueNo = c.issueNo := by unfold Core.result; split <;> rfl
@[simp] theorem Core.result_snapTrap (c : Core) (sl : Slot) (n : Nat) (w : Write) (fl : Flags) :
    (c.result sl n w fl).snapTrap = c.snapTrap := by unfold Core.result; split <;> rfl
@[simp] theorem Core.result_snapPre (c : Core) (sl : Slot) (n : Nat) (w : Write) (fl : Flags) :
    (c.result sl n w fl).snapPre = c.snapPre := by unfold Core.result; split <;> rfl
@[simp] theorem Core.result_deferred (c : Core) (sl : Slot) (n : Nat) (w : Write) (fl : Flags) :
    (c.result sl n w fl).deferred = c.deferred := by unfold Core.result; split <;> rfl
@[simp] theorem Core.result_failing (c : Core) (sl : Slot) (n : Nat) (w : Write) (fl : Flags) :
    (c.result sl n w fl).failing = c.failing := by unfold Core.result; split <;> rfl
@[simp] theorem Core.result_undelivered (c : Core) (sl : Slot) (n : Nat) (w : Write) (fl : Flags) :
    (c.result sl n w fl).undelivered = c.undelivered := by unfold Core.result; split <;> rfl
@[simp] theorem Core.result_strand (c : Core) (sl : Slot) (n : Nat) (w : Write) (fl : Flags) :
    (c.result sl n w fl).strand = c.strand := by unfold Core.result; split <;> rfl
@[simp] theorem Core.result_eretDrain (c : Core) (sl : Slot) (n : Nat) (w : Write) (fl : Flags) :
    (c.result sl n w fl).eretDrain = c.eretDrain := by unfold Core.result; split <;> rfl
@[simp] theorem Core.result_haltReq (c : Core) (sl : Slot) (n : Nat) (w : Write) (fl : Flags) :
    (c.result sl n w fl).haltReq = c.haltReq := by unfold Core.result; split <;> rfl
@[simp] theorem Core.result_frozen (c : Core) (sl : Slot) (n : Nat) (w : Write) (fl : Flags) :
    (c.result sl n w fl).frozen = c.frozen := by unfold Core.result; split <;> rfl
@[simp] theorem Core.result_trapAfter (c : Core) (sl : Slot) (n : Nat) (w : Write) (fl : Flags) :
    (c.result sl n w fl).trapAfter = c.trapAfter := by unfold Core.result; split <;> rfl
@[simp] theorem Core.result_haltNew (c : Core) (sl : Slot) (n : Nat) (w : Write) (fl : Flags) :
    (c.result sl n w fl).haltNew = c.haltNew := by unfold Core.result; split <;> rfl
@[simp] theorem Core.result_bankLeft (c : Core) (sl : Slot) (n : Nat) (w : Write) (fl : Flags) :
    (c.result sl n w fl).bankLeft = c.bankLeft := by unfold Core.result; split <;> rfl
@[simp] theorem Core.result_bankWant (c : Core) (sl : Slot) (n : Nat) (w : Write) (fl : Flags) :
    (c.result sl n w fl).bankWant = c.bankWant := by unfold Core.result; split <;> rfl
@[simp] theorem Core.result_bankLast (c : Core) (sl : Slot) (n : Nat) (w : Write) (fl : Flags) :
    (c.result sl n w fl).bankLast = c.bankLast := by unfold Core.result; split <;> rfl
@[simp] theorem Core.result_xfers (c : Core) (sl : Slot) (n : Nat) (w : Write) (fl : Flags) :
    (c.result sl n w fl).xfers = c.xfers := by unfold Core.result; split <;> rfl
@[simp] theorem Core.result_landing (c : Core) (sl : Slot) (n : Nat) (w : Write) (fl : Flags) :
    (c.result sl n w fl).landing = c.landing := by unfold Core.result; split <;> rfl
@[simp] theorem Core.result_waitaRead (c : Core) (sl : Slot) (n : Nat) (w : Write) (fl : Flags) :
    (c.result sl n w fl).waitaRead = c.waitaRead := by unfold Core.result; split <;> rfl
@[simp] theorem Core.result_fenceLate (c : Core) (sl : Slot) (n : Nat) (w : Write) (fl : Flags) :
    (c.result sl n w fl).fenceLate = c.fenceLate := by unfold Core.result; split <;> rfl
@[simp] theorem Core.result_slogWait (c : Core) (sl : Slot) (n : Nat) (w : Write) (fl : Flags) :
    (c.result sl n w fl).slogWait = c.slogWait := by unfold Core.result; split <;> rfl
@[simp] theorem Core.result_waitedV (c : Core) (sl : Slot) (n : Nat) (w : Write) (fl : Flags) :
    (c.result sl n w fl).waitedV = c.waitedV := by unfold Core.result; split <;> rfl
@[simp] theorem Core.result_waitedL (c : Core) (sl : Slot) (n : Nat) (w : Write) (fl : Flags) :
    (c.result sl n w fl).waitedL = c.waitedL := by unfold Core.result; split <;> rfl
@[simp] theorem Core.result_waitaSeen (c : Core) (sl : Slot) (n : Nat) (w : Write) (fl : Flags) :
    (c.result sl n w fl).waitaSeen = c.waitaSeen := by unfold Core.result; split <;> rfl
@[simp] theorem Core.result_gate (c : Core) (sl : Slot) (n : Nat) (w : Write) (fl : Flags) :
    (c.result sl n w fl).gate = c.gate := by unfold Core.result; split <;> rfl
@[simp] theorem Core.result_spad (c : Core) (sl : Slot) (n : Nat) (w : Write) (fl : Flags) :
    (c.result sl n w fl).spad = c.spad := by unfold Core.result; split <;> rfl
@[simp] theorem Core.result_poison (c : Core) (sl : Slot) (n : Nat) (w : Write) (fl : Flags) :
    (c.result sl n w fl).poison = c.poison := by unfold Core.result; split <;> rfl
@[simp] theorem Core.result_spill (c : Core) (sl : Slot) (n : Nat) (w : Write) (fl : Flags) :
    (c.result sl n w fl).spill = c.spill := by unfold Core.result; split <;> rfl
@[simp] theorem Core.result_planes (c : Core) (sl : Slot) (n : Nat) (w : Write) (fl : Flags) :
    (c.result sl n w fl).planes = c.planes := by unfold Core.result; split <;> rfl
@[simp] theorem Core.result_curPlane (c : Core) (sl : Slot) (n : Nat) (w : Write) (fl : Flags) :
    (c.result sl n w fl).curPlane = c.curPlane := by unfold Core.result; split <;> rfl
@[simp] theorem Core.result_mat (c : Core) (sl : Slot) (n : Nat) (w : Write) (fl : Flags) :
    (c.result sl n w fl).mat = c.mat := by unfold Core.result; split <;> rfl
@[simp] theorem Core.result_cpy (c : Core) (sl : Slot) (n : Nat) (w : Write) (fl : Flags) :
    (c.result sl n w fl).cpy = c.cpy := by unfold Core.result; split <;> rfl
@[simp] theorem Core.result_chn (c : Core) (sl : Slot) (n : Nat) (w : Write) (fl : Flags) :
    (c.result sl n w fl).chn = c.chn := by unfold Core.result; split <;> rfl
@[simp] theorem Core.result_dacc (c : Core) (sl : Slot) (n : Nat) (w : Write) (fl : Flags) :
    (c.result sl n w fl).dacc = c.dacc := by unfold Core.result; split <;> rfl
@[simp] theorem Core.result_undo (c : Core) (sl : Slot) (n : Nat) (w : Write) (fl : Flags) :
    (c.result sl n w fl).undo = c.undo := by unfold Core.result; split <;> rfl
@[simp] theorem Core.result_held (c : Core) (sl : Slot) (n : Nat) (w : Write) (fl : Flags) :
    (c.result sl n w fl).held = c.held := by unfold Core.result; split <;> rfl
@[simp] theorem Core.result_lost (c : Core) (sl : Slot) (n : Nat) (w : Write) (fl : Flags) :
    (c.result sl n w fl).lost = c.lost := by unfold Core.result; split <;> rfl
@[simp] theorem Core.result_nextAcc (c : Core) (sl : Slot) (n : Nat) (w : Write) (fl : Flags) :
    (c.result sl n w fl).nextAcc = c.nextAcc := by unfold Core.result; split <;> rfl
@[simp] theorem Core.result_fences (c : Core) (sl : Slot) (n : Nat) (w : Write) (fl : Flags) :
    (c.result sl n w fl).fences = c.fences := by unfold Core.result; split <;> rfl
@[simp] theorem Core.result_qfences (c : Core) (sl : Slot) (n : Nat) (w : Write) (fl : Flags) :
    (c.result sl n w fl).qfences = c.qfences := by unfold Core.result; split <;> rfl
@[simp] theorem Core.result_slog (c : Core) (sl : Slot) (n : Nat) (w : Write) (fl : Flags) :
    (c.result sl n w fl).slog = c.slog := by unfold Core.result; split <;> rfl
@[simp] theorem Core.result_slogSlot (c : Core) (sl : Slot) (n : Nat) (w : Write) (fl : Flags) :
    (c.result sl n w fl).slogSlot = c.slogSlot := by unfold Core.result; split <;> rfl
@[simp] theorem Core.result_bucket (c : Core) (sl : Slot) (n : Nat) (w : Write) (fl : Flags) :
    (c.result sl n w fl).bucket = c.bucket := by unfold Core.result; split <;> rfl

@[simp] theorem Core.lateResult_sregs (c : Core) (sl : Slot) (o n : Nat) (w : Write) (fl : Flags) :
    (c.lateResult sl o n w fl).sregs = c.sregs := rfl
@[simp] theorem Core.lateResult_pregs (c : Core) (sl : Slot) (o n : Nat) (w : Write) (fl : Flags) :
    (c.lateResult sl o n w fl).pregs = c.pregs := rfl
@[simp] theorem Core.lateResult_vregs (c : Core) (sl : Slot) (o n : Nat) (w : Write) (fl : Flags) :
    (c.lateResult sl o n w fl).vregs = c.vregs := rfl
@[simp] theorem Core.lateResult_mregs (c : Core) (sl : Slot) (o n : Nat) (w : Write) (fl : Flags) :
    (c.lateResult sl o n w fl).mregs = c.mregs := rfl
@[simp] theorem Core.lateResult_tregs (c : Core) (sl : Slot) (o n : Nat) (w : Write) (fl : Flags) :
    (c.lateResult sl o n w fl).tregs = c.tregs := rfl
@[simp] theorem Core.lateResult_lcregs (c : Core) (sl : Slot) (o n : Nat) (w : Write) (fl : Flags) :
    (c.lateResult sl o n w fl).lcregs = c.lcregs := rfl
@[simp] theorem Core.lateResult_hregs (c : Core) (sl : Slot) (o n : Nat) (w : Write) (fl : Flags) :
    (c.lateResult sl o n w fl).hregs = c.hregs := rfl
@[simp] theorem Core.lateResult_zregs (c : Core) (sl : Slot) (o n : Nat) (w : Write) (fl : Flags) :
    (c.lateResult sl o n w fl).zregs = c.zregs := rfl
@[simp] theorem Core.lateResult_kregs (c : Core) (sl : Slot) (o n : Nat) (w : Write) (fl : Flags) :
    (c.lateResult sl o n w fl).kregs = c.kregs := rfl
@[simp] theorem Core.lateResult_rings (c : Core) (sl : Slot) (o n : Nat) (w : Write) (fl : Flags) :
    (c.lateResult sl o n w fl).rings = c.rings := rfl
@[simp] theorem Core.lateResult_accs (c : Core) (sl : Slot) (o n : Nat) (w : Write) (fl : Flags) :
    (c.lateResult sl o n w fl).accs = c.accs := rfl
@[simp] theorem Core.lateResult_wmarks (c : Core) (sl : Slot) (o n : Nat) (w : Write) (fl : Flags) :
    (c.lateResult sl o n w fl).wmarks = c.wmarks := rfl
@[simp] theorem Core.lateResult_owners (c : Core) (sl : Slot) (o n : Nat) (w : Write) (fl : Flags) :
    (c.lateResult sl o n w fl).owners = c.owners := rfl
@[simp] theorem Core.lateResult_stg (c : Core) (sl : Slot) (o n : Nat) (w : Write) (fl : Flags) :
    (c.lateResult sl o n w fl).stg = c.stg := rfl
@[simp] theorem Core.lateResult_orx (c : Core) (sl : Slot) (o n : Nat) (w : Write) (fl : Flags) :
    (c.lateResult sl o n w fl).orx = c.orx := rfl
@[simp] theorem Core.lateResult_otx (c : Core) (sl : Slot) (o n : Nat) (w : Write) (fl : Flags) :
    (c.lateResult sl o n w fl).otx = c.otx := rfl
@[simp] theorem Core.lateResult_ras (c : Core) (sl : Slot) (o n : Nat) (w : Write) (fl : Flags) :
    (c.lateResult sl o n w fl).ras = c.ras := rfl
@[simp] theorem Core.lateResult_depth (c : Core) (sl : Slot) (o n : Nat) (w : Write) (fl : Flags) :
    (c.lateResult sl o n w fl).depth = c.depth := rfl
@[simp] theorem Core.lateResult_fmts (c : Core) (sl : Slot) (o n : Nat) (w : Write) (fl : Flags) :
    (c.lateResult sl o n w fl).fmts = c.fmts := rfl
@[simp] theorem Core.lateResult_pos (c : Core) (sl : Slot) (o n : Nat) (w : Write) (fl : Flags) :
    (c.lateResult sl o n w fl).pos = c.pos := rfl
@[simp] theorem Core.lateResult_fstat (c : Core) (sl : Slot) (o n : Nat) (w : Write) (fl : Flags) :
    (c.lateResult sl o n w fl).fstat = c.fstat := rfl
@[simp] theorem Core.lateResult_zbase (c : Core) (sl : Slot) (o n : Nat) (w : Write) (fl : Flags) :
    (c.lateResult sl o n w fl).zbase = c.zbase := rfl
@[simp] theorem Core.lateResult_gd (c : Core) (sl : Slot) (o n : Nat) (w : Write) (fl : Flags) :
    (c.lateResult sl o n w fl).gd = c.gd := rfl
@[simp] theorem Core.lateResult_gtab (c : Core) (sl : Slot) (o n : Nat) (w : Write) (fl : Flags) :
    (c.lateResult sl o n w fl).gtab = c.gtab := rfl
@[simp] theorem Core.lateResult_wdog (c : Core) (sl : Slot) (o n : Nat) (w : Write) (fl : Flags) :
    (c.lateResult sl o n w fl).wdog = c.wdog := rfl
@[simp] theorem Core.lateResult_trap (c : Core) (sl : Slot) (o n : Nat) (w : Write) (fl : Flags) :
    (c.lateResult sl o n w fl).trap = c.trap := rfl
@[simp] theorem Core.lateResult_cnt (c : Core) (sl : Slot) (o n : Nat) (w : Write) (fl : Flags) :
    (c.lateResult sl o n w fl).cnt = c.cnt := rfl
@[simp] theorem Core.lateResult_sFalls (c : Core) (sl : Slot) (o n : Nat) (w : Write) (fl : Flags) :
    (c.lateResult sl o n w fl).sFalls = c.sFalls := rfl
@[simp] theorem Core.lateResult_sysMode (c : Core) (sl : Slot) (o n : Nat) (w : Write) (fl : Flags) :
    (c.lateResult sl o n w fl).sysMode = c.sysMode := rfl
@[simp] theorem Core.lateResult_pmode (c : Core) (sl : Slot) (o n : Nat) (w : Write) (fl : Flags) :
    (c.lateResult sl o n w fl).pmode = c.pmode := rfl
@[simp] theorem Core.lateResult_pc (c : Core) (sl : Slot) (o n : Nat) (w : Write) (fl : Flags) :
    (c.lateResult sl o n w fl).pc = c.pc := rfl
@[simp] theorem Core.lateResult_pcFrom (c : Core) (sl : Slot) (o n : Nat) (w : Write) (fl : Flags) :
    (c.lateResult sl o n w fl).pcFrom = c.pcFrom := rfl
@[simp] theorem Core.lateResult_stall (c : Core) (sl : Slot) (o n : Nat) (w : Write) (fl : Flags) :
    (c.lateResult sl o n w fl).stall = c.stall := rfl
@[simp] theorem Core.lateResult_redirects (c : Core) (sl : Slot) (o n : Nat) (w : Write) (fl : Flags) :
    (c.lateResult sl o n w fl).redirects = c.redirects := rfl
@[simp] theorem Core.lateResult_pb (c : Core) (sl : Slot) (o n : Nat) (w : Write) (fl : Flags) :
    (c.lateResult sl o n w fl).pb = c.pb := rfl
@[simp] theorem Core.lateResult_pend (c : Core) (sl : Slot) (o n : Nat) (w : Write) (fl : Flags) :
    (c.lateResult sl o n w fl).pend = c.pend := rfl
@[simp] theorem Core.lateResult_issueNo (c : Core) (sl : Slot) (o n : Nat) (w : Write) (fl : Flags) :
    (c.lateResult sl o n w fl).issueNo = c.issueNo := rfl
@[simp] theorem Core.lateResult_snapTrap (c : Core) (sl : Slot) (o n : Nat) (w : Write) (fl : Flags) :
    (c.lateResult sl o n w fl).snapTrap = c.snapTrap := rfl
@[simp] theorem Core.lateResult_snapPre (c : Core) (sl : Slot) (o n : Nat) (w : Write) (fl : Flags) :
    (c.lateResult sl o n w fl).snapPre = c.snapPre := rfl
@[simp] theorem Core.lateResult_deferred (c : Core) (sl : Slot) (o n : Nat) (w : Write) (fl : Flags) :
    (c.lateResult sl o n w fl).deferred = c.deferred := rfl
@[simp] theorem Core.lateResult_failing (c : Core) (sl : Slot) (o n : Nat) (w : Write) (fl : Flags) :
    (c.lateResult sl o n w fl).failing = c.failing := rfl
@[simp] theorem Core.lateResult_undelivered (c : Core) (sl : Slot) (o n : Nat) (w : Write) (fl : Flags) :
    (c.lateResult sl o n w fl).undelivered = c.undelivered := rfl
@[simp] theorem Core.lateResult_strand (c : Core) (sl : Slot) (o n : Nat) (w : Write) (fl : Flags) :
    (c.lateResult sl o n w fl).strand = c.strand := rfl
@[simp] theorem Core.lateResult_eretDrain (c : Core) (sl : Slot) (o n : Nat) (w : Write) (fl : Flags) :
    (c.lateResult sl o n w fl).eretDrain = c.eretDrain := rfl
@[simp] theorem Core.lateResult_haltReq (c : Core) (sl : Slot) (o n : Nat) (w : Write) (fl : Flags) :
    (c.lateResult sl o n w fl).haltReq = c.haltReq := rfl
@[simp] theorem Core.lateResult_frozen (c : Core) (sl : Slot) (o n : Nat) (w : Write) (fl : Flags) :
    (c.lateResult sl o n w fl).frozen = c.frozen := rfl
@[simp] theorem Core.lateResult_trapAfter (c : Core) (sl : Slot) (o n : Nat) (w : Write) (fl : Flags) :
    (c.lateResult sl o n w fl).trapAfter = c.trapAfter := rfl
@[simp] theorem Core.lateResult_haltNew (c : Core) (sl : Slot) (o n : Nat) (w : Write) (fl : Flags) :
    (c.lateResult sl o n w fl).haltNew = c.haltNew := rfl
@[simp] theorem Core.lateResult_bankLeft (c : Core) (sl : Slot) (o n : Nat) (w : Write) (fl : Flags) :
    (c.lateResult sl o n w fl).bankLeft = c.bankLeft := rfl
@[simp] theorem Core.lateResult_bankWant (c : Core) (sl : Slot) (o n : Nat) (w : Write) (fl : Flags) :
    (c.lateResult sl o n w fl).bankWant = c.bankWant := rfl
@[simp] theorem Core.lateResult_bankLast (c : Core) (sl : Slot) (o n : Nat) (w : Write) (fl : Flags) :
    (c.lateResult sl o n w fl).bankLast = c.bankLast := rfl
@[simp] theorem Core.lateResult_xfers (c : Core) (sl : Slot) (o n : Nat) (w : Write) (fl : Flags) :
    (c.lateResult sl o n w fl).xfers = c.xfers := rfl
@[simp] theorem Core.lateResult_landing (c : Core) (sl : Slot) (o n : Nat) (w : Write) (fl : Flags) :
    (c.lateResult sl o n w fl).landing = c.landing := rfl
@[simp] theorem Core.lateResult_waitaRead (c : Core) (sl : Slot) (o n : Nat) (w : Write) (fl : Flags) :
    (c.lateResult sl o n w fl).waitaRead = c.waitaRead := rfl
@[simp] theorem Core.lateResult_fenceLate (c : Core) (sl : Slot) (o n : Nat) (w : Write) (fl : Flags) :
    (c.lateResult sl o n w fl).fenceLate = c.fenceLate := rfl
@[simp] theorem Core.lateResult_slogWait (c : Core) (sl : Slot) (o n : Nat) (w : Write) (fl : Flags) :
    (c.lateResult sl o n w fl).slogWait = c.slogWait := rfl
@[simp] theorem Core.lateResult_waitedV (c : Core) (sl : Slot) (o n : Nat) (w : Write) (fl : Flags) :
    (c.lateResult sl o n w fl).waitedV = c.waitedV := rfl
@[simp] theorem Core.lateResult_waitedL (c : Core) (sl : Slot) (o n : Nat) (w : Write) (fl : Flags) :
    (c.lateResult sl o n w fl).waitedL = c.waitedL := rfl
@[simp] theorem Core.lateResult_waitaSeen (c : Core) (sl : Slot) (o n : Nat) (w : Write) (fl : Flags) :
    (c.lateResult sl o n w fl).waitaSeen = c.waitaSeen := rfl
@[simp] theorem Core.lateResult_gate (c : Core) (sl : Slot) (o n : Nat) (w : Write) (fl : Flags) :
    (c.lateResult sl o n w fl).gate = c.gate := rfl
@[simp] theorem Core.lateResult_spad (c : Core) (sl : Slot) (o n : Nat) (w : Write) (fl : Flags) :
    (c.lateResult sl o n w fl).spad = c.spad := rfl
@[simp] theorem Core.lateResult_poison (c : Core) (sl : Slot) (o n : Nat) (w : Write) (fl : Flags) :
    (c.lateResult sl o n w fl).poison = c.poison := rfl
@[simp] theorem Core.lateResult_spill (c : Core) (sl : Slot) (o n : Nat) (w : Write) (fl : Flags) :
    (c.lateResult sl o n w fl).spill = c.spill := rfl
@[simp] theorem Core.lateResult_planes (c : Core) (sl : Slot) (o n : Nat) (w : Write) (fl : Flags) :
    (c.lateResult sl o n w fl).planes = c.planes := rfl
@[simp] theorem Core.lateResult_curPlane (c : Core) (sl : Slot) (o n : Nat) (w : Write) (fl : Flags) :
    (c.lateResult sl o n w fl).curPlane = c.curPlane := rfl
@[simp] theorem Core.lateResult_mat (c : Core) (sl : Slot) (o n : Nat) (w : Write) (fl : Flags) :
    (c.lateResult sl o n w fl).mat = c.mat := rfl
@[simp] theorem Core.lateResult_cpy (c : Core) (sl : Slot) (o n : Nat) (w : Write) (fl : Flags) :
    (c.lateResult sl o n w fl).cpy = c.cpy := rfl
@[simp] theorem Core.lateResult_chn (c : Core) (sl : Slot) (o n : Nat) (w : Write) (fl : Flags) :
    (c.lateResult sl o n w fl).chn = c.chn := rfl
@[simp] theorem Core.lateResult_dacc (c : Core) (sl : Slot) (o n : Nat) (w : Write) (fl : Flags) :
    (c.lateResult sl o n w fl).dacc = c.dacc := rfl
@[simp] theorem Core.lateResult_undo (c : Core) (sl : Slot) (o n : Nat) (w : Write) (fl : Flags) :
    (c.lateResult sl o n w fl).undo = c.undo := rfl
@[simp] theorem Core.lateResult_held (c : Core) (sl : Slot) (o n : Nat) (w : Write) (fl : Flags) :
    (c.lateResult sl o n w fl).held = c.held := rfl
@[simp] theorem Core.lateResult_lost (c : Core) (sl : Slot) (o n : Nat) (w : Write) (fl : Flags) :
    (c.lateResult sl o n w fl).lost = c.lost := rfl
@[simp] theorem Core.lateResult_nextAcc (c : Core) (sl : Slot) (o n : Nat) (w : Write) (fl : Flags) :
    (c.lateResult sl o n w fl).nextAcc = c.nextAcc := rfl
@[simp] theorem Core.lateResult_fences (c : Core) (sl : Slot) (o n : Nat) (w : Write) (fl : Flags) :
    (c.lateResult sl o n w fl).fences = c.fences := rfl
@[simp] theorem Core.lateResult_qfences (c : Core) (sl : Slot) (o n : Nat) (w : Write) (fl : Flags) :
    (c.lateResult sl o n w fl).qfences = c.qfences := rfl
@[simp] theorem Core.lateResult_slog (c : Core) (sl : Slot) (o n : Nat) (w : Write) (fl : Flags) :
    (c.lateResult sl o n w fl).slog = c.slog := rfl
@[simp] theorem Core.lateResult_slogSlot (c : Core) (sl : Slot) (o n : Nat) (w : Write) (fl : Flags) :
    (c.lateResult sl o n w fl).slogSlot = c.slogSlot := rfl
@[simp] theorem Core.lateResult_bucket (c : Core) (sl : Slot) (o n : Nat) (w : Write) (fl : Flags) :
    (c.lateResult sl o n w fl).bucket = c.bucket := rfl

end Sys2Proof.Machine
end

