-- ==== Sys2Proof/Laws/Issue.lean ====
section
/-! SUPPORT. What issuing a bundle of one slot does: it issues with the slot's effect, it raises the slot's cause, or it waits. -/

namespace Sys2Proof.Machine

/-- A second put of one key replaces the first. -/
@[simp] theorem Tab.put_put {α : Type} (t : Tab α) (k : Nat) (x y : α) : Tab.put (Tab.put t k x) k y = Tab.put t k y := by
  induction t with
  | nil => simp [Tab.put]
  | cons e r ih =>
    obtain ⟨j, z⟩ := e
    simp only [Tab.put]
    split_ifs with h1 h2
    · simp [Tab.put]
    · simp [Tab.put]
    · simp [Tab.put, h1, h2, ih]

@[simp] theorem State.setCore_setCore (s : State) (c d : Core) : (s.setCore c).setCore d = s.setCore d := by
  simp [State.setCore, State.putCore]

/-- An effect on the current core alone: `issuedAll` is `issued`. -/
@[simp] theorem State.issuedAll_onCore (s : State) (g : Core → Core) : s.issuedAll (onCore g) = s.issued g := by
  simp [State.issuedAll, State.issued, onCore]

@[simp] theorem State.committedAll_onCore (s : State) (g : Core → Core) : s.committedAll (onCore g) = s.committed g := by
  simp [State.committedAll, State.committed, onCore]

/-- A bundle of a slot that does more than begin results leaves nothing to stop it with. -/
@[simp] theorem Core.undoOf_false (c d : Core) : c.undoOf d false = none := by simp [Core.undoOf]

@[simp] theorem Header.zero_holds (c : Core) : Header.zero.holds c = false := by simp [Header.holds, Header.zero]

/-- A bundle of one slot has that slot's effect alone. -/
theorem effectOrder_one (m : SlotSem) (h : m.slot ≠ .none) : effectOrder [m] = [m] := by
  cases hs : m.slot <;> first | exact absurd hs h | simp [effectOrder, hs, slotRank]

/-! ### The bank units and the strand's words (R150, R210) -/

@[simp] theorem Core.asks_nil (c : Core) : c.asks [] = c := by simp [Core.asks]

/-- Asking changes the words asked for and nothing else. -/
theorem Core.asks_eq (c : Core) (ws : List Nat) : c.asks ws = { c with bankWant := if ws = [] then c.bankWant else ws } := by
  unfold Core.asks
  split <;> simp_all

@[simp] theorem State.issuedAsks_nil (s : State) (g : Core → Core) : s.issuedAsks [] g = s.issued g := by
  simp [State.issuedAsks, State.issued]

@[simp] theorem State.committedAsks_nil (s : State) (g : Core → Core) : s.committedAsks [] g = s.committed g := by
  simp [State.committedAsks, State.committed]

/-- No words are free of the banks. -/
@[simp] theorem Core.banksFree_nil (c : Core) : c.banksFree [] := by simp [Core.banksFree, pairsApart]

/-- A bank is not taken by an operation on an arrival word when none that is pending has it as its second. -/
theorem Core.bankTaken_false {c : Core} {ws : List Nat} {w : Nat} (hw : w ∈ ws) (hf : c.banksFree ws) :
    c.bankTaken ws (bankOf w) = false := by
  obtain ⟨-, h2, h3⟩ := hf
  unfold Core.bankTaken
  by_cases hb : bankOf w % 2 = 1
  · have hlt : bankOf w - 1 + 1 = bankOf w := by omega
    cases hp : c.bankPort ws (bankOf w - 1) with
    | none => simp
    | some p =>
      cases hq : c.portWord ws p (bankOf w - 1) with
      | none => simp [hq]
      | some v =>
        suffices isPair v = false by simp [hq, this]
        by_contra hv
        rw [Bool.not_eq_false] at hv
        unfold Core.portWord at hq
        split at hq
        · have hm := List.mem_of_find?_eq_some hq
          have hk := List.find?_some hq
          exact h3 v hm hv w hw (by simp only [beq_iff_eq] at hk; omega)
        · obtain ⟨q, hq1, hq2⟩ := Option.map_eq_some_iff.1 hq
          have hm := List.mem_of_find?_eq_some hq1
          have hk := List.find?_some hq1
          simp only [Bool.and_eq_true, beq_iff_eq] at hk
          exact h2 v (List.mem_map.2 ⟨q, hm, hq2⟩) hv w hw (by rw [← hq2]; omega)
  · simp [hb]

/-- A port that is pending alone is next in turn. -/
theorem nextPort_one (last : Nat) {f : Nat → Bool} (h1 : f 1 = true) (h : ∀ p, p ≠ 1 → f p = false) :
    nextPort last f = some 1 := by
  have hf : f = fun p => p == 1 := by
    funext p
    by_cases hp : p = 1
    · simp [hp, h1]
    · simp [hp, h p hp]
  subst hf
  have hm : ∀ i, (last + i) % 5 = (last % 5 + i) % 5 := fun i => by omega
  have hl : last % 5 < 5 := Nat.mod_lt _ (by omega)
  unfold nextPort
  simp only [hm]
  generalize last % 5 = l at hl ⊢
  interval_cases l <;> decide

/-- Words of different banks at which nothing else is pending are all served at once. -/
theorem Core.strandServed_all {c : Core} {ws : List Nat} (hd : ∀ v ∈ ws, ∀ w ∈ ws, bankOf v = bankOf w → v = w)
    (hf : c.banksFree ws) : ∀ w ∈ ws, (c.strandServed ws).contains w = true := by
  intro w hw
  have hp : c.bankPort ws (bankOf w) = some 1 := by
    refine nextPort_one _ ?_ ?_
    · simpa using ⟨w, hw, rfl⟩
    · intro p hp
      simp only [hp, if_false, List.any_eq_false, Bool.and_eq_true, beq_iff_eq, not_and]
      exact fun q hq _ => hf.1 q hq w hw
  have hfind : ws.find? (fun v => bankOf v == bankOf w) = some w := by
    cases hx : ws.find? (fun v => bankOf v == bankOf w) with
    | none => exact absurd (List.find?_eq_none.1 hx w hw) (by simp)
    | some v =>
      have h1 := List.find?_some hx
      rw [hd v (List.mem_of_find?_eq_some hx) w hw (by simpa using h1)]
  simp only [Core.strandServed, List.contains_iff_mem, List.mem_filterMap, List.mem_eraseDups, List.mem_map]
  exact ⟨bankOf w, ⟨w, hw, rfl⟩, by simp [hp, hfind, Core.bankTaken_false hw hf]⟩

/-! ### A bundle of one slot -/

/-- Erasing repetitions leaves the banks as free as they were. -/
theorem Core.banksFree_eraseDups {c : Core} {ws : List Nat} (h : c.banksFree ws) : c.banksFree ws.eraseDups := by
  obtain ⟨h1, h2, h3⟩ := h
  exact ⟨fun q hq w hw => h1 q hq w (List.mem_eraseDups.1 hw), fun v hv hp w hw => h2 v hv hp w (List.mem_eraseDups.1 hw),
    fun v hv hp w hw => h3 v (List.mem_eraseDups.1 hv) hp w (List.mem_eraseDups.1 hw)⟩

/-- Words read as they are numbered are no arrival words. -/
theorem pairsApart_plain {vs ws : List Nat} (h : ∀ v ∈ vs, v < 3 * 2 ^ 62) : pairsApart vs ws := by
  intro v hv hp
  have := h v hv
  simp only [isPair, decide_eq_true_eq] at hp
  omega

/-- A slot that may issue and whose own wait is over holds nothing. -/
theorem SlotSem.waits_none {m : SlotSem} {s : State} (hi : s.mayIssue m.guard m.reads) (hw : m.wait s = none) :
    m.waits s = none := by
  have hr : m.reads.any s.core.isPending = false := by
    simp only [List.any_eq_false]; intro r hr; simp [hi.2.2.1 r hr]
  simp [SlotSem.waits, hi.1, hi.2.1, hr, hw]

/-- A slot whose own waits are over waits for nothing more. -/
theorem SlotSem.waitOut_none {m : SlotSem} {s : State} (hs : m.slot ≠ .none) (hi : s.mayIssue m.guard m.reads)
    (hw : m.wait s = none) (hl : m.late s = none) (hr : (m.eff s).core.lockstepCount ≤ 32) : s.waitOut Header.zero [m] = none := by
  obtain ⟨g1, g2, g3, l1, l2, l3, l4, l5⟩ := hi
  have hwaits : runWaits s [m] = (s, false) := by simp [runWaits, SlotSem.waits_none ⟨g1, g2, g3, l1, l2, l3, l4, l5⟩ hw]
  have heff : runEffects s (effectOrder [m]) = m.eff s := by
    simp [effectOrder_one m hs, runEffects, SlotSem.effect, g2]
  have hlate : lateWait s [m] = none := by simp [lateWait, SlotSem.waitsLate, hl]
  have hlim : decide (32 < (m.eff s).core.lockstepCount) = false := by simp; omega
  simp [State.waitOut, State.issueFrozen, hwaits, l1, l2, l3, heff, hlim, hlate]

/-- A slot that neither waits nor raises a cause, and whose words are served at once, issues with its effect. -/
theorem SlotSem.issueOne_asks {m : SlotSem} {s : State} (hs : m.slot ≠ .none) (hab : m.absent s = none)
    (hi : s.mayIssue m.guard m.reads) (hw : m.wait s = none) (hl : m.late s = none) (he : lowestBit m.enc = none)
    (hc : m.check s = none) (hr : (m.eff s).core.lockstepCount ≤ 32)
    (hd : ∀ v ∈ m.words s, ∀ w ∈ m.words s, bankOf v = bankOf w → v = w) (hb : s.core.banksFree (m.words s))
    (ha : m.after s = none) :
    s.issueOne m = (m.eff s).setCore ((s.core.issuedFrom (m.eff s).core m.plain).asks (m.words s).eraseDups) := by
  have hwait := SlotSem.waitOut_none hs hi hw hl hr
  obtain ⟨g1, g2, g3, l1, l2, l3, l4, l5⟩ := hi
  have hcause : firstSlotCause s [m] = none := by simp [firstSlotCause, SlotSem.cause, hab, he, g2, hc]
  have heff : runEffects s (effectOrder [m]) = m.eff s := by
    simp [effectOrder_one m hs, runEffects, SlotSem.effect, g2]
  have hafter : afterTrap s [m] = none := by simp [afterTrap, g2, ha]
  have htouch : m.touched s = m.words s := by simp [SlotSem.touched, g2]
  have hserved := Core.strandServed_all (c := s.core) (ws := (m.words s).eraseDups)
    (fun v hv w hw => hd v (List.mem_eraseDups.1 hv) w (List.mem_eraseDups.1 hw)) (Core.banksFree_eraseDups hb)
  have hrest : (m.words s).eraseDups.filter (fun w => !(s.core.strandServed (m.words s).eraseDups).contains w) = [] := by
    rw [List.filter_eq_nil_iff]
    intro w hw
    simpa using hserved w hw
  simp only [State.issueOne, State.issueSlots, hwait, hcause, heff, hafter, l5, List.flatMap_cons, List.flatMap_nil, List.append_nil,
    htouch, hrest, List.isEmpty_nil, Bool.not_true, Bool.false_eq_true, if_false, List.all_cons, List.all_nil, g2, Bool.or_false,
    Bool.and_true, Core.issuedFrom]

/-- A slot that neither waits nor raises a cause, and that touches no scratchpad word, issues with its effect. -/
theorem SlotSem.issueOne_next {m : SlotSem} {s : State} (hs : m.slot ≠ .none) (hab : m.absent s = none)
    (hi : s.mayIssue m.guard m.reads) (hw : m.wait s = none) (hl : m.late s = none) (he : lowestBit m.enc = none)
    (hc : m.check s = none) (hr : (m.eff s).core.lockstepCount ≤ 32) (hb : m.words s = []) (ha : m.after s = none) :
    s.issueOne m = (m.eff s).setCore (s.core.issuedFrom (m.eff s).core m.plain) := by
  rw [SlotSem.issueOne_asks hs hab hi hw hl he hc hr (by simp [hb]) (by simp [hb]) ha, hb]
  simp

/-- A slot whose guard is false issues with no effect (R66). -/
theorem SlotSem.issueOne_skip {m : SlotSem} {s : State} (hs : m.slot ≠ .none) (hab : m.absent s = none)
    (hp : guardPending m.guard s.core = false) (hg : guardOn m.guard s.core = false) (hu : s.unheld)
    (he : lowestBit m.enc = none) : s.issueOne m = s.issued id := by
  obtain ⟨l1, l2, l3, l4, l5⟩ := hu
  have hwaits : runWaits s [m] = (s, false) := by simp [runWaits, SlotSem.waits, hp, hg]
  have hcause : firstSlotCause s [m] = none := by simp [firstSlotCause, SlotSem.cause, hab, he, hg]
  have heff : runEffects s (effectOrder [m]) = s := by simp [effectOrder_one m hs, runEffects, SlotSem.effect, hg]
  have hafter : afterTrap s [m] = none := by simp [afterTrap, hg]
  have htouch : m.touched s = [] := by simp [SlotSem.touched, hg]
  have hlate : lateWait s [m] = none := by simp [lateWait, SlotSem.waitsLate, hg]
  have hlim : decide (32 < s.core.lockstepCount) = false := by simp; omega
  simp [State.issueOne, State.issueSlots, State.waitOut, State.issueFrozen, hwaits, l1, l2, l3, hcause, heff, hafter, l5, hlim, hlate,
    htouch, State.issued, Core.issuedFrom, hg]

/-- A slot that raises a precise cause takes the trap (R24, R28). -/
theorem SlotSem.issueOne_trap {m : SlotSem} {s : State} {k : Cause} (hs : m.slot ≠ .none) (hab : m.absent s = none)
    (hi : s.mayIssue m.guard m.reads) (hw : m.wait s = none) (hl : m.late s = none) (he : lowestBit m.enc = none)
    (hc : m.check s = some k) (hr : (m.eff s).core.lockstepCount ≤ 32) : s.issueOne m = s.trapPrecise k := by
  have hwait := SlotSem.waitOut_none hs hi hw hl hr
  have hcause : firstSlotCause s [m] = some k := by simp [firstSlotCause, SlotSem.cause, hab, he, hi.2.1, hc]
  simp [State.issueOne, State.issueSlots, hwait, hcause]

/-- A slot whose wait holds leaves the state its wait answers. -/
theorem SlotSem.issueOne_wait {m : SlotSem} {s t : State} (h : m.waits s = some t) : s.issueOne m = t := by
  simp [State.issueOne, State.issueSlots, State.waitOut, runWaits, h]

/-- A count of results: one more, or none for a discarded write. -/
theorem Core.result_count (c : Core) (sl : Slot) (n : Nat) (w : Write) (fl : Flags) :
    (c.result sl n w fl).lockstepCount ≤ c.lockstepCount + 1 := by
  unfold Core.result
  split
  · omega
  · simp [Core.lockstepCount]

@[simp] theorem Core.lateResult_count (c : Core) (sl : Slot) (o n : Nat) (w : Write) (fl : Flags) :
    (c.lateResult sl o n w fl).lockstepCount = c.lockstepCount := by
  simp [Core.lateResult, Core.lockstepCount]

/-! ### Checks -/

/-- No reserved field is at fault exactly when each is as required. -/
theorem lowestBit_none {l : List (Nat × Bool)} (h : ∀ e ∈ l, e.2 = true) : lowestBit l = none := by
  induction l with
  | nil => rfl
  | cons e r ih =>
    obtain ⟨b, ok⟩ := e
    have h1 : ok = true := h (b, ok) (by simp)
    simp [lowestBit, h1, ih (fun x hx => h x (by simp [hx]))]

/-- No cause is raised when each check holds. -/
theorem lowestCause_none {l : List (Bool × Cause)} (h : ∀ e ∈ l, e.1 = true) : lowestCause l = none := by
  induction l with
  | nil => rfl
  | cons e r ih =>
    obtain ⟨ok, k⟩ := e
    have h1 : ok = true := h (ok, k) (by simp)
    simp [lowestCause, h1, ih (fun x hx => h x (by simp [hx]))]

theorem firstCause_none {l : List (Bool × Cause)} (h : ∀ e ∈ l, e.1 = true) : firstCause l = none := by
  induction l with
  | nil => rfl
  | cons e r ih =>
    obtain ⟨ok, k⟩ := e
    have h1 : ok = true := h (ok, k) (by simp)
    simp [firstCause, h1, ih (fun x hx => h x (by simp [hx]))]

/-! ### Contiguous words (R150, R209) -/

/-- Fewer than 384 contiguous words lie in different banks. -/
theorem wordsOf_bank {a n : Nat} (h : n ≤ 3064) : ∀ v ∈ wordsOf a n, ∀ w ∈ wordsOf a n, bankOf v = bankOf w → v = w := by
  unfold wordsOf bankOf
  split
  · simp
  · simp only [List.mem_map, List.mem_range]
    rintro v ⟨i, hi, rfl⟩ w ⟨j, hj, rfl⟩ e
    omega

/-! ### The shapes of slots: each issues with its result or effect -/

@[simp] theorem onCore_core (g : Core → Core) (s : State) : (onCore g s).core = g s.core := by simp [onCore]

/-- A free bundle leaves room for one more result. -/
theorem State.unheld.result_room {s : State} (h : s.unheld) (sl : Slot) (n : Nat) (w : Write) (fl : Flags) :
    (s.core.result sl n w fl).lockstepCount ≤ 32 := by
  have h1 := Core.result_count s.core sl n w fl
  have h2 := h.2.2.2.1
  omega

theorem sSlot_ne (b : Bool) : sSlot b ≠ .none := by cases b <;> simp [sSlot]

theorem rSlot_next {f : RForm} {enc reads check lat res} {s : State} (hi : s.mayIssue (some (f.gi, f.gp)) reads)
    (he : ∀ e ∈ enc, e.2 = true) (hc : check s.core = none) :
    s.issueOne (rSlot f enc reads check lat res) =
      s.issued (fun c => c.result (sSlot f.s1) lat (res c).1 (res c).2) := by
  refine (SlotSem.issueOne_next (sSlot_ne f.s1) rfl hi rfl rfl (lowestBit_none ?_) hc ?_ rfl rfl).trans
    (by cases h : f.s1 <;> simp [State.issued, rSlot, plainSlot, onCore, sSlot, h])
  · intro e h
    simp only [rSlot, List.mem_map] at h
    obtain ⟨a, ha, rfl⟩ := h
    exact he a ha
  · simp only [rSlot, onCore_core]; exact hi.2.2.2.result_room _ _ _ _

theorem iSlot_next {f : IForm} {enc reads check lat res} {s : State} (hi : s.mayIssue (some (f.gi, f.gp)) reads)
    (he : ∀ e ∈ enc, e.2 = true) (hc : check s.core = none) :
    s.issueOne (iSlot f enc reads check lat res) =
      s.issued (fun c => c.result (sSlot f.s1) lat (res c).1 (res c).2) := by
  refine (SlotSem.issueOne_next (sSlot_ne f.s1) rfl hi rfl rfl (lowestBit_none ?_) hc ?_ rfl rfl).trans
    (by cases h : f.s1 <;> simp [State.issued, iSlot, plainSlot, onCore, sSlot, h])
  · intro e h
    simp only [iSlot, List.mem_map] at h
    obtain ⟨a, ha, rfl⟩ := h
    exact he a ha
  · simp only [iSlot, onCore_core]; exact hi.2.2.2.result_room _ _ _ _

theorem lSlot_next {f : LForm} {enc reads lat res} {s : State} (hi : s.mayIssue (some (f.gi, f.gp)) reads)
    (he : ∀ e ∈ enc, e.2 = true) :
    s.issueOne (lSlot f enc reads lat res) = s.issued (fun c => c.result (sSlot f.s1) lat (res c).1 (res c).2) := by
  refine (SlotSem.issueOne_next (sSlot_ne f.s1) rfl hi rfl rfl (lowestBit_none ?_) rfl ?_ rfl rfl).trans
    (by cases h : f.s1 <;> simp [State.issued, lSlot, plainSlot, onCore, sSlot, h])
  · intro e h
    simp only [lSlot, List.mem_map] at h
    obtain ⟨a, ha, rfl⟩ := h
    exact he a ha
  · simp only [lSlot, onCore_core]; exact hi.2.2.2.result_room _ _ _ _

theorem vSlot_next {f : VForm} {enc reads check lat res} {s : State} (hi : s.mayIssue none reads)
    (he : ∀ e ∈ enc, e.2 = true) (hc : check s.core = none) :
    s.issueOne (vSlot f enc reads check lat res) = s.issued (fun c => c.result .v lat (res c).1 (res c).2) := by
  refine (SlotSem.issueOne_next (by simp [vSlot, plainSlot]) rfl hi rfl rfl (lowestBit_none he) hc ?_ rfl rfl).trans
    (by simp [State.issued, vSlot, plainSlot, onCore])
  simp only [vSlot, onCore_core]; exact hi.2.2.2.result_room _ _ _ _

theorem cSlot_next {gi : BitVec 1} {gp : BitVec 3} {enc check eff} {s : State} (hi : s.mayIssue (some (gi, gp)) [])
    (he : ∀ e ∈ enc, e.2 = true) (hc : check s.core = none) (hr : (eff s.core).lockstepCount ≤ 32) :
    s.issueOne (cSlot gi gp enc check eff) = s.issued eff := by
  refine (SlotSem.issueOne_next (by simp [cSlot, plainSlot]) rfl hi rfl rfl (lowestBit_none he) hc ?_ rfl rfl).trans
    (by simp [State.issued, cSlot, plainSlot, onCore])
  simp only [cSlot, onCore_core]; exact hr

theorem zLoad_next {f : ZForm} {enc n w} {s : State} (hi : s.mayIssue none []) (he : ∀ e ∈ enc, e.2 = true)
    (hcls : s.core.classHeld 0 = false) (hc : (zLoad f enc n w).check s = none) (hn : n ≤ 3064)
    (hb : s.core.banksFree (wordsOf (zAddr f s.core).toNat n)) :
    s.issueOne (zLoad f enc n w) = s.issuedAsks (wordsOf (zAddr f s.core).toNat n)
      (fun c => c.result .z 4 (w c (c.spad.readN (zAddr f c).toNat n)) 0) := by
  refine (SlotSem.issueOne_asks (by simp [zLoad, plainSlot]) rfl hi ?_ rfl (lowestBit_none he) hc ?_ (wordsOf_bank hn) hb rfl).trans
    (by simp [State.issuedAsks, zLoad, plainSlot, onCore])
  · simp only [zLoad, classWait]; rw [if_neg (by rw [hcls]; simp)]
  · simp only [zLoad, onCore_core]; exact hi.2.2.2.result_room _ _ _ _

theorem loadSlot_next {g : LGuard} {cls enc reads bad lat touches w} {s : State} (hi : s.mayIssue (some g) reads)
    (he : ∀ e ∈ enc, e.2 = true) (hcls : s.core.classHeld cls = false) (hbad : bad = none)
    (ht : touchCause s.core (touches s.core) = none) (hp : poisonRead s.core .l (touchWords (touches s.core)) = none)
    (hd : ∀ v ∈ touchWords (touches s.core), ∀ w ∈ touchWords (touches s.core), bankOf v = bankOf w → v = w)
    (hb : s.core.banksFree (touchWords (touches s.core))) :
    s.issueOne (loadSlot g cls enc reads bad lat touches w) =
      s.issuedAsks (touchWords (touches s.core)) (fun c => c.result .l lat (w c) 0) := by
  refine (SlotSem.issueOne_asks (by simp [loadSlot, plainSlot]) rfl hi ?_ rfl (lowestBit_none he) ?_ ?_ hd hb rfl).trans
    (by simp [State.issuedAsks, loadSlot, onCore])
  · simp [loadSlot, classWait, hcls]
  · simp [loadSlot, hbad, ht, hp]
  · simp only [loadSlot, onCore_core]; exact hi.2.2.2.result_room _ _ _ _

theorem storeSlot_next {g : LGuard} {cls enc reads bad touches bytes} {s : State} (hi : s.mayIssue (some g) reads)
    (he : ∀ e ∈ enc, e.2 = true) (hcls : s.core.classHeld cls = false) (hbad : bad = none)
    (ht : touchCause s.core (touches s.core) = none)
    (hp : poisonWrite s.core .l (touchWords (touches s.core)) (bytes s.core) = none)
    (hd : ∀ v ∈ touchWords (touches s.core), ∀ w ∈ touchWords (touches s.core), bankOf v = bankOf w → v = w)
    (hb : s.core.banksFree (touchWords (touches s.core))) :
    s.issueOne (storeSlot g cls enc reads bad touches bytes) =
      s.committedAsks (touchWords (touches s.core)) (fun c => c.store (bytes c)) := by
  refine (SlotSem.issueOne_asks (by simp [storeSlot, plainSlot]) rfl hi ?_ rfl (lowestBit_none he) ?_ ?_ hd hb rfl).trans
    (by simp [State.committedAsks, storeSlot, plainSlot, onCore])
  · simp [storeSlot, classWait, hcls]
  · simp [storeSlot, hbad, ht, hp]
  · simp only [storeSlot, onCore_core, Core.store, Core.lockstepCount]
    have := hi.2.2.2.2.2.2.1
    simp only [Core.lockstepCount] at this
    omega

end Sys2Proof.Machine
end

