-- ==== Sys2Proof/Laws/Mem.lean ====
section
/-! SUPPORT. Byte memory: every operation keeps the canonical form, and a read after a write. -/

namespace Sys2Proof.Machine

theorem Mem.wfFrom_mono {m : Mem} : ∀ {lo hi : Nat}, lo ≤ hi → Mem.wfFrom hi m = true → Mem.wfFrom lo m = true := by
  cases m with
  | nil => intros; rfl
  | cons e r =>
    intro lo hi h w
    simp only [Mem.wfFrom, Bool.and_eq_true, decide_eq_true_eq] at w ⊢
    exact ⟨⟨Nat.le_trans h w.1.1, w.1.2⟩, w.2⟩

/-- A read below every listed address answers 0. -/
theorem Mem.read_below {m : Mem} : ∀ {lo a : Nat}, a < lo → Mem.wfFrom lo m = true → m.read a = 0 := by
  cases m with
  | nil => intros; rfl
  | cons e r =>
    intro lo a h w
    simp only [Mem.wfFrom, Bool.and_eq_true, decide_eq_true_eq] at w
    have h2 : a < e.1 := by omega
    simp [Mem.read, h2, Nat.ne_of_lt h2]

theorem Mem.wfFrom_write {m : Mem} : ∀ {lo a : Nat} (b : BitVec 8), lo ≤ a → Mem.wfFrom lo m = true →
    Mem.wfFrom lo (m.write a b) = true := by
  induction m with
  | nil =>
    intro lo a b h _
    simp only [Mem.write]
    split
    · rfl
    · rename_i hb
      simp only [Mem.wfFrom, Bool.and_eq_true, decide_eq_true_eq]
      exact ⟨⟨h, by simpa using hb⟩, trivial⟩
  | cons e r ih =>
    intro lo a b h w
    obtain ⟨k, c⟩ := e
    simp only [Mem.wfFrom, Bool.and_eq_true, decide_eq_true_eq] at w
    simp only [Mem.write]
    split
    · split
      · simp only [Mem.wfFrom, Bool.and_eq_true, decide_eq_true_eq]
        exact ⟨⟨by omega, w.1.2⟩, w.2⟩
      · rename_i h1 hb
        simp only [Mem.wfFrom, Bool.and_eq_true, decide_eq_true_eq]
        exact ⟨⟨h, by simpa using hb⟩, ⟨by omega, w.1.2⟩, w.2⟩
    · split
      · split
        · exact Mem.wfFrom_mono (by omega) w.2
        · rename_i h1 h2 hb
          subst h2
          simp only [Mem.wfFrom, Bool.and_eq_true, decide_eq_true_eq]
          exact ⟨⟨h, by simpa using hb⟩, w.2⟩
      · rename_i h1 h2
        simp only [Mem.wfFrom, Bool.and_eq_true, decide_eq_true_eq]
        exact ⟨w.1, ih b (by omega) w.2⟩

/-- Writing a byte keeps the canonical form. -/
theorem Mem.wf_write {m : Mem} (a : Nat) (b : BitVec 8) (h : m.wf = true) : (m.write a b).wf = true :=
  Mem.wfFrom_write b (Nat.zero_le a) h

theorem Mem.read_writeFrom {m : Mem} : ∀ {lo a : Nat} (b : BitVec 8) (x : Nat), Mem.wfFrom lo m = true →
    (m.write a b).read x = if x = a then b else m.read x := by
  induction m with
  | nil =>
    intro lo a b x _
    simp only [Mem.write]
    split
    · rename_i hb
      subst hb
      simp [Mem.read]
    · simp [Mem.read]
  | cons e r ih =>
    intro lo a b x w
    obtain ⟨k, c⟩ := e
    simp only [Mem.wfFrom, Bool.and_eq_true, decide_eq_true_eq] at w
    have hi := ih (lo := k + 1) (a := a) b x w.2
    have hr := @Mem.read_below r (k + 1)
    have wr := w.2
    by_cases hb : b = 0
    · subst hb
      simp only [Mem.write, Mem.read] at hi ⊢
      split
      · simp only [if_true, Mem.read]
        split_ifs <;> first | rfl | omega
      · split
        · rename_i h1 h2
          subst h2
          simp only [if_true]
          by_cases hx : x = a
          · subst hx; simp [hr (Nat.lt_succ_self x) wr]
          · simp only [if_neg hx]
            split
            · rename_i h3; exact hr (by omega) wr
            · rfl
        · simp only [Mem.read, hi]
          split_ifs <;> first | rfl | omega
    · simp only [Mem.write, if_neg hb]
      split
      · simp only [Mem.read]; split_ifs <;> first | rfl | omega
      · split
        · rename_i h1 h2
          subst h2
          simp only [Mem.read]; split_ifs <;> rfl
        · simp only [Mem.read, hi]; split_ifs <;> first | rfl | omega

/-- A read after a write: the byte written at its address, the old byte everywhere else. -/
theorem Mem.read_write {m : Mem} (a : Nat) (b : BitVec 8) (x : Nat) (h : m.wf = true) :
    (m.write a b).read x = if x = a then b else m.read x :=
  Mem.read_writeFrom b x h

theorem Mem.wf_writeN (n : Nat) : ∀ {m : Mem} (a x : Nat), m.wf = true → (m.writeN a n x).wf = true := by
  induction n with
  | zero => intro m a x h; exact h
  | succ n ih => intro m a x h; exact ih _ _ (Mem.wf_write _ _ h)

theorem Mem.wf_putBytes (bs : List (BitVec 8)) : ∀ {m : Mem} (a : Nat), m.wf = true → (m.putBytes a bs).wf = true := by
  induction bs with
  | nil => intro m a h; exact h
  | cons b r ih => intro m a h; exact ih _ (Mem.wf_write _ _ h)

theorem Mem.wf_fold (bs : List (Nat × BitVec 8)) : ∀ {m : Mem}, m.wf = true →
    (bs.foldl (fun m p => m.write p.1 p.2) m).wf = true := by
  induction bs with
  | nil => intro m h; exact h
  | cons b r ih => intro m h; exact ih (Mem.wf_write _ _ h)

theorem Mem.wf_nil : Mem.wf ([] : Mem) = true := rfl

/-- A byte at an address that a list of byte writes does not name reads as before. -/
theorem Mem.read_fold (bs : List (Nat × BitVec 8)) : ∀ {m : Mem} (x : Nat), m.wf = true → (∀ p ∈ bs, p.1 ≠ x) →
    (bs.foldl (fun m p => m.write p.1 p.2) m).read x = m.read x := by
  induction bs with
  | nil => intro m x _ _; rfl
  | cons b r ih =>
    intro m x h hb
    have h1 : x ≠ b.1 := fun e => hb b (by simp) e.symm
    simp only [List.foldl_cons]
    rw [ih x (Mem.wf_write _ _ h) (fun p hp => hb p (by simp [hp])), Mem.read_write _ _ _ h, if_neg h1]

/-- A strand's store keeps its scratchpad's canonical form. -/
theorem Core.store_wf {c : Core} (bs : ByteWrites) (h : c.spad.wf = true) : (c.store bs).spad.wf = true :=
  Mem.wf_fold bs h

/-- Reset memories are canonical. -/
theorem State.reset_mems : State.reset.drawer.wf = true ∧ State.reset.flash.wf = true ∧
    State.reset.cores.all (fun e => e.2.spad.wf) = true := by decide

end Sys2Proof.Machine
end

