-- ==== Sys2Proof/Tests/Slice0.lean ====
section
/-! SUPPORT. The model's own tests: decoding of words written out from the spec, refusals of ill-formed instructions, single
steps with results computed by hand from the spec, and for each statement with hypotheses states that meet them. -/

namespace Sys2Proof.Tests

open Sys2Proof Sys2Proof.Machine Sys2Proof.Claims

set_option Elab.async false
set_option linter.unusedSimpArgs false
set_option linter.unreachableTactic false
set_option linter.unusedTactic false

/-! ### Forms and states to build from -/

/-- Form R with every field zero. -/
def fr : RForm := { s1 := false, gi := 0, gp := 0, d := 0, a := 0, b := 0, c := 0, x := 0 }

/-- Form I with every field zero. -/
def fi : IForm := { s1 := false, gi := 0, gp := 0, d := 0, a := 0, b := 0, imm := 0 }

/-- Form L with every field zero. -/
def fl : LForm := { s1 := false, gi := 0, gp := 0, d := 0, imm := 0 }

/-- The V slot with every field zero. -/
def fv : VForm := { mg := 0, fmt := 0, rnd := 0, sat := 0, lw := 0, vd := 0, va := 0, vb := 0, vc := 0, sb := 0, fn := 0 }

/-- Form AT with every field zero. -/
def fat : AtForm := { gi := 0, gp := 0, cls := 0, d := 0, a := 0, b := 0, c := 0, w := 0, pd := 0, z := 0 }

/-- The K slot with every field zero. -/
def fk : KForm := { aws := 0, ring := 0, swz := 0, ops := 0 }

/-- The N slot with every field zero. -/
def fn : NForm := { ch := 0, aws := 0, pm := 0, ops := 0 }

/-- Bare C instruction without guard. -/
def fb : BareForm := { gi := 0, gp := 0, z := 0 }

/-- Tile 0 with a running strand, changed by `g`; the rest of the machine as reset leaves it, in cycle 1,000. -/
def rig (g : Core → Core) : State :=
  { State.reset with cycle := 1000, cur := 0, cores := [(0, g { Core.fresh 0 with strand := .running })] }

/-- Scalar register `r` holds `x`. -/
def withS (r : Fin 64) (x : Word) (c : Core) : Core := { c with sregs := c.sregs.set r x }

/-- Vector register `r` holds `x`. -/
def withV (r : Fin 32) (x : Vec) (c : Core) : Core := { c with vregs := c.vregs.set r x }

/-- Staging register `r` holds `x`. -/
def withStg (r : Fin 48) (x : Word) (c : Core) : Core := { c with stg := c.stg.set r x }

/-- Bytes `bs` stand from `a` on in the scratchpad. -/
def withPad (a : Nat) (bs : List (BitVec 8)) (c : Core) : Core := { c with spad := c.spad.putBytes a bs }

/-- The core after a step that goes on, and what it answers of it. -/
def after {α : Type} (o : Host.Outcome State Fault Refusal) (d : α) (g : State → α) : α :=
  match o with
  | .next t => g t
  | .fault _ => d
  | .refused _ => d

/-! ### Decoding: words laid out as the spec's encoding tables lay them out -/

/-- R66, R71, R88, R89: form R in S0, GI = 1, GP = 5, D = 1, A = 2, B = 3, C = 4, X = 0x567. -/
theorem test_decode_S_form_R :
    ∀ e ∈ [(0x01, Instr.add), (0x02, .sub), (0x03, .mul), (0x04, .mulh), (0x05, .mulhn), (0x06, .div), (0x07, .divn),
      (0x08, .rem), (0x09, .remn), (0x0A, .and), (0x0B, .or), (0x0C, .xor), (0x0D, .andn), (0x0E, .shl),
      (0x0F, .shr), (0x10, .sra), (0x11, .rol), (0x12, .min), (0x13, .max), (0x14, .minn), (0x15, .maxn),
      (0x16, .clz), (0x17, .ctz), (0x18, .popc), (0x19, .exts), (0x1A, .extz), (0x1B, .ins), (0x1C, .sel),
      (0x1D, .lea), (0x1E, .bswap), (0x30, .cmp), (0x32, .pand), (0x33, .por), (0x34, .pxor), (0x35, .pmov),
      (0x36, .ptos), (0x40, .fadd), (0x41, .fsub), (0x42, .fmul), (0x43, .ffma), (0x44, .fmin), (0x45, .fmax),
      (0x46, .fdiv), (0x47, .fsqrt), (0x48, .fcmp), (0x49, .fclass), (0x4A, .fcvt), (0x4B, .fcvti), (0x4C, .icvtf),
      (0x4D, .fsgn), (0x50, .prep)],
      decodeTableWord 384 ((e.1 * 2 ^ 40 + 2 ^ 39 + 5 * 2 ^ 36 + 1 * 2 ^ 30 + 2 * 2 ^ 24 + 3 * 2 ^ 18 + 4 * 2 ^ 12 + 0x567) * 2 ^ 320) =
        some (e.2 { s1 := false, gi := 1, gp := 5, d := 1, a := 2, b := 3, c := 4, x := 0x567 }) := by
  decide +kernel

/-- R66, R71, R88, R89: form I in S1, GI = 0, GP = 6, D = 1, A = 2, B = 3, IMM18 = 0x20005. -/
theorem test_decode_S_form_I :
    ∀ e ∈ [(0x20, Instr.addi), (0x21, .andi), (0x22, .ori), (0x23, .xori), (0x24, .shli), (0x25, .shri), (0x26, .srai),
      (0x27, .muli), (0x28, .mini), (0x29, .maxi), (0x31, .cmpi), (0x37, .pset), (0x38, .ptst), (0x52, .get),
      (0x53, .set), (0x54, .setfmt), (0x55, .getfmt), (0x56, .stg), (0x57, .gtg), (0x58, .lcset), (0x59, .lcget),
      (0x5A, .rasrd), (0x5B, .raswr), (0x60, .gets), (0x61, .sets)],
      decodeTableWord 384 ((e.1 * 2 ^ 40 + 6 * 2 ^ 36 + 1 * 2 ^ 30 + 2 * 2 ^ 24 + 3 * 2 ^ 18 + 0x20005) * 2 ^ 272) =
        some (e.2 { s1 := true, gi := 0, gp := 6, d := 1, a := 2, b := 3, imm := 0x20005 }) := by
  decide +kernel

/-- R66, R71, R88, R89: form L in S1, GI = 1, GP = 3, D = 63, IMM30 = 0x12345678. -/
theorem test_decode_S_form_L :
    ∀ e ∈ [(0x2A, Instr.movi), (0x2B, .moviz), (0x2C, .movm), (0x2D, .movt), (0x2E, .addpc), (0x51, .prepr)],
      decodeTableWord 384 ((e.1 * 2 ^ 40 + 2 ^ 39 + 3 * 2 ^ 36 + 63 * 2 ^ 30 + 0x12345678) * 2 ^ 272) =
        some (e.2 { s1 := true, gi := 1, gp := 3, d := 63, imm := 0x12345678 }) := by
  decide +kernel

/-- R67, R71, R93, R119: GI = 1, GP = 2, target register 5. -/
theorem test_decode_C_transfers :
    ∀ e ∈ [(0x01, Instr.br), (0x02, .call)],
      decodeTableWord 384 ((e.1 * 2 ^ 26 + 2 ^ 25 + 2 * 2 ^ 22 + 5 * 2 ^ 19) * 2 ^ 240) =
        some (e.2 { gi := 1, gp := 2, t := 5, z := 0 }) := by
  decide +kernel

/-- R67, R71, R93, R119: the C instructions without operands, GI = 0, GP = 7. -/
theorem test_decode_C_bare :
    ∀ e ∈ [(0x03, Instr.ret), (0x07, .done), (0x09, .eret), (0x0A, .idle), (0x0B, .swap), (0x0D, .halt)],
      decodeTableWord 384 ((e.1 * 2 ^ 26 + 7 * 2 ^ 22) * 2 ^ 240) =
        some (e.2 { gi := 0, gp := 7, z := 0 }) := by
  decide +kernel

/-- R67, R71, R93, R119: the immediate of `trap` and `brk`. -/
theorem test_decode_C_imm :
    ∀ e ∈ [(0x08, Instr.trap), (0x0C, .brk)],
      decodeTableWord 384 ((e.1 * 2 ^ 26 + 1 * 2 ^ 22 + 0xBEEF) * 2 ^ 240) =
        some (e.2 { gi := 0, gp := 1, z := 0, imm := 0xBEEF }) := by
  decide +kernel

/-- R67, R71, R93, R119: `loop lc2, t3`, `wait 1, 2, 3, 4, 5`, `sync bl1, p2, p3` and `qfence mn`, guard p4. -/
theorem test_decode_C_others :
    decodeTableWord 384 ((0x04 * 2 ^ 26 + 4 * 2 ^ 22 + 3 * 2 ^ 19 + 2 * 2 ^ 17) * 2 ^ 240) =
        some (.loop { gi := 0, gp := 4, t := 3, lc := 2, z := 0 }) ∧
      decodeTableWord 384 ((0x05 * 2 ^ 26 + 4 * 2 ^ 22 + 1 * 2 ^ 16 + 2 * 2 ^ 12 + 3 * 2 ^ 8 + 4 * 2 ^ 4 + 5) * 2 ^ 240) =
        some (.wait { gi := 0, gp := 4, z := 0, l := 1, s := 2, k := 3, m := 4, n := 5 }) ∧
      decodeTableWord 384 ((0x06 * 2 ^ 26 + 4 * 2 ^ 22 + 1 * 2 ^ 20 + 2 * 2 ^ 17 + 3 * 2 ^ 14) * 2 ^ 240) =
        some (.sync { gi := 0, gp := 4, bl := 1, pv := 2, pr := 3, z := 0 }) ∧
      decodeTableWord 384 ((0x0E * 2 ^ 26 + 4 * 2 ^ 22 + 2 ^ 3 + 2 ^ 1) * 2 ^ 240) =
        some (.qfence { gi := 0, gp := 4, z := 0, mask := 0b1010 }) := by
  decide +kernel

/-- R68, R71, R94: MG = 1, FMT = 2, RND = 3, SAT = 1, LW = 2, VD = 4, VA = 5, VB = 6, VC = 7, SB = 0, FN = 0x12344. -/
theorem test_decode_V :
    ∀ e ∈ [(0x01, Instr.vadd), (0x02, .vsub), (0x03, .vmul), (0x04, .vmulh), (0x05, .vmulhn), (0x06, .vmin),
      (0x07, .vmax), (0x08, .vminn), (0x09, .vmaxn), (0x0A, .vand), (0x0B, .vor), (0x0C, .vxor), (0x0D, .vandn),
      (0x0E, .vshl), (0x0F, .vshr), (0x10, .vsra), (0x11, .vabs), (0x12, .vneg), (0x13, .vclz), (0x14, .vpopc),
      (0x15, .vadds), (0x16, .vaddsn), (0x17, .vsubs), (0x18, .vsubsn), (0x19, .vsel), (0x1A, .vcmp),
      (0x20, .vfadd), (0x21, .vfsub), (0x22, .vfmul), (0x23, .vfma), (0x24, .vfmin), (0x25, .vfmax),
      (0x26, .vfdiv), (0x27, .vfsqrt), (0x28, .vfexp2), (0x29, .vflog2), (0x2A, .vfrcp), (0x2B, .vfrsq),
      (0x2C, .vfabs), (0x2D, .vfneg), (0x2E, .vfcmp), (0x2F, .vfclass), (0x30, .vcvt), (0x31, .vqnt),
      (0x32, .vdqnt), (0x33, .vfredadd), (0x34, .vfredmax), (0x35, .vredadd), (0x36, .vredmax), (0x40, .vmov),
      (0x41, .vsplat), (0x42, .vsplati), (0x43, .vextr), (0x44, .vinsr), (0x45, .vperm), (0x46, .vshuf),
      (0x47, .vslide), (0x48, .vacc), (0x49, .vaccw), (0x4A, .vsin), (0x4B, .vsout), (0x4C, .viota), (0x50, .mand),
      (0x51, .mor), (0x52, .mxor), (0x53, .mnot), (0x54, .mset), (0x55, .mget), (0x56, .vany), (0x57, .vall),
      (0x58, .mpopc)],
      decodeTableWord 384 ((e.1 * 2 ^ 56 + 1 * 2 ^ 52 + 2 * 2 ^ 48 + 3 * 2 ^ 45 + 2 ^ 44 + 2 * 2 ^ 42 + 4 * 2 ^ 37 + 5 * 2 ^ 32 + 6 * 2 ^ 27 + 7 * 2 ^ 22 + 0x12344) * 2 ^ 176) =
        some (e.2 { mg := 1, fmt := 2, rnd := 3, sat := 1, lw := 2, vd := 4, va := 5, vb := 6, vc := 7, sb := 0, fn := 0x12344 }) := by
  decide +kernel

/-- R138: 0x45 with T2 = 1 is `vperm2`; SB = 1 with scalar s5 in [20:15] (R68). -/
theorem test_decode_vperm2 :
    decodeTableWord 384 ((0x45 * 2 ^ 56 + 2 * 2 ^ 42 + 4 * 2 ^ 37 + 5 * 2 ^ 32 + 7 * 2 ^ 22 + 2 ^ 21 + 5 * 2 ^ 15 + 1) * 2 ^ 176) =
      some (.vperm2 { mg := 0, fmt := 0, rnd := 0, sat := 0, lw := 2, vd := 4, va := 5, vb := 0, vc := 7, sb := 1, fn := 0x28001 }) := by
  decide +kernel

/-- R69, R71, R97, R153: GI = 1, GP = 3, CLS = 9, D = 10, A = 11, T = 6, DISP = 0x8001. -/
theorem test_decode_L_form_LS :
    ∀ e ∈ [(0x01, Instr.lds), (0x02, .sts)],
      decodeTableWord 384 ((e.1 * 2 ^ 40 + 2 ^ 39 + 3 * 2 ^ 36 + 9 * 2 ^ 32 + 10 * 2 ^ 26 + 11 * 2 ^ 20 + 6 * 2 ^ 16 + 0x8001) * 2 ^ 128) =
        some (e.2 { gi := 1, gp := 3, cls := 9, d := 10, a := 11, t := 6, disp := 0x8001 }) := by
  decide +kernel

/-- R69, R71, R97, R154: V = 17, A = 33, DISP = 0x7FFF. -/
theorem test_decode_L_form_LV :
    ∀ e ∈ [(0x03, Instr.ldv), (0x04, .stv)],
      decodeTableWord 384 ((e.1 * 2 ^ 40 + 2 ^ 39 + 3 * 2 ^ 36 + 9 * 2 ^ 32 + 17 * 2 ^ 27 + 33 * 2 ^ 21 + 0x7FFF) * 2 ^ 128) =
        some (e.2 { gi := 1, gp := 3, cls := 9, v := 17, a := 33, z := 0, disp := 0x7FFF }) := by
  decide +kernel

/-- R69, R71, R97, R155: V = 17, A = 33, S = 34, LW = 2, DISP = 0x1ABC. -/
theorem test_decode_L_form_LVS :
    ∀ e ∈ [(0x05, Instr.ldvs), (0x06, .stvs)],
      decodeTableWord 384 ((e.1 * 2 ^ 40 + 2 ^ 39 + 3 * 2 ^ 36 + 9 * 2 ^ 32 + 17 * 2 ^ 27 + 33 * 2 ^ 21 + 34 * 2 ^ 15 + 2 * 2 ^ 13 + 0x1ABC) * 2 ^ 128) =
        some (e.2 { gi := 1, gp := 3, cls := 9, v := 17, a := 33, s := 34, lw := 2, disp := 0x1ABC }) := by
  decide +kernel

/-- R69, R71, R97, R156: V = 17, A = 33, VI = 18, LW = 1, SC = 3, M = 5. -/
theorem test_decode_L_form_LVG :
    ∀ e ∈ [(0x07, Instr.ldvg), (0x08, .stvg)],
      decodeTableWord 384 ((e.1 * 2 ^ 40 + 2 ^ 39 + 3 * 2 ^ 36 + 9 * 2 ^ 32 + 17 * 2 ^ 27 + 33 * 2 ^ 21 + 18 * 2 ^ 16 + 1 * 2 ^ 14 + 3 * 2 ^ 12 + 5 * 2 ^ 8) * 2 ^ 128) =
        some (e.2 { gi := 1, gp := 3, cls := 9, v := 17, a := 33, vi := 18, lw := 1, sc := 3, m := 5, z := 0 }) := by
  decide +kernel

/-- R69, R71, R97, R158: first scalar 10, A = 11, second scalar 12, DISP = 0x2010. -/
theorem test_decode_L_form_AW :
    ∀ e ∈ [(0x0A, Instr.setaw), (0x0B, .waita)],
      decodeTableWord 384 ((e.1 * 2 ^ 40 + 2 ^ 39 + 3 * 2 ^ 36 + 9 * 2 ^ 32 + 10 * 2 ^ 26 + 11 * 2 ^ 20 + 12 * 2 ^ 14 + 0x2010) * 2 ^ 128) =
        some (e.2 { gi := 1, gp := 3, cls := 9, r1 := 10, a := 11, r2 := 12, disp := 0x2010 }) := by
  decide +kernel

/-- R69, R71, R97, R161: D = 10, OFF = 511. -/
theorem test_decode_L_spill :
    ∀ e ∈ [(0x10, Instr.spl), (0x11, .fil)],
      decodeTableWord 384 ((e.1 * 2 ^ 40 + 2 ^ 39 + 3 * 2 ^ 36 + 9 * 2 ^ 32 + 10 * 2 ^ 26 + 511) * 2 ^ 128) =
        some (e.2 { gi := 1, gp := 3, cls := 9, d := 10, z := 0, off := 511 }) := by
  decide +kernel

/-- R69, R71, R97, R161: V = 17, OFF = 496. -/
theorem test_decode_L_spill_vector :
    ∀ e ∈ [(0x12, Instr.splv), (0x13, .filv)],
      decodeTableWord 384 ((e.1 * 2 ^ 40 + 2 ^ 39 + 3 * 2 ^ 36 + 9 * 2 ^ 32 + 17 * 2 ^ 27 + 496) * 2 ^ 128) =
        some (e.2 { gi := 1, gp := 3, cls := 9, v := 17, z := 0, off := 496 }) := by
  decide +kernel

/-- R69, R71, R97, R165: D = 10, H = 7, I = 12, T = 3, DISP = 0xABC. -/
theorem test_decode_L_drawer_scalar :
    ∀ e ∈ [(0x23, Instr.ldh), (0x24, .sth)],
      decodeTableWord 384 ((e.1 * 2 ^ 40 + 2 ^ 39 + 3 * 2 ^ 36 + 9 * 2 ^ 32 + 10 * 2 ^ 26 + 7 * 2 ^ 22 + 12 * 2 ^ 16 + 3 * 2 ^ 12 + 0xABC) * 2 ^ 128) =
        some (e.2 { gi := 1, gp := 3, cls := 9, d := 10, h := 7, i := 12, t := 3, disp := 0xABC }) := by
  decide +kernel

/-- R69, R71, R97, R165: V = 17, H = 7, I = 12, DISP = 0xABC. -/
theorem test_decode_L_drawer_vector :
    ∀ e ∈ [(0x25, Instr.ldvh), (0x26, .stvh)],
      decodeTableWord 384 ((e.1 * 2 ^ 40 + 2 ^ 39 + 3 * 2 ^ 36 + 9 * 2 ^ 32 + 17 * 2 ^ 27 + 7 * 2 ^ 23 + 12 * 2 ^ 17 + 0xABC) * 2 ^ 128) =
        some (e.2 { gi := 1, gp := 3, cls := 9, v := 17, h := 7, i := 12, z := 0, disp := 0xABC }) := by
  decide +kernel

/-- R69, R71, R97, R168: D = 10, A = 11, B = 12, C = 13, W = 1, PD = 6. -/
theorem test_decode_L_atomics :
    ∀ e ∈ [(0x30, Instr.aadd), (0x31, .amin), (0x32, .amax), (0x33, .aminn), (0x34, .amaxn), (0x35, .aand),
      (0x36, .aor), (0x37, .axor), (0x38, .aswp), (0x39, .acas), (0x3A, .aincb), (0x3B, .aincw), (0x3C, .adecp),
      (0x3D, .afal), (0x3E, .afadd)],
      decodeTableWord 384 ((e.1 * 2 ^ 40 + 2 ^ 39 + 3 * 2 ^ 36 + 9 * 2 ^ 32 + 10 * 2 ^ 26 + 11 * 2 ^ 20 + 12 * 2 ^ 14 + 13 * 2 ^ 8 + 1 * 2 ^ 6 + 6 * 2 ^ 3) * 2 ^ 128) =
        some (e.2 { gi := 1, gp := 3, cls := 9, d := 10, a := 11, b := 12, c := 13, w := 1, pd := 6, z := 0 }) := by
  decide +kernel

/-- R69, R71, R97, R98, R157, R163: `stvm`, the handle instructions and the fences. -/
theorem test_decode_L_others :
    decodeTableWord 384 ((0x09 * 2 ^ 40 + 9 * 2 ^ 32 + 17 * 2 ^ 27 + 33 * 2 ^ 21 + 5 * 2 ^ 17 + 3 * 2 ^ 15 + 0x4008) * 2 ^ 128) =
        some (.stvm { gi := 0, gp := 0, cls := 9, v := 17, a := 33, m := 5, lw := 3, disp := 0x4008 }) ∧
      decodeTableWord 384 ((0x20 * 2 ^ 40 + 2 ^ 39 + 7 * 2 ^ 28 + 11 * 2 ^ 20) * 2 ^ 128) =
        some (.xlate { gi := 1, gp := 0, cls := 0, h := 7, z1 := 0, a := 11, z2 := 0 }) ∧
      decodeTableWord 384 ((0x21 * 2 ^ 40 + 2 * 2 ^ 36 + 15 * 2 ^ 28) * 2 ^ 128) =
        some (.hinv { gi := 0, gp := 2, cls := 0, h := 15, z := 0 }) ∧
      decodeTableWord 384 ((0x22 * 2 ^ 40 + 10 * 2 ^ 26 + 7 * 2 ^ 22 + 2) * 2 ^ 128) =
        some (.hget { gi := 0, gp := 0, cls := 0, d := 10, h := 7, z := 0, sel := 2 }) ∧
      decodeTableWord 384 ((0x40 * 2 ^ 40 + 0x8421) * 2 ^ 128) =
        some (.fence { gi := 0, gp := 0, cls := 0, z := 0, mask := 0x8421 }) ∧
      decodeTableWord 384 ((0x41 * 2 ^ 40 + 4) * 2 ^ 128) =
        some (.fenceSc { gi := 0, gp := 0, cls := 0, z := 0, scope := 4 }) := by
  decide +kernel

/-- R70, R71, R99: D = 5, OFF = 0x4321. -/
theorem test_decode_Z :
    ∀ e ∈ [(0x01, Instr.zld), (0x02, .zldh), (0x03, .zldb), (0x04, .kld), (0x05, .zfromv)],
      decodeTableWord 384 ((e.1 * 2 ^ 19 + 5 * 2 ^ 15 + 0x4321) * 2 ^ 104) =
        some (e.2 { d := 5, off := 0x4321 }) := by
  decide +kernel

/-- R70, R71, R99: command fields 0x5234567. -/
theorem test_decode_M :
    ∀ e ∈ [(0x01, Instr.mma), (0x02, .mepi), (0x03, .msend), (0x04, .mred), (0x05, .mclr), (0x06, .mstat)],
      decodeTableWord 384 ((e.1 * 2 ^ 27 + 0x5234567) * 2 ^ 72) =
        some (e.2 { ops := 0x5234567 }) := by
  decide +kernel

/-- R70, R71, R99: AWS = 5, RING = 6, SWZ = 3, command fields 0x10001. -/
theorem test_decode_K :
    ∀ e ∈ [(0x01, Instr.kcpy), (0x02, .kput), (0x03, .kfill), (0x04, .kdec), (0x05, .kzero), (0x06, .kloc)],
      decodeTableWord 384 ((e.1 * 2 ^ 27 + 5 * 2 ^ 24 + 6 * 2 ^ 21 + 3 * 2 ^ 17 + 0x10001) * 2 ^ 40) =
        some (e.2 { aws := 5, ring := 6, swz := 3, ops := 0x10001 }) := by
  decide +kernel

/-- R70, R71, R99: CH = 1,000, AWS = 5, PM = 1, command fields 0x801. -/
theorem test_decode_N :
    ∀ e ∈ [(0x01, Instr.nsend), (0x02, .nsendt), (0x03, .npost), (0x04, .npush), (0x05, .npop), (0x06, .nrot),
      (0x07, .ngsend), (0x08, .nclose), (0x09, .ndisarm)],
      decodeTableWord 384 ((e.1 * 2 ^ 27 + 1000 * 2 ^ 17 + 5 * 2 ^ 14 + 1 * 2 ^ 12 + 0x801) * 2 ^ 8) =
        some (e.2 { ch := 1000, aws := 5, pm := 1, ops := 0x801 }) := by
  decide +kernel

/-- R62, R87: a reserved opcode, and a zero opcode with other bits set, are refused; the empty bundle and a bundle of two
instructions are read as a bundle that issues. -/
theorem test_decode_refusals :
    decodeTableWord 384 (0x1F * 2 ^ 40 * 2 ^ 320) = none ∧ decodeTableWord 384 (0x0F * 2 ^ 26 * 2 ^ 240) = none ∧
      decodeTableWord 384 (0x60 * 2 ^ 56 * 2 ^ 176) = none ∧ decodeTableWord 384 (0x60000000 * 2 ^ 8) = none ∧
      decodeTableWord 384 (1 * 2 ^ 320) = none ∧ decodeTableWord 384 0 = some (.bundleIssue 0) ∧
      decodeTableWord 384 (0x2A01400003E8 * 2 ^ 320 + 0x04400000 * 2 ^ 240) = some (.bundleIssue 0) := by
  decide +kernel
/-! ### Well-formedness: an ill-formed term for each check -/

/-- R62, R66, R90 to R92, R101: S instructions. -/
theorem test_wf_refuses_S : ∀ i ∈ [Instr.add { fr with c := 1 }, .sub { fr with x := 0x010 }, .mul { fr with x := 8 },
    .clz { fr with b := 1 }, .exts { fr with x := 0x07F }, .extz { fr with b := 1 }, .ins { fr with x := 0xFC1 },
    .ins { fr with c := 1 }, .sel { fr with c := 8 }, .sel { fr with x := 1 }, .lea { fr with x := 8 }, .bswap { fr with x := 15 },
    .addi { fi with b := 1 }, .shli { fi with imm := 64 }, .movt { fl with imm := 16 }, .cmp { fr with x := 10 },
    .cmp { fr with d := 1 }, .cmpi { fi with b := 16 }, .cmpi { fi with b := 10 }, .pand { fr with a := 8 }, .por { fr with x := 4 },
    .pmov { fr with x := 1 }, .ptos { fr with x := 2 }, .pset { fi with imm := 2 }, .ptst { fi with b := 1 },
    .fadd { fr with x := 0x0A0 }, .ffma { fr with x := 1 }, .fmin { fr with x := 0x10 }, .fcmp { fr with x := 4 },
    .fclass { fr with b := 1 }, .fsgn { fr with x := 3 }, .fcvt { fr with c := 16 }, .fcvti { fr with x := 8 },
    .icvtf { fr with x := 0x0A0 }, .prep { fr with d := 8 }, .prepr { fl with d := 8 }, .get { fi with imm := 0x1000 },
    .set { fi with d := 1 }, .gets { fi with a := 1 }, .sets { fi with b := 1 }, .setfmt { fi with imm := 16 },
    .getfmt { fi with a := 1 }, .stg { fi with imm := 48 }, .gtg { fi with imm := 64 }, .lcset { fi with d := 4 },
    .lcget { fi with a := 4 }, .rasrd { fi with imm := 16 }, .raswr { fi with d := 1 }], i.wf = false := by
  decide +kernel

/-- R62, R119: C instructions with a bit set that is required to be zero. -/
theorem test_wf_refuses_C : ∀ i ∈ [Instr.br { gi := 0, gp := 0, t := 0, z := 1 }, .call { gi := 0, gp := 0, t := 0, z := 1 },
    .ret { fb with z := 1 }, .loop { gi := 0, gp := 0, t := 0, lc := 0, z := 1 },
    .wait { gi := 0, gp := 0, z := 1, l := 0, s := 0, k := 0, m := 0, n := 0 },
    .sync { gi := 0, gp := 0, bl := 0, pv := 0, pr := 0, z := 1 }, .done { fb with z := 1 }, .swap { fb with z := 1 },
    .trap { gi := 0, gp := 0, z := 1, imm := 0 }, .brk { gi := 0, gp := 0, z := 1, imm := 0 }, .eret { fb with z := 1 },
    .idle { fb with z := 1 }, .halt { fb with z := 1 }, .qfence { gi := 0, gp := 0, z := 1, mask := 0 }], i.wf = false := by
  decide +kernel

/-- R62, R68, R95, R101, R128 to R145: V instructions. -/
theorem test_wf_refuses_V : ∀ i ∈ [Instr.vadd { fv with fmt := 1 }, .vsub { fv with rnd := 1 }, .vmul { fv with sat := 1 },
    .vand { fv with sb := 1, vb := 1 }, .vor { fv with vc := 1 }, .vxor { fv with fn := 1 }, .vabs { fv with vb := 1 },
    .vsel { fv with vc := 16 }, .vcmp { fv with vd := 16 }, .vcmp { fv with fn := 10 }, .vcmp { fv with fn := 16 },
    .vfadd { fv with rnd := 5 }, .vfma { fv with fn := 1 }, .vfsqrt { fv with sb := 1 }, .vfabs { fv with rnd := 1 },
    .vfcmp { fv with fn := 4 }, .vfclass { fv with sat := 1 }, .vcvt { fv with fn := 0x100 }, .vcvt { fv with fn := 0x10 },
    .vqnt { fv with rnd := 6 }, .vdqnt { fv with vc := 1 }, .vfredadd { fv with fn := 1 }, .vredadd { fv with fn := 2 },
    .vredmax { fv with sat := 1 }, .vmov { fv with vb := 1 }, .vsplat { fv with lw := 3, fn := 16 }, .vsplat { fv with sb := 1, fn := 1 },
    .vsplati { fv with fn := 0x10000 }, .vextr { fv with mg := 1 }, .vextr { fv with lw := 2, fn := 32 }, .vinsr { fv with va := 1 },
    .vperm { fv with vc := 1 }, .vperm2 { fv with fn := 0 }, .vshuf { fv with fn := 5 }, .vshuf { fv with fn := 4, vb := 1 },
    .vslide { fv with lw := 1, fn := 64 }, .viota { fv with va := 1 }, .vacc { fv with fn := 0x40 }, .vaccw { fv with vd := 1 },
    .vsin { fv with fn := 4 }, .vsout { fv with mg := 1 }, .mand { fv with lw := 1 }, .mnot { fv with vb := 1 },
    .mset { fv with vd := 16 }, .mget { fv with va := 16 }, .vany { fv with vd := 8 }, .vall { fv with fn := 1 },
    .mpopc { fv with vd := 1 }], i.wf = false := by
  decide +kernel

/-- R62, R92, R98, R101, R153 to R168: L instructions. -/
theorem test_wf_refuses_L : ∀ i ∈ [Instr.lds { gi := 0, gp := 0, cls := 0, d := 0, a := 0, t := 8, disp := 0 },
    .ldv { gi := 0, gp := 0, cls := 0, v := 0, a := 0, z := 1, disp := 0 },
    .ldvg { gi := 0, gp := 0, cls := 0, v := 0, a := 0, vi := 0, lw := 0, sc := 0, m := 0, z := 1 },
    .waita { gi := 0, gp := 0, cls := 0, r1 := 0, a := 0, r2 := 1, disp := 0 },
    .spl { gi := 0, gp := 0, cls := 1, d := 0, z := 0, off := 0 }, .splv { gi := 0, gp := 0, cls := 0, v := 0, z := 0, off := 497 },
    .xlate { gi := 0, gp := 0, cls := 1, h := 0, z1 := 0, a := 0, z2 := 0 }, .hinv { gi := 0, gp := 0, cls := 0, h := 0, z := 1 },
    .hget { gi := 0, gp := 0, cls := 0, d := 0, h := 0, z := 0, sel := 3 },
    .ldh { gi := 0, gp := 0, cls := 0, d := 0, h := 0, i := 0, t := 9, disp := 0 },
    .ldvh { gi := 0, gp := 0, cls := 0, v := 0, h := 0, i := 0, z := 1, disp := 0 },
    .aadd { fat with w := 2 }, .aadd { fat with pd := 1 }, .acas { fat with z := 1 }, .aincb { fat with b := 1 },
    .afal { fat with c := 1 }, .afadd { fat with w := 1 }, .fence { gi := 0, gp := 0, cls := 1, z := 0, mask := 0 },
    .fenceSc { gi := 0, gp := 0, cls := 0, z := 0, scope := 5 }], i.wf = false := by
  decide +kernel

/-- R62, R70, R99 to R101, R182 to R206: Z, M, K and N instructions. -/
theorem test_wf_refuses_ZMKN : ∀ i ∈ [Instr.kld { d := 8, off := 0 }, .zfromv { d := 0, off := 64 }, .mma { ops := 1 },
    .mma { ops := 0x40 }, .mepi { ops := 0x5000 }, .mepi { ops := 1 }, .msend { ops := 1 }, .mred { ops := 0x1800000 },
    .mclr { ops := 1 }, .mstat { ops := 1 }, .kcpy { fk with ring := 1 }, .kput { fk with ops := 1 }, .kfill { fk with swz := 4 },
    .kfillConfigure { fk with ops := 1 }, .kdec { fk with swz := 1 }, .kzero { fk with ring := 1 }, .kloc { fk with ops := 0x40 },
    .nsend { fn with pm := 1 }, .nsendt { fn with ops := 1 }, .npost { fn with pm := 1 }, .npush { fn with ch := 1 },
    .npop { fn with pm := 2 }, .nrot { fn with ops := 1 }, .ngsend { fn with pm := 1 }, .nclose { fn with aws := 1 },
    .ndisarm { fn with aws := 1 }], i.wf = false := by
  decide +kernel

/-- The forms above with the offending field at zero are well formed. -/
theorem test_wf_accepts : ∀ i ∈ [Instr.add fr, .exts { fr with x := 0x03F }, .cmp { fr with x := 9 }, .fcmp { fr with x := 10 },
    .stg { fi with imm := 47 }, .br { gi := 1, gp := 7, t := 7, z := 0 }, .vadd { fv with sb := 1, fn := 0x1F8000 },
    .vsplat { fv with lw := 3, fn := 15 }, .vperm2 { fv with fn := 1 }, .aadd { fat with w := 1 }, .mma { ops := 0x7FFFF30 },
    .kfill { fk with swz := 3 }, .npop { fn with pm := 1 }, .bundleIssue 0], i.wf = true := by
  decide +kernel

/-! ### States that meet the hypotheses of the statements: S and C slots -/

/-- IntegerResults: every row may issue, with sources s1 and s2 and destination s63. -/
theorem test_meets_IntegerResults :
    (∀ e ∈ typedRows, goR e.1 { fr with gp := 0, d := 63, a := 1, b := 2, x := 7 } (rig (withS 1 5)) [.s 1, .s 2]) ∧
      (∀ e ∈ shiftRows, goR e.1 { fr with s1 := true, d := 3, a := 1, b := 2, x := 0 } (rig (withS 2 64)) [.s 1, .s 2]) ∧
      (∀ e ∈ typed1Rows, goR e.1 { fr with d := 3, a := 1, x := 6 } (rig id) [.s 1]) := by
  and_intros <;> first | decide +kernel | (simp only [goR, State.mayIssue, State.unheld, zeros]; decide +kernel)

/-- BitFieldSelectAndImmediateResults: fields at the edge of the word, immediates of either sign. -/
theorem test_meets_BitFieldSelectAndImmediateResults :
    goR .exts { fr with d := 3, a := 1, x := 0xFC0 } (rig id) [.s 1] ∧ goR .extz { fr with d := 3, a := 1, x := 0x03F } (rig id) [.s 1] ∧
      goR .ins { fr with d := 3, a := 1, b := 2, x := 0xFC0 } (rig id) [.s 1, .s 2] ∧
      goR .sel { fr with d := 3, a := 1, b := 2, c := 7 } (rig id) [.p 7, .s 1, .s 2] ∧
      goR .lea { fr with d := 3, a := 1, b := 2, x := 7 } (rig id) [.s 1, .s 2] ∧
      (∀ e ∈ immRows, goI e.1 { fi with d := 3, a := 1, imm := 0x20000 } (rig id) [.s 1]) ∧
      (∀ e ∈ immShiftRows, goI e.1 { fi with d := 3, a := 1, imm := 63 } (rig id) [.s 1]) ∧
      goL .movi { fl with d := 3, imm := 0x20000000 } (rig id) [] ∧ goL .moviz { fl with d := 3, imm := 0x3FFFFFFF } (rig id) [] ∧
      goL .movm { fl with d := 3, imm := 1 } (rig id) [.s 3] ∧ goL .movt { fl with d := 3, imm := 15 } (rig id) [.s 3] ∧
      goL .addpc { fl with d := 3, imm := 0x3FFFFFFF } (rig id) [] := by
  and_intros <;> first | decide +kernel | (simp only [goR, goI, goL, State.mayIssue, State.unheld, zeros]; decide +kernel)

/-- PredicateResults. -/
theorem test_meets_PredicateResults :
    goR .cmp { fr with d := 8, a := 1, b := 2, x := 9 } (rig id) [.s 1, .s 2] ∧
      goI .cmpi { fi with d := 56, a := 1, b := 9, imm := 0x20000 } (rig id) [.s 1] ∧
      (∀ e ∈ predRows, goR e.1 { fr with d := 8, a := 7, b := 0, x := 3 } (rig id) [.p 7, .p 0]) ∧
      goR .pmov { fr with d := 8, a := 7, x := 2 } (rig id) [.p 7] ∧ goR .ptos { fr with d := 8, a := 7 } (rig id) [.p 7] ∧
      goI .pset { fi with d := 8, imm := 1 } (rig id) [] ∧ goI .ptst { fi with d := 8, a := 1, imm := 1 } (rig id) [.s 1] := by
  and_intros <;> first | decide +kernel | (simp only [goR, goI, State.mayIssue, State.unheld, zeros]; decide +kernel)

/-- FloatAndConversionResults: FP32 in entry 0, BF16 in entry 1, FP16 in entry 2, INT8 in entry 3 (R33). -/
theorem test_meets_FloatAndConversionResults :
    (∀ e ∈ floatRows, ((goR e.1 { fr with d := 3, a := 1, x := 0x280 } (rig id) (e.2.2.1 { fr with d := 3, a := 1, x := 0x280 })) ∧
        floatEntry ((rig id).core.fmt 2))) ∧
      (∀ e ∈ minMaxRows, goR e.1 { fr with d := 3, a := 1, b := 2, x := 0x100 } (rig id) [.s 1, .s 2]) ∧
      floatEntry ((rig id).core.fmt 1) ∧ goR .fcmp { fr with d := 8, a := 1, b := 2, x := 10 } (rig id) [.s 1, .s 2] ∧
      floatEntry ((rig id).core.fmt 0) ∧ goR .fclass { fr with d := 3, a := 1 } (rig id) [.s 1] ∧
      goR .fsgn { fr with d := 3, a := 1, b := 2, x := 2 } (rig id) [.s 1, .s 2] ∧
      goR .fcvt { fr with d := 3, a := 1, c := 3, x := 0x210 } (rig id) [.s 1] ∧
      fmtV ((rig id).core.fmt 2) = true ∧ fmtKind ((rig id).core.fmt 2) ≤ 4 ∧ fmtV ((rig id).core.fmt 3) = true ∧
      goR .fcvti { fr with d := 3, a := 1, x := 0x087 } (rig id) [.s 1] ∧
      goR .icvtf { fr with d := 3, a := 1, x := 0x300 } (rig id) [.s 1] ∧ fmtKind ((rig id).core.fmt 3) ≤ 4 := by
  and_intros <;> first | decide +kernel | (simp only [goR, floatEntry, State.mayIssue, State.unheld, zeros]; decide +kernel)

/-- NamedRegisterMoves. -/
theorem test_meets_NamedRegisterMoves :
    goL .prepr { fl with d := 7, imm := 0x3FFFFFFF } (rig id) [] ∧ goR .prep { fr with d := 7, a := 1 } (rig id) [.s 1] ∧
      goI .setfmt { fi with a := 1, imm := 4 } (rig (withS 1 (fmtInt8.setWidth 64))) [.s 1] ∧
      fmtLegal (field 0 32 ((rig (withS 1 (fmtInt8.setWidth 64))).core.sreg 1)) = true ∧
      goI .getfmt { fi with d := 3, imm := 15 } (rig id) [] ∧ goI .stg { fi with a := 1, imm := 47 } (rig id) [.s 1] ∧
      goI .gtg { fi with d := 3, imm := 47 } (rig id) [] ∧ goI .lcset { fi with d := 3, a := 1 } (rig id) [.s 1] ∧
      goI .lcget { fi with d := 3, a := 3 } (rig id) [] ∧ goI .rasrd { fi with d := 3, imm := 15 } (rig id) [] ∧
      goI .raswr { fi with a := 1, imm := 15 } (rig id) [.s 1] := by
  and_intros <;> first | decide +kernel | (simp only [goR, goI, goL, State.mayIssue, State.unheld, zeros]; decide +kernel)

/-- TransfersTakeEffectAfterTwoMore: a call with fifteen entries and with sixteen, a return with one and with none, a loop at each of its three counts. -/
theorem test_meets_TransfersTakeEffectAfterTwoMore :
    goC (.br { gi := 0, gp := 0, t := 7, z := 0 }) 0 0 (rig id) [] ∧
      goC (.call { gi := 1, gp := 3, t := 1, z := 0 }) 1 3 (rig (fun c => { c with depth := 15 })) [] ∧
      (rig (fun c => { c with depth := 15 })).core.depth.toNat < 16 ∧
      goC (.ret fb) 0 0 (rig (fun c => { c with depth := 1 })) [] ∧ 0 < (rig (fun c => { c with depth := 1 })).core.depth.toNat ∧
      goC (.loop { gi := 0, gp := 0, t := 0, lc := 3, z := 0 }) 0 0 (rig id) [] ∧
      goC (.call { gi := 0, gp := 0, t := 1, z := 0 }) 0 0 (rig (fun c => { c with depth := 16 })) [] ∧
      16 ≤ (rig (fun c => { c with depth := 16 })).core.depth.toNat ∧ goC (.ret fb) 0 0 (rig id) [] ∧ (rig id).core.depth = 0 ∧
      (rig (fun c => { c with redirects := [{ target := 9, left := 1, src := 4 }] })).core.eretDrain = false := by
  and_intros <;> first | decide +kernel | (simp only [goC, State.mayIssue, State.unheld, zeros]; decide +kernel)

/-- A gang of tile 0 alone. -/
def gang0 : Gang :=
  { id := 9, ctx := 0, ox := 0, oy := 0, w := 1, h := 1, window := 8, lines := Vector.replicate 4 Line.fresh, started := true, left := [],
    isOver := false
    launch := { id := 9, qid := 3, ctx := 0, image := 0, looptab := 0, geom := 0, deps := [0, 0, 0, 0], args := [], st := .running
                headAt := 0, stale := false, firsts := 0, ox := 0, oy := 0, behind := false, bad := 0, placedAt := 0, loaded := true, loadedAt := 0
                hold := false, grant := 0, startAt := 0, cost := 0, data := [], dataAddr := 0, tokens := [] } }

/-- `rig` with that gang. -/
def gangRig (g : Core → Core) : State := { rig g with gangs := [gang0] }

/-- WaitsEndsAndJoins: a counter at its bound and one above it; a `sync` of a gang's member. -/
theorem test_meets_WaitsEndsAndJoins :
    goC (.wait { gi := 0, gp := 0, z := 0, l := 15, s := 1, k := 0, m := 0, n := 0 }) 0 0
        (rig (fun c => { c with cnt := { c.cnt with s := 1 } })) [] ∧
      goC (.wait { gi := 0, gp := 0, z := 0, l := 15, s := 1, k := 0, m := 0, n := 0 }) 0 0
        (rig (fun c => { c with cnt := { c.cnt with s := 2 } })) [] ∧
      goC (.sync { gi := 0, gp := 0, bl := 3, pv := 0, pr := 2, z := 0 }) 0 0 (gangRig id) [.p 0] ∧
      (gangRig id).gangOf (gangRig id).cur = some gang0 ∧
      goC (.done fb) 0 0 (rig id) [] ∧ goC (.swap fb) 0 0 (rig id) [] ∧ goC (.eret fb) 0 0 (rig id) [] ∧
      goC (.qfence { gi := 0, gp := 0, z := 0, mask := 15 }) 0 0 (rig id) [] := by
  and_intros <;> first | decide +kernel | (simp only [goC, State.mayIssue, State.unheld, zeros]; decide +kernel)

/-- The management core, running, changed by `g`. -/
def coreRig (g : Core → Core) : State :=
  { State.reset with cycle := 1000, cores := [(mgmtCore, g { Core.fresh mgmtCore with strand := .running })] }

/-- SystemInstructionsNeedSystemMode: the core in system mode, the core in user mode, and a tile. -/
theorem test_meets_SystemInstructionsNeedSystemMode :
    goC (.idle fb) 0 0 (coreRig id) [] ∧ goC (.halt fb) 0 0 (coreRig id) [] ∧ (coreRig id).core.isMgmt = true ∧
      (coreRig id).core.sysMode = true ∧ goC (.idle fb) 0 0 (coreRig (fun c => { c with sysMode := false })) [] ∧
      (coreRig (fun c => { c with sysMode := false })).core.sysMode = false ∧ goC (.halt fb) 0 0 (rig id) [] ∧
      (rig id).core.isMgmt = false ∧ goI .gets { fi with imm := 0x91B } (rig id) [] ∧
      goI .sets { fi with a := 1, imm := 0x803 } (rig id) [.s 1] ∧ ((rig id).readSpecial 0x91B).isSome = true ∧
      ((rig id).readSpecial 0x803).isSome = true := by
  and_intros <;> first | decide +kernel | (simp only [goI, goC, State.mayIssue, State.unheld, zeros]; decide +kernel)

/-- TrapAndBrkTakeTheirTraps, TrapEntryAndReturn: traps enabled and outside a handler, disabled, and inside one. -/
theorem test_meets_traps :
    goC (.trap { gi := 0, gp := 0, z := 0, imm := 0xFFFF }) 0 0 (rig id) [] ∧ goC (.brk { gi := 0, gp := 0, z := 0, imm := 0 }) 0 0 (rig id) [] ∧
      (rig (fun c => { c with trap := { c.trap with en := true } })).core.trap.en = true ∧
      (rig (fun c => { c with trap := { c.trap with en := true } })).core.trap.inH = false ∧
      (rig (fun c => { c with trap := { c.trap with en := true, inH := true } })).core.trap.inH = true ∧ (rig id).core.redirects = [] := by
  and_intros <;> first | decide +kernel | (simp only [goC, State.mayIssue, State.unheld, zeros]; decide +kernel)

/-- SpecialRegisterMoves: reads of LOOPC0 and EVT_MASK, writes of GD3, of RASDEPTH at 16, of a register that software only reads, and
of a system register. -/
theorem test_meets_SpecialRegisterMoves :
    goI .get { fi with d := 3, imm := 0x010 } (rig id) [] ∧ (rig id).readUser 0x010 = some 0 ∧
      goI .set { fi with a := 1, imm := 0x043 } (rig id) [.s 1] ∧ userWritable 0x043 = true ∧
      goI .set { fi with a := 1, imm := 0x023 } (rig (withS 1 16)) [.s 1] ∧ ((rig (withS 1 16)).core.sreg 1).toNat ≤ 16 ∧
      goI .set { fi with a := 1, imm := 0x000 } (rig id) [.s 1] ∧ userWritable 0 = false ∧ ((rig id).readUser 0).isSome = true ∧
      goI .gets { fi with d := 3, imm := 0x803 } (coreRig id) [] ∧ (coreRig id).readSpecial 0x803 = some 0x1FF ∧
      goI .sets { fi with a := 1, imm := 0x8FF } (coreRig id) [.s 1] ∧ ((coreRig id).readSys 0x8FF).isSome = true := by
  and_intros <;> first | decide +kernel | (simp only [goI, State.mayIssue, State.unheld, zeros]; decide +kernel)

/-! ### The V slot -/

/-- VectorIntegerResults: a scalar operand, a mask, both ends of the lane widths. -/
theorem test_meets_VectorIntegerResults :
    (∀ e ∈ vec2Rows, goV e.1 { fv with mg := 3, lw := 3, vd := 31, va := 1, sb := 1, fn := 0x1F8000 } (rig id)
        (.v 1 :: rb { fv with sb := 1, fn := 0x1F8000 } ++ [.v 31])) ∧
      (∀ e ∈ vec1Rows, goV e.1 { fv with lw := 0, vd := 2, va := 1 } (rig id) [.v 1]) ∧
      goV .vsel { fv with lw := 1, vd := 2, va := 1, vb := 3, vc := 15 } (rig id) [.v 1, .v 3] ∧
      goV .vcmp { fv with lw := 2, vd := 15, va := 1, vb := 3, fn := 9 } (rig id) [.v 1, .v 3] := by
  and_intros <;> first | decide +kernel | (simp only [goV, State.mayIssue, State.unheld, zeros]; decide +kernel)

/-- VectorFloatResults: FP32 lanes of 32 bits and BF16 lanes of 16. -/
theorem test_meets_VectorFloatResults :
    (∀ e ∈ vecFloat2Rows, goV e.1 { fv with fmt := 0, lw := 2, rnd := 4, sat := 1, vd := 2, va := 1, vb := 3 } (rig id) [.v 1, .v 3]) ∧
      vecEntry { fv with fmt := 0, lw := 2 } (rig id).core ∧ vecEntry { fv with fmt := 1, lw := 1 } (rig id).core ∧
      (∀ e ∈ vecFloat1Rows, goV e.1 { fv with fmt := 1, lw := 1, mg := 1, vd := 2, va := 1 } (rig id) [.v 1, .v 2]) ∧
      goV .vfma { fv with fmt := 1, lw := 1, vd := 2, va := 1, vb := 3, vc := 4 } (rig id) [.v 1, .v 4, .v 3] ∧
      (∀ e ∈ vecMinMaxRows, goV e.1 { fv with fmt := 1, lw := 1, vd := 2, va := 1, vb := 3 } (rig id) [.v 1, .v 3]) ∧
      goV .vfabs { fv with fmt := 1, lw := 1, vd := 2, va := 1 } (rig id) [.v 1] ∧
      goV .vfneg { fv with fmt := 1, lw := 1, vd := 2, va := 1 } (rig id) [.v 1] ∧ fmtSgn ((rig id).core.fmt 1) = true ∧
      goV .vfcmp { fv with fmt := 1, lw := 1, vd := 2, va := 1, vb := 3, fn := 10 } (rig id) [.v 1, .v 3] ∧
      goV .vfclass { fv with fmt := 1, lw := 1, vd := 2, va := 1 } (rig id) [.v 1] := by
  and_intros <;> first | decide +kernel | (simp only [goV, State.mayIssue, State.unheld, zeros]; decide +kernel)

/-- VectorConversionResults: FP32 to BF16 into the upper half (PART 1), FP16 to INT8 with a scalar scale. -/
theorem test_meets_VectorConversionResults :
    goV .vcvt { fv with fmt := 1, lw := 2, vd := 2, va := 1, fn := 0x20 } (rig id) [.v 1, .v 2] ∧
      convEntries { fv with fmt := 1, lw := 2, vd := 2, va := 1, fn := 0x20 } (rig id).core ∧
      goV .vqnt { fv with fmt := 3, lw := 1, vd := 2, va := 1, sb := 1, fn := 0x10022 } (rig id) [.v 1, .v 2, .s 2] ∧
      convEntries { fv with fmt := 3, lw := 1, vd := 2, va := 1, sb := 1, fn := 0x10022 } (rig id).core ∧
      goV .vdqnt { fv with fmt := 0, lw := 2, vd := 2, va := 1, vb := 3, fn := 0x61 } (rig id) [.v 1, .v 2, .v 3] := by
  and_intros <;> first | decide +kernel | (simp only [goV, State.mayIssue, State.unheld, zeros]; decide +kernel)

/-- VectorReductionResults, VectorMoveResults. -/
theorem test_meets_reductions_and_moves :
    goV .vredadd { fv with lw := 0, sat := 1, vd := 2, va := 1, fn := 1 } (rig id) [.v 1] ∧
      goV .vredmax { fv with lw := 3, vd := 2, va := 1 } (rig id) [.v 1] ∧
      goV .vfredadd { fv with fmt := 1, lw := 1, vd := 2, va := 1 } (rig id) [.v 1] ∧
      goV .vfredmax { fv with fmt := 1, lw := 1, vd := 2, va := 1 } (rig id) [.v 1] ∧
      goV .vmov { fv with mg := 1, vd := 2, va := 1 } (rig id) [.v 1, .v 2] ∧
      goV .vsplat { fv with lw := 3, vd := 2, vb := 1, fn := 15 } (rig id) [.v 1] ∧
      goV .vsplati { fv with lw := 3, vd := 2, fn := 0x8000 } (rig id) [] ∧
      goV .vperm { fv with vd := 2, va := 1, vb := 3 } (rig id) [.v 1, .v 3] ∧
      goV .vperm2 { fv with vd := 2, va := 1, vb := 3, vc := 4, fn := 1 } (rig id) [.v 1, .v 4, .v 3] ∧
      goV .vshuf { fv with vd := 2, va := 1, fn := 4 } (rig id) [.v 1] ∧ goV .vshuf { fv with vd := 2, va := 1, vb := 3, fn := 3 } (rig id) [.v 1, .v 3] ∧
      goV .vslide { fv with vd := 2, va := 1, vb := 3, fn := 0xFF } (rig id) [.v 1, .v 3] ∧
      goV .viota { fv with vd := 2, sb := 1, fn := 0x8000 } (rig id) [.s 1] ∧
      goV .vextr { fv with lw := 3, va := 1, fn := 0x1808F } (rig id) [.v 1] ∧
      goV .vinsr { fv with mg := 1, lw := 3, vd := 2, fn := 0x1800F } (rig id) [.s 3, .v 2] := by
  and_intros <;> first | decide +kernel | (simp only [goV, State.mayIssue, State.unheld, zeros]; decide +kernel)

/-- A port tile whose port is bound to context 5 and in service, tile 0 being such a tile's stand-in. -/
def portRig (g : Core → Core) : State :=
  { rig id with
    cur := portTile 3
    cores := [(portTile 3, g { Core.fresh (portTile 3) with strand := .running, pos := { (Core.fresh 0).pos with ctx := 5 } })]
    ports := [(3, { Port.fresh with state := 1, bnd := true, bctx := 5 })] }

/-- AccumulatorRowsAndStreams: row 15 below the mark and at it, an accumulator without commands, a vector to take and room to give. -/
theorem test_meets_AccumulatorRowsAndStreams :
    goV .vacc { fv with fmt := 1, lw := 1, vd := 2, fn := 0x3F } (rig id) [] ∧ (rig id).core.isMgmt = false ∧
      accEntry { fv with fmt := 1, lw := 1 } (rig id).core ∧ 15 < (rig id).core.wmarks.get (3 : BitVec 2).toFin ∧
      (rig (fun c => { c with wmarks := Vector.replicate 4 15 })).core.wmarks.get (3 : BitVec 2).toFin ≤ 15 ∧
      goV .vaccw { fv with fmt := 3, lw := 0, va := 1, fn := 0x3F } (rig id) [.v 1] ∧ accEntry { fv with fmt := 3, lw := 0 } (rig id).core ∧
      (rig id).core.owners.get (3 : BitVec 2).toFin = [] ∧
      goV .vsin { fv with vd := 2, fn := 3 } (portRig (fun c => { c with orx := Vector.replicate 4 [1] })) [] ∧
      goV .vsout { fv with va := 1, fn := 3 } (portRig id) [.v 1] ∧ portOf (portRig id).cur = some 3 ∧
      (portRig id).core.isMgmt = false ∧ (Tab.getD (portRig id).ports 3 Port.fresh).bnd = true ∧
      (Tab.getD (portRig id).ports 3 Port.fresh).bctx.toNat = (portRig id).core.pos.ctx.toNat ∧ (portRig id).core.waitedV = 0 ∧
      ((portRig id).core.otx.get (3 : BitVec 2).toFin).length < 64 := by
  and_intros <;> first | decide +kernel | (simp only [goV, State.mayIssue, State.unheld, zeros]; decide +kernel)

/-- MaskResults. -/
theorem test_meets_MaskResults :
    (∀ e ∈ maskRows, goV e.1 { fv with mg := 1, vd := 2, va := 15 } (rig id) []) ∧
      goV .mset { fv with mg := 1, vd := 2, va := 31 } (rig id) [.v 31] ∧ goV .mget { fv with mg := 1, vd := 31, va := 15 } (rig id) [.v 31] ∧
      goV .vany { fv with mg := 1, lw := 3, vd := 7, va := 15 } (rig id) [] ∧ goV .vall { fv with mg := 1, lw := 0, vd := 7, va := 15 } (rig id) [] ∧
      goV .mpopc { fv with mg := 1, lw := 2, va := 15, fn := 0x1F8000 } (rig id) [] := by
  and_intros <;> first | decide +kernel | (simp only [goV, State.mayIssue, State.unheld, zeros]; decide +kernel)

/-! ### The Z and L slots -/

/-- A core without poison is clean everywhere. -/
theorem clean_of_none {c : Core} (h : c.poison = []) (a n : Nat) : clean c a n := fun _ _ _ => by simp [h]

/-- At bank units where no other port is pending plain words are alone. -/
theorem banksFree_of_idle {c : Core} (h : c.bankWants = []) {ws : List Nat} (hw : ∀ v ∈ ws, isPair v = false) : c.banksFree ws :=
  ⟨by simp [h], by simp [h, pairsApart], fun v hv hp => by simp [hw v hv] at hp⟩

/-- So is an arrival word. -/
theorem banksFree_pair_of_idle {c : Core} (h : c.bankWants = []) (a : Nat) : c.banksFree (arrivalAt a) :=
  ⟨by simp [h], by simp [h, pairsApart], fun v hv _ w hw => by
    simp only [arrivalAt, List.mem_singleton] at hv hw
    subst hv; subst hw; omega⟩

/-- The scratchpad statements' bank units: nothing is pending there. -/
theorem test_meets_alone :
    alone (rig id).core [0xBFFF8, 8] 8 ∧ (rig id).core.banksFree (arrivalAt 0xBFFF0) ∧ (rig id).core.banksFree [0, 384, 1] :=
  ⟨banksFree_of_idle (by decide +kernel) (by decide +kernel), banksFree_pair_of_idle (by decide +kernel) _,
    banksFree_of_idle (by decide +kernel) (by decide +kernel)⟩

/-- ZSlotResults: 64 bytes that end at the scratchpad's last byte, and `kld` with D [3] set. -/
theorem test_meets_ZSlotResults :
    goZ .zld { d := 15, off := 0x5FFE } (rig id) [] ∧ zReads { d := 15, off := 0x5FFE } (rig id).core 64 ∧
      goZ .zldh { d := 15, off := 0x5FFF } (rig id) [] ∧ zReads { d := 15, off := 0x5FFF } (rig id).core 32 ∧
      goZ .zldb { d := 15, off := 0x5FFF } (rig id) [] ∧ zReads { d := 15, off := 0x5FFF } (rig id).core 16 ∧
      goZ .kld { d := 7, off := 0 } (rig (fun c => { c with zbase := 32 })) [] ∧
      zReads { d := 7, off := 0 } (rig (fun c => { c with zbase := 32 })).core 32 ∧
      (rig id).mayIssue none [] ∧ (rig id).core.classHeld 0 = false ∧ (8 : BitVec 4).getLsbD 3 = true ∧
      (Instr.zfromv { d := 15, off := 63 }).wf = true ∧ (rig id).mayIssue none [.v 31] := by
  and_intros <;> first | decide +kernel | exact clean_of_none rfl _ _

/-- An `lds` or `sts` of type `t` at s1 + `disp`. -/
def fls (t : BitVec 4) (disp : BitVec 16) : LsForm := { gi := 0, gp := 0, cls := 15, d := 3, a := 1, t := t, disp := disp }

/-- An `ldv` or `stv` at s1 + `disp`. -/
def flv (disp : BitVec 16) : LvForm := { gi := 0, gp := 0, cls := 3, v := 31, a := 1, z := 0, disp := disp }

/-- Gather or scatter of 64-bit lanes by index v2, mask m1. -/
def flvg : LvgForm := { gi := 0, gp := 0, cls := 3, v := 3, a := 1, vi := 2, lw := 3, sc := 3, m := 1, z := 0 }

/-- Strided 64-bit lanes, stride in s2. -/
def flvs : LvsForm := { gi := 0, gp := 0, cls := 3, v := 3, a := 1, s := 2, lw := 3, disp := 0x1FF8 }

/-- A state for the strided and indexed forms: base 8, stride −16 from a base at the top, two active lanes that share a word. -/
def laneRig : State :=
  rig (fun c => { withS 1 0x1000 (withS 2 (-8) c) with mregs := c.mregs.set 1 0x101 })

/-- ScratchpadLoads: the last doubleword, the last vector, lanes downwards, two active lanes of a gather on one word. -/
theorem test_meets_ScratchpadLoads :
    goLs (.lds (fls 3 0x0000)) 0 0 15 (rig (withS 1 0xBFFF8)) [.s 1] ∧ inPad (rig (withS 1 0xBFFF8)).core 0xBFFF8 8 8 ∧
      ea (rig (withS 1 0xBFFF8)).core 1 (0 : BitVec 16) = 0xBFFF8 ∧
      goLs (.ldv (flv 0xFF80)) 0 0 3 (rig (withS 1 0xC0000)) [.s 1] ∧ inPad (rig (withS 1 0xC0000)).core 0xBFF80 128 8 ∧
      ea (rig (withS 1 0xC0000)).core 1 (0xFF80 : BitVec 16) = 0xBFF80 ∧
      goLs (.ldvs flvs) 0 0 3 laneRig [.s 1, .s 2] ∧
      (∀ i < 16, inPad laneRig.core (strideEa flvs laneRig.core i) 8 8) ∧ laneRig.core.poison = [] ∧
      (((List.range 16).map (strideEa flvs laneRig.core)).map (fun a => a / 8 % 384)).Nodup ∧
      goLs (.ldvg flvg) 0 0 3 laneRig [.s 1, .v 2, .v 3] ∧
      (∀ i < 16, laneOn 64 (laneRig.core.mreg 1) i = true → inPad laneRig.core (gatherEa flvg laneRig.core i) 8 8) ∧
      ((List.range 16).filter (laneOn 64 (laneRig.core.mreg 1))).map (gatherEa flvg laneRig.core) = [0x1000, 0x1000] := by
  and_intros <;> first | decide +kernel | (simp only [goLs, inPad, State.mayIssue, State.unheld, zeros]; decide +kernel)

/-- What a bank count of distinct words says: the hypothesis `oneBankEach` of 8-byte lanes at the addresses above. -/
theorem test_meets_oneBankEach : oneBankEach [0x1000, 0x1000] 8 ∧ oneBankEach [0x1000, 0xFF8] 8 := by
  constructor <;> · intro a ha b hb v w h1 h2 h3 h4 h5
                    simp only [List.mem_cons, List.not_mem_nil, or_false] at ha hb
                    rcases ha with rfl | rfl <;> rcases hb with rfl | rfl <;> omega

/-- ScratchpadStoresWriteTheirBytes: the same places, a poisoned word that the store covers, an arrival word. -/
theorem test_meets_ScratchpadStoresWriteTheirBytes :
    goLs (.sts (fls 3 0)) 0 0 15 (rig (fun c => { withS 1 0xBFFF8 c with poison := [0x17FFF] })) [.s 1, .s 3] ∧
      inPad (rig (withS 1 0xBFFF8)).core 0xBFFF8 8 8 ∧
      coversPoison (rig (fun c => { c with poison := [0x17FFF] })).core 0xBFFF8 8 ∧
      goLs (.stv (flv 0)) 0 0 3 (rig (withS 1 8)) [.s 1, .v 31] ∧ inPad (rig (withS 1 8)).core 8 128 8 ∧
      goLs (.stvs flvs) 0 0 3 laneRig [.s 1, .s 2, .v 3] ∧ goLs (.stvg flvg) 0 0 3 laneRig [.s 1, .v 2, .v 3] ∧
      goLs (.stvm { gi := 0, gp := 0, cls := 3, v := 3, a := 1, m := 1, lw := 0, disp := 0x7F80 }) 0 0 3 laneRig [.s 1, .v 3] ∧
      inPad laneRig.core (ea laneRig.core 1 (0x7F80 : BitVec 15)) 128 8 ∧
      goLs (.setaw { gi := 0, gp := 0, cls := 3, r1 := 2, a := 1, r2 := 3, disp := 0x3FF0 }) 0 0 3 laneRig [.s 1, .s 2, .s 3] ∧
      inPad laneRig.core (ea laneRig.core 1 (0x3FF0 : BitVec 14)) 16 16 ∧ laneRig.core.spad.wf = true := by
  and_intros <;> first | decide +kernel | (simp only [goLs, inPad, coversPoison, State.mayIssue, State.unheld, zeros]; decide +kernel)

/-- An access of the channel engine to word 5. -/
def xfer0 (write : Bool) : Xfer := { owner := .flit, port := 4, todo := [5], put := [(40, 7)], write, got := [] }

/-- ScratchpadConflictsAndTraps: two words of one bank, of which one is served; the strand's word and one of port 4 at a bank; a load
off its alignment; the first byte past the end. -/
theorem test_meets_ScratchpadConflictsAndTraps :
    [0, 384, 1].Nodup ∧ (rig id).core.bankWants = [] ∧ (rig id).core.strandServed [0, 384, 1] = [0, 1] ∧
      (rig (fun c => { c with xfers := [xfer0 true] })).core.bankPort [389] 5 = some 1 ∧
      (rig (fun c => { c with xfers := [xfer0 true], bankLast := [(5, 1)] })).core.bankPort [389] 5 = some 4 ∧
      (∀ b, (rig (fun c => { c with xfers := [xfer0 b] })).core.mat.exec = none ∧
        (rig (fun c => { c with xfers := [xfer0 b] })).core.bankWant = [] ∧ 2 ≤ (xfer0 b).port ∧ (xfer0 b).port ≤ 5) ∧
      goLs (.lds (fls 3 1)) 0 0 15 (rig id) [.s 1] ∧ ea (rig id).core 1 (1 : BitVec 16) % tb 3 ≠ 0 ∧
      goLs (.lds (fls 0 0)) 0 0 15 (rig (withS 1 0xC0000)) [.s 1] ∧ ea (rig (withS 1 0xC0000)).core 1 (0 : BitVec 16) % tb 0 = 0 ∧
      (rig (withS 1 0xC0000)).core.spend < ea (rig (withS 1 0xC0000)).core 1 (0 : BitVec 16) + tb 0 ∧
      goLs (.sts (fls 1 1)) 0 0 15 (rig id) [.s 1, .s 3] ∧ goLs (.sts (fls 3 0)) 0 0 15 (rig (withS 1 0xC0000)) [.s 1, .s 3] := by
  and_intros <;> first | decide +kernel | (simp only [goLs, State.mayIssue, State.unheld, zeros]; decide +kernel)

/-- An L slot whose accesses touch two words of one bank, on `laneRig`: lane 0 and lane 1 of a gather 3,072 bytes apart. -/
def conflict : State :=
  rig (fun c => { withS 1 0x1000 (withV 2 (384 <<< 64) c) with mregs := c.mregs.set 1 0x101 })

/-- The premises of the bank-conflict statement hold for that gather, of whose two words one is left. -/
theorem test_meets_bank_conflict :
    let m := (slotSem (.ldvg flvg)).getD (plainSlot .v none)
    m.slot = .l ∧ (m.waits conflict).isNone = true ∧ (m.waitsLate conflict).isNone = true ∧ m.cause conflict = none ∧ guardOn m.guard conflict.core = true ∧
      m.after conflict = none ∧ (m.eff conflict).core.lockstepCount ≤ 32 ∧ (m.words conflict).eraseDups.length = 2 ∧
      (conflict.core.strandServed (m.words conflict).eraseDups).length = 1 ∧ conflict.core.bankLeft = none ∧
      conflict.core.holdsLoad = false ∧ conflict.core.slogWait = false ∧ conflict.throttled = false := by
  and_intros <;> decide +kernel

/-- A `waita` at s1 for the generation in s2. -/
def faw : AwForm := { gi := 0, gp := 0, cls := 3, r1 := 2, a := 1, r2 := 0, disp := 0 }

/-- ArrivalWaitsAndSpillMemory: generation 0 against 0 and against 1 (the difference 2^32 − 1), one bundle before the watchdog and at it,
an arrival word whose turn at its bank has not come. -/
theorem test_meets_ArrivalWaitsAndSpillMemory :
    ((rig (fun c => { c with xfers := [{ xfer0 true with todo := [382] }], bankLast := [(382, 1)] })).core.strandServed
        (arrivalAt 0xBFFF0)).contains (pairWord (0xBFFF0 / 8)) = false ∧
    goLs (.waita faw) 0 0 3 (rig (withS 1 0xBFFF0)) [.s 1, .s 2] ∧ inPad (rig (withS 1 0xBFFF0)).core 0xBFFF0 16 16 ∧
      ea (rig (withS 1 0xBFFF0)).core 1 (0 : BitVec 14) = 0xBFFF0 ∧
      (BitVec.ofNat 32 ((rig id).core.spad.readN 0xBFFF8 4) - (0 : BitVec 32)).toNat < 2 ^ 31 ∧ (rig id).core.waitaRead = false ∧
      (rig (fun c => { c with waitaRead := true })).core.waitaRead = true ∧ (rig (fun c => { c with waitaSeen := true })).core.waitaSeen = true ∧
      (rig id).core.poison = [] ∧ goLs (.waita faw) 0 0 3 (rig (fun c => { withS 2 1 c with waitedL := 65535 })) [.s 1, .s 2] ∧
      2 ^ 31 ≤ (BitVec.ofNat 32 ((rig id).core.spad.readN 8 4) - (1 : BitVec 32)).toNat ∧ (rig id).core.waitaSeen = false ∧
      65535 < max 1024 (rig id).core.wdog.toNat ∧ max 1024 (rig id).core.wdog.toNat ≤ 65536 ∧
      (Instr.spl { gi := 0, gp := 0, cls := 0, d := 3, z := 0, off := 511 }).wf = true ∧ (rig id).mayIssue (some (0, 0)) [.s 3] ∧
      (Instr.fil { gi := 0, gp := 0, cls := 0, d := 3, z := 0, off := 0 }).wf = true ∧ (rig id).mayIssue (some (0, 0)) [] ∧
      (Instr.splv { gi := 0, gp := 0, cls := 0, v := 3, z := 0, off := 496 }).wf = true ∧ (rig id).mayIssue (some (0, 0)) [.v 3] ∧
      (Instr.filv { gi := 0, gp := 0, cls := 0, v := 3, z := 0, off := 496 }).wf = true := by
  and_intros <;> first | decide +kernel | (simp only [goLs, inPad, State.mayIssue, State.unheld, zeros]; decide +kernel)

/-- A valid handle of 64 KiB at 2^20. -/
def h0 : Handle :=
  { Handle.empty with v := true, tp := true, rd := true, wr := true, base := 0x100000, vpage := 0x70000 }

/-- HandleInstructions, DrawerAccessesEnter: the last bytes of a page, a faulted handle, counters one below their end. -/
theorem test_meets_handles_and_drawer_accesses :
    (Instr.xlate { gi := 0, gp := 0, cls := 0, h := 15, z1 := 0, a := 1, z2 := 0 }).wf = true ∧ (rig id).mayIssue (some (0, 0)) [.s 1] ∧
      ((rig id).cache (cacheKey 0)).leaves.find? (·.holds 5 0x70000) = none ∧
      (Instr.hinv { gi := 0, gp := 0, cls := 0, h := 15, z := 0 }).wf = true ∧ (rig id).mayIssue (some (0, 0)) [] ∧
      (Instr.hget { gi := 0, gp := 0, cls := 0, d := 3, h := 15, z := 0, sel := 2 }).wf = true ∧
      ((rig id).core.hregs.get (15 : BitVec 4).toFin).p = false ∧
      (Instr.ldh { gi := 0, gp := 0, cls := 15, d := 3, h := 2, i := 1, t := 3, disp := 0xFF8 }).wf = true ∧
      handleServes h0 false (dOff (rig (withS 1 0xF000)).core 1 0xFF8).toNat 8 8 ∧
      handleServes h0 true (dOff (rig (withS 1 0xEF80)).core 1 0x1000).toNat 128 8 ∧
      handleServes { h0 with v := false, f := true, rd := false, sz := true } false (2 ^ 28 - 8) 8 8 ∧
      (rig (fun c => { c with cnt := { c.cnt with l := 62, s := 62 } })).core.cnt.l < 63 ∧ (rig id).core.slog.length < 256 ∧
      (Instr.ldvh { gi := 0, gp := 0, cls := 15, v := 3, h := 2, i := 1, z := 0, disp := 0 }).wf = true ∧
      (Instr.sth { gi := 0, gp := 0, cls := 15, d := 3, h := 2, i := 1, t := 0, disp := 0xFFF }).wf = true ∧
      (Instr.stvh { gi := 0, gp := 0, cls := 15, v := 3, h := 2, i := 1, z := 0, disp := 0 }).wf = true := by
  and_intros <;> first | decide +kernel | (simp only [holds, State.mayIssue, State.unheld, zeros]; decide +kernel)

/-- A remote atomic on its way. -/
def atom0 : Access :=
  { id := 0, ord := 0, opc := 0, cls := 0, kind := .atomic 0x30 0 3 0 0 0 0, h := Handle.empty, off := 0, st := .sent, after := []
    again := false, fresh := false }

/-- RemoteAtomicsLeave: the last doubleword pair below 2^20, fifteen atomics out. -/
theorem test_meets_RemoteAtomicsLeave :
    (∀ e ∈ remoteRows, ((e.1 { fat with gp := 0, d := 3, a := 1 }).wf = true ∧
        (rig (withS 1 0x80000000000FFFF0)).core.atomicsOut < 16)) ∧
      ((rig (withS 1 0x80000000000FFFF0)).core.sreg 1).getLsbD 63 = true ∧ zeros (0x80000000000FFFF0 : Word) 54 9 ∧
      zeros (0x80000000000FFFF0 : Word) 20 24 ∧ 0xFFFF0 % 16 = 0 ∧ (rig id).mayIssue (some (0, 0)) [.s 1, .s 0, .s 0] ∧
      16 ≤ (rig (fun c => { c with dacc := List.replicate 16 atom0 })).core.atomicsOut := by
  and_intros <;> first | decide +kernel | (simp only [zeros, State.mayIssue, State.unheld, zeros]; decide +kernel)

/-- LocalAtomicsAndFences: the last word pair of the scratchpad; a fence of every class; scopes on either side of the module. -/
theorem test_meets_LocalAtomicsAndFences :
    (∀ e ∈ atomRows, goLs (e.1 { fat with cls := 9, d := 3, a := 1, b := 2, w := 1 }) 0 0 9 (rig (withS 1 0xBFFF8)) [.s 1, .s 2, .s 0]) ∧
      atomReady { fat with a := 1, w := 1 } (rig (withS 1 0xBFFF8)).core 8 ∧
      (∀ e ∈ atomPredRows, goLs (e.1 { fat with d := 3, a := 1, pd := 7 }) 0 0 0 (rig (withS 1 0xBFFF8)) [.s 1, .s 0, .s 0]) ∧
      atomReady { fat with a := 1 } (rig (withS 1 0xBFFF8)).core 8 ∧
      goLs (.aincw { fat with d := 3, a := 1, w := 1 }) 0 0 0 (rig (withS 1 0xBFFF0)) [.s 1, .s 0, .s 0] ∧
      atomReady { fat with a := 1, w := 1 } (rig (withS 1 0xBFFF0)).core 16 ∧
      goLs (.afadd { fat with d := 3, a := 1, b := 2 }) 0 0 0 (rig (withS 1 0xBFFFC)) [.s 1, .s 2, .s 0] ∧
      atomReady { fat with a := 1 } (rig (withS 1 0xBFFFC)).core 4 ∧
      (Instr.fence { gi := 0, gp := 0, cls := 0, z := 0, mask := 0xFFFF }).wf = true ∧ (rig id).mayIssue (some (0, 0)) [] ∧
      (Instr.fenceSc { gi := 0, gp := 0, cls := 0, z := 0, scope := 4 }).wf = true ∧ (rig id).fenceBusy 4 ((rig id).core.fenceLate.getD (rig id).core.unfired) = false ∧
      ((rig (fun c => { c with cnt := { c.cnt with k := 1 } })).fenceBusy 4 []) = true ∧
      (rig id).core.dacc = [] := by
  and_intros <;> first | decide +kernel | exact clean_of_none rfl _ _ | (simp only [goLs, State.mayIssue, State.unheld, zeros]; decide +kernel)

/-! ### Engine commands as they enter -/

/-- Rings g1 and g2 configured: four slots of 2,048 bytes. -/
def withRings (c : Core) : Core :=
  let r1 := { Ring.empty with count := 4, size := 16, base := 8192 }
  let r2 := { Ring.empty with count := 64, size := 17, base := 32768 }
  { c with rings := (c.rings.set 1 r1).set 2 r2 }

/-- `mma` on a1 with rings g1 and g2, BF16 by `fb`; further operand bits `x`. -/
def fmma (x : BitVec 27) : MForm := { ops := (1 : BitVec 2) ++ (1 : BitVec 3) ++ (2 : BitVec 3) ++ (1 : BitVec 4) ++ (0 : BitVec 15) ||| x }

/-- MatrixCommandsEnter: 4,096 passes of BF16 by BF16, one of BF16 by INT8; the counter one below its end, the queue with one place left. -/
theorem test_meets_MatrixCommandsEnter :
    goM (.mma (fmma 0x0800)) (rig (fun c => { withStg 0 4096 (withRings c) with cnt := { c.cnt with m := 62 } })) ∧
      (let c := (rig (fun c => withStg 0 4096 (withRings c))).core
       fmtV (c.fmt 1) = true ∧ exactBf16 (c.fmt 1) = true ∧ fmtStore (c.fmt 1) = 16 ∧ bFormatOk (c.fmt 1) = true ∧
         zeros (sg c 0) 13 51 ∧ (sg c 0).toNat % 2 ^ 13 = 4096 ∧
         (field 22 3 (fmma 0x0800).ops : BitVec 3) = 1 ∧ (field 19 3 (fmma 0x0800).ops : BitVec 3) = 2 ∧
         (c.rings.get (1 : BitVec 3).toFin).count ≠ 0 ∧ 2048 ≤ (c.rings.get (1 : BitVec 3).toFin).size * 128 ∧
         2048 ≤ (c.rings.get (2 : BitVec 3).toFin).size * 128 ∧ field 15 4 (fmma 0x0800).ops = (1 : BitVec 4) ∧
         field 11 4 (fmma 0x0800).ops = (1 : BitVec 4) ∧ (fmma 0x0800).ops.getLsbD 9 = false ∧ (fmma 0x0800).ops.getLsbD 8 = false) ∧
      goM (.mepi { ops := 0x600C000 }) (rig (withStg 2 0xFFFF00040)) ∧ zeros (sg (rig (withStg 2 0xFFFF00040)).core 2) 36 28 ∧
      fmtKind ((rig id).core.fmt (field 15 4 (0x600C000 : BitVec 27))) ≤ 4 ∧
      goM (.msend { ops := 0x4000000 }) (rig (withStg 3 0xBFF)) ∧ (sg (rig (withStg 3 0xBFF)).core 3).toNat / 2 ^ 10 % 4 ≠ 3 ∧
      zeros (sg (rig (withStg 3 0xBFF)).core 3) 12 52 ∧ zeros (sg (rig id).core 4) 20 12 ∧ zeros (sg (rig id).core 4) 52 12 ∧
      relOk (rig id).core .m 5 0x8801 ∧ goM (.mred { ops := 0x5000000 }) (rig (withStg 6 0xFFFFFFFF)) ∧
      zeros (sg (rig (withStg 6 0xFFFFFFFF)).core 6) 32 32 ∧ goM (.mclr { ops := 0x6000000 }) (rig id) ∧ goM (.mstat { ops := 0x6200000 }) (rig id) := by
  and_intros <;> first | decide +kernel | (simp only [zeros, relOk, goM, State.mayIssue, State.unheld, zeros]; decide +kernel)

/-- CopyCommandsEnter: 65,535 rows of 1,048,576 bytes; both sides by handle; a decoding table whose lengths fill the code space; a
ring to configure at the scratchpad's end, and one to unconfigure. -/
theorem test_meets_CopyCommandsEnter :
    goK (.kcpy fk) (rig (fun c => withStg 22 0x2F1 (withStg 18 0xFFFF00100000 c))) ∧
      cx6Ok (rig (withStg 22 0x2F1)).core true true false ∧ cx2Ok (rig (withStg 18 0xFFFF00100000)).core ∧
      goK (.kput { fk with ops := 0x1FF80 }) (rig (withStg 18 0x100000001)) ∧ cx6Ok (rig id).core false false false ∧
      cx2Ok (rig (withStg 18 0x100000001)).core ∧ goK (.kloc { fk with ops := 0x1FF80 }) (rig (withStg 18 0x100000001)) ∧
      goK (.kzero fk) (rig (withStg 22 0x220)) ∧ cx6Ok (rig (withStg 22 0x220)).core false true false ∧
      goK (.kdec fk) (rig (withStg 22 0x10)) ∧ cx6Ok (rig (withStg 22 0x10)).core true false false ∧
      kdecFinal (0x4444444444444444 : Word) = 8192 ∧ (∀ i < 16, (0x4444444444444444 : Word).toNat / 16 ^ i % 16 ≤ 12) ∧
      (∀ i ∈ [Instr.kfill, Instr.kfillConfigure], goK (i { fk with ring := 2, swz := 3 }) (rig (fun c => withStg 18 0x200000440 (withRings c)))) ∧
      cx6Ok (rig id).core true false true ∧ ((rig withRings).core.rings.get (2 : BitVec 3).toFin).count ≠ 0 ∧
      2 * 0x440 ≤ ((rig withRings).core.rings.get (2 : BitVec 3).toFin).size * 128 ∧
      (∀ i ∈ [Instr.kfill, Instr.kfillConfigure], goK (i { fk with ring := 2 }) (rig (fun c => withStg 22 0x800 (withStg 23 0x2000BC000 c)))) ∧
      cx6Ok (rig (withStg 22 0x800)).core true false true ∧ (sg (rig (withStg 22 0x800)).core 22).getLsbD 11 = true ∧
      ((rig id).core.rings.get (2 : BitVec 3).toFin).fill = 0 ∧ (rig id).core.ringBusy 2 = false ∧
      0x801 * 128 + (0x200BC000 % 2 ^ 20 : Nat) ≠ 0 := by
  and_intros <;> first | decide +kernel | (simp only [cx6Ok, cx2Ok, goK, State.mayIssue, State.unheld, zeros]; decide +kernel)

/-- The words of a ring to configure: two slots of 8,192 bytes that end with the scratchpad. -/
theorem test_meets_ring_to_configure :
    let x := 2 * 2 ^ 32 + 64 * 2 ^ 20 + 0xBC000
    1 ≤ x / 2 ^ 20 % 1024 ∧ x / 2 ^ 20 % 1024 ≤ 512 ∧ x / 2 ^ 32 % 128 ≤ 64 ∧ x % 128 = 0 ∧
      x % 2 ^ 20 + x / 2 ^ 20 % 1024 * 128 * (x / 2 ^ 32 % 128) = 0xC0000 ∧ (rig id).core.spend = 0xC0000 := by
  decide +kernel

/-- A send's staging registers in range: 1,048,576 bytes to the end of the address space. -/
def sendRig : State :=
  rig (fun c => withStg 32 0xFFFFF (withStg 33 0x100000 (withStg 38 0xFFFFF (withStg 47 0x80000000000FFFFF c))))

/-- ChannelCommandsEnter: channel 1,023 with arrival-word select 7, queues up to 131,071. -/
theorem test_meets_ChannelCommandsEnter :
    goN (.nsend { fn with ch := 1023, aws := 7 }) sendRig true ∧ sendOk { fn with ch := 1023, aws := 7 } sendRig.core ∧
      goN (.nsendt { fn with aws := 7 }) sendRig true ∧ zeros (sg sendRig.core 34) 20 44 ∧ zeros (sg sendRig.core 35) 32 32 ∧
      goN (.nrot { fn with aws := 7 }) sendRig true ∧ (sg sendRig.core 47).getLsbD 63 = true ∧
      goN (.ngsend { fn with aws := 7 }) (rig (withStg 37 0x801)) true ∧ relOk (rig (withStg 37 0x801)).core .n 5 (0x801 : Word) ∧
      zeros (0x801 : Word) 12 4 ∧ goN (.npost { fn with aws := 7 }) sendRig false ∧ zeros (sg sendRig.core 47) 20 43 ∧
      goN (.npost fn) (rig id) false ∧ (sg (rig id).core 33).toNat = 0 ∧
      goN (.npush fn) (rig (withStg 36 131071)) true ∧ (sg (rig (withStg 36 131071)).core 36).toNat < 131072 ∧
      goN (.nclose fn) (rig (withStg 36 131071)) false ∧ goN (.ndisarm { fn with ch := 1023 }) (rig id) false ∧
      goN (.npop { fn with pm := 1, ops := 0xE00 }) (rig (withStg 36 131071)) false := by
  and_intros <;> first | decide +kernel | (simp only [zeros, sendOk, relOk, goN, State.mayIssue, State.unheld, zeros]; decide +kernel)

/-! ### Engines -/

/-- A command with its engine's staging registers as captured. -/
def cmd (kind : CmdKind) (ops : BitVec 27) (stg : List Word) : Cmd :=
  { ord := 3, opc := 0, kind := kind, ops := ops, stg := stg, fa := fmtBf16, fb := fmtBf16, gd := [0, 0, 0, 0], gtab := 0
    sh := Handle.empty, dh := Handle.empty }

/-- A matrix command in execution since cycle 900, at row `r`. -/
def mex (k : Cmd) (r : Nat) : MExec := { started k 900 with row := r }

/-- An `mma` of two passes on a1 with rings g1 and g2. -/
def mma2 : Cmd := cmd .mma (fmma 0x0800).ops [2]

/-- A core whose matrix engine holds `k` at the head of its queue. -/
def headM (k : Cmd) (c : Core) : Core := { c with mat := { c.mat with queue := [k] } }

/-- Rings g1 and g2 with one filled slot each. -/
def withFilled (c : Core) : Core :=
  let r1 := { Ring.empty with count := 4, size := 16, base := 8192, fill := 1, tail := 3, head := 2 }
  let r2 := { Ring.empty with count := 64, size := 17, base := 32768, fill := 1, head := 63 }
  { c with rings := (c.rings.set 1 r1).set 2 r2 }

/-- The second pass of that `mma` started in cycle 969, sixteen cycles and its steps before cycle 1,000. -/
def lastPass : MExec :=
  { started mma2 900 with pass := 2, passes := [{ p := 1, start := 969, slotA := 2, slotB := 63, book := 0, cycles := 16, got := [] }] }

/-- A core with the matrix engine at `e`. -/
def inMma (e : MExec) (c : Core) : Core := { withFilled c with mat := { c.mat with exec := some e } }

/-- Its first pass with every word of its next cycle served, as zero. -/
def gotAll (k : Cmd) : Pass :=
  let ps : Pass := { p := 0, start := 1000, slotA := 2, slotB := 63, book := 0, cycles := 0, got := [] }
  { ps with got := (((rig withFilled).coreAt 0).passWants k ps).map (fun w => (w, 0)) }

/-- That pass of `mma2` alone. -/
def firstPass : MExec := { lastPass with pass := 1, passes := [gotAll mma2] }

/-- An `mma` whose B keeps 32 of 64 rows, of which no mask bit is set, in its first pass. -/
def sparsePass : MExec :=
  let k := cmd .mma (fmma 0x0A00).ops [2, 32]
  { lastPass with cmd := k, pass := 1, passes := [gotAll k] }

/-- A row of a2 on its way from a `vaccw`. -/
def rowRes : Res :=
  { w := .acc 2 0 0 0 0 0 fmtBf16, fl := 0, slot := .v, rem := 1, lat := 4, ord := 2, late := false }

/-- MatrixCommandsAndPasses: each kind at the head, a `vaccw` of its row in flight and none; a partial that has come and one that has
not; a pass to start with one slot in each ring; an array that steps and one that waits for words; the last pass as it retires. -/
theorem test_meets_MatrixCommandsAndPasses :
    (∀ k ∈ [mma2, cmd .mclr 0x2000000 [], cmd .mred 0x3000000 [0, 0, 0, 0, 0xBFE0000000000], cmd .mepi 0x2000000 [0, 0, 0xFFFF00000],
        cmd .mstat 0x0200000 []], mGoes ((rig (headM k)).coreAt 0) k [] ∧ ((rig (headM k)).coreAt 0).rowHeld k = false) ∧
      ((rig (fun c => { headM (cmd .mclr 0x4000000 []) c with inflight := [rowRes] })).coreAt 0).rowHeld (cmd .mclr 0x4000000 []) = true ∧
      (let c := (rig (inMma firstPass)).coreAt 0
       c.mat.exec = some firstPass ∧ mma2.kind = .mma ∧ firstPass.want = [] ∧ c.slotWait firstPass = false ∧
         firstPass.passes = [gotAll mma2] ∧ c.passWants mma2 (gotAll mma2) = [] ∧ (gotAll mma2).cycles = 0 ∧ mma2.sparse = false ∧
         ((rig (inMma { firstPass with want := [(0, 4096)] })).coreAt 0).mat.exec = some { firstPass with want := [(0, 4096)] }) ∧
      (let c := (rig (inMma sparsePass)).coreAt 0
       let k := sparsePass.cmd
       c.mat.exec = some sparsePass ∧ k.kind = .mma ∧ sparsePass.want = [] ∧ c.slotWait sparsePass = false ∧ k.sparse = true ∧
         sparsePass.passes = [gotAll k] ∧ c.passWants k (gotAll k) = [] ∧ (gotAll k).cycles = 0 ∧
         (c.keptRows k (gotAll k).got (gotAll k).slotB 15).length ≠ k.kept) ∧
      ((rig id).coreAt 0).mat.exec = none ∧ ((rig id).coreAt 0).mat.epi = none ∧
      ((rig id).coreAt 0).mredCheck (cmd .mred 0x3000000 [0, 0, 0, 0, 0xBF00000000000]) = none ∧
      ((rig id).coreAt 0).mepiCheck (cmd .mepi 0x2000000 [0, 0, 0xC3F800000]) = none ∧
      (let c := (rig (fun c => { withFilled c with mat := { c.mat with exec := some (started mma2 900) } })).coreAt 0
       mma2.kind = .mma ∧ (started mma2 900).pass < mma2.passCount ∧ c.engineOn = true ∧
         0 < (c.rings.get mma2.ringA.toFin).fill ∧ 0 < (c.rings.get mma2.ringB.toFin).fill ∧
         c.passCause (started mma2 900) 2 63 = none ∧ mma2.zeroInit = false) ∧
      mma2.ringA ≠ mma2.ringB ∧ 969 + 15 + mma2.passShape.1 ≤ (rig id).cycle ∧ 1 + 1 = mma2.passCount ∧
      ((rig (fun c => { c with owners := Vector.replicate 4 [(3, true)] })).coreAt 0).owners.get (1 : BitVec 2).toFin = [(3, true)] := by
  and_intros <;> first
    | decide +kernel
    | (simp only [mGoes, State.mayIssue, State.unheld, zeros]; decide +kernel)

/-- The element of a1 that the epilogues read, 1.0 in WIDE96. -/
def withOne (c : Core) : Core := { c with accs := Vector.replicate 4 (Vector.replicate 256 (roundWide (Sys2Proof.Machine.Num.fin false 1 0).pre).1) }

/-- The words of the last row of a BF16 partial that ends at 0xC0000, as they have been read. -/
def got0 : Tab Word := (wordsOf 0xBFFE0 32).map (fun w => (w, 0))

/-- MatrixRows: the last rows, an `msend` to the tile itself along an immediate end, an epilogue behind its last row, the partial's data
at the scratchpad's end. -/
theorem test_meets_MatrixRows :
    (let e := mex (cmd .mepi 0x2000000 [0, 0, 0xBFFE0]) 15
     rowReady ((rig (fun c => { withOne c with mat := { c.mat with epi := some e } })).coreAt 0) e 999) ∧
      (let e := { mex (cmd .msend 0x2000000 [0, 0, 0, 0x3FF, 0x1000000000]) 15 with segs := [0x40] }
       let s := rig (fun c => { withOne c with mat := { c.mat with epi := some e } })
       rowReady (s.coreAt 0) e s.cycle ∧ e.out = [] ∧ e.accept = none ∧ field 10 2 (e.cmd.stg.getD 3 0) = (0 : BitVec 2) ∧
         (∀ j < 16, (decodeWide (elem (s.coreAt 0) (field 25 2 e.cmd.ops) 15 j)).nonFinite = false) ∧
         (s.at 0).hasCredit e.cmd.mch 5 = true ∧
         s.route 0 e.segs = .tile { tid := 0, cost := 0, seam := false, express := false, ports := [] }) ∧
      (let e := mex (cmd .mepi 0x2000000 [0, 0, 0xBFFE0]) 16
       let c := (rig (fun c => { c with mat := { c.mat with epi := some e } })).coreAt 0
       c.mat.epi = some e ∧ e.failed = none ∧ e.row = 16 ∧ e.out = [] ∧ c.xfersOf .epiRow = []) ∧
      (let e := { mex (cmd .mred 0x3000000 [0, 0, 0, 0, 0xBFE0000000010, 0, 0]) 15 with got := got0 }
       let s := rig (fun c => { withOne c with mat := { c.mat with exec := some e } })
       rowDue (s.coreAt 0) .mred e s.cycle ∧ (s.coreAt 0).poison = [] ∧
         (∀ w ∈ wordsOf (partAt e.cmd 15) (16 * partBytes (field 23 2 e.cmd.ops)), (Tab.get? e.got w).isSome = true) ∧
         ∀ j < 16, (decodeWide (elem (s.coreAt 0) (accOf e.cmd.ops) 15 j)).nonFinite = false ∧
           (incoming e.cmd e.got 15 j).nonFinite = false) ∧
      (∀ g < 2,
        let e := { mex (cmd .mred 0x3000000 [0, 0, 0, 0, 0xBFE0000000000, 0, BitVec.ofNat 64 g]) 0 with got := [(1, 0)] }
        let s := rig (fun c => { withOne c with mat := { c.mat with exec := some e } })
        rowDue (s.coreAt 0) .mred e s.cycle ∧ (∀ x ∈ partWants e.cmd 0, Tab.get? e.got x.2 = none) ∧ Tab.get? e.got (0 / 8 + 1) = some 0 ∧
          (((field 0 32 (0 : Word) : BitVec 32) - field 0 32 (e.cmd.stg.getD 6 0)).toNat < 2 ^ 31 ↔ g = 0)) ∧
      (let e := mex (cmd .mclr 0x2000000 []) 0
       rowDue ((rig (fun c => { c with mat := { c.mat with exec := some e } })).coreAt 0) .mclr e 1000) := by
  and_intros <;> first | decide +kernel | (simp only [rowReady, rowDue, State.mayIssue, State.unheld, zeros]; decide +kernel)

/-- A copy of 264 bytes from 0x1000 to 0x2000 in the scratchpad: two chunks. -/
def copy0 : Cmd := cmd .kcpy 0 [0x1000, 0x2000, 0x100000108, 0, 0, 0, 0]

/-- That copy from its first chunk on. -/
def kex : KExec := copying (Core.fresh 0) copy0

/-- A core with copy `e` in execution. -/
def inCopy (e : KExec) (c : Core) : Core := { c with cpy := { c.cpy with exec := some e } }

/-- An access of that copy's engine whose words are all served. -/
def served0 (o : XferOwner) (write : Bool) : Xfer := { owner := o, port := 3, todo := [], put := [], write, got := [] }

/-- CopyProgress: the copy at the queue's head; its first chunk; a chunk that has been read, one that has been written, the first and the
last; a chunk whose read faulted. -/
theorem test_meets_CopyProgress :
    (let c := (rig (fun c => { c with cpy := { c.cpy with queue := [copy0] } })).coreAt 0
     c.cpy.queue = [copy0] ∧ c.cpy.exec = none ∧ c.engineOn = true ∧ c.cpy.stopped = false ∧ c.qHeld 2 copy0.ord = false ∧
       copy0.drawerSide = false ∧ copy0.configures = false ∧ c.copyCheck copy0 = none ∧ copy0.kind = .kcpy) ∧
      kex.cmd.sd = false ∧ kex.cmd.dd = false ∧ kex.chunks = [] ∧ kex.next < kex.cmd.chunkCount ∧ kex.cmd.chunkCount = 2 ∧
      kex.held = false ∧ kex.failed = none ∧ ((rig (inCopy kex)).coreAt 0).poison = [] ∧ kex.cmd.counts = false ∧
      (let c := (rig (fun c => { inCopy { kex with chunks := [(0, .flying)] } c with xfers := [served0 (.chunkRead 0) false] })).coreAt 0
       c.cpy.exec = some { kex with chunks := [(0, .flying)] } ∧ c.xferDone (.chunkRead 0) = true ∧ c.poison = []) ∧
      (∀ n < 2,
        let e : KExec := { kex with next := n, chunks := [(n, .flying)] }
        let c := (rig (fun c => { inCopy e c with xfers := [served0 (.chunkWrite n) true] })).coreAt 0
        c.cpy.exec = some e ∧ e.blocks = [] ∧ c.xfersOf (.chunkRead n) = [] ∧ c.xferDone (.chunkWrite n) = true ∧ c.cpy.stopped = false) ∧
      (let e := { kex with chunks := [(0, .faulted 1 3 0 0x70000 0)] }
       ((rig (inCopy e)).coreAt 0).cpy.exec = some e ∧ e.held = false ∧ e.failed = none) := by
  and_intros <;> decide +kernel

/-- A send of 1,032 bytes from 0x1000 on channel 3, two packets; its arrival words are 0xBFFF0 at the peer and none here. -/
def send0 (kind : CmdKind) : Cmd :=
  cmd kind (BitVec.ofNat 27 (3 * 2 ^ 17)) [0x1000, 1032, 0x3000, 1, 0, 0, 0x100, 0, 0x80000000000BFFF0]

/-- A core with `k` at the head of its channel queue. -/
def headN (k : Cmd) (c : Core) : Core := { c with chn := { c.chn with queue := [k] } }

/-- The send in progress from its first packet on, along an immediate end to the tile itself. -/
def nex : NExec := { cmd := send0 .nsend, next := 0, src := 0x1000, roff := 0x100, segs := [0x40], dch := 9, expect := none, pkt := none, flit := 0 }

/-- ChannelProgress: each command at the head, a triggered send whose generation has and has not come, a packet of 1,024 bytes, its
first flit read, and the send's second packet behind its only flit. -/
theorem test_meets_ChannelProgress :
    (∀ kind ∈ [CmdKind.nsend, .npost, .nsendt],
      let c := (rig (headN (send0 kind))).coreAt 0
      c.chn.queue = [send0 kind] ∧ c.engineOn = true ∧ c.chn.stopped = false ∧ c.chn.held = false ∧ c.chn.exec = none ∧
        c.chn.waiting = none ∧ c.chn.fired = [] ∧ (send0 kind).laddr % 8 = 0 ∧ c.qHeld 1 3 = false ∧ c.sendCheck (send0 kind) 1032 true = none ∧
        c.sendCheck (send0 kind) (send0 kind).nbytes (send0 kind).nxOn = none ∧ (send0 kind).nbytes ≠ 0 ∧ c.chn.armed = [] ∧
        ((rig id).at 0).reaches (entrySegs (c.routeEntry 3)) = true) ∧
      2 ^ 31 ≤ (BitVec.ofNat 32 ((rig id).core.spad.readN 0x3008 4) - (send0 .nsendt).tgen).toNat ∧
      (BitVec.ofNat 32 ((rig (withPad 0x3008 [1])).core.spad.readN 0x3008 4) - (send0 .nsendt).tgen).toNat < 2 ^ 31 ∧
      (let k := send0 .nsendt
       let x : Xfer := { owner := .trigger 3, port := 4, todo := [], put := [], write := false, got := [(0x601, 1)] }
       let sa (x : Xfer) := (rig (fun c => { c with chn := { c.chn with armed := [k] }, xfers := [x] })).coreAt 0
       k.ord = 3 ∧ (sa x).engineOn = true ∧ (sa x).chn.armed = [k] ∧ (sa x).xferDone (.trigger 3) = true ∧
         Sys2Proof.Claims.came (sa x) k = true ∧ Sys2Proof.Claims.came (sa { x with got := [(0x601, 0)] }) k = false ∧
         (sa { x with todo := [pairWord 0x600] }).xferDone (.trigger 3) = false ∧
         (sa { x with todo := [pairWord 0x600] }).xfersOf (.trigger 3) ≠ []) ∧
      (let s := rig (fun c => { c with chn := { c.chn with exec := some nex } })
       (s.coreAt 0).dacc = [] ∧ (s.coreAt 0).chn.exec = some nex ∧ nex.pkt = none ∧ (s.coreAt 0).engineOn = true ∧
         (s.coreAt 0).chn.waiting = none ∧ (s.coreAt 0).chn.stopped = false ∧
         s.route 0 nex.segs = .tile { tid := 0, cost := 0, seam := false, express := false, ports := [] } ∧
         min 1024 (nex.cmd.nbytes - 1024 * nex.next) = 1024 ∧ (s.at 0).hasCredit 3 (dataFlits 1024 + 1) = true) ∧
      (let e : NExec := { nex with pkt := some 70 }
       let c := (rig (fun c => { c with chn := { c.chn with exec := some e }, xfers := [served0 .flit false] })).coreAt 0
       c.chn.exec = some e ∧ c.frozen = false ∧ e.flit < dataFlits 1024 ∧ c.xferDone .flit = true) ∧
      (let e : NExec := { nex with next := 1, pkt := some 70, flit := 1 }
       e.flit = dataFlits (min 1024 (e.cmd.nbytes - 1024 * e.next)) ∧ e.cmd.nbytes ≤ 1024 * (e.next + 1) ∧ (rig id).core.chn.fired = []) := by
  and_intros <;> decide +kernel

/-- A walk of segments that ends at tile `t`. -/
def endsAt (r : RouteEnd) (t : Nat) : Bool := match r with | .tile w => w.tid == t | _ => false

/-- A packet from tile 1 to tile 0, arrived. -/
def pkt (kind off : Nat) (data : List (BitVec 8)) (op : NetOp) : Packet :=
  { id := 70, kind := kind, ctx := 5, src := 1, sch := 3, dst := 0, dch := 9, off := off, aw := 0x2000, awv := true, seq := 0, len := data.length, data := data
    flits := 2, fs := 1, sent := 1, arrived := 2, begun := 0, done := 0, again := 0, turn := 0, stuck := false, credit := true, back := 12, due := 990, slot := .n, ord := 4, opc := 0, index := 0, op := op, expect := none, links := []
    route := [], segs := [], anyOrder := false, place := .net }

/-- `rig` with that packet in the network and grants RD and W of tile 0 to context 5. -/
def netRig (p : Packet) (g : Core → Core) : State :=
  { rig g with net := [p], grants := [(5, 3)], gangs := [gang0] }

/-- An arrival of 600 bytes at the word at 0x2000. -/
def arr0 : Arrival := { id := 71, core := 0, aw := 0x2000, bytes := 600, src := 1, ord := 4, slot := .n, chunk := none, ch := none }

/-- An access of a packet's or an arrival's whose words are all served. -/
def came (o : XferOwner) (port : Nat) : Xfer := { owner := o, port, todo := [], put := [], write := true, got := [] }

/-- PacketsArrive: an absolute deposit up to the scratchpad's end, a posted one up to the posting's end, a reply to `kloc`, a deposit whose
flits are written, an arrival whose TARGET the sum passes twice, a credit that is due. -/
theorem test_meets_PacketsArrive :
    (let p := pkt 1 0xBFFF8 (List.replicate 8 1) .deposit
     let s := netRig p id
     standing s p ∧ granted s p 1 ∧ s.gangOf 0 = some gang0 ∧ gang0.started = true ∧ p.expect = none ∧ p.awv = true ∧
       coversPoison (s.coreAt 0) p.off p.len ∧ p.off + p.len ≤ (s.coreAt 0).spend ∧
       p.aw + 16 ≤ (s.coreAt 0).spend ∧ (s.coreAt 0).poison = []) ∧
      (let p := pkt 0 8 (List.replicate 8 1) .deposit
       let s := netRig p (fun c => { c with chn := { c.chn with posts := [(9, { base := 0x1000, bytes := 16, aw := 0x2000 })] } })
       let x := { p with id := 69, src := 2 }
       let y := { p with turn := 1 }
       standing s p ∧ granted s p 1 ∧ s.gangOf 0 = some gang0 ∧ coversPoison (s.coreAt 0) (0x1000 + p.off) p.len ∧
         s.channelTurn p = true ∧ standing { s with net := [x, y] } y ∧ x.here = true ∧ x.arrived ≠ 0 ∧ x.turn < y.turn ∧
         Tab.get? (s.coreAt 0).chn.posts 9 = some { base := 0x1000, bytes := 16, aw := 0x2000 } ∧ p.off + p.len ≤ 16) ∧
      (let p := pkt 4 0x1000 (List.replicate 8 1) .deposit
       standing (netRig p id) p) ∧
      (let p := { pkt 0 8 (List.replicate 8 1) .deposit with place := .taken 0x1008 (some 0x2000), begun := 1 }
       let s := netRig p (fun c => { c with xfers := [came (.packet 70) 4] })
       atTile s p 0x1008 (some 0x2000) ∧ p.begun = p.flits - 1 ∧ p.returned < p.flits ∧
         (∀ x ∈ (s.coreAt 0).xfersOf (.packet p.id), x.todo = []) ∧
         p.done + ((s.coreAt 0).xfersOf (.packet p.id)).length = p.flits - 1) ∧
      (let s := { rig (fun c => { withPad 0x2000 [0x2C, 1] c with xfers := [came (.arrival 71) 4] }) with arrivals := [arr0] }
       s.arrivals.find? (fun y => y.id == arr0.id) = some arr0 ∧ (s.coreAt 0).xferDone (.arrival arr0.id) = true ∧
         (s.coreAt 0).spad.wf = true ∧ (s.coreAt 0).spad.readN 0x2000 4 = 300) ∧
      (let k : Credit := { id := 72, core := 0, ch := 3, flits := 2, due := 1000 }
       let s := { rig id with credits := [k] }
       s.credits.find? (fun y => y.id == k.id) = some k ∧ k.due ≤ s.cycle) := by
  and_intros <;> first
    | decide +kernel
    | (simp only [standing, atTile, granted, coversPoison, State.mayIssue, State.unheld, zeros]; decide +kernel)

/-- RequestsAreServed: an atomic on a word pair at the scratchpad's end as it comes and as its word is served, its reply, a read of the
last eight bytes as it comes and as they are read. -/
theorem test_meets_RequestsAreServed :
    (let p := { pkt 2 0xBFFF0 [] (.atomic 4 0x3A 1 0 0) with place := .taken 0 none, route := [0x40] }
     let s := netRig p id
     let q := { p with begun := 1 }
     let t := netRig q (fun c => { c with xfers := [came (.packet 70) 5] })
     atTile s p 0 none ∧ p.begun = 0 ∧ granted s p 0 ∧ granted s p 1 ∧ p.off + 16 ≤ (s.coreAt 0).spend ∧ (s.coreAt 0).poison = [] ∧
       atTile t q 0 none ∧ (t.coreAt 0).xferDone (.packet 70) = true ∧ q.foreign = false ∧ (t.coreAt 0).spad.wf = true ∧
       endsAt (t.route 0 (mirrorSegs q.route [])) 0 = true) ∧
      (let p := pkt 3 0 [] (.reply 0 7 true none 0)
       let a := { atom0 with kind := .atomic 0x3A 1 3 2 0 0 0x8000000000000000 }
       let s := netRig p (fun c => { c with dacc := [a] })
       arrived s p ∧ (s.coreAt 0).dacc.find? (fun x => x.id == 0) = some a) ∧
      (let p := { pkt 5 0xBFFF8 [] (.read 8 0x1000) with place := .taken 0 none }
       let s := netRig p id
       let q := { p with begun := 1, route := [0x40] }
       let t := netRig q (fun c => { c with xfers := [came (.packet 70) 5] })
       atTile s p 0 none ∧ p.begun = 0 ∧ p.off + 8 ≤ (s.coreAt 0).spend ∧ (s.coreAt 0).poison = [] ∧ atTile t q 0 none ∧
         (t.coreAt 0).xferDone (.packet 70) = true ∧ q.foreign = false ∧ endsAt (t.route 0 (mirrorSegs q.route [])) 0 = true) := by
  and_intros <;> first
    | decide +kernel
    | (simp only [arrived, atTile, granted, State.mayIssue, State.unheld, zeros]; decide +kernel)

/-! ### Queues, drawer path and translation -/

/-- Context 5 on tiles 0 and 1, tile 1 its home tile, its page tables at 2^20. -/
def ctx5 : Ctx := { Ctx.fresh with root := 16, homen := 1, h := 1, w := 2, st := 1, v := true }

/-- The descriptor of queue 3: context 5, home tile 1, 16 entries in the head segment, a staging ring at 0x70000 and a spill ring at
0x80000 of 16 entries each. -/
def qd3 : BitVec 256 :=
  (0x80000 : Word) ++ (0x70000 : Word) ++ (0 : BitVec 10) ++ (4 : BitVec 5) ++ (4 : BitVec 4) ++ (0 : BitVec 20) ++ (16 : BitVec 9) ++
    (1 : BitVec 16) ++ (0 : BitVec 54) ++ (5 : BitVec 6) ++ (0b0101 : BitVec 4)

/-- Page tables at 2^20 that map the pages `vas` to 2^21, readable and writable (R303). -/
def tables5 (vas : List Nat) : Mem :=
  vas.foldl (fun m va => Mem.putBytes m (0x130000 + 8 * (va / 2 ^ 16)) (leBytes 8 0xB800000000200000))
    (Mem.putBytes (Mem.putBytes (Mem.putBytes [] 0x100000 (leBytes 8 0x8000000000110000)) 0x110000
      (leBytes 8 0x8000000000120000)) 0x120000 (leBytes 8 0x8000000000130000))

/-- Context 5 with queue 3 as `r`, its ranges and its home tile's grant, every drawer link up, pages `va` mapped. -/
def queueRig (r : QueueRec) (vas : List Nat) : State :=
  { rig (fun c => { c with pos := { c.pos with ctx := 5 } }) with
    ctxs := [(5, ctx5)], qdesc := [(3, qd3)], queues := [(3, r)], grants := [(128 + 5, 3)], hostSets := Vector.replicate 4 0x20
    ranges := [(40, { v := true, base := 0, limit := 0xFFFF, rd := true, wr := true })]
    links := (List.range 112).map (fun n => (n, { Link.fresh with st := 2, t0 := 1000 }))
    drawer := tables5 vas, sys := { SysRegs.fresh with drwCap := 0x1000000 } }

/-- A queue message of tile 0 at the home tile. -/
def qpkt (op : NetOp) (data : List (BitVec 8)) : Packet := { pkt 5 0 data op with dst := 1, src := 0, credit := false }

/-- With a message in the network. -/
def queueMsg (r : QueueRec) (p : Packet) : State := { queueRig r [0x80000, 0x70000] with net := [p] }

/-- Transfer `j`, ended with bytes `d`. -/
def endedJob (j : Job) (d : List (BitVec 8)) : Job := { j with id := 7, todo := [], sent := true, ended := some (.done d) }

/-- An access of a unit that is done, with bytes and state that `g` accepts. -/
def doneWith (r : Retry) (g : List (BitVec 8) → State → Bool) : Bool := match r with | .done e t => g e t | _ => false

/-- An append that is done. -/
def appended (r : Appended) : Bool := match r with | .done _ => true | _ => false

/-- An entry with every byte `b`. -/
def entry (b : BitVec 8) : List (BitVec 8) := List.replicate 64 b

/-- QueueOperations: a push with one place left, a pop that finds an entry, that finds none in an open and in a closed queue, the outcome
at its tile, a close, an entry to bring back from the spill ring. -/
theorem test_meets_QueueOperations :
    (let p := qpkt (.push 3) (entry 1)
     let s := queueMsg { QueueRec.fresh with head := List.replicate 15 (entry 2) } p
     atHome s p 3 ∧ qdClosed (s.queueDesc 3) = false ∧ s.spilling.contains 3 = false ∧ s.job? moduleUnit (.spillOut 3 p.id) = none ∧
       s.firstInLine ⟨3, s.cycle, p.id⟩ false = true ∧ (s.queueRec 3).blocked = [] ∧ (s.queueRec 3).out = (s.queueRec 3).inn ∧
       (s.queueRec 3).head.length < qdHn (s.queueDesc 3)) ∧
      (let p := qpkt (.pop 3 0x0202 0x0202 true) []
       let s := queueMsg { QueueRec.fresh with head := [entry 2] } p
       atHome s p 3 ∧ endsAt (s.route 1 (computedSegs 1 0)) 0 = true ∧
         (s.queueRec 3).head.findIdx? (fun e => p.takesKey (entryKey e)) = some 0 ∧
         (queueMsg QueueRec.fresh p).queueRec 3 = QueueRec.fresh ∧ QueueRec.fresh.spillHas p = false ∧
         ([] : List (List (BitVec 8))).findIdx? (fun e => p.takesKey (entryKey e)) = none) ∧
      (let p := { pkt 6 0 [] (.popped [1, 2, 3, 4, 5, 6, 7, 8] true) with ord := 3 }
       let s := netRig p (fun c => { c with chn := { c.chn with waiting := some (cmd .npop 0x600 []) } })
       arrived s p ∧ s.inSeq p = true ∧ (s.coreAt 0).chn.waiting = some (cmd .npop 0x600 []) ∧ (cmd .npop 0x600 []).ord = p.ord) ∧
      (let p := qpkt (.close 3) []
       atHome (queueMsg QueueRec.fresh p) p 3 ∧ qdLaunch qd3 = false) ∧
      (let r := { QueueRec.fresh with out := 15, inn := 16 }
       let va := qdSbase qd3 + BitVec.ofNat 64 (15 % 2 ^ qdSlog qd3 * qdSize qd3)
       let s := { queueRig r [0x80000] with
                  jobs := [endedJob (newJob moduleUnit (.spillIn 3) (cacheKey (qdHome qd3)) 5 va (qdSize qd3) none) (entry 0)] }
       (s.queueRec 3).heldSpill = false ∧ (s.queueRec 3).inn ≠ (s.queueRec 3).out ∧ (s.queueRec 3).head.length < qdHn qd3 ∧
         (s.queueRec 3).blocked = [] ∧
         doneWith (s.unitRead moduleUnit (.spillIn 3) (cacheKey (qdHome qd3)) (qdCtx qd3) va (qdSize qd3) false)
           (fun e _ => e == entry 0) = true) := by
  and_intros <;> first | decide +kernel | (simp only [arrived, atHome, State.mayIssue, State.unheld, zeros]; decide +kernel)

/-- HostWindowWrites: a TAIL that fills the ring and one past it, a port whose set lacks the context, a staging entry to take. -/
theorem test_meets_HostWindowWrites :
    (let s := queueRig QueueRec.fresh [0x70000]
     s.hostPending 3 = false ∧ qdV (s.queueDesc 3) = true ∧ (s.hostSets.toList.getD 3 0).getLsbD (qdCtx (s.queueDesc 3)) = true ∧
       qdHosten (s.queueDesc 3) = true ∧ ((16 : BitVec 32) - (s.queueRec 3).tail).toNat + ((s.queueRec 3).tail - (s.queueRec 3).taken).toNat =
         2 ^ qdHlog (s.queueDesc 3) ∧ qdClosed (s.queueDesc 3) = false ∧ qdV (s.queueDesc 131071) = false ∧
       (s.hostSets.toList.getD 3 0).getLsbD 5 = true ∧ (s.hostSets.toList.getD 0 0).getLsbD 6 = false) ∧
      (let r := { QueueRec.fresh with tail := 16, taken := 15 }
       let va := qdHring qd3 + BitVec.ofNat 64 ((15 : BitVec 32).toNat % 2 ^ qdHlog qd3 * qdSize qd3)
       let s := { queueRig r [0x70000] with
                  jobs := [endedJob (newJob moduleUnit (.stage 3) (cacheKey (qdHome qd3)) 5 va (qdSize qd3) none) (entry 0)] }
       qdV (s.queueDesc 3) = true ∧ (s.queueRec 3).heldStage = false ∧ (s.queueRec 3).taken ≠ (s.queueRec 3).tail ∧
         doneWith (s.unitRead moduleUnit (.stage 3) (cacheKey (qdHome qd3)) (qdCtx qd3) va (qdSize qd3) true)
           (fun e t => appended (t.append 3 ((s.queueRec 3).since.getD 1000) (stageName 3) e)) = true) ∧
      (0x1000 + 56) % 64 + 8 ≤ 64 ∧ (∀ e ∈ (rig id).hostWait, e.1 ≠ 3) := by
  and_intros <;> decide +kernel

/-- A request of tile 0 for 8 bytes at 2^21. -/
def req0 (write : Option (List (BitVec 8))) (place : ReqPlace) (res : Option ReqEnd) : Req :=
  { id := 80, core := 0, mid := 5, rq := 5, owner := .access 0, addr := 0x200000, va := 0x80000, write := write, len := 8
    place := place, res := res, patient := false, waited := 0 }

/-- DrawerRequestsAreServed: a metered request with one token, a read and a write at a link whose slot begins now, one outside the
master's ranges, the replies of a load and of a store. -/
theorem test_meets_DrawerRequestsAreServed :
    (let s := { queueRig QueueRec.fresh [] with reqs := [req0 none .port none] }
     (s.coreAt 0).dacc = [] ∧ s.reqs.find? (atPort 0) = some (req0 none .port none) ∧
       (s.coreAt 0).frozen = false) ∧
      0 < ((rig (fun c => { c with bucket := 1 })).coreAt 0).bucket ∧
      (∀ w ∈ [none, some (entry 3)],
        let r := req0 w (.queue 1) none
        let s := { queueRig QueueRec.fresh [] with reqs := [r] }
        let n := linkOf 0x200000
        (s.link n).st = 2 ∧ (s.link n).t0 + 5 * (s.link n).slot / 14 ≤ s.cycle ∧ s.urgentAt n = none ∧ nextGrant s n = some (5, true) ∧
          oldestReq (s.queued n 5) = some r ∧ s.drawer.wf = true ∧ s.portAllows 5 0x200000 8 w.isSome = true ∧
          s.drwOffline = [] ∧ s.drwPoison = [] ∧ s.portAllows 6 0x200000 8 w.isSome = false) ∧
      (let r := { req0 none (.queue 1) none with owner := .walk 90 }
       let w : Walk := { id := 90, ctx := 5, va := 0x80000, marked := false, since := 300, lev := 4, table := 0x130000, paths := []
                         req := some 80, readAt := 400, stalled := false, ending := none }
       let s := { queueRig QueueRec.fresh [] with reqs := [r], caches := [(0, { leaves := [], paths := [], walks := [w] })] }
       let n := linkOf 0x200000
       (s.link n).st = 2 ∧ (s.link n).t0 + 5 * (s.link n).slot / 14 ≤ s.cycle ∧ s.urgentAt n = some r ∧
         s.portAllows r.mid r.addr r.len false = true ∧ s.drwOffline = [] ∧ s.drwPoison = []) ∧
      (let a := { atom0 with kind := .ldh 3 7, off := 0 }
       let s := { rig (fun c => { c with dacc := [a] }) with reqs := [req0 none (.served 990 1000) (some (.ok [1, 2, 3, 4, 5, 6, 7, 8]))] }
       (s.coreAt 0).dacc.find? (fun x => x.id == a.id && x.isLoad && x.st == .sent) = some a ∧
         s.reqs.filter (fun r => r.core == 0 && r.owner == .access a.id) = s.reqs ∧ s.reqs.length = 1 ∧ (1000 : Nat) ≤ s.cycle ∧
         (s.coreAt 0).frozen = false) ∧
      (let a := { atom0 with kind := .sth 9 8 }
       ((rig (fun c => { c with dacc := [a] })).coreAt 0).dacc.find? (fun x => x.id == a.id && !x.isLoad && !x.isAtomic && x.st == .sent) =
         some a) := by
  and_intros <;> decide +kernel

/-- A fault record. -/
def fr0 : FaultRec :=
  { vaddr := 0x70000, stamp := 0, type := 1, level := 4, ctx := 5, source := 0, link := 0xFFFF, tid := 0, opc := 0, chunk := 0
    bitmap := 0, cls := 0, qid := 0, entry := 0 }

/-- FaultService: the last free record of a buffer of 64, a flush of the current generation and of another, a held load to retry, a
logged store to replay. -/
theorem test_meets_FaultService :
    (let s := { queueRig QueueRec.fresh [] with fbWait := [fr0], sys := { SysRegs.fresh with fbBase := 0x100006, prod := 63, drwCap := 0x1000000 } }
     (field 0 5 s.sys.fbBase : BitVec 5).toNat = 6 ∧ (s.sys.prod - s.sys.cons).toNat < 2 ^ 6 ∧ s.job? moduleUnit .record = none ∧
       (let j := physJob moduleUnit .record 5 (256 * 4096 + 64 * 63) fr0.bytes
        doneWith (({ s with jobs := [endedJob j []] } : State).transfer j false) (fun _ t => t.jobs == []) = true ∧
          ({ s with jobs := [{ j with id := 7 }] } : State).jobs.find? (fun k => k.id == 7) = some { j with id := 7 } ∧ j.todo = []) ∧ field 0 16 (0 : Word) = s.sys.fgen ∧ field 0 16 (1 : Word) ≠ s.sys.fgen) ∧
      (let a := { atom0 with kind := .ldh 3 3, st := .retry, off := 8, h := { h0 with vpage := 0x80000 } }
       let s0 := queueRig QueueRec.fresh [0x80000]
       let s1 := s0.setCore { s0.core with dacc := [a] }
       let j := newJob 0 (.load a.id) (cacheKey 0) 5 a.va 8 none
       let s : State := { s1 with jobs := [{ endedJob j [] with plain := true, pas := [(0, 8, 0x200008)] }] }
       (s.coreAt 0).dacc.find? (fun a => a.st == .held || a.st == .retry) = some a ∧ (s.coreAt 0).frozen = false ∧
         (s.coreAt 0).halting = false ∧ s.loggedBefore 0 a.id a.cls = false ∧ s.canLeave 0 a = true ∧ a.size = 8 ∧
         doneWith (s.freshBlocks 0 (.load a.id) (cacheKey 0) (s.coreAt 0).pos.ctx.toNat a.va 8).1 (fun bs _ => bs == []) = true ∧
         (s.freshBlocks 0 (.load a.id) (cacheKey 0) (s.coreAt 0).pos.ctx.toNat a.va 8).2 = [(0, 8, 0x200008)]) ∧
      (let e : LogEntry := { cls := 0, ord := 0, acc := some 0, chunk := 0, opc := 0, addr := 0x8FFF8, bytes := [1, 2, 3, 4, 5, 6, 7, 8], ready := true, place := 0 }
       let s0 := queueRig QueueRec.fresh [0x80000]
       let j : Job := { newJob 0 (.replay 0) (cacheKey 0) 5 e.addr 8 (some e.bytes) with mid := 5, patient := true }
       let s : State := { s0.setCore { s0.core with slog := [e], slogSlot := some 0 } with jobs := [endedJob j []] }
       (s.coreAt 0).slog.find? (fun e => e.cls.toNat == 0) = some e ∧ s.mayReplay 0 e = true ∧ s.masterOf 0 = 5 ∧
         (s.coreAt 0).pos.ctx.toNat = 5 ∧ doneWith (s.transfer j false) (fun _ _ => true) = true) := by
  and_intros <;> decide +kernel

/-- A walk of context 5 for 0x90000 that ends as `e`. -/
def walk0 (e : WalkEnd) : Walk :=
  { id := 90, ctx := 5, va := 0x90000, marked := false, since := 900, lev := 4, table := 0x130000, paths := [], req := none
    readAt := 0, stalled := false, ending := some e }

/-- That walk in field 0's cache. -/
def walkRig (e : WalkEnd) : State := { rig id with caches := [(0, { leaves := [], paths := [], walks := [walk0 e] })] }

/-- The leaf of page 0x90000. -/
def leaf0 : Leaf := { ctx := 5, big := false, page := 0x90000, base := 0x200000, rd := true, wr := true, gen := 1 }

/-- WalksAndShootdowns: a walk that has found its leaf, one that has found no root and one that has met a link for too long, a shootdown
of one page and of all, an acknowledgement with nothing to wait for. -/
theorem test_meets_WalksAndShootdowns :
    (∀ e ∈ [WalkEnd.leaf leaf0 [], .fault 1 1 0 [], .fault 5 2 0 []],
      (((walkRig e).cache 0).walks.take 16).find? (fun x => x.id == (walk0 e).id) = some (walk0 e) ∧ (walk0 e).marked = false ∧
        (walk0 e).ending = some e) ∧
      (State.reset.sys.sdCtl.getLsbD 62 = false ∧ (0x8000000000000001 : Word).getLsbD 63 = true ∧
        field 0 32 (0x8000000000000001 : Word) ≠ (0 : BitVec 32) ∧ (0x8400000000000000 : Word).getLsbD 58 = true ∧
        (0 : Word).getLsbD 63 = false) ∧
      (let s := { rig id with sdWait := [(0, [])] }
       s.sdWait.find? (fun w => w.1 == 0) = some (0, []) ∧ (rig (fun c => { c with frozen := true })).core.frozen = true) ∧
      (let s := { rig id with sys := { SysRegs.fresh with sdCtl := 0x4000000000000000 } }
       s.sys.sdCtl.getLsbD 62 = true ∧ s.sdWait = []) := by
  and_intros <;> decide +kernel

/-! ### Strands, launches, gangs and contexts: states that meet the hypotheses -/

/-- Tile 5, a port tile, about to issue bundle `w`, changed by `g`, in cycle 1,000 of a machine at rest. -/
def edgeRig (w : Nat) (g : Core → Core) : State := { State.reset with cycle := 1000, cores := [(5, (g (Core.fresh 5)).holding w)] }

/-- The word of `vsin` v0 of link 0 alone. -/
def vsinWord : Nat := 0x4A * 2 ^ 56 * 2 ^ 176

/-- The word of `waita` s1, 0(s0) alone. -/
def waitaWord : Nat := (0x0B * 2 ^ 40 + 1 * 2 ^ 26) * 2 ^ 128

/-- `waita` as that word holds it. -/
def fawt : AwForm := { gi := 0, gp := 0, cls := 0, a := 0, r1 := 1, r2 := 0, disp := 0 }

/-- A result in flight. -/
def res0 (w : Write) (rem : Nat) (late : Bool) : Res := { w, fl := 1, slot := .l, rem, lat := 2, ord := 4, late }

/-- A deferred cause. -/
def cause0 : Cause := { code := 5, info := 3, slot := .k, deferred := true, opc := 2, qpos := 0, ord := 4, fresh := false }

/-- Tile 0's gang of context 5 in state `st`, its core changed by `g`. -/
def ctxRig (st : BitVec 4) (g : Core → Core) : State :=
  { rig g with gangs := [{ gang0 with ctx := 5 }], ctxs := [(5, { ctx5 with st })] }

/-- StrandBoundaries, cycles: a STALL cycle that passes and one in which issue is frozen, a bundle with a reserved header bit. -/
theorem test_meets_StrandBoundaries_cycles :
    let b := (edgeRig vsinWord id).coreAt 5
    let held (w : Bool) : State := { edgeRig vsinWord id with cores := [(5, { b with stall := 1, slogWait := w })] }
    (let c := (held false).coreAt 5
     c.strand = .running ∧ c.frozen = false ∧ c.gate ≤ 1000 ∧ c.eretDrain = false ∧ 0 < c.stall) ∧
      ((held false).at 5).issueFrozen = false ∧ ((held true).at 5).issueFrozen = true ∧
      (let c := (edgeRig (2 ^ 368) id).coreAt 5
       c.stall = 0 ∧ c.haltReq = false ∧ c.bundleCause = some (precise .h 0x01 1)) := by
  and_intros <;> decide +kernel

/-- StrandBoundaries, results: a lockstep result due and a late load result at its last boundary. -/
theorem test_meets_StrandBoundaries_results :
    (let r := res0 (.s 3 7) 0 false
     let c := (rig (fun c => { c with inflight := [r] })).coreAt 0
     c.inflight = [r] ∧ r.w.discarded = false ∧ (∀ n x, r.w ≠ .sys n x) ∧ c.pend = [] ∧ r.late = false ∧ r.rem = 0) ∧
      (let r := res0 (.s 3 7) 1 true
       let c := (rig (fun c => { c with inflight := [r], pend := [(.s 3, 4)] })).coreAt 0
       c.inflight = [r] ∧ r.w.discarded = false ∧ r.w.preg? = some (.s 3) ∧ c.pend = [(.s 3, r.ord)] ∧ r.late = true ∧ r.rem = 1) := by
  and_intros <;> first | (intro _ _ h; cases h) | decide +kernel

/-- StrandBoundaries, traps and ends: the older of two causes, a member that has ended, a gang to abort. -/
theorem test_meets_StrandBoundaries_traps :
    (let c := (rig (fun c => { c with deferred := [{ cause0 with ord := 9 }, cause0], trap := { c.trap with en := true } })).coreAt 0
     cause0 ∈ c.deferred ∧ cause0.fresh = false ∧ (∀ q ∈ c.deferred, q.fresh = false → q ≠ cause0 → cause0.ord < q.ord) ∧
       c.failing = [] ∧ c.strand = .running ∧ c.trap.inH = false ∧ c.trap.en = true ∧ c.stall = 0 ∧ c.frozen = false) ∧
      (let s := rig (fun c => { c with strand := .ended true, chn := { c.chn with posts := [(9, { base := 0, bytes := 16, aw := 0 })] } })
       (s.coreAt 0).strand = .ended true ∧ drainedOut (s.coreAt 0) ∧ (s.coreAt 0).frozen = false) ∧
      (let s := { ctxRig 1 id with aborts := [0] }
       0 ∈ s.aborts ∧ s.gangOf 0 = some { gang0 with ctx := 5 } ∧ gang0.isOver = false ∧ (s.ctx 5).st ≠ 2 ∧ (s.ctx 5).st ≠ 3 ∧
         0 ∈ gang0.tiles ∧ 0 ∉ gang0.left ∧ (s.coreAt 0).undelivered = none) := by
  and_intros <;> first | decide +kernel | (simp only [drainedOut]; decide +kernel)

/-- StrandBoundaries, watchdogs: `vsin` of an empty buffer at a port tile and `waita` of a phase to come, each past its bound. -/
theorem test_meets_StrandBoundaries_watchdogs :
    (let s := edgeRig vsinWord (fun c => { c with waitedV := 65536 })
     dueAlone (s.at 5) (.vsin fv) ∧ goV .vsin fv (s.at 5) (rd fv) ∧ (s.coreAt 5).isMgmt = false ∧ (∃ p, portOf 5 = some p) ∧
       (s.coreAt 5).orx.get (field 0 2 fv.fn : BitVec 2).toFin = [] ∧ max 1024 (s.coreAt 5).wdog.toNat ≤ (s.coreAt 5).waitedV) ∧
      (let s := edgeRig waitaWord (fun c => { c with waitedL := 65536, sregs := c.sregs.set 1 1 })
       let c := s.coreAt 5
       dueAlone (s.at 5) (.waita fawt) ∧ goLs (.waita fawt) 0 0 0 (s.at 5) [.s fawt.a, .s fawt.r1] ∧
         inPad c (ea c fawt.a fawt.disp) 16 16 ∧ c.waitaSeen = false ∧
         2 ^ 31 ≤ (BitVec.ofNat 32 (c.spad.readN (ea c fawt.a fawt.disp + 8) 4) - field 0 32 (c.sreg fawt.r1)).toNat ∧
         max 1024 c.wdog.toNat ≤ c.waitedL) := by
  and_intros <;> first
    | decide +kernel
    | (simp only [goV, goLs, inPad, ea, rd, State.mayIssue, State.unheld, zeros]; decide +kernel)
    | (intro t h; cases h)
    | exact ⟨0, by decide +kernel⟩
    | exact ⟨BitVec.ofNat 384 vsinWord, .inl (by decide +kernel), by decide +kernel⟩
    | exact ⟨BitVec.ofNat 384 waitaWord, .inl (by decide +kernel), by decide +kernel⟩

/-- The geometry of a launch of one tile: policy, priority 0, OX = OY = 0. -/
def geom1 (policy : Nat) : Word := BitVec.ofNat 64 (1 + 2 ^ 8 + policy * 2 ^ 32)

/-- A launch of context 5 from queue 3, of one tile at the origin; its image is at 0x80000. -/
def launch0 (st : LaunchState) : Launch :=
  { gang0.launch with id := 9, ctx := 5, image := 0x80000, geom := geom1 1, args := List.replicate 8 7, st }

/-- An image of one halfword of code, tag 5, and no other section (R74). -/
def image0 : List (BitVec 8) :=
  leBytes 64 (0x31574C59 + 5 * 2 ^ 32 + 1 * 2 ^ 80 + 64 * 2 ^ 288 + 128 * 2 ^ 256 + 128 * 2 ^ 320 + 128 * 2 ^ 352 + 128 * 2 ^ 384) ++
    leBytes 64 0

/-- Context 5 on tiles 0 and 1 with field 0 powered, launch `l`, and its image in memory. -/
def launchRig (l : Launch) : State :=
  let s := queueRig { QueueRec.fresh with head := [entry 0] } [0x80000]
  { s with
    cycle := 1024, launches := [l], gangs := [], bootFields := 1, sys := { s.sys with fpwrSt := 1 }
    drawer := s.drawer.putBytes 0x200000 image0 }

/-- Whether a load ends with a plane that `g` accepts. -/
def loadedWith (r : Loaded × State) (g : Plane → Nat → List (BitVec 8) → Bool) : Bool :=
  match r.1 with | .ok p c _ d => g p c d | _ => false

/-- LaunchesArePlaced: a round's cycle, a launch that policy 1 places, an image that loads and one that is out of alignment, a
geometry of no tile, a launch past LNCH_AGE. -/
theorem test_meets_LaunchesArePlaced :
    (let l := { launch0 .head with geom := geom1 1 ||| BitVec.ofNat 64 (2 ^ 51), deps := [0, 0, 0, 0] }
     let x : Xfer := { owner := .dep 9 0, port := 5, todo := [], put := [], write := false, got := [(1, 0)] }
     let s := launchRig l
     let t := { s with cores := [(0, { Core.fresh 0 with xfers := [x] })] }
     s.launch? l.id = some l ∧ s.cycle % 256 = 0 ∧ l.st = .head ∧ geomDepk l.geom 0 = 1 ∧ (∀ j < 4, j ≠ 0 → geomDepk l.geom j ≠ 1) ∧
       depWord l 0 + 16 ≤ (s.coreAt (depTile s l 0)).spend ∧ (s.coreAt (depTile s l 0)).xfersOf (.dep l.id 0) = [] ∧
       (t.coreAt (depTile t l 0)).xferDone (.dep l.id 0) = true ∧
       (BitVec.ofNat 32 (bytesNat ((t.coreAt (depTile t l 0)).xferBytes (.dep l.id 0) (depWord l 0 + 8) 4))).toNat < 2 ^ 31 ∧
       (s.coreAt (depTile s l 0)).xferDone (.dep l.id 0) = false) ∧
      (let l := launch0 .eligible
       let s := launchRig l
       s.launches = [l] ∧ s.cycle % 256 = 0 ∧ l.st = .eligible ∧ (s.ctx l.ctx).st = 1 ∧ l.bad = 0 ∧ s.gangs = [] ∧
         s.saved = [] ∧ geomPolicy l.geom = 1 ∧ (∀ i < geomW l.geom, ∀ j < geomH l.geom,
           s.placeable (tidOf ((s.ctx l.ctx).x0.toNat + geomOx l.geom + i) ((s.ctx l.ctx).y0.toNat + geomOy l.geom + j)) = true)) ∧
      (rig id).cycle % 256 ≠ 0 ∧
      (let l := { launch0 .placed with loaded := false }
       let k := fieldOf (tidOf l.ox l.oy)
       let s := { launchRig l with
                  jobs := [endedJob (newJob moduleUnit (.image l.id 0) k 5 0x80000 64 none) (image0.take 64),
                           { endedJob (newJob moduleUnit (.image l.id 4) k 5 0x80080 2 none) [0, 0] with id := 8 }] }
       s.launch? l.id = some l ∧ l.st = .placed ∧ l.loaded = false ∧ l.hold = false ∧ l.placedAt + 1 ≤ s.cycle ∧
         loadedWith (s.readImage (imageReader (.image l.id) (fieldOf (tidOf l.ox l.oy)) l.ctx) l.image l.looptab
           (geomW l.geom) (geomH l.geom) 0xC0000)
           (fun p c d => p.tag == 5 && p.ncode == 1 && p.ndict == 0 && c == 1 && d.isEmpty) = true) ∧
      (let l := { launch0 .placed with loaded := false, image := 0x80020 }
       let s := launchRig l
       s.launch? l.id = some l ∧ l.st = .placed ∧ l.loaded = false ∧ l.hold = false ∧ l.placedAt + 1 ≤ s.cycle ∧
         (s.readImage (imageReader (.image l.id) (fieldOf (tidOf l.ox l.oy)) l.ctx) l.image l.looptab
           (geomW l.geom) (geomH l.geom) 0xC0000).1 = .status 4) ∧
      (let l := { launch0 .head with geom := 2 ^ 8, bad := 6 }
       let s := launchRig l
       s.launch? l.id = some l ∧ (∀ g ∈ s.gangs, g.id ≠ l.id) ∧ l.st = .head ∧ l.bad ≠ 0 ∧ geomW l.geom = 0) ∧
      (let l := { launch0 .head with geom := 2 ^ 6 + 2 ^ 8 }
       let s := launchRig l
       s.headStatus l 0 ≠ 6 ∧ (s.ctx l.ctx).w.toNat < geomW l.geom) ∧
      (let s := { launchRig (launch0 .head) with launches := [] }
       let s := { s with qdesc := [(3, qd3 ||| 2)] }
       (s.queueRec 3).head = entry 0 :: [] ∧ qdV (s.queueDesc 3) = true ∧ qdLaunch (s.queueDesc 3) = true ∧
         (s.ctx (qdCtx (s.queueDesc 3))).st ≠ 5 ∧ ∀ l ∈ s.launches, l.qid = 3 → l.waits = false) ∧
      (let l := launch0 .head
       let s := { launchRig l with cycle := 65537, sys := { SysRegs.fresh with lnchAge := 1 } }
       s.launch? l.id = some l ∧ l.st = .head ∧ l.stale = false ∧ 0 < s.sys.lnchAge.toNat % 2 ^ 32 ∧
         65536 * (s.sys.lnchAge.toNat % 2 ^ 32) < s.cycle - l.headAt) := by
  and_intros <;> decide +kernel

/-- A line on which tile 0 has arrived with vote 1. -/
def line0 (release : Option Nat) : Line := { arrived := [(0, true)], lastTid := 0, lastAt := 990, release }

/-- GangsAndBarriers: the last arrival of a gang of one, a frozen member, a release; a grant, a start token, a start and an end. -/
theorem test_meets_GangsAndBarriers :
    (let g := { gang0 with lines := gang0.lines.set 2 (line0 none) }
     let s := { rig (fun c => { c with strand := .sync 2 1 }) with gangs := [g], cycle := 5000 }
     s.gangs.find? (fun x => x.id == g.id) = some g ∧ (g.lines.get (2 : BitVec 2).toFin).release = none ∧
       (g.lines.get (2 : BitVec 2).toFin).arrived.length = g.w * g.h ∧
       (g.lines.get (2 : BitVec 2).toFin).lastAt + g.delay (g.lines.get (2 : BitVec 2).toFin).lastTid ≤ s.cycle ∧
       (∀ t ∈ g.tiles, (s.coreAt t).frozen = false) ∧ (s.ctx g.ctx).st ≠ 2 ∧ (s.ctx g.ctx).st ≠ 3) ∧
      (let s := { rig (fun c => { c with frozen := true }) with gangs := [gang0] }
       s.gangs.find? (fun x => x.id == gang0.id) = some gang0 ∧ 0 ∈ gang0.tiles ∧ (s.coreAt 0).frozen = true) ∧
      (let g := { gang0 with lines := gang0.lines.set 2 (line0 (some 1000)) }
       let s := { rig (fun c => { c with strand := .sync 2 1 }) with gangs := [g] }
       s.gangs.find? (fun x => x.id == g.id) = some g ∧ (g.lines.get (2 : BitVec 2).toFin).release = some 1000 ∧ 1000 ≤ s.cycle ∧
         (0, true) ∈ (g.lines.get (2 : BitVec 2).toFin).arrived ∧ (s.coreAt 0).strand = .sync 2 1) ∧
      (let l := { launch0 .placed with cost := 1023, loadedAt := 1 }
       let s := launchRig l
       s.launch? l.id = some l ∧ l.st = .placed ∧ l.loaded = true ∧ l.loadedAt + l.cost ≤ s.cycle ∧
         (∀ t ∈ l.tiles, s.gangOf t = none) ∧ unmoved s l) ∧
      (let l := { launch0 .starting with startAt := 1024 }
       let s := launchRig l
       s.launch? l.id = some l ∧ l.st = .starting ∧ 0 ∈ l.tiles ∧ (∀ k ∈ l.tokens, k.1 ≠ 0) ∧ unmoved s l) ∧
      (let l := { launch0 .starting with grant := 1000, startAt := 1352 + 8, data := entry 3, dataAddr := 4096, tokens := [(0, 1023)] }
       (let s := launchRig l
        s.cycle ≠ l.startAt ∧ s.cycle < l.grant + 349 ∧ s.cycle = 1023 + 1) ∧
         (let s := { launchRig l with cycle := 1023 + 2 + 255 }
          s.cycle ≠ l.startAt ∧ s.cycle < l.grant + 349) ∧
         (let s := { launchRig l with cycle := 1000 + 349 + 1 }
          s.cycle ≠ l.startAt ∧ 1023 + 258 ≤ s.cycle ∧ s.cycle = l.grant + 349 + 1 ∧ 8 * 1 < l.data.length ∧ (s.coreAt 0).spad.wf = true) ∧
         (let s := { launchRig l with cycle := 1360 }
          s.cycle = l.startAt ∧ 1023 + 258 ≤ s.cycle ∧ l.data.length ≤ 8 * (s.cycle - (l.grant + 349)) ∧ l.args.length = 8)) ∧
      (let l := { launch0 .starting with startAt := 1024, tokens := [(0, 700)] }
       let s := launchRig l
       s.launch? l.id = some l ∧ l.st = .starting ∧ s.cycle = l.startAt ∧ (∀ t ∈ l.tiles, ∃ k ∈ l.tokens, k.1 = t) ∧ unmoved s l) ∧
      (let s := gangRig (fun c => { c with strand := .drained false })
       s.gangs.find? (fun x => x.id == gang0.id) = some gang0 ∧ gang0.isOver = false ∧ gang0.left = [] ∧
         (∀ t ∈ gang0.tiles, (s.coreAt t).strand = .drained false)) := by
  and_intros <;> first | decide +kernel | (simp only [unmoved]; decide +kernel)

/-- A gang of context 5 in the save area, its tile's core under number 0x20001. -/
def savedRig : State :=
  let s := launchRig (launch0 .head)
  { s with
    launches := [], ctxs := [(5, { ctx5 with st := 6 })]
    saved := [{ gang := { gang0 with ctx := 5, launch := launch0 .running }, tiles := [0x20001], place := none, image := none
                startAt := none, hold := false, nums := [0], blocks := [[]] }]
    cores := [(0x20001, { Core.fresh 0 with strand := .saved, pos := { (Core.fresh 0).pos with ctx := 5 } })] }

/-- ContextOperations: GO of each operation, free and busy; a halt token, the last tile to halt and one of two; a record with its
links up; a gang that returns to its origin; a destroyed context with nothing left. -/
theorem test_meets_ContextOperations :
    (let x : Word := 0x8050000000000000
     let s := ctxRig 1 id
     goPre x 0 ∧ ctxOf x = 5 ∧ s.preBusy = false ∧ (s.ctx 5).st = 1 ∧ (∀ l ∈ s.launches, l.ctx = 5 → l.waits = true) ∧
       s.residents 5 = [0] ∧ (∀ t ∈ [0], (s.coreAt t).strand ≠ .drained true)) ∧
      (let s := { ctxRig 1 id with sys := { SysRegs.fresh with preCtl := 0x4000000000000000 } }
       (0x8050000000000000 : Word).getLsbD 63 = true ∧ s.preBusy = true ∧ goPre 0x8050000000000000 0 ∧ goPre 0x9050000000000000 1 ∧
         goPre 0xA050000000000000 2) ∧
      (let s := ctxRig 4 id
       s.preBusy = false ∧ (s.ctx (ctxOf 0x9050000000000000)).st = 4 ∧ (s.ctx (ctxOf 0xA050000000000000)).st = 4) ∧
      (let s := ctxRig 2 id
       s.gangOf 0 = some { gang0 with ctx := 5 } ∧ (s.ctx 5).st = 2 ∧ (s.coreAt 0).haltReq = false) ∧
      (let s := { ctxRig 2 (fun c => { c with haltReq := true, strand := .saved }) with preWait := [0] }
       s.gangOf 0 = some { gang0 with ctx := 5 } ∧ (s.ctx 5).st = 2 ∧ 0 ∈ s.preWait ∧ atRest s 0 ∧ (∀ n ∈ s.preWait, n = 0) ∧
         (∃ n ∈ [0, 1], n ≠ 0) ∧ (s.residents 5).Nodup ∧ s.residents 5 = [0]) ∧
      (let s := { launchRig (launch0 .head) with
                  launches := [], gangs := [{ gang0 with ctx := 5 }], ctxs := [(5, { ctx5 with st := 3 })], preWait := [0] }
       s.gangOf 0 = some { gang0 with ctx := 5 } ∧ (s.ctx 5).st = 3 ∧ 0 ∈ s.preWait ∧ (s.coreAt 0).frozen = false ∧
         s.job? 0 .save = none ∧
         (let j := endedJob (physJob 0 .save 5 0x8000 [1]) []
          let t : State := { s with jobs := [j] }
          t.job? 0 .save = some j ∧ j.ended = some (.done []) ∧ (∀ k ∈ t.jobs, k.id = j.id → k = j) ∧ (∀ n ∈ t.preWait, n = 0) ∧
            (∃ n ∈ ({ t with preWait := [0, 1] } : State).preWait, n ≠ 0))) ∧
      (let g := { gang0 with ctx := 5, launch := launch0 .running }
       let v : SavedGang := { gang := g, tiles := [0x20001], nums := [0], blocks := [[]], place := none, image := none, startAt := none, hold := false }
       (savedRig.ctx v.gang.ctx).st = 6 ∧ savedRig.saved = [v] ∧ v.place = none ∧ savedRig.restoreOrigin v = some (0, 0) ∧
         (let w : SavedGang := { v with place := some (0, 0), image := some none }
          let j := endedJob (newJob 0x20001 .recall 0 5 0 8 none) []
          let s : State := { savedRig with saved := [w], jobs := [j] }
          (s.ctx w.gang.ctx).st = 6 ∧ w.startAt = none ∧ (rectTiles 0 0 1 1).all s.placeable = true ∧ w.blocks = [[]] ∧
            j.core = 0x20001 ∧ j.who = .recall ∧ j.ended = some (.done []) ∧ 0x20001 ≠ tidOf 0 0) ∧
         (rectTiles 0 0 1 1).all savedRig.placeable = true ∧ g.w = 1 ∧ g.h = 1 ∧
         g.left = [] ∧ v.tiles = [0x20001] ∧ (savedRig.coreAt 0x20001).strand = .saved ∧ (savedRig.coreAt 0x20001).dacc = [] ∧
         g.ox < 184 ∧ (savedRig.coreAt 0x20001).inflight ++ (savedRig.coreAt 0x20001).snapPre.results = []) ∧
      (let s := { rig id with ctxs := [(5, { ctx5 with st := 5 })] }
       (s.ctx 5).st = 5 ∧ s.queuesOf 5 = [] ∧
         (∀ e ∈ s.cores, e.2.pos.ctx.toNat = 5 → e.2.slogSlot = none)) := by
  and_intros <;> first
    | decide +kernel
    | (simp only [goPre, ctxOf]; decide +kernel)
    | (simp only [atRest]; and_intros <;> first | decide +kernel | exact fun x hx => absurd hx List.not_mem_nil)

/-! ### Tables, links, power, repair, management port, ports and boot: states that meet the hypotheses -/

/-- A context descriptor: 2 × 1 tiles at (4, 0), one queue home, page tables at 2^20, valid (R320). -/
def cd0 : BitVec 256 := (1 : BitVec 256) ||| BitVec.ofNat 256 (2 ^ 32 * 2 + 2 ^ 40 * 1 + 2 ^ 48 * 4 + 2 ^ 128 * 1 + 2 ^ 160 * 16)

/-- A descriptor's words staged, with its table and index selected. -/
def staged (sel : Word) (d : BitVec 256) : SysRegs :=
  { SysRegs.fresh with dscSel := sel, dscD := #v[field 0 64 d, field 64 64 d, field 128 64 d, field 192 64 d], drwCap := 0x1000000 }

/-- Slot tables of link 3 with group 0's first entry 5 in the shadow table, the link up at its table's first slot. -/
def slotRig : State :=
  { rig id with slotsS := [(3 * 1024, 5)], sltWait := [3], links := [(3, { Link.fresh with st := 2, slot := 2048 })] }

/-- TablesAreSelectedAndCommitted: descriptors that are kept and that are not, a grant's rectangle, a range, a host set, slot tables
good and bad, a link at slot 0 of its table. -/
theorem test_meets_TablesAreSelectedAndCommitted :
    (let s := { queueRig QueueRec.fresh [] with sys := staged 4 qd3 }
     goDsc s (2 ^ 63) false ∧ qdV (s.queueDesc (dscIndex s)) = false ∧ s.goodQueueDesc s.stagedDesc = true ∧ qdClosed s.stagedDesc = false) ∧
      (let s := { queueRig QueueRec.fresh [] with sys := staged 4 (qd3 ||| 2 ^ 10) }
       goDsc s (2 ^ 63) false ∧ qdV (s.queueDesc (dscIndex s)) = false ∧ s.goodQueueDesc s.stagedDesc = false) ∧
      (let s := { queueRig QueueRec.fresh [] with sys := staged (2 ^ 63 + 6) cd0 }
       goDsc s (2 ^ 63) true ∧ dscIndex s < 64 ∧ ctxWordOk s.stagedDesc ∧ (Ctx.ofBits s.stagedDesc).v = true ∧ (s.ctx (dscIndex s)).st = 0 ∧
         (∀ e ∈ s.ctxs, e.1 ≠ dscIndex s → e.2.v = true → (Ctx.ofBits s.stagedDesc).meets e.2 = false)) ∧
      (let s := { queueRig QueueRec.fresh [] with sys := staged (2 ^ 63 + 64) cd0 }
       goDsc s (2 ^ 63) true ∧ 64 ≤ dscIndex s) ∧
      (let s := { rig id with sys := { SysRegs.fresh with atbSel := 64 * 2 ^ 16, atbD0 := 184 + 184 * 2 ^ 8, atbD1 := 2 } }
       goAtb s (2 ^ 63) 0 ∧ field 2 62 s.sys.atbD1 = (0 : BitVec 62) ∧ s.sys.atbSel.toNat / 2 ^ 16 % 2 ^ 7 ≤ 64 ∧
         s.sys.atbD0.toNat / 2 ^ 32 = 0 ∧ s.sys.atbD0.toNat % 2 ^ 8 = 184 ∧ s.sys.atbD0.toNat / 2 ^ 8 % 2 ^ 8 = 184 ∧ rising s.grants) ∧
      (let s := { rig id with sys := { SysRegs.fresh with atbSel := 65 * 2 ^ 16 } }
       goAtb s (2 ^ 63) 0 ∧ field 2 62 s.sys.atbD1 = (0 : BitVec 62) ∧ 64 < s.sys.atbSel.toNat / 2 ^ 16 % 2 ^ 7) ∧
      (let s := { rig id with sys := { SysRegs.fresh with
                    atbSel := 2 ^ 62 + 64 * 2 ^ 16 + 1, atbD0 := 2 ^ 63 + 2 ^ 16, atbD1 := 2 ^ 16 + 3, drwCap := 0x1000000 } }
       goAtb s (2 ^ 63) 1 ∧ field 48 15 s.sys.atbD0 = (0 : BitVec 15) ∧ field 0 16 s.sys.atbD0 = (0 : BitVec 16) ∧
         field 48 16 s.sys.atbD1 = (0 : BitVec 16) ∧ field 2 14 s.sys.atbD1 = (0 : BitVec 14) ∧
         s.sys.atbSel.toNat / 2 ^ 16 % 2 ^ 7 = 64 ∧ s.sys.atbSel.toNat % 8 = 1 ∧
         (field 16 32 s.sys.atbD0 : BitVec 32) ≤ field 16 32 s.sys.atbD1 ∧ (field 16 32 s.sys.atbD1 : BitVec 32).toNat * 2 ^ 16 < s.cap) ∧
      (let s := { rig id with sys := { SysRegs.fresh with atbSel := 2 ^ 62 + 64 * 2 ^ 16 } }
       goAtb s (2 ^ 63) 1 ∧ s.sys.atbSel.toNat / 2 ^ 16 % 2 ^ 7 = 64 ∧ s.sys.atbSel.toNat % 8 = 0) ∧
      (let s := { rig id with sys := { SysRegs.fresh with atbSel := 2 ^ 63 + 3 } }
       goAtb s (2 ^ 63) 2 ∧ s.sys.atbD1 = 0) ∧
      (slotRig.sys.sltCtl.getLsbD 62 = false ∧ (2 ^ 63 + 112 : Word).getLsbD 63 = true ∧ 112 ≤ (2 ^ 63 + 112 : Word).toNat % 2 ^ 7) ∧
      (slotRig.sys.sltCtl.getLsbD 62 = false ∧ (2 ^ 63 + 111 : Word).getLsbD 63 = true ∧ (2 ^ 63 + 111 : Word).getLsbD 61 = false ∧
        (2 ^ 63 + 111 : Word).toNat % 2 ^ 7 < 112 ∧ slotRig.badShadow 111 = false ∧
        ({ slotRig with slotsS := [(111 * 1024 + 1023, 0x80)] } : State).badShadow 111 = true) ∧
      (3 ∈ slotRig.sltWait ∧ (slotRig.link 3).st = 2 ∧ (slotRig.link 3).slot % 1024 = 0 ∧ rising slotRig.slotsS) := by
  and_intros <;> first | decide +kernel | (simp only [goDsc, goAtb, dscIndex, ctxWordOk, rising]; decide +kernel)

/-- TokensAndLinks: the one metered context at a refill, a link that trains to each end, one that is up, requests of a core and of a
host port that have waited the bound out. -/
theorem test_meets_TokensAndLinks :
    (let s := { gangRig id with bwc := [(63, 1024)], cycle := 2048 }
     soleMetered s 63 ∧ s.cycle % 1024 = 0 ∧ s.bwcNext = [] ∧ rising s.cores ∧ 0 ∈ s.cores.map (·.1)) ∧
      (let s := { rig id with links := [(110, { Link.fresh with st := 2 }), (111, { Link.fresh with st := 1 })]
                              env := { Env.fresh with lat := [(110, 1681), (111, 1680)] } }
       (s.link 111).st = 1 ∧ Tab.getD s.env.lat 111 0 ≤ 1680 ∧ 1680 < Tab.getD s.env.lat 110 0 ∧ (s.link 110).st = 2) ∧
      (let r := { req0 none (.queue 1) none with waited := 62500 }
       let s := { rig id with reqs := [r] }
       let w := { r with core := 0x10100, owner := .walk 3 }
       s.reqs.find? (fun q => q.id == r.id) = some r ∧ 62500 ≤ r.waited ∧ s.linkUp (linkOf r.addr) = false ∧ r.owner ≠ .host ∧
         r.traps = true ∧ w.traps = false) ∧
      (let q := { req0 none (.queue 1) none with waited := 62500, addr := 0x200000 }
       let r := { req0 (some (entry 1)) (.queue 2) none with waited := 62500, addr := 0x201000, id := 81, owner := .access 1 }
       let x := { r with id := 82, waited := 3 }
       let s := { rig id with reqs := [x, r, q] }
       (s.reqs.map (·.id)).Nodup ∧ linkOf q.addr < linkOf r.addr ∧ s.linkUp (linkOf q.addr) = false ∧
         s.linkUp (linkOf r.addr) = false ∧ q.ofStrand = true ∧ r.ofStrand = true ∧ q.core = r.core ∧
         ∀ x ∈ s.reqs, x.core = r.core → x.id ≠ q.id → x.id ≠ r.id → x.waited < 62500) ∧
      (let r := req0 none .resend (some (.ok [1]))
       let s := { queueRig QueueRec.fresh [] with reqs := [r] }
       let n := linkOf 0x200000
       (s.link n).st = 2 ∧ (s.link n).t0 + 5 * (s.link n).slot / 14 ≤ s.cycle ∧ s.urgentAt n = none ∧
         nextGrant s n = some (5, true) ∧ oldestReq (s.queued n 5) = some r) ∧
      (let a := { atom0 with kind := .ldh 3 7, off := 0 }
       let r := req0 none (.served 990 1000) (some .returned)
       let s := { rig (fun c => { c with dacc := [a] }) with reqs := [r] }
       (s.coreAt 0).dacc.find? (fun x => x.id == a.id && x.isLoad && x.st == .sent) = some a ∧
         s.reqs.filter (fun r => r.core == 0 && r.owner == .access a.id) = [r] ∧ (1000 : Nat) ≤ s.cycle ∧ (s.coreAt 0).frozen = false) ∧
      (let r := { req0 none (.net 1000) none with waited := 62500, core := 0x10003, owner := .host }
       let s := { rig id with reqs := [r] }
       s.reqs.find? (fun q => q.id == r.id) = some r ∧ 62500 ≤ r.waited ∧ r.owner = .host ∧ s.linkUp (linkOf r.addr) = false ∧ r.core = 0x10000 + 3 ∧ r.write = none) := by
  and_intros <;> first | decide +kernel | (simp only [soleMetered, rising]; decide +kernel)

/-- An event offered in cycle `n`. -/
def offer0 (n loc : Nat) : Offer := { since := n, org := 2, loc, ctx := 5, code := 2, data := [], merged := 0, log := none }

/-- PowerAndSystemRegisters: samples below and at the shutdown's reading, one above THERM_CFG's, a field to switch off that is in use
and one that is not, stages of switching on, the wake timer, the older of two events, contexts with and without V. -/
theorem test_meets_PowerAndSystemRegisters :
    (let s := { State.reset with cycle := 12500, env := { Env.fresh with temps := [(8, [0x640])] }, sens := [(3, 2 ^ 63)] }
     s.nextSample ≤ s.cycle ∧ (∀ f < 64, ∀ n < 4, s.sensorCode f n < 1840) ∧ s.sys.thermCfg.toNat % 2 ^ 12 ≤ s.sensorCode 2 0 ∧
       (Tab.getD s.sens 2 0).getLsbD 63 = false ∧ (Tab.getD s.sens 3 0).getLsbD 63 = true ∧
       (∀ n < 4, s.sensorCode 3 n < s.sys.thermCfg.toNat / 2 ^ 16 % 2 ^ 12)) ∧
      (let s := { State.reset with cycle := 12500, env := { Env.fresh with temps := [(255, [1840])] } }
       s.nextSample ≤ s.cycle ∧ s.shutdown = false ∧ 1840 ≤ s.sensorCode 63 3 ∧ (rig id).cycle < (rig id).nextSample) ∧
      (let s := { rig id with sys := { SysRegs.fresh with fpwrEn := 0x8000000000000000, fpwrSt := 0x8000000000000000 } }
       s.shutdown = false ∧ (∀ f < 64, s.sys.fpwrEn.getLsbD f = true → (1 : Word).getLsbD f = false → s.fieldBusy f = false)) ∧
      (let s := { queueRig QueueRec.fresh [] with sys := { SysRegs.fresh with fpwrEn := 1, fpwrSt := 1 } }
       s.shutdown = false ∧ s.sys.fpwrEn.getLsbD 0 = true ∧ (2 : Word).getLsbD 0 = false ∧ s.fieldBusy 0 = true) ∧
      (let w : Switching := { fld := 63, stage := 15, since := 0 }
       let v : Switching := { fld := 62, stage := 0, since := 0 }
       let s := { rig id with switching := [w, v], cycle := 1250 }
       let t := { rig id with switching := [v], cycle := 1250 }
       (let u := { s with sys := { SysRegs.fresh with fpwrEn := 0xC000000000000000 } }
        u.shutdown = false ∧ u.switching = w :: v :: [] ∧ (0x4000000000000000 : Word).getLsbD w.fld = false ∧
          (0x4000000000000000 : Word).getLsbD v.fld = true ∧
          ∀ f < 64, u.sys.fpwrEn.getLsbD f = true → (0x4000000000000000 : Word).getLsbD f = false → u.fieldBusy f = false) ∧
       s.switching = [w, v] ∧ w.since + 1250 ≤ s.cycle ∧ w.stage = 15 ∧ w.fld < 64 ∧ t.switching = [v] ∧ v.since + 1250 ≤ t.cycle ∧
         v.stage < 15) ∧
      (let s := { coreRig (fun c => { c with strand := .coreIdle }) with sys := { SysRegs.fresh with wake := 0x8000000000000000 + 1000 } }
       s.sys.wake.getLsbD 63 = true ∧ s.sys.wake.toNat % 2 ^ 63 ≤ s.cycle ∧ (s.coreAt mgmtCore).strand = .coreIdle) ∧
      (let s := { rig id with offered := [offer0 1000 4, offer0 1000 3, offer0 1001 0] }
       s.stampedNow = false ∧ offer0 1000 3 ∈ s.offered ∧ (offer0 1000 3).since ≤ s.cycle ∧
         (∀ x ∈ s.offered, x ≠ offer0 1000 3 → stampedFirst (offer0 1000 3) x)) ∧
      ((0x0040 : Word).toNat % 2 ^ 16 = 0x40 ∧ (0x007F : Word).toNat % 2 ^ 16 = 0x7F ∧ (0x003F : Word).toNat % 2 ^ 16 < 0x40 ∧
        0x7F < (0x0080 : Word).toNat % 2 ^ 16) ∧
      ((∀ e ∈ (rig id).ctxs, e.2.v = false) ∧ (∃ e ∈ (queueRig QueueRec.fresh []).ctxs, e.2.v = true)) := by
  and_intros <;> first | decide +kernel | (simp only [stampedFirst]; decide +kernel)

/-- A migration of field 0's row 2, found in cycle 0. -/
def mig0 (stage : MigStage) : Migration := { failed := 0, row := true, index := 2, e := 0, region := [0], stage, next := [] }

/-- Its state. -/
def migRig (stage : MigStage) (g : Core → Core) : State := { rig g with migrations := [(0, mig0 stage)], cycle := 8392 }

/-- The router port that leads west out of tile 1, into tile 0. -/
def entry0 : Nat := portName 1 3

/-- RepairAndMigration: a service command, an error of a tile with a spare row and of one without any spare, each stage of a
migration, a mark on the scratchpad's last word, a mesh link and its held packets. -/
theorem test_meets_RepairAndMigration :
    (isService .addHole 7 ∧ (0x7000000000 : Word).toNat / 2 ^ 36 % 2 ^ 4 = 7) ∧
      (let s := gangRig id
       mayFail s 0 4 ∧ Tab.get? s.migrations (fieldOf 0) = none ∧ (s.fieldMap (fieldOf 0)).rowA = none ∧ s.gangOf 0 = some gang0 ∧
         gang0.isOver = false ∧ (s.ctx gang0.ctx).st ≠ 2 ∧ (s.ctx gang0.ctx).st ≠ 3 ∧ (s.coreAt 0).undo = none) ∧
      (let x : Undo := { pc := 7, pcFrom := none, redirects := [], pb := 0, ord := 3, results := 1 }
       let s := gangRig (fun c => { c with undo := some x, issueNo := 4, inflight := [{ w := .s 3 7, fl := 0, slot := .l, rem := 2, lat := 2, ord := 3, late := false }] })
       mayFail s 0 0 ∧ (s.coreAt 0).undo = some x ∧ (s.coreAt 0).frozen = false ∧ (s.coreAt 0).strand = .running ∧
         (s.coreAt 0).issueNo = x.ord + 1 ∧ (s.coreAt 0).inflight.countP (fun r => r.ord == x.ord) = x.results) ∧
      (let s := { rig id with migrations := [(0, mig0 .ordered)] }
       mayFail s 0 4 ∧ Tab.get? s.migrations (fieldOf 0) = some (mig0 .ordered) ∧ (mig0 .ordered).region.contains 0 = true ∧ s.gangOf 0 = none) ∧
      (let s := { rig id with fields := [(0, { FieldMap.fresh with rowA := some 1, rowB := some 3, colA := some 2, colB := some 24 })] }
       mayFail s 0 0 ∧ Tab.get? s.migrations (fieldOf 0) = none ∧ s.gangOf 0 = none ∧ s.qdesc = [] ∧
         (s.fieldMap (fieldOf 0)).rowA = some 1 ∧ (s.fieldMap (fieldOf 0)).rowB = some 3 ∧ (s.fieldMap (fieldOf 0)).colA = some 2 ∧
         (s.fieldMap (fieldOf 0)).colB = some 24) ∧
      (let s := migRig .detected id
       let p := { pkt 1 0 (entry 1) .deposit with links := [(entry0, 990)] }
       Tab.get? s.migrations 0 = some (mig0 .detected) ∧ (mig0 .detected).e + 8 ≤ s.cycle ∧ (∀ l ∈ s.launches, l.st ≠ .starting) ∧
         p.entersAt (mig0 .detected).region = some 990 ∧ p ∈ ({ s with net := [p] } : State).net) ∧
      (let s := migRig .ordered (fun c => { c with lost := true, frozen := true })
       Tab.get? s.migrations 0 = some (mig0 .ordered) ∧ (mig0 .ordered).e + 512 ≤ s.cycle ∧ (s.coreAt 0).lost = true ∧
         0 ∈ (mig0 .ordered).region) ∧
      (let s := migRig .copied id
       Tab.get? s.migrations 0 = some (mig0 .copied) ∧ (mig0 .copied).e + 8384 ≤ s.cycle ∧
         (s.fieldMap 0).retireRow 2 = some { FieldMap.fresh with rowA := some 2, gen := 1 }) ∧
      (let s := migRig .mapped (fun c => { c with hregs := c.hregs.set 15 h0 })
       Tab.get? s.migrations 0 = some (mig0 .mapped) ∧ (mig0 .mapped).e + 8392 ≤ s.cycle ∧ (mig0 .mapped).next = [] ∧
         ((s.coreAt 0).hregs.get (15 : BitVec 4).toFin).isEmpty = false ∧ s.meshPorts = [] ∧ s.inRegion 0 = true ∧
         (mig0 .mapped).region.Nodup ∧
         (let p := { pkt 1 0 (entry 1) .deposit with links := [(entry0, 990)], stuck := true }
          ({ s with net := [p] } : State).net = [p] ∧ s.migrations = [(0, mig0 .mapped)] ∧ p.stuck = true ∧
            p.entersAt (mig0 .mapped).region = some 990) ∧
         (let m := { mig0 .mapped with next := [(24, 5, 2)] }
          let s := { s with migrations := [(0, m)] }
          Tab.get? s.migrations 0 = some m ∧ m.next = [(24, 5, 2)] ∧ (s.tileAt 0 5 2).any (fun x => fieldOf x == 0) = true ∧
            (s.fieldMap 0).rowB = none)) ∧
      33855 < 184 * 184 ∧ 786431 < ((rig id).coreAt 33855).spend ∧
      (67708 / 2 < 184 * 184 ∧ (neighbour (67708 / 2) (1 + 67708 % 2)).isSome = true ∧ (rig id).meshDead 67708 = false) ∧
      (let at_ (out acc : Bool) : State := { rig id with
         meshPorts := [(8, { tout := 3, tin := 1, held := [{ pkt := 70, since := 900, out, acc }] })]
         net := [{ pkt 1 0 (entry 1) .deposit with sent := 1 }] }
       ((at_ true true).meshPort 8).held = [{ pkt := 70, since := 900, out := true, acc := true }] ∧
         ((at_ true false).meshPort 8).held = [{ pkt := 70, since := 900, out := true, acc := false }] ∧
         ((at_ false false).meshPort 8).held = [{ pkt := 70, since := 900, out := false, acc := false }] ∧
         ((at_ false false).net.find? (fun p => p.id == 70)).any
           (fun q => q.sent == q.nd && !q.stuck && decide (900 + q.nd * q.fs ≤ (at_ false false).cycle)) = true ∧
         ((at_ true true).meshPort (2 * 3)).held = [] ∧ ((at_ true true).meshPort (2 * 3 + 1)).held = []) ∧
      (let q : Packet := { pkt 1 0 (entry 1) .deposit with arrived := 0 }
       let at_ (acc : Bool) (ms : Tab Migration) : State := { rig id with
         meshPorts := [(8, { tout := 3, tin := 1, held := [{ pkt := 70, since := 900, out := true, acc }] })], net := [q], migrations := ms }
       ((at_ false [(0, mig0 .ordered)]).net.find? (fun x => x.id == q.id)) = some q ∧
         (at_ false [(0, mig0 .ordered)]).tailThere q = false ∧ (at_ true []).tailThere q = false ∧
         (at_ false [(0, mig0 .ordered)]).inRegion 0 = true ∧ (at_ true []).inRegion 0 = false) ∧
      (let q : Packet := { pkt 1 0 (entry 1) .deposit with arrived := 0 }
       let s := { rig id with net := [q] }
       let t := { s with fields := [(0, { FieldMap.fresh with deadS := List.range 529 })] }
       s.net.find? (fun x => x.id == q.id) = some q ∧ s.tailThere q = false ∧ q.foreign = false ∧ s.detour 200 1 ≠ 2 ∧
         t.detour 200 1 = 2 ∧ ({ q with links := [(7, 990)] } : Packet).links.find? (fun x => x.1 == 7) = some (7, 990) ∧
         ({ pkt 0 0 (entry 1) .deposit with arrived := 0 } : Packet).slot = .n ∧ (s.coreAt 1).failing ++ (s.coreAt 1).deferred = []) := by
  and_intros <;> first
    | exact .inr (.inr (.inr (.inr (.inr (.inr ⟨rfl, rfl⟩)))))
    | decide +kernel
    | (simp only [mayFail]; decide +kernel)

/-- A fault-log record. -/
def rec0 : LogRec := { seq := 1, cycle := 2, unit := 5, kind := 1, count := 3, place := 4, detail := 5 }

/-- ManagementPort: registers that answer and that do not, a running shootdown, a full log, each length's bounds, the core halted, a
datagram that is answered and one that is not, one answered before, one that is new. -/
theorem test_meets_ManagementPort :
    (0x800 ≤ (0x845 : BitVec 32).toNat ∧ (rig id).readSys (0x845 : BitVec 32).toNat = some 0 ∧
      (rig id).readSys (0x1000 : BitVec 32).toNat = none) ∧
      (0x4000000000000000 : Word).getLsbD 62 = true ∧
      (let s := { rig id with flogs := [(5, List.replicate 16 rec0)] }
       goodSelector 5 = true ∧ (Tab.getD s.flogs (5 : BitVec 32).toNat []).length = 16) ∧
      ((0x3FFFC00 : BitVec 32).toNat % 1024 = 0 ∧ (0x3FFFC00 : BitVec 32).toNat < 2 ^ 26 ∧ (rig id).flash.wf = true ∧
        (List.replicate 1024 (7 : BitVec 8)).length = 1024) ∧
      ((coreRig (fun c => { c with strand := .coreHalt })).coreAt mgmtCore).strand = .coreHalt ∧
      (goodDatagram [1, 2, 3] = false ∧ (4 : Nat) < 2 ^ 48) ∧
      (let bs := message 1 7 0x845 []
       let a : Awaited := { src := 4, seq := 7, port := 55, order := 3 }
       let s := { rig id with awaited := [a] }
       goodDatagram bs = true ∧ s.awaited ≠ [] ∧
         (let o : Offer := { since := 1000, org := 8, loc := 55, ctx := 0x7F, code := 0x0038, data := [55, 3], merged := 0, log := none }
          let t := { s with offered := [o] }
          t.stampedNow = false ∧ t.offered = [o] ∧ o.since ≤ t.cycle ∧ a.port = o.loc ∧ a.order = (o.data.getD 1 0).toNat)) ∧
      (let s := { rig id with env := { Env.fresh with lease := some 0 }, flash := [] }
       (2 ^ 48 : Nat) < 2 * 2 ^ 48 ∧ s.env.lease = some 0) ∧
      (∃ u, exec (.portUp 55) (rig id) = .next u) ∧
      (let bs := message 1 7 0x845 []
       let s := { rig id with kept := [{ src := 4, seq := 7, resp := [9] }] }
       goodDatagram bs = true ∧ s.kept.find? (fun k => k.src == 4 && k.seq == bytesNat ((bs.drop 4).take 4)) =
         some { src := 4, seq := bytesNat ((bs.drop 4).take 4), resp := [9] }) ∧
      (∀ k ∈ (rig id).kept, ¬ (k.src = 4 ∧ k.seq = (8 : BitVec 32).toNat)) ∧ (rig id).awaited = [] := by
  and_intros <;> first | decide +kernel | exact ⟨_, rfl⟩

/-- The first 66 bytes of a firmware image: header and one halfword of code (R74, R406). -/
def firmware0 : List (BitVec 8) :=
  leBytes 64 (0x31574C59 + 1 * 2 ^ 80 + 64 * 2 ^ 288 + 128 * 2 ^ 256 + 128 * 2 ^ 320 + 128 * 2 ^ 352 + 128 * 2 ^ 384) ++ leBytes 2 0

/-- A packet at port 3's tile for the port. -/
def portPkt : Packet := { pkt 0 8 (entry 1) .deposit with place := .port 3, dst := portTile 3 }

/-- Port 3 in state `st`, bound to context 5. -/
def portAtRig (st : BitVec 2) (g : Core → Core) : State :=
  { State.reset with
    cycle := 1000, ports := [(3, { Port.fresh with state := st, bnd := true, bctx := 5 })], cores := [(portTile 3, g (Core.fresh (portTile 3)))] }

/-- PortsAndBoot: port 55 and port 3 in each state, a vector each way, a packet that leaves and a route on which one comes in, a flash
without and with firmware, fields powered, a link to train. -/
theorem test_meets_PortsAndBoot :
    (55 < 56 ∧ (portAtRig 1 id).hintNow 3 = false ∧ ((portAtRig 3 id).portAt 3).state = 3) ∧
      (let s := { portAtRig 2 id with ports := [(3, { Port.fresh with state := 2, waited := 1024 })] }
       (s.portAt 3).state = 2 ∧ (s.portAt 3).hint = false ∧ 1024 ≤ (s.portAt 3).waited) ∧
      (let x : Port := { Port.fresh with state := 2, packets := [(70, 3)] }
       let s := { portAtRig 2 id with ports := [(3, x)], net := [portPkt] }
       s.ports = [(3, x)] ∧ s.net = [portPkt] ∧ portPkt.place = .port 3 ∧ portPkt.due ≤ s.cycle + 64) ∧
      (let s := portAtRig 0 id
       let t := { State.reset with cycle := 1000, ports := [(3, { Port.fresh with state := 1 })] }
       let r (x : List Nat) : RouteEnd := (portAtRig 1 id).route (portTile 3) (x ++ [0x40, 0x40, 0x40])
       (s.portAt 3).state ≠ 1 ∧ (t.portAt 3).state = 1 ∧ (t.portAt 3).bnd = false ∧ ((portAtRig 1 id).portAt 3).bnd = true ∧
         (match r [0xC1, 0x01] with | .refused => true | _ => false) = true ∧
         (match r [0x01] with | .port p _ _ => p == 3 | _ => false) = true) ∧
      (let s := portAtRig 1 (fun c => { c with orx := c.orx.set 2 (List.replicate 63 0), otx := c.otx.set 2 [7, 8] })
       (s.portAt 3).state = 1 ∧ ((s.coreAt (portTile 3)).orx.get (2 : BitVec 2).toFin).length < 64 ∧
         (s.coreAt (portTile 3)).otx.get (2 : BitVec 2).toFin = 7 :: [8]) ∧
      (let s := { portAtRig 1 id with net := [portPkt] }
       s.net.find? (fun x => x.id == portPkt.id) = some portPkt ∧ portPkt.place = .port 3 ∧ portPkt.due ≤ s.cycle + 64 ∧
         portPkt.sent = portPkt.nd ∧ s.firstAtPort 3 portPkt = true ∧ (s.portAt 3).bnd = true ∧ (s.portAt 3).state = 1 ∧
         portPkt.off < 2 ^ 20 ∧ portPkt.foreign = false) ∧
      (let q : Packet := { portPkt with place := .peer, due := 1000, credit := true }
       let s := { portAtRig 1 id with net := [q] }
       s.net.find? (fun x => x.id == q.id) = some q ∧ q.due ≤ s.cycle ∧ q.slot = .n ∧ q.again = 0 ∧ q.done = 0 ∧ 0 < q.flits) ∧
      ((field 509 3 (2 ^ 375 * 1 : BitVec 512) : BitVec 3) = 0 ∧
        endsAt ((portAtRig 1 id).route (portTile 3) ((((List.range 6).map (fun i =>
          (field (369 - 8 * i) 8 (0x40 * 2 ^ 361 : BitVec 512) : BitVec 8).toNat))).drop
            ((field 326 3 (0x40 * 2 ^ 361 : BitVec 512) : BitVec 3).toNat + 1))) (portTile 3) = true) ∧
      (State.reset.boot = .reset ∧ State.reset.firmware = none) ∧
      (let s := { State.reset with flash := Mem.putBytes [] 0 (firmware0 ++ leBytes 4 (crc32c firmware0).toNat) }
       s.boot = .reset ∧ (match s.firmware with | some (p, _, d) => p.ncode == 1 && d.isEmpty | none => false) = true) ∧
      (let s := { State.reset with boot := .started, sys := { SysRegs.fresh with fpwrEn := 1, fpwrSt := 1 } }
       s.boot = .started ∧ s.sys.fpwrEn ≠ 0 ∧ s.sys.fpwrSt = s.sys.fpwrEn ∧ s.switching = [] ∧ s.offered = []) ∧
      (let s := { State.reset with boot := .powered, bootFields := 1 }
       s.boot = .powered ∧ s.bootFields.getLsbD (fieldOf (linkTile 0)) = true ∧ (s.link 0).st = 0) := by
  and_intros <;> decide +kernel

/-! ### The whole machine: states and instructions that meet the hypotheses -/

/-- StepRunsDecodedInstruction: a step whose agenda begins with the issue of the bundle of `vsin`, one without an agenda. -/
theorem test_meets_StepRunsDecodedInstruction :
    (let s := { edgeRig vsinWord id with agenda := [.bundleIssue 5, .eventStamp] }
     s.agenda = .bundleIssue 5 :: [.eventStamp] ∧ dueAlone { s with agenda := [.eventStamp], cur := 5 } (.vsin fv)) ∧
      (rig id).agenda = [] := by
  and_intros <;> first
    | decide +kernel
    | (intro t h; cases h)
    | exact ⟨BitVec.ofNat 384 vsinWord, .inl (by decide +kernel), by decide +kernel⟩

/-- EncodeDecodeRoundTrip: an instruction of each direction. -/
theorem test_meets_EncodeDecodeRoundTrip :
    (Instr.add fr).wf = true ∧ encode (.add fr) = some (.s0, 0x010000000000) ∧
      decodeTableWord 384 (0x010000000000 * 2 ^ 320 : BitVec 384).toNat = some (.add fr) ∧ (∀ t, Instr.add fr ≠ .bundleIssue t) := by
  and_intros <;> first | decide +kernel | (intro t h; cases h)

/-- StepKeepsMemoriesCanonical: reset's memories are in canonical form, and it steps. -/
theorem test_meets_StepKeepsMemoriesCanonical : memoriesOk State.reset ∧ ∃ t, step State.reset = .next t :=
  ⟨⟨by decide +kernel, by decide +kernel⟩, _, rfl⟩

/-- DiscardedWritesAndFalseGuards: destinations 0, and a guard on p1 that is false. -/
theorem test_meets_DiscardedWritesAndFalseGuards :
    (goR .add { fr with a := 1, b := 2 } (rig id) [.s 1, .s 2] ∧ goI .addi { fi with a := 1 } (rig id) [.s 1] ∧
      goR .pand { fr with a := 1, b := 2 } (rig id) [.p 1, .p 2] ∧ goV .mand fv (rig id) []) ∧
      (∃ m, slotSem (.add { fr with gp := 1 }) = some m ∧ m.absent (rig id) = none ∧ guardPending m.guard (rig id).core = false ∧
        guardOn m.guard (rig id).core = false) ∧ (Instr.add { fr with gp := 1 }).wf = true ∧ (rig id).unheld := by
  refine ⟨?_, ⟨_, rfl, by decide +kernel, by decide +kernel, by decide +kernel⟩, by decide +kernel, ?_⟩
  · and_intros <;> first
      | decide +kernel
      | (simp only [goR, goI, goV, State.mayIssue, State.unheld, zeros]; decide +kernel)
  · simp only [State.unheld]; decide +kernel

/-- InstructionsKeepTheRest: an instruction that issues, and a local store of each kind on a scratchpad in canonical form. -/
theorem test_meets_InstructionsKeepTheRest :
    (encode (.add fr) = some (.s0, 0x010000000000) ∧ ∃ t, exec (.add fr) (rig id) = .next t) ∧ (rig id).core.spad.wf = true ∧
      (∃ t, exec (.sts { gi := 0, gp := 0, cls := 0, d := 0, a := 0, t := 7, disp := 0 }) (rig id) = .next t) ∧
      (∃ t, exec (.stv { gi := 0, gp := 0, cls := 0, v := 0, a := 0, disp := 0, z := 0 }) (rig id) = .next t) ∧
      ∃ t, exec (.setaw fawt) (rig id) = .next t :=
  ⟨⟨by decide +kernel, _, rfl⟩, by decide +kernel, ⟨_, rfl⟩, ⟨_, rfl⟩, _, rfl⟩
/-- ReservedFieldsTrap: a stray C field under a false guard, type code 15, a field past bit 63, comparison code 10, format words that are
turned away, staging register 48. -/
theorem test_meets_ReservedFieldsTrap :
    (∃ m, slotSem (.add { fr with gp := 1, c := 1 }) = some m ∧ lowestBit m.enc = some 332 ∧ m.absent (rig id) = none ∧
        (m.waits (rig id)).isNone = true ∧ (m.effect (rig id)).core.lockstepCount ≤ 32) ∧ (rig id).unheld ∧
      (rig id).mayIssue (some (0, 0)) [.s 1, .s 2] ∧ (field 4 8 (15 : BitVec 12) : BitVec 8) = 0 ∧
      8 ≤ (field 0 4 (15 : BitVec 12) : BitVec 4).toNat ∧
      64 < (field 6 6 (0x041 : BitVec 12) : BitVec 6).toNat + (field 0 6 (0xFFF : BitVec 12) : BitVec 6).toNat + 1 ∧
      9 < (field 0 4 (10 : BitVec 12) : BitVec 4).toNat ∧
      goI .setfmt { fi with a := 1, imm := 3 } (rig id) [.s 1] ∧ (field 0 4 (3 : BitVec 18) : BitVec 4).toNat < 4 ∧
      goI .setfmt { fi with a := 1, imm := 4 } (rig (withS 1 1)) [.s 1] ∧
      fmtLegal (field 0 32 ((rig (withS 1 1)).core.sreg 1)) = false ∧ (rig id).mayIssue (some (0, 0)) [.s 1] ∧
      (field 6 12 (48 : BitVec 18) : BitVec 12) = 0 ∧ 48 ≤ (field 0 6 (48 : BitVec 18) : BitVec 6).toNat := by
  refine ⟨⟨_, rfl, by decide +kernel, by decide +kernel, by decide +kernel, by decide +kernel⟩, ?_⟩
  and_intros <;> first
    | decide +kernel
    | (simp only [goI, State.mayIssue, State.unheld]; decide +kernel)

/-- R102's example: `cmp` with comparison code 10 raises cause 0x05 with TRAPINFO0 = 320; with its guard false it issues. -/
theorem test_comparison_code_10 :
    ([0, 2].map (fun gp => after (exec (.cmp { fr with gp, d := 8, a := 4, b := 5, x := 10 })
      (rig (fun c => { c with trap := { c.trap with en := true } }))) (0, 0) (fun t => (t.core.trap.cause, t.core.trap.info0)))) =
      [(5, 320), (0, 0)] := by
  decide +kernel
/-! ### The spec's worked examples and boundary values, computed by hand -/

/-- The one result that a step puts in flight. -/
def sole (o : Host.Outcome State Fault Refusal) : Option (Write × Flags) :=
  after o none (fun t => match t.core.inflight with | [r] => some (r.w, r.fl) | _ => none)

/-- R4's example: TID 7,565 at (21, 41), in field 8. -/
theorem test_tid_of_tile : tidOf 21 41 = 7565 ∧ fieldOf 7565 = 8 := by decide

/-- R336's example: the link of 0x12_3456_7000 is 32. -/
theorem test_link_of_address : linkOf 0x1234567000 = 32 := by decide +kernel

/-- R222's example: `.route 5, 9, east 3, south 2`. -/
theorem test_route_entry :
    entrySegs 0x0240438240404040 = [0x43, 0x82, 0x40, 0x40, 0x40, 0x40] ∧ entryDch 0x0240438240404040 = 9 := by decide +kernel

/-- R238's example: TARGET 256, COUNT 200, GEN 11 and 1,024 bytes: COUNT 200, GEN 15, OVR. -/
theorem test_arrive_over_several_phases :
    (let m := arriveAt (Mem.putBytes [] 0 (leBytes 4 256 ++ leBytes 4 200 ++ leBytes 4 11 ++ leBytes 4 0)) 0 1024
     (m.readN 0 4, m.readN 4 4, m.readN 8 4, m.readN 12 4)) = (256, 200, 15, 1) := by decide +kernel

/-- R262's example: levels t 10, y 4, x 4, x 4 at gx = 13, gy = 2. -/
theorem test_loop_registers :
    ((loopRegs [⟨0, 10⟩, ⟨2, 4⟩, ⟨1, 4⟩, ⟨1, 4⟩] 13 2 45).1.toList, (loopRegs [⟨0, 10⟩, ⟨2, 4⟩, ⟨1, 4⟩, ⟨1, 4⟩] 13 2 45).2.toList) =
      ([0, 2, 3, 1, 0, 0, 0, 0], [10, 4, 4, 4, 1, 1, 1, 1]) := by decide +kernel

/-- R359 and R360's example: column 6 of field 8 retired puts (21, 41) at (18, 22); retiring row 18 changes FMAP. -/
theorem test_map_of_retired_column :
    (let s := { rig id with fields := [(8, { FieldMap.fresh with colA := some 6, gen := 7 })] }
     s.physOf 7565 = (18, 22) ∧ (s.fieldMap 8).word = 0x0000000700000026 ∧
       ((s.fieldMap 8).retireRow 18).map FieldMap.word = some 0x0000000800320026) := by decide +kernel

/-- R215's example: image offset 402 under swizzles 1 and 3. -/
theorem test_swizzles : place 1 16 402 = 426 ∧ place 3 16 402 = 282 := by decide

/-- R197's example: the code lengths end at 8,192. -/
theorem test_code_lengths : kdecFinal 0x0000032130000000 = 8192 := by decide +kernel

/-- R107: −1 + 1 wraps to 0. -/
theorem test_addi_wraps :
    sole (exec (.addi { fi with d := 3, a := 1, imm := 1 }) (rig (withS 1 0xFFFFFFFFFFFFFFFF))) = some (.s 3 0, 0) := by
  decide +kernel

/-- R108's example, second line: `movm s9, 0x08d1_59e2`. -/
theorem test_movm_keeps_low_bits :
    sole (exec (.movm { fl with d := 9, imm := 0x08D159E2 }) (rig (withS 9 0x1ABCDEF0))) = some (.s 9 0x023456789ABCDEF0, 0) := by
  decide +kernel

/-- R108's example, third line: `movt s9, 1`. -/
theorem test_movt_keeps_the_rest :
    sole (exec (.movt { fl with d := 9, imm := 1 }) (rig (withS 9 0x023456789ABCDEF0))) = some (.s 9 0x123456789ABCDEF0, 0) := by
  decide +kernel

/-- The scales of v9 in the example of `vqnt`: FP32, lane 2 is 3.0, every other one 0.5. -/
def scales0 : Vec := Fin.foldl 32 (fun (x : Vec) i => x <<< 32 ||| (if i.val = 29 then 0x40400000 else 0x3F000000)) 0

/-- The values of v2: BF16, lanes 5, 6 and 7 are 10, −7 and 300, every other one 0. -/
def values0 : Vec := BitVec.ofNat 1024 (0x4120 * 2 ^ 80 + 0xC0E0 * 2 ^ 96 + 0x4396 * 2 ^ 112)

/-- R136's example: `vqnt.f3.f1 v6, v2, v9, 1` writes 0x03, 0xF2 and 0x7F into bytes 69 to 71, keeps bytes 0 to 63, and raises OF
and NX. -/
theorem test_vqnt_example :
    (match sole (exec (.vqnt { fv with fmt := 3, lw := 1, vd := 6, va := 2, vb := 9, fn := 0x21 })
        (rig (fun c => withV 2 values0 (withV 9 scales0 (withV 6 (0xAB : Vec) c))))) with
      | some (.v 6 x, fl) => (x.toNat / 2 ^ (8 * 69) % 2 ^ 24, x.toNat % 2 ^ 512, fl)
      | _ => (0, 0, 0)) = (0x7FF203, 0xAB, 0x14) := by
  decide +kernel

/-- R197's example: 0x9B, 0x80 decode to 9, 8, 7, 10: bytes 0x89 and 0xA7. -/
theorem test_kdec_example :
    packNibbles (decSymbols 0x0000032130000000 (streamBit [0x9B, 0x80]) 4 0).1 = [0x89, 0xA7] := by decide +kernel

/-- R150's example: sixteen 64-bit lanes 256, 3,072 and 128 bytes apart freeze the tile for 1, 15 and 0 cycles; after one
cycle 4, 15 and none of their words are left. -/
theorem test_bank_conflict_freezes :
    ([256, 3072, 128].map (fun b => after (exec (.ldvs { gi := 0, gp := 0, cls := 0, v := 1, a := 4, lw := 3, s := 5, disp := 0 })
      (rig (fun c => withS 4 0x10000 (withS 5 b c)))) none (fun t => t.core.bankLeft.map (·.length)))) =
      [some 4, some 15, none] := by
  decide +kernel

end Sys2Proof.Tests
end

section
/-! SUPPORT. Canonical memories of a state, and what a core keeps of its scratchpad (R2, R148). -/

namespace Sys2Proof.Machine

open Sys2Proof.Claims

/-- Every memory of the machine is in canonical form: what `memoriesOk` says, core by core. -/
def State.MemOk (s : State) : Prop :=
  s.drawer.wf = true ∧ s.flash.wf = true ∧ ∀ e ∈ s.cores, e.2.spad.wf = true

theorem State.memOk_iff (s : State) : s.MemOk ↔ memoriesOk s := by
  simp [State.MemOk, memoriesOk, State.storesOk, State.spadsOk, and_assoc]

theorem Tab.mem_put {α : Type} {t : Tab α} {k : Nat} {x : α} {e : Nat × α} (h : e ∈ Tab.put t k x) :
    e = (k, x) ∨ e ∈ t := by
  induction t with
  | nil => simp [Tab.put] at h; simp [h]
  | cons f r ih =>
    obtain ⟨j, y⟩ := f
    simp only [Tab.put] at h
    split_ifs at h <;> simp at h ⊢ <;> tauto

theorem foldl_keeps {α β γ : Type} (g : β → γ) {f : β → α → β} (h : ∀ b a, g (f b a) = g b) (l : List α) (b : β) :
    g (l.foldl f b) = g b := by
  induction l generalizing b with
  | nil => rfl
  | cons a l ih => rw [List.foldl_cons, ih, h]

@[simp] theorem Core.ite_spad (p : Prop) [Decidable p] (c d : Core) :
    (if p then c else d).spad = if p then c.spad else d.spad := apply_ite Core.spad p c d

@[simp] theorem Core.foldl_spad {α : Type} {f : Core → α → Core} (h : ∀ c a, (f c a).spad = c.spad) (l : List α) (c : Core) :
    (l.foldl f c).spad = c.spad := foldl_keeps Core.spad h l c

@[simp] theorem Core.makePending_spad (c : Core) (r : PReg) : (c.makePending r).spad = c.spad := by
  unfold Core.makePending; split <;> rfl

@[simp] theorem Core.deliver_spad (c : Core) (k : Cause) (trappc : CodeIdx) (gate : Nat) :
    (c.deliver k trappc gate).spad = c.spad := (rfl)

@[simp] theorem Core.resume_spad (c : Core) : c.resume.spad = c.spad := (rfl)

@[simp] theorem Core.redirect_spad (c : Core) (target : CodeIdx) : (c.redirect target).spad = c.spad := (rfl)

@[simp] theorem Core.endStrand_spad (c : Core) (swap : Bool) : (c.endStrand swap).spad = c.spad := (rfl)

@[simp] theorem Core.asks_spad (c : Core) (ws : List Nat) : (c.asks ws).spad = c.spad := by
  unfold Core.asks; split <;> rfl

@[simp] theorem Core.serveWord_spad (c : Core) (old : Mem) (q : BankWant) : (c.serveWord old q).spad = c.spad := by
  unfold Core.serveWord; (repeat' split) <;> rfl

@[simp] theorem Core.bankTurn_spad (c : Core) (old : Mem) : (c.bankTurn old).spad = c.spad := by
  refine Core.foldl_spad (fun d b => ?_) _ c
  split
  · rfl
  · split
    · rfl
    · dsimp only
      rw [Core.ite_spad]
      split
      · rfl
      · split
        · rw [Core.serveWord_spad]
        · rfl

@[simp] theorem Core.beginXfer_spad (c : Core) (o : XferOwner) (port : Nat) (put : ByteWrites) (words : List Nat) (write : Bool) :
    (c.beginXfer o port put words write).spad = c.spad := (rfl)

@[simp] theorem Core.beginWrite_spad (c : Core) (o : XferOwner) (port : Nat) (bs : ByteWrites) :
    (c.beginWrite o port bs).spad = c.spad := (rfl)

@[simp] theorem Core.beginRead_spad (c : Core) (o : XferOwner) (port a n : Nat) : (c.beginRead o port a n).spad = c.spad := (rfl)

@[simp] theorem Core.endXfer_spad (c : Core) (o : XferOwner) : (c.endXfer o).spad = c.spad := (rfl)

@[simp] theorem Core.setAccess_spad (c : Core) (id : Nat) (st : AccState) : (c.setAccess id st).spad = c.spad := (rfl)

@[simp] theorem Core.dropAccess_spad (c : Core) (id : Nat) : (c.dropAccess id).spad = c.spad := (rfl)

@[simp] theorem Core.unpend_spad (c : Core) (ord : Nat) (rs : List PReg) : (c.unpend ord rs).spad = c.spad := (rfl)

@[simp] theorem Core.mapHandlesBy_spad (g f : Handle → Handle) (c : Core) : (Core.mapHandlesBy g f c).spad = c.spad := (rfl)

@[simp] theorem Core.mapHandles_spad (g : Handle → Handle) (c : Core) : (Core.mapHandles g c).spad = c.spad := (rfl)

@[simp] theorem Core.enqueue_spad (c : Core) (sl : Slot) (k : Cmd) : (c.enqueue sl k).spad = c.spad := by
  unfold Core.enqueue; split <;> rfl

@[simp] theorem Core.own_spad (c : Core) (a : BitVec 2) (changes : Bool) : (c.own a changes).spad = c.spad := (rfl)

@[simp] theorem Core.raiseM_spad (c : Core) : c.raiseM.spad = c.spad := (rfl)

@[simp] theorem Core.raiseK_spad (c : Core) : c.raiseK.spad = c.spad := (rfl)

@[simp] theorem Core.raiseN_spad (c : Core) : c.raiseN.spad = c.spad := (rfl)

@[simp] theorem Core.configureRing_spad (c : Core) (g : BitVec 3) : (c.configureRing g).spad = c.spad := (rfl)

@[simp] theorem Core.writeUser_spad (c : Core) (n : Nat) (x : Word) : (c.writeUser n x).spad = c.spad := by
  unfold Core.writeUser; split <;> rfl

@[simp] theorem Core.writeRow_spad (c : Core) (a : BitVec 2) (row : BitVec 4) (act : BitVec 16) (x : BitVec 1536) :
    (c.writeRow a row act x).spad = c.spad := (rfl)

@[simp] theorem Core.apply_spad (c : Core) (w : Write) : (c.apply w).spad = c.spad := by
  unfold Core.apply; split <;> simp

@[simp] theorem Core.landGroup_spad (c : Core) (tie : Bool) (g : List Res) : (c.landGroup tie g).1.spad = c.spad := by
  simp only [Core.landGroup]; (repeat' split) <;> simp

@[simp] theorem Core.beginCycle_spad (c : Core) : c.beginCycle.spad = c.spad := (rfl)

@[simp] theorem Core.acceptPush_spad (c : Core) (now : Nat) : (c.acceptPush now).spad = c.spad := by
  unfold Core.acceptPush; (repeat' split) <;> rfl

@[simp] theorem Core.landAll_spad (c : Core) (tie : Bool) (gs : List (List Res)) : (c.landAll tie gs).1.spad = c.spad := by
  induction gs generalizing c with
  | nil => rfl
  | cons g gs ih => exact (ih _).trans (c.landGroup_spad tie g)

@[simp] theorem Core.land_spad (c : Core) (tie : Bool) : (c.land tie).1.spad = c.spad :=
  Core.landAll_spad _ tie _

@[simp] theorem Core.defer_spad (c : Core) (k : Cause) : (c.defer k).spad = c.spad := (rfl)

@[simp] theorem Core.freeMarks_spad (c : Core) : c.freeMarks.spad = c.spad := (rfl)

@[simp] theorem Core.dropFailed_spad (c : Core) (k : Cause) : (c.dropFailed k).spad = c.spad := by
  simp only [Core.dropFailed]; (repeat' split) <;> simp

@[simp] theorem Core.knowFailing_spad (c : Core) (net : List Packet) (id : CoreId) : (c.knowFailing net id).spad = c.spad := by
  simp [Core.knowFailing]

@[simp] theorem Core.spendCredit_spad (c : Core) (ch flits : Nat) : (c.spendCredit ch flits).spad = c.spad := (rfl)

@[simp] theorem Core.fillDone_spad (c : Core) (k : Cmd) : (c.fillDone k).spad = c.spad := by
  unfold Core.fillDone; split <;> rfl

@[simp] theorem Core.retireCopy_spad (c : Core) : c.retireCopy.spad = c.spad := by
  unfold Core.retireCopy; (repeat' split) <;> simp

@[simp] theorem Core.holdLoad_spad (c : Core) (id : Nat) : (c.holdLoad id).spad = c.spad := (rfl)

@[simp] theorem Core.sendsFresh_spad (c : Core) (id : Nat) : (c.sendsFresh id).spad = c.spad := (rfl)

@[simp] theorem Core.finish_spad (c : Core) (h : Header) : (c.finish h).spad = c.spad := by
  unfold Core.finish; split <;> rfl

@[simp] theorem Core.stopLast_spad (c : Core) : c.stopLast.spad = c.spad := by
  unfold Core.stopLast; (repeat' split) <;> rfl

@[simp] theorem Core.saveStop_spad (c : Core) : c.saveStop.spad = c.spad := (rfl)

@[simp] theorem Core.setAccRow_spad (c : Core) (a : BitVec 2) (i : Nat) (g : Nat → BitVec 96) :
    (c.setAccRow a i g).spad = c.spad := (rfl)

@[simp] theorem Core.stepRow_spad (c : Core) (k : Cmd) (ps : Pass) (i t : Nat) : (c.stepRow k ps i t).1.spad = c.spad := (rfl)

@[simp] theorem Core.stepCycle_spad (c : Core) (k : Cmd) (ps : Pass) (x : Nat) : (c.stepCycle k ps x).1.spad = c.spad :=
  foldl_keeps (fun d : Core × Flags => d.1.spad) (fun d i => by dsimp only; split_ifs <;> rfl) _ (c, 0)

@[simp] theorem Core.checkMasks_spad (c : Core) (e : MExec) : (c.checkMasks e).1.spad = c.spad := by
  simp only [Core.checkMasks]; (repeat' split) <;> simp

@[simp] theorem Core.advanceArray_spad (c0 : Core) : c0.advanceArray.spad = c0.spad := by
  unfold Core.advanceArray
  split
  · rfl
  · split
    · rfl
    · split
      · rfl
      · refine (foldl_keeps (fun d : Core × Flags => d.1.spad) (fun d ps => ?_) _ _).trans ?_ <;> simp

@[simp] theorem Core.disown_spad (c : Core) (k : Cmd) : (c.disown k).spad = c.spad := by
  simp [Core.disown]

@[simp] theorem Core.retireM_spad (c : Core) (k : Cmd) (fl : Flags) : (c.retireM k fl).spad = c.spad := by
  simp [Core.retireM]

@[simp] theorem Core.failExec_spad (c : Core) (e : MExec) (code : Nat) (info : Word) :
    (c.failExec e code info).spad = c.spad := by
  unfold Core.failExec; split <;> rfl

@[simp] theorem Core.failEpi_spad (c : Core) (e : MExec) (code : Nat) (info : Word) : (c.failEpi e code info).spad = c.spad := (rfl)

@[simp] theorem Core.askPart_spad (c : Core) : c.askPart.spad = c.spad := by
  unfold Core.askPart; (repeat' split) <;> rfl

@[simp] theorem Core.startPass_spad (c : Core) (now : Nat) : (c.startPass now).spad = c.spad := by
  simp only [Core.startPass]; (repeat' split) <;> simp

@[simp] theorem Core.askSlots_spad (c : Core) : c.askSlots.spad = c.spad := by
  unfold Core.askSlots; (repeat' split) <;> rfl

@[simp] theorem Core.retirePass_spad (c : Core) (now : Nat) : (c.retirePass now).spad = c.spad := by
  simp only [Core.retirePass]
  split
  · rfl
  · split
    · rfl
    · simp only [Core.ite_spad, Core.retireM_spad]
      split
      · rfl
      · split
        · rfl
        · split <;> rfl

@[simp] theorem Core.raiseMarks_spad (c : Core) (now : Nat) : (c.raiseMarks now).spad = c.spad := (rfl)

@[simp] theorem Core.nextEpi_spad (c : Core) (e : MExec) (fl : Flags) : (c.nextEpi e fl).spad = c.spad := (rfl)

@[simp] theorem Core.endEpi_spad (c : Core) (now : Nat) : (c.endEpi now).spad = c.spad := by
  simp only [Core.endEpi]; (repeat' split) <;> simp

@[simp] theorem Core.mepiRow_spad (c : Core) (now : Nat) : (c.mepiRow now).spad = c.spad := by
  simp only [Core.mepiRow]; (repeat' split) <;> simp

@[simp] theorem Core.nextRow_spad (c : Core) (e : MExec) (fl : Flags) : (c.nextRow e fl).spad = c.spad := by
  unfold Core.nextRow; split <;> simp

@[simp] theorem Core.mredRow_spad (c : Core) (now : Nat) : (c.mredRow now).spad = c.spad := by
  simp only [Core.mredRow]; (repeat' split) <;> simp

@[simp] theorem Core.mclrRow_spad (c : Core) (now : Nat) : (c.mclrRow now).spad = c.spad := by
  unfold Core.mclrRow; split <;> simp

@[simp] theorem Core.popN_spad (c : Core) : c.popN.spad = c.spad := (rfl)

@[simp] theorem Core.lowerN_spad (c : Core) : c.lowerN.spad = c.spad := (rfl)

@[simp] theorem Core.startSend_spad (c : Core) (k : Cmd) (src roff : Nat) (segs : List Nat) (dch : Nat) (ex : Option (Nat × Nat × Nat)) :
    (c.startSend k src roff segs dch ex).spad = c.spad := (rfl)

@[simp] theorem Core.askTrigger_spad (c : Core) (k : Cmd) : (c.askTrigger k).spad = c.spad := (rfl)

@[simp] theorem Core.fire_spad (c : Core) : c.fire.spad = c.spad := by
  simp [Core.fire]

@[simp] theorem Core.popLands_spad (c : Core) (k : Cmd) (words : List Word) (ok : Bool) :
    (c.popLands k words ok).spad = c.spad := by
  simp only [Core.popLands, Core.lateResult_spad]
  exact Core.foldl_spad (fun _ _ => by rfl) _ c

@[simp] theorem Core.loadShadow_spad (c : Core) (p : Plane) : (c.loadShadow p).spad = c.spad := (rfl)

@[simp] theorem Core.flip_spad (c : Core) : c.flip.spad = c.spad := (rfl)

@[simp] theorem Core.startMember_spad (c : Core) (id : CoreId) (l : Launch) (m tq : Nat) :
    (c.startMember id l m tq).spad = c.spad := (rfl)

@[simp] theorem Core.release_spad (c : Core) (bl : BitVec 2) (v : Bool) : (c.release bl v).spad = c.spad := by
  unfold Core.release; (repeat' split) <;> rfl

@[simp] theorem Core.abortMember_spad (c : Core) (failed : Nat) : (c.abortMember failed).spad = c.spad := (rfl)

@[simp] theorem Core.readControl_spad (f : Nat → Nat) (c : Core) : (Core.readControl f c).spad = c.spad := by
  unfold Core.readControl; rfl

@[simp] theorem Core.readQueues_spad (old new : List (BitVec 8)) (c : Core) : (Core.readQueues old new c).spad = c.spad := (rfl)

@[simp] theorem Core.readChannels_spad (w : Nat) (old new : List (BitVec 8)) (c : Core) :
    (Core.readChannels w old new c).spad = c.spad := by
  unfold Core.readChannels; rfl

@[simp] theorem Core.haltInSync_spad (c : Core) : c.haltInSync.spad = c.spad := by
  unfold Core.haltInSync; split <;> rfl

@[simp] theorem Core.mapCaptured_spad (g : Handle → Handle) (c : Core) : (Core.mapCaptured g c).spad = c.spad := (rfl)

@[simp] theorem Core.restoreMember_spad (c : Core) (t ox oy tq gate : Nat) (p : Option Plane) (port : Core) :
    (c.restoreMember t ox oy tq gate p port).spad = c.spad := by
  simp only [Core.restoreMember]
  split <;> rfl

@[simp] theorem Core.flush_spad (c : Core) : c.flush.spad = c.spad := (rfl)

@[simp] theorem Core.holding_spad (c : Core) (w : Nat) : (c.holding w).spad = c.spad := (rfl)

/-- The table's cores, drawer memory and flash are in canonical form: `State.MemOk` of a state made of them. -/
def MemsOk (cores : Tab Core) (drawer flash : Mem) : Prop :=
  drawer.wf = true ∧ flash.wf = true ∧ ∀ e ∈ cores, e.2.spad.wf = true

@[simp] theorem State.memsOk_self (s : State) : MemsOk s.cores s.drawer s.flash ↔ s.MemOk := .rfl

@[simp] theorem State.mk_memOk (
    cycle cores cur agenda tape hostWait portWait preSince free serial env outbox boot bootFields shutdown aborts sys
    drawer drwPoison drwOffline reqs jobs links slotsA slotsS sltWait bwc bwcNext metered caches sdWait fbWait
    slogUsed ctxs charged evctr saveCount saved recNums recBytes preWait grants ranges hostSets qdesc queues launches
    gangs net arrivals credits seqOut seqIn seqGone meshPorts fields journal migrations wdHeld flogs ports throttles
    sens nextSample switching offered stampedNow bbox evtOver flash kept awaited) :
    State.MemOk ⟨
      cycle, cores, cur, agenda, tape, hostWait, portWait, preSince, free, serial, env, outbox, boot, bootFields,
      shutdown, aborts, sys, drawer, drwPoison, drwOffline, reqs, jobs, links, slotsA, slotsS, sltWait, bwc, bwcNext,
      metered, caches, sdWait, fbWait, slogUsed, ctxs, charged, evctr, saveCount, saved, recNums, recBytes, preWait,
      grants, ranges, hostSets, qdesc, queues, launches, gangs, net, arrivals, credits, seqOut, seqIn, seqGone,
      meshPorts, fields, journal, migrations, wdHeld, flogs, ports, throttles, sens, nextSample, switching, offered,
      stampedNow, bbox, evtOver, flash, kept, awaited⟩ ↔ MemsOk cores drawer flash := .rfl

@[simp] theorem State.memsOk_putCore (s : State) (t : CoreId) (c : Core) :
    MemsOk (s.putCore t c).cores s.drawer s.flash ↔ (s.putCore t c).MemOk := .rfl

@[simp] theorem State.memsOk_setCore (s : State) (c : Core) :
    MemsOk (s.setCore c).cores s.drawer s.flash ↔ (s.setCore c).MemOk := .rfl

@[simp] theorem State.ite_memOk (p : Prop) [Decidable p] (s t : State) :
    (if p then s else t).MemOk ↔ if p then s.MemOk else t.MemOk := by
  split <;> rfl

@[simp] theorem State.foldl_memOk_iff {α : Type} {f : State → α → State} (h : ∀ s a, (f s a).MemOk ↔ s.MemOk) (l : List α) (s : State) :
    (l.foldl f s).MemOk ↔ s.MemOk :=
  iff_of_eq (foldl_keeps State.MemOk (fun s a => propext (h s a)) l s)

theorem State.MemOk.foldl {α : Type} {f : State → α → State} (h : ∀ s a, s.MemOk → (f s a).MemOk) (l : List α) {s : State}
    (hs : s.MemOk) : (l.foldl f s).MemOk := by
  induction l generalizing s with
  | nil => exact hs
  | cons a l ih => exact ih (h s a hs)

theorem Tab.mem_of_get? {α : Type} {t : Tab α} {k : Nat} {x : α} (h : Tab.get? t k = some x) : (k, x) ∈ t := by
  induction t with
  | nil => simp at h
  | cons e r ih =>
    obtain ⟨j, y⟩ := e
    simp only [Tab.get?] at h
    split_ifs at h with h1 h2
    · simp_all
    · exact List.mem_cons_of_mem _ (ih h)

theorem State.MemOk.coreAt {s : State} (h : s.MemOk) (t : CoreId) : (s.coreAt t).spad.wf = true := by
  unfold State.coreAt Tab.getD
  cases hg : Tab.get? s.cores t with
  | none => rfl
  | some c => exact h.2.2 _ (Tab.mem_of_get? hg)

theorem State.MemOk.core {s : State} (h : s.MemOk) : s.core.spad.wf = true := h.coreAt s.cur

theorem State.MemOk.putCore {s : State} (h : s.MemOk) (t : CoreId) {c : Core} (hc : c.spad.wf = true) : (s.putCore t c).MemOk := by
  obtain ⟨hd, hf, hs⟩ := h
  refine ⟨hd, hf, fun e he => ?_⟩
  rcases Tab.mem_put he with rfl | he
  · exact hc
  · exact hs e he

theorem State.MemOk.setCore {s : State} (h : s.MemOk) {c : Core} (hc : c.spad.wf = true) : (s.setCore c).MemOk := h.putCore s.cur hc

/-- Whatever a table held but at the key put, it holds after the put; and at that key it held what a read answers. -/
theorem Tab.all_of_put {α : Type} {t : Tab α} {k : Nat} {x d : α} {p : Nat × α → Prop} (hx : p (k, x) → p (k, Tab.getD t k d))
    (h : ∀ e ∈ Tab.put t k x, p e) : ∀ e ∈ t, p e := by
  induction t with
  | nil => simp
  | cons e r ih =>
    obtain ⟨j, y⟩ := e
    simp only [Tab.put, Tab.getD, Tab.get?] at h hx ih
    split_ifs at h hx with h1 h2 h3 <;> simp_all

/-- A core in whose place one with the same scratchpad is put. -/
@[simp] theorem State.putCore_memOk_iff {s : State} {t : CoreId} {c : Core} (h : c.spad = (s.coreAt t).spad) :
    (s.putCore t c).MemOk ↔ s.MemOk := by
  refine ⟨fun g => ⟨g.1, g.2.1, ?_⟩, fun g => g.putCore t (h ▸ g.coreAt t)⟩
  exact Tab.all_of_put (p := fun e => e.2.spad.wf = true) (d := Core.fresh t) (fun e => by simpa [h, State.coreAt] using e) g.2.2

@[simp] theorem State.setCore_memOk_iff {s : State} {c : Core} (h : c.spad = s.core.spad) : (s.setCore c).MemOk ↔ s.MemOk :=
  State.putCore_memOk_iff h

@[simp] theorem State.foldl_putCore_memOk_iff {α : Type} {t : α → CoreId} {c : State → α → Core}
    (h : ∀ s a, (c s a).spad = (s.coreAt (t a)).spad) (l : List α) (s : State) :
    (l.foldl (fun s a => s.putCore (t a) (c s a)) s).MemOk ↔ s.MemOk :=
  State.foldl_memOk_iff (fun s a => State.putCore_memOk_iff (h s a)) l s

@[simp] theorem State.mapCores_memOk_iff {s : State} {g : CoreId → Core → Core} (h : ∀ t c, (g t c).spad = c.spad) :
    (s.mapCores g).MemOk ↔ s.MemOk := by
  simp only [State.MemOk, State.mapCores, List.forall_mem_map, h]

end Sys2Proof.Machine
end

section
/-! SUPPORT. The functions of the machine below the slots keep its memories canonical: one lemma each. -/

namespace Sys2Proof.Machine

open Sys2Proof.Claims

/-! ### The functions of Machine/Ops -/

@[simp] theorem State.at_memOk (s : State) (t : CoreId) : (s.at t).MemOk ↔ s.MemOk := .rfl

@[simp] theorem State.offerLog_memOk (s : State) (org loc ctx code : Nat) (data : List (BitVec 8)) (log : Option Nat) :
    (s.offerLog org loc ctx code data log).MemOk ↔ s.MemOk := by
  simp only [State.offerLog]
  split <;> simp

@[simp] theorem State.offer_memOk (s : State) (org loc ctx code : Nat) (data : List (BitVec 8)) :
    (s.offer org loc ctx code data).MemOk ↔ s.MemOk := by
  simp [State.offer]

@[simp] theorem State.refuse_memOk (s : State) (org loc ctx mid tgt addr : Nat) :
    (s.refuse org loc ctx mid tgt addr).MemOk ↔ s.MemOk := by
  simp [State.refuse]

@[simp] theorem State.takeTrap_memOk (s : State) (k : Cause) (gate : Nat) : (s.takeTrap k gate).MemOk ↔ s.MemOk := by
  simp [State.takeTrap]

@[simp] theorem State.trapPrecise_memOk (s : State) (k : Cause) : (s.trapPrecise k).MemOk ↔ s.MemOk := by
  simp [State.trapPrecise]

/-! ### The functions of Machine/Message -/

@[simp] theorem State.respond_memOk (s : State) (src op : Nat) (seq : BitVec 32) (status : Nat) (payload : List (BitVec 8)) :
    (s.respond src op seq status payload).MemOk ↔ s.MemOk := .rfl

/-! ### The functions of Machine/Operands -/

@[simp] theorem onCore_memOk_iff {g : Core → Core} {s : State} (h : (g s.core).spad = s.core.spad) : (onCore g s).MemOk ↔ s.MemOk :=
  State.setCore_memOk_iff h

/-! ### The functions of Machine/Control -/

@[simp] theorem State.putGang_memOk (s : State) (g : Gang) : (s.putGang g).MemOk ↔ s.MemOk := .rfl

@[simp] theorem State.vote_memOk (s : State) (bl : BitVec 2) (v : Bool) : (s.vote bl v).MemOk ↔ s.MemOk := by
  unfold State.vote
  split <;> simp

/-! ### The functions of Machine/Vector -/

theorem memOk_of_streamWait {full : Bool} {s t : State} (h : streamWait full s = some t) : t.MemOk ↔ s.MemOk := by
  simp only [streamWait, Option.ite_none_right_eq_some, Option.some.injEq] at h
  simp [← h.2]

/-! ### The functions of Machine/Translation -/

@[simp] theorem State.fresh_memOk (s : State) : s.fresh.2.MemOk ↔ s.MemOk := .rfl

@[simp] theorem State.draw_memOk (s : State) : s.draw.2.MemOk ↔ s.MemOk := .rfl

@[simp] theorem State.putCache_memOk (s : State) (k : Nat) (c : Cache) : (s.putCache k c).MemOk ↔ s.MemOk := .rfl

@[simp] theorem State.deepest_memOk (s : State) (k ctx va : Nat) (levs : List Nat) : (s.deepest k ctx va levs).2.MemOk ↔ s.MemOk := by
  induction levs generalizing s with
  | nil => simp [State.deepest]
  | cons lev r ih =>
    simp only [State.deepest]
    split
    · exact ih s
    · split
      · simp
      · simp [ih]

@[simp] theorem State.fill_memOk (s : State) (k : Nat) (e : WalkEnd) : (s.fill k e).MemOk ↔ s.MemOk := by
  cases e <;> simp [State.fill]

@[simp] theorem State.startWalk_memOk (s : State) (k ctx : Nat) (va : Word) : (s.startWalk k ctx va).2.MemOk ↔ s.MemOk := by
  unfold State.startWalk
  split <;> simp

@[simp] theorem State.leafFor_memOk (s : State) (k : Nat) (ctx : Nat) (va : Word) :
    (s.leafFor k ctx va).2.MemOk ↔ s.MemOk := by
  simp only [State.leafFor]
  (repeat' split) <;> simp

theorem State.memOk_of_leafFor {s t : State} {k ctx : Nat} {va : Word} {l : Option Leaf} (h : s.leafFor k ctx va = (l, t)) :
    t.MemOk ↔ s.MemOk := by
  simpa [h] using s.leafFor_memOk k ctx va

@[simp] theorem State.lookup_memOk (s : State) (id : CoreId) (ctx : Nat) (va : Word) : (s.lookup id ctx va).2.MemOk ↔ s.MemOk := by
  unfold State.lookup
  split
  · next h => exact State.memOk_of_leafFor h
  · next h => simp [State.memOk_of_leafFor h]

@[simp] theorem State.heal_memOk (s : State) (r : BitVec 4) : (s.heal r).MemOk ↔ s.MemOk := by
  simp [State.heal]

@[simp] theorem State.useHandle_memOk (s : State) (r : BitVec 4) : (s.useHandle r).MemOk ↔ s.MemOk := by
  simp [State.useHandle]

theorem State.memOk_of_handleWait {s t : State} {r : BitVec 4} (h : s.handleWait r = some t) : t.MemOk ↔ s.MemOk := by
  simp only [State.handleWait] at h
  split at h
  · simp_all
  · obtain ⟨_, rfl⟩ : _ ∧ s.heal r = t := by simpa using h
    simp

@[simp] theorem State.putWalk_memOk (s : State) (k : Nat) (w : Walk) : (s.putWalk k w).MemOk ↔ s.MemOk := .rfl

@[simp] theorem State.readTable_memOk (s : State) (k : Nat) (w : Walk) : (s.readTable k w).MemOk ↔ s.MemOk := by
  simp [State.readTable]

@[simp] theorem State.beginWalk_memOk (s : State) (k : Nat) (w : Walk) : (s.beginWalk k w).MemOk ↔ s.MemOk := by
  have hd := s.deepest_memOk k w.ctx w.va.toNat [3, 2, 1]
  simp only [State.beginWalk]
  generalize s.deepest k w.ctx w.va.toNat [3, 2, 1] = p at hd ⊢
  obtain ⟨_ | _, t⟩ := p
  · simpa using hd
  · simpa using hd

@[simp] theorem State.stepWalk_memOk (s : State) (k : Nat) (w : Walk) : (s.stepWalk k w).MemOk ↔ s.MemOk := by
  unfold State.stepWalk
  (repeat' split) <;> simp

@[simp] theorem State.stepWalks_memOk (s : State) : s.stepWalks.MemOk ↔ s.MemOk := by
  simp [State.stepWalks]

@[simp] theorem State.walkEnd_memOk (s : State) (k id : Nat) : (s.walkEnd k id).MemOk ↔ s.MemOk := by
  simp only [State.walkEnd]
  split
  · rfl
  · split
    · split <;> simp
    · rfl

/-! ### The functions of Machine/EngineCmds -/

@[simp] theorem kWalks_memOk (s : State) : (kWalks s).MemOk ↔ s.MemOk := by
  simp [kWalks]

theorem memOk_of_kPending {s t : State} (h : kPending s = some t) : t.MemOk ↔ s.MemOk := by
  simp only [kPending, Option.ite_none_right_eq_some, Option.some.injEq] at h
  simp [← h.2]

/-! ### The functions of Machine/Landing -/

@[simp] theorem State.trapDelivery_memOk (s : State) : s.trapDelivery.MemOk ↔ s.MemOk := by
  simp only [State.trapDelivery]
  (repeat' split) <;> simp

/-! ### The functions of Machine/Units -/

@[simp] theorem State.putJob_memOk (s : State) (j : Job) : (s.putJob j).MemOk ↔ s.MemOk := .rfl

@[simp] theorem State.orphanReqs_memOk (s : State) (mine : Req → Bool) : (s.orphanReqs mine).MemOk ↔ s.MemOk := .rfl

@[simp] theorem State.dropJobs_memOk (s : State) (core : Nat) (p : JobOwner → Bool) : (s.dropJobs core p).MemOk ↔ s.MemOk := .rfl

@[simp] theorem State.holdWalk_memOk (s : State) (k ctx id : Nat) : (s.holdWalk k ctx id).MemOk ↔ s.MemOk := by
  simp [State.holdWalk]

@[simp] theorem State.resolve_memOk (s : State) (j : Job) (todo : List (Nat × Nat)) : (s.resolve j todo).2.MemOk ↔ s.MemOk := by
  induction todo generalizing s j with
  | nil => simp [State.resolve]
  | cons p r ih =>
    obtain ⟨off, n⟩ := p
    simp only [State.resolve]
    split
    · simp [apply_ite Prod.snd, ih]
    · split
      · next h => simp [apply_ite Prod.snd, ih, State.memOk_of_leafFor h]
      · next h => split <;> simp [State.memOk_of_leafFor h]

@[simp] theorem State.leaveReqs_memOk (s : State) (mine : Req → Bool) : (s.leaveReqs mine).MemOk ↔ s.MemOk := .rfl

@[simp] theorem State.dropPast_memOk (s : State) : s.dropPast.MemOk ↔ s.MemOk := .rfl

@[simp] theorem State.stepJob_memOk (s : State) (id : Nat) : (s.stepJob id).MemOk ↔ s.MemOk := by
  simp only [State.stepJob]
  (repeat' split) <;> simp

@[simp] theorem State.stepJobs_memOk (s : State) : s.stepJobs.MemOk ↔ s.MemOk := by
  simp [State.stepJobs]

@[simp] theorem State.startJob_memOk (s : State) (j : Job) : (s.startJob j).MemOk ↔ s.MemOk := .rfl

/-- The state that an answer of a transfer carries. -/
def Retry.state : Retry → State
  | .done _ s | .wait s | .fault _ _ _ _ s | .cause _ _ s => s

@[simp] theorem Retry.done_state (d : List (BitVec 8)) (s : State) : (Retry.done d s).state = s := (rfl)
@[simp] theorem Retry.wait_state (s : State) : (Retry.wait s).state = s := (rfl)
@[simp] theorem Retry.fault_state (ty lev : Nat) (e va : Word) (s : State) : (Retry.fault ty lev e va s).state = s := (rfl)
@[simp] theorem Retry.cause_state (code : Nat) (info : Word) (s : State) : (Retry.cause code info s).state = s := (rfl)

@[simp] theorem State.transfer_memOk (s : State) (j : Job) (keep : Bool) : (s.transfer j keep).state.MemOk ↔ s.MemOk := by
  simp only [State.transfer]
  (repeat' split) <;> simp

theorem State.memOk_of_transfer {s : State} {j : Job} {keep : Bool} {r : Retry} (h : s.transfer j keep = r) :
    r.state.MemOk ↔ s.MemOk := by
  simp [← h]

@[simp] theorem State.unitRead_memOk (s : State) (core : Nat) (who : JobOwner) (cache ctx : Nat) (va : Word) (n : Nat) (keep : Bool) :
    (s.unitRead core who cache ctx va n keep).state.MemOk ↔ s.MemOk :=
  s.transfer_memOk _ keep

@[simp] theorem State.unitWrite_memOk (s : State) (who : JobOwner) (cache ctx : Nat) (va : Word) (bs : List (BitVec 8)) :
    (s.unitWrite who cache ctx va bs).state.MemOk ↔ s.MemOk :=
  s.transfer_memOk _ false

@[simp] theorem State.freshBlocks_memOk (s : State) (core : Nat) (who : JobOwner) (cache ctx : Nat) (va : Word) (n : Nat) :
    (s.freshBlocks core who cache ctx va n).1.state.MemOk ↔ s.MemOk := by
  unfold State.freshBlocks
  split
  · next h => simpa using State.memOk_of_transfer h
  · next h => simpa using State.memOk_of_transfer h
  · simp

theorem State.memOk_of_freshBlocks {s : State} {core : Nat} {who : JobOwner} {cache ctx : Nat} {va : Word} {n : Nat} {r : Retry}
    {bs : List (Nat × Nat × Nat)} (h : s.freshBlocks core who cache ctx va n = (r, bs)) : r.state.MemOk ↔ s.MemOk := by
  simpa [h] using s.freshBlocks_memOk core who cache ctx va n

/-! ### The functions of Machine/Network -/

@[simp] theorem State.returnFlits_memOk (s : State) (p : Packet) (k : Nat) : (s.returnFlits p k).MemOk ↔ s.MemOk := by
  simp [State.returnFlits]

@[simp] theorem State.returnCredit_memOk (s : State) (p : Packet) : (s.returnCredit p).MemOk ↔ s.MemOk := by
  simp [State.returnCredit]

@[simp] theorem State.heldAt_memOk (s : State) (ports : List (Nat × Nat)) (n : Nat) : (s.heldAt ports n).MemOk ↔ s.MemOk := .rfl

@[simp] theorem State.launchPacket_memOk (s : State) (l : Letter) (segs : List Nat) (credit : Bool) :
    (s.launchPacket l segs credit).MemOk ↔ s.MemOk := by
  simp only [State.launchPacket]
  split <;> simp

@[simp] theorem State.refuseNoTile_memOk (s : State) (id : CoreId) (x : Nat) : (s.refuseNoTile id x).MemOk ↔ s.MemOk := by
  simp [State.refuseNoTile]

@[simp] theorem State.failCommand_memOk (s : State) (id : CoreId) (slot : Slot) (code : Nat) (info : Word) (opc : CodeIdx) (ord n : Nat) :
    (s.failCommand id slot code info opc ord n).MemOk ↔ s.MemOk := by
  simp only [State.failCommand]
  (repeat' split) <;> simp

@[simp] theorem State.offNet_memOk (s : State) (p : Packet) : (s.offNet p).MemOk ↔ s.MemOk := by
  simp [State.offNet]

@[simp] theorem State.tellPeer_memOk (s : State) (p : Packet) (code : Nat) (info : Word) :
    (s.tellPeer p code info).MemOk ↔ s.MemOk := .rfl

@[simp] theorem State.tellCore_memOk (s : State) (id : CoreId) (slot : Slot) (code : Nat) (info : Word) (opc : CodeIdx) (ord n : Nat) :
    (s.tellCore id slot code info opc ord n).MemOk ↔ s.MemOk := by
  simp only [State.tellCore]
  (repeat' split) <;> simp

@[simp] theorem State.tellOwner_memOk (s : State) (p : Packet) (code : Nat) (info : Word) :
    (s.tellOwner p code info).MemOk ↔ s.MemOk := by
  simp [State.tellOwner]

@[simp] theorem State.discardPacket_memOk (s : State) (p : Packet) (code : Nat) (info : Word) :
    (s.discardPacket p code info).MemOk ↔ s.MemOk := by
  simp [State.discardPacket]

@[simp] theorem State.refuseUnresolved_memOk (s : State) (p : Packet) : (s.refuseUnresolved p).MemOk ↔ s.MemOk := by
  simp [State.refuseUnresolved]

@[simp] theorem State.replyTo_memOk (s : State) (p : Packet) (l : Letter) (segs : List Nat) :
    (s.replyTo p l segs).MemOk ↔ s.MemOk := by
  simp [State.replyTo]

@[simp] theorem State.refusePacket_memOk (s : State) (p : Packet) : (s.refusePacket p).MemOk ↔ s.MemOk := by
  simp [State.refusePacket]

@[simp] theorem State.addArrival_memOk (s : State) (core aw bytes src ord : Nat) (slot : Slot) (chunk : Option (Nat × Nat)) (ch : Option Nat) :
    (s.addArrival core aw bytes src ord slot chunk ch).MemOk ↔ s.MemOk := by
  simp [State.addArrival]

@[simp] theorem State.chunkDone_memOk (s : State) (id n : Nat) : (s.chunkDone id n).MemOk ↔ s.MemOk := by
  simp only [State.chunkDone]
  split <;> simp

@[simp] theorem State.chunkWritten_memOk (s : State) (id n : Nat) : (s.chunkWritten id n).MemOk ↔ s.MemOk := by
  unfold State.chunkWritten
  split <;> simp

@[simp] theorem State.putPacket_memOk (s : State) (p : Packet) : (s.putPacket p).MemOk ↔ s.MemOk := .rfl

@[simp] theorem State.tookSeq_memOk (s : State) (p : Packet) : (s.tookSeq p).MemOk ↔ s.MemOk := by
  simp [State.tookSeq]

@[simp] theorem State.skipSeq_memOk (s : State) (p : Packet) : (s.skipSeq p).MemOk ↔ s.MemOk := by
  simp [State.skipSeq]

@[simp] theorem State.moveFlits_memOk (s : State) (p : Packet) (base : Nat) : (s.moveFlits p base).2.MemOk ↔ s.MemOk := by
  simp [State.moveFlits]

@[simp] theorem State.depositDone_memOk (s : State) (p : Packet) (aw : Option Nat) : (s.depositDone p aw).MemOk ↔ s.MemOk := by
  unfold State.depositDone
  (repeat' split) <;> simp

@[simp] theorem State.takeIn_memOk (s : State) (p : Packet) : (s.takeIn p).2.MemOk ↔ s.MemOk := by
  unfold State.takeIn
  (repeat' split) <;> simp

@[simp] theorem State.comeIn_memOk (s : State) (p : Packet) : (s.comeIn p).MemOk ↔ s.MemOk := by
  unfold State.comeIn
  (repeat' split) <;> simp

@[simp] theorem State.depositPacket_memOk (s : State) (id : Nat) : (s.depositPacket id).MemOk ↔ s.MemOk := by
  simp only [State.depositPacket]
  (repeat' split) <;> simp

theorem State.memOk_of_unitRead {s : State} {core : Nat} {who : JobOwner} {cache ctx : Nat} {va : Word} {n : Nat} {keep : Bool} {r : Retry}
    (h : s.unitRead core who cache ctx va n keep = r) : r.state.MemOk ↔ s.MemOk := by
  simp [← h]

@[simp] theorem State.groupPeer_memOk (s : State) (rel : Word) (cmd : Cmd) : (s.groupPeer rel cmd).2.MemOk ↔ s.MemOk := by
  unfold State.groupPeer
  dsimp only
  split
  · split <;> next h => simpa using State.memOk_of_unitRead h
  · rfl

@[simp] theorem State.faultRecord_memOk (s : State) (r : FaultRec) : (s.faultRecord r).MemOk ↔ s.MemOk := .rfl

@[simp] theorem State.aimGroup_memOk (s : State) (ch : Nat) (rel : Word) (cmd : Cmd) : (s.aimGroup ch rel cmd).2.MemOk ↔ s.MemOk := by
  have h := s.groupPeer_memOk rel cmd
  unfold State.aimGroup
  generalize s.groupPeer rel cmd = p at h ⊢
  obtain ⟨_ | _, t⟩ := p <;> simpa using h

@[simp] theorem State.tableFault_memOk (s : State) (cmd : Cmd) (type lev : Nat) (entry va : Word) :
    (s.tableFault cmd type lev entry va).MemOk ↔ s.MemOk := .rfl

/-! ### The functions of Machine/DrawerPath -/

@[simp] theorem State.addBlocks_memOk (s : State) (id : CoreId) (owner : ReqOwner) (va : Word) (w : Option (List (BitVec 8))) (bs : List (Nat × Nat × Nat)) :
    (s.addBlocks id owner va w bs).MemOk ↔ s.MemOk := by
  simp [State.addBlocks]

@[simp] theorem State.addReqs_memOk (s : State) (id : CoreId) (owner : ReqOwner) (pa : Nat) (va : Word) (n : Nat) (w : Option (List (BitVec 8))) :
    (s.addReqs id owner pa va n w).MemOk ↔ s.MemOk := by
  simp [State.addReqs]

@[simp] theorem State.keepStore_memOk (s : State) (id : CoreId) : (s.keepStore id).MemOk ↔ s.MemOk := by
  simp [State.keepStore]

@[simp] theorem State.takeSlot_memOk (s : State) (id : CoreId) : (s.takeSlot id).MemOk ↔ s.MemOk := by
  unfold State.takeSlot
  split <;> simp

@[simp] theorem State.returnSlot_memOk (s : State) (id : CoreId) : (s.returnSlot id).MemOk ↔ s.MemOk := by
  simp only [State.returnSlot]
  split <;> simp

@[simp] theorem State.logEntry_memOk (s : State) (id : CoreId) (e : LogEntry) : (s.logEntry id e).MemOk ↔ s.MemOk := by
  simp only [State.logEntry]
  split <;> simp

@[simp] theorem State.accessFault_memOk (s : State) (id : CoreId) (a : Access) (type lev : Nat) (entry : Word) (va : Word) :
    (s.accessFault id a type lev entry va).MemOk ↔ s.MemOk := .rfl

@[simp] theorem State.logStore_memOk (s : State) (id : CoreId) (a : Access) (ready : Bool) :
    (s.logStore id a ready).MemOk ↔ s.MemOk := by
  simp [State.logStore]

@[simp] theorem State.service_memOk (s : State) (id : CoreId) (a : Access) (type lev : Nat) (entry va : Word) :
    (s.service id a type lev entry va).MemOk ↔ s.MemOk := by
  simp [State.service]

@[simp] theorem State.sendFresh_memOk (s : State) (id : CoreId) (a : Access) : (s.sendFresh id a).MemOk ↔ s.MemOk := by
  have h := s.freshBlocks_memOk id (.load a.id) (cacheKey id) (s.coreAt id).pos.ctx.toNat a.va a.size
  unfold State.sendFresh
  generalize s.freshBlocks id (.load a.id) (cacheKey id) (s.coreAt id).pos.ctx.toNat a.va a.size = p at h ⊢
  obtain ⟨_ | _, bs⟩ := p <;> simpa using h

@[simp] theorem State.leave_memOk (s : State) (id : CoreId) (a : Access) : (s.leave id a).MemOk ↔ s.MemOk := by
  simp [State.leave]

@[simp] theorem State.leaveAll_memOk (s : State) (id : CoreId) : (s.leaveAll id).MemOk ↔ s.MemOk := by
  simp [State.leaveAll]

@[simp] theorem State.placeReq_memOk (s : State) (r : Req) (p : ReqPlace) : (s.placeReq r p).MemOk ↔ s.MemOk := .rfl

@[simp] theorem State.placeReq_coreAt (s : State) (r : Req) (p : ReqPlace) (t : CoreId) : (s.placeReq r p).coreAt t = s.coreAt t := (rfl)

@[simp] theorem State.refreshReq_memOk (s : State) (r : Req) : (s.refreshReq r).MemOk ↔ s.MemOk := by
  have h := s.freshBlocks_memOk r.core (.request r.id) (cacheKey r.core) (s.coreAt r.core).pos.ctx.toNat r.va r.len
  unfold State.refreshReq
  generalize s.freshBlocks r.core (.request r.id) (cacheKey r.core) (s.coreAt r.core).pos.ctx.toNat r.va r.len = p at h ⊢
  obtain ⟨_ | _, _ | _⟩ := p <;> simpa using h

@[simp] theorem State.sendRequest_memOk (s : State) (t : Nat) : (s.sendRequest t).MemOk ↔ s.MemOk := by
  simp only [State.sendRequest]
  split
  · rfl
  · have hu : (if decide (t < 0x10000) = true then s.leaveAll t else s).MemOk ↔ s.MemOk := by split <;> simp
    generalize (if decide (t < 0x10000) = true then s.leaveAll t else s) = u at hu ⊢
    rw [← hu]
    (repeat' split) <;> simp

@[simp] theorem State.enterQueues_memOk (s : State) : s.enterQueues.MemOk ↔ s.MemOk := by
  simp [State.enterQueues]

theorem State.MemOk.serve {s : State} (h : s.MemOk) (r : Req) (slot ready : Nat) : (s.serve r slot ready).MemOk := by
  obtain ⟨hd, hf, hc⟩ := h
  unfold State.serve
  dsimp only
  split
  · simpa using ⟨hd, hf, hc⟩
  · split
    · exact ⟨hd, hf, hc⟩
    · split
      · exact ⟨Mem.wf_putBytes _ _ hd, hf, hc⟩
      · split <;> exact ⟨hd, hf, hc⟩

theorem State.MemOk.carry {s : State} (h : s.MemOk) (l : Link) (r : Req) : (s.carry l r).MemOk := by
  unfold State.carry
  dsimp only
  split
  · exact h
  · exact h.serve ..

theorem State.MemOk.slotGrant {s : State} (h : s.MemOk) (n : Nat) : (s.slotGrant n).MemOk := by
  have hl (links : Tab Link) : ({ s with links } : State).MemOk := h
  unfold State.slotGrant
  dsimp only
  split
  · exact h
  · split
    · exact (hl _).carry ..
    · split
      · exact hl _
      · split
        · exact hl _
        · exact (hl _).carry ..

@[simp] theorem State.clearReqs_memOk (s : State) (id : CoreId) (o : ReqOwner) : (s.clearReqs id o).MemOk ↔ s.MemOk := .rfl

@[simp] theorem State.clearReqs_coreAt (s : State) (id : CoreId) (o : ReqOwner) (t : CoreId) :
    (s.clearReqs id o).coreAt t = s.coreAt t := (rfl)

@[simp] theorem State.loadReturn_memOk (s : State) (id n : Nat) : (s.loadReturn id n).MemOk ↔ s.MemOk := by
  simp only [State.loadReturn]
  (repeat' split) <;> simp

@[simp] theorem State.storeAccept_memOk (s : State) (id n : Nat) : (s.storeAccept id n).MemOk ↔ s.MemOk := by
  simp only [State.storeAccept]
  (repeat' split) <;> simp

@[simp] theorem State.reissue_memOk (s : State) (id : CoreId) : (s.reissue id).MemOk ↔ s.MemOk := by
  simp only [State.reissue]
  split <;> simp

@[simp] theorem State.replay_memOk (s : State) (id cls : Nat) : (s.replay id cls).MemOk ↔ s.MemOk := by
  unfold State.replay
  split
  · rfl
  · split
    · rfl
    · next e _ _ =>
      dsimp only
      split
      · next h => simp [← State.memOk_of_transfer h]
      · next h => simp [← State.memOk_of_transfer h]
      · next h => (repeat' split) <;> simp [← State.memOk_of_transfer h]
      · next h => (repeat' split) <;> simp [← State.memOk_of_transfer h]

@[simp] theorem State.cutOff_memOk (s : State) (n : Nat) : (s.cutOff n).MemOk ↔ s.MemOk := .rfl

@[simp] theorem State.train_memOk (s : State) (n : Nat) : (s.train n).MemOk ↔ s.MemOk := by
  simp [State.train]

@[simp] theorem State.tickLinks_memOk (s : State) : s.tickLinks.MemOk ↔ s.MemOk := .rfl

@[simp] theorem State.tileTimeout_memOk (s : State) (tile : Nat) : (s.tileTimeout tile).MemOk ↔ s.MemOk := .rfl

@[simp] theorem State.linkTimeout_memOk (s : State) (r : Nat) : (s.linkTimeout r).MemOk ↔ s.MemOk := by
  unfold State.linkTimeout
  split <;> simp

@[simp] theorem State.hostAccess_memOk (s : State) (port : Nat) (write : Bool) (addr len : Nat) (data : List (BitVec 8)) :
    (s.hostAccess port write addr len data).MemOk ↔ s.MemOk := by
  simp [State.hostAccess]

@[simp] theorem State.hostReplies_memOk (s : State) : s.hostReplies.MemOk ↔ s.MemOk := .rfl

@[simp] theorem State.refillCtx_memOk (s : State) (c bonus : Nat) : (s.refillCtx c bonus).MemOk ↔ s.MemOk := by
  simp [State.refillCtx]

@[simp] theorem State.refill_memOk (s : State) : s.refill.MemOk ↔ s.MemOk := by
  unfold State.refill
  split
  · rfl
  · simp

@[simp] theorem State.writeBwc_memOk (s : State) (n : Nat) (x : Word) : (s.writeBwc n x).MemOk ↔ s.MemOk := .rfl

end Sys2Proof.Machine
end

section
/-! SUPPORT. What a slot may change of a state, and that issue changes no more (R13, R28, R101, R413). -/

namespace Sys2Proof.Machine

open Sys2Proof.Claims

/-! ### What a slot may change -/

/-- What an instruction may change of a state as it issues, beside the clocks, queues and results of its core: its gangs, and of its core
the rings, the handles and the scratchpad. -/
structure MayChange where
  gangs : Bool := false
  rings : Bool := false
  handles : Bool := false
  pad : Bool := false

/-- Nothing but the clocks, queues and results. -/
def MayChange.none : MayChange := {}

/-- What `f` may change, `g` may. -/
def MayChange.le (f g : MayChange) : Prop :=
  (f.gangs → g.gangs) ∧ (f.rings → g.rings) ∧ (f.handles → g.handles) ∧ (f.pad → g.pad)

theorem MayChange.none_le (f : MayChange) : MayChange.none.le f := by simp [MayChange.le, MayChange.none]

/-- Core `d` is core `c` but for its clocks, queues and results, and what `f` says may change. -/
structure CoreFrame (f : MayChange) (c d : Core) : Prop where
  registers : sameRegisters c d
  rings : f.rings = false → d.rings = c.rings
  handles : f.handles = false → d.hregs = c.hregs
  pad : f.pad = false → d.spad = c.spad
  padOk : c.spad.wf = true → d.spad.wf = true

/-- State `t` is state `s` but for clocks, queues and results of the current core, the walks and events, and what `f` says may change. -/
structure Frame (f : MayChange) (s t : State) : Prop where
  cur : t.cur = s.cur
  others : ∀ k, k ≠ s.cur → t.coreAt k = s.coreAt k
  drawer : t.drawer = s.drawer
  flash : t.flash = s.flash
  sys : t.sys = s.sys
  net : t.net = s.net
  queues : t.queues = s.queues
  launches : t.launches = s.launches
  gangs : f.gangs = false → t.gangs = s.gangs
  core : CoreFrame f s.core t.core
  memOk : s.MemOk → t.MemOk

theorem sameRegisters_refl (c : Core) : sameRegisters c c := by simp [sameRegisters]

theorem sameRegisters_trans {c d e : Core} (h : sameRegisters c d) (g : sameRegisters d e) : sameRegisters c e := by
  simp_all [sameRegisters]

/-- A core with the same registers, rings, handles and scratchpad. -/
theorem CoreFrame.of_eq {f : MayChange} {c d : Core} (hr : sameRegisters c d) (hg : d.rings = c.rings) (hh : d.hregs = c.hregs)
    (hp : d.spad = c.spad) : CoreFrame f c d :=
  ⟨hr, fun _ => hg, fun _ => hh, fun _ => hp, fun h => hp ▸ h⟩

theorem CoreFrame.refl (f : MayChange) (c : Core) : CoreFrame f c c := .of_eq (sameRegisters_refl c) rfl rfl rfl

theorem CoreFrame.trans {f : MayChange} {c d e : Core} (h : CoreFrame f c d) (g : CoreFrame f d e) : CoreFrame f c e :=
  ⟨sameRegisters_trans h.registers g.registers, fun n => (g.rings n).trans (h.rings n), fun n => (g.handles n).trans (h.handles n),
    fun n => (g.pad n).trans (h.pad n), fun n => g.padOk (h.padOk n)⟩

theorem CoreFrame.mono {f g : MayChange} {c d : Core} (hfg : f.le g) (h : CoreFrame f c d) : CoreFrame g c d := by
  obtain ⟨_, hr, hh, hp⟩ := hfg
  exact ⟨h.registers, fun n => h.rings (by simpa using mt hr (by simp [n])), fun n => h.handles (by simpa using mt hh (by simp [n])),
    fun n => h.pad (by simpa using mt hp (by simp [n])), h.padOk⟩

theorem Frame.refl (f : MayChange) (s : State) : Frame f s s :=
  ⟨rfl, fun _ _ => rfl, rfl, rfl, rfl, rfl, rfl, rfl, fun _ => rfl, .refl f _, id⟩

theorem Frame.trans {f : MayChange} {s t u : State} (h : Frame f s t) (g : Frame f t u) : Frame f s u :=
  ⟨g.cur.trans h.cur, fun k hk => (g.others k (by rwa [h.cur])).trans (h.others k hk), g.drawer.trans h.drawer, g.flash.trans h.flash,
    g.sys.trans h.sys, g.net.trans h.net, g.queues.trans h.queues, g.launches.trans h.launches,
    fun n => (g.gangs n).trans (h.gangs n), h.core.trans g.core, fun n => g.memOk (h.memOk n)⟩

theorem Frame.mono {f g : MayChange} {s t : State} (hfg : f.le g) (h : Frame f s t) : Frame g s t :=
  ⟨h.cur, h.others, h.drawer, h.flash, h.sys, h.net, h.queues, h.launches,
    fun n => h.gangs (by simpa using mt hfg.1 (by simp [n])), h.core.mono hfg, h.memOk⟩

/-- What follows by a change that leaves everything keeps what a frame says. -/
theorem Frame.quiet {f : MayChange} {s t u : State} (h : Frame f s t) (g : Frame .none t u) : Frame f s u :=
  h.trans (g.mono f.none_le)

/-- A state with the same cores, memories, registers, network, queues, launches and gangs. -/
theorem Frame.of_eq {f : MayChange} {s t : State} (hc : t.cores = s.cores) (hcur : t.cur = s.cur) (hd : t.drawer = s.drawer)
    (hf : t.flash = s.flash) (hs : t.sys = s.sys) (hn : t.net = s.net) (hq : t.queues = s.queues) (hl : t.launches = s.launches)
    (hg : t.gangs = s.gangs) : Frame f s t := by
  have hk (k : CoreId) : t.coreAt k = s.coreAt k := by simp [State.coreAt, hc]
  have hcore : t.core = s.core := by simp [State.core, hcur, hk]
  exact ⟨hcur, fun k _ => hk k, hd, hf, hs, hn, hq, hl, fun _ => hg, hcore ▸ .refl f _, fun h => by simpa [State.MemOk, hc, hd, hf] using h⟩

/-- A change of the current core alone. -/
theorem Frame.setCore {f : MayChange} {s : State} {c : Core} (h : CoreFrame f s.core c) : Frame f s (s.setCore c) :=
  ⟨rfl, fun _ hk => State.putCore_coreAt_other _ _ hk, rfl, rfl, rfl, rfl, rfl, rfl, fun _ => rfl, by simpa using h,
    fun hs => hs.setCore (h.padOk hs.core)⟩

theorem Frame.onCore {f : MayChange} {g : Core → Core} {s : State} (h : CoreFrame f s.core (g s.core)) : Frame f s (onCore g s) :=
  .setCore h

/-! ### The core's own updates -/
theorem CoreFrame.countDown (f : MayChange) (c : Core) : CoreFrame f c c.countDown := .of_eq (sameRegisters_refl c) rfl rfl rfl

theorem CoreFrame.asks (f : MayChange) (c : Core) (ws : List Nat) : CoreFrame f c (c.asks ws) := by
  rw [Core.asks_eq]
  exact .of_eq (sameRegisters_refl c) rfl rfl rfl

theorem CoreFrame.finish (f : MayChange) (c : Core) (h : Header) : CoreFrame f c (c.finish h) := by
  unfold Core.finish
  dsimp only
  split <;> exact .of_eq (sameRegisters_refl c) rfl rfl rfl

theorem CoreFrame.result (f : MayChange) (c : Core) (sl : Slot) (lat : Nat) (w : Write) (fl : Flags) :
    CoreFrame f c (c.result sl lat w fl) := by
  unfold Core.result
  split
  · exact .refl f c
  · exact .of_eq (sameRegisters_refl c) rfl rfl rfl

theorem CoreFrame.lateResult (f : MayChange) (c : Core) (sl : Slot) (ord rem : Nat) (w : Write) (fl : Flags) :
    CoreFrame f c (c.lateResult sl ord rem w fl) := .of_eq (sameRegisters_refl c) rfl rfl rfl

theorem CoreFrame.makePending (f : MayChange) (c : Core) (r : PReg) : CoreFrame f c (c.makePending r) := by
  unfold Core.makePending
  split
  · exact .refl f c
  · exact .of_eq (sameRegisters_refl c) rfl rfl rfl

theorem CoreFrame.redirect (f : MayChange) (c : Core) (target : CodeIdx) : CoreFrame f c (c.redirect target) :=
  .of_eq (sameRegisters_refl c) rfl rfl rfl

theorem CoreFrame.enqueue (f : MayChange) (c : Core) (sl : Slot) (k : Cmd) : CoreFrame f c (c.enqueue sl k) := by
  unfold Core.enqueue
  split
  case h_4 => exact .refl f c
  all_goals exact .of_eq (sameRegisters_refl c) rfl rfl rfl

theorem CoreFrame.store {f : MayChange} (h : f.pad = true) (c : Core) (bs : ByteWrites) : CoreFrame f c (c.store bs) :=
  ⟨sameRegisters_refl c, fun _ => rfl, fun _ => rfl, fun n => by simp [h] at n, Core.store_wf bs⟩

/-! ### The state's own updates -/
theorem Frame.refuse (f : MayChange) (s : State) (org loc ctx mid tgt addr : Nat) : Frame f s (s.refuse org loc ctx mid tgt addr) := by
  unfold State.refuse State.offer State.offerLog
  dsimp only
  split
  · split <;> exact .of_eq rfl rfl rfl rfl rfl rfl rfl rfl rfl
  · exact .of_eq rfl rfl rfl rfl rfl rfl rfl rfl rfl

theorem Frame.takeTrap (f : MayChange) (s : State) (k : Cause) (gate : Nat) : Frame f s (s.takeTrap k gate) := by
  unfold State.takeTrap
  dsimp only
  split
  · exact .setCore (.of_eq (sameRegisters_refl _) rfl rfl rfl)
  · exact Frame.trans (.setCore (c := { s.core with strand := if s.core.isMgmt then .coreHalt else .halted, undelivered := some k })
      (.of_eq (sameRegisters_refl _) rfl rfl rfl)) (.of_eq rfl rfl rfl rfl rfl rfl rfl rfl rfl)

theorem Frame.trapPrecise (f : MayChange) (s : State) (k : Cause) : Frame f s (s.trapPrecise k) := by
  unfold State.trapPrecise
  dsimp only
  split
  · exact (Frame.takeTrap f s k _).trans (.refuse ..)
  · exact .takeTrap ..

theorem Frame.startWalk (f : MayChange) (s : State) (k ctx : Nat) (va : Word) : Frame f s (s.startWalk k ctx va).2 := by
  unfold State.startWalk
  split
  · exact .refl f s
  · exact .of_eq rfl rfl rfl rfl rfl rfl rfl rfl rfl

theorem Frame.leafFor (f : MayChange) (s : State) (k ctx : Nat) (va : Word) : Frame f s (s.leafFor k ctx va).2 := by
  unfold State.leafFor
  split
  · exact .refl f s
  · dsimp only
    split <;> exact .of_eq rfl rfl rfl rfl rfl rfl rfl rfl rfl

theorem Frame.lookup (f : MayChange) (s : State) (id : CoreId) (ctx : Nat) (va : Word) : Frame f s (s.lookup id ctx va).2 := by
  have h := Frame.leafFor f s (cacheKey id) ctx va
  unfold State.lookup
  generalize s.leafFor (cacheKey id) ctx va = p at h ⊢
  obtain ⟨_ | l, t⟩ := p
  · exact h.trans (.startWalk ..)
  · exact h

theorem Frame.heal {f : MayChange} (hf : f.handles = true) (s : State) (r : BitVec 4) : Frame f s (s.heal r) := by
  refine (Frame.startWalk f s (cacheKey s.cur) s.core.pos.ctx.toNat (s.core.hreg r).vpage).trans (.setCore ?_)
  exact ⟨sameRegisters_refl _, fun _ => rfl, fun n => by simp [hf] at n, fun _ => rfl, id⟩

theorem Frame.useHandle {f : MayChange} (hf : f.handles = true) (s : State) (r : BitVec 4) : Frame f s (s.useHandle r) := by
  unfold State.useHandle
  split
  · exact .heal hf s r
  · exact .refl f s

theorem Frame.handleWait {f : MayChange} (hf : f.handles = true) {s t : State} {r : BitVec 4} (h : s.handleWait r = some t) :
    Frame f s t := by
  unfold State.handleWait at h
  dsimp only at h
  split at h
  · obtain rfl := Option.some.inj h
    exact .refl f s
  · obtain ⟨_, rfl⟩ : _ ∧ s.heal r = t := by simpa using h
    exact .heal hf s r

theorem Frame.vote {f : MayChange} (hf : f.gangs = true) (s : State) (bl : BitVec 2) (v : Bool) : Frame f s (s.vote bl v) := by
  unfold State.vote
  split
  · exact .refl f s
  · exact ⟨rfl, fun _ _ => rfl, rfl, rfl, rfl, rfl, rfl, rfl, fun n => by simp [hf] at n, .refl f _, id⟩

/-! ### Slots that keep a frame -/

/-- All that slot `m` does to a state, as it waits and as it takes effect, keeps the frame. -/
structure SlotSem.Frames (f : MayChange) (m : SlotSem) : Prop where
  walks : ∀ s, Frame f s (m.startWalks s)
  wait : ∀ {s t}, m.wait s = some t → Frame f s t
  late : ∀ {s t}, m.late s = some t → Frame f s t
  eff : ∀ s, Frame f s (m.eff s)

theorem Frame.of_classWait {f : MayChange} {cls : BitVec 4} {s t : State} (h : classWait cls s = some t) : Frame f s t := by
  obtain ⟨_, rfl⟩ : _ ∧ s = t := by simpa [classWait] using h
  exact .refl f s

theorem Frame.of_streamWait {f : MayChange} {full : Bool} {s t : State} (h : streamWait full s = some t) : Frame f s t := by
  simp only [streamWait, Option.ite_none_right_eq_some, Option.some.injEq] at h
  exact h.2 ▸ .setCore (.of_eq (sameRegisters_refl _) rfl rfl rfl)

/-- A wait that leaves the state as it is. -/
theorem Frame.of_hold {f : MayChange} {p : Prop} [Decidable p] {s t : State} (h : (if p then some s else none) = some t) :
    Frame f s t := by
  simp only [Option.ite_none_right_eq_some, Option.some.injEq] at h
  exact h.2 ▸ .refl f s

theorem Frame.kWalks {f : MayChange} (hf : f.handles = true) (s : State) : Frame f s (kWalks s) := by
  unfold Machine.kWalks
  dsimp only
  split <;> split
  · exact (Frame.useHandle hf s _).trans (.useHandle hf _ _)
  · exact .useHandle hf s _
  · exact .useHandle hf s _
  · exact .refl f s

theorem Frame.of_kPending {f : MayChange} (hf : f.handles = true) {s t : State} (h : kPending s = some t) : Frame f s t := by
  simp only [kPending, Option.ite_none_right_eq_some, Option.some.injEq] at h
  exact h.2 ▸ .kWalks hf s

/-! ### The shapes of the slots -/
theorem plainSlot_frames (f : MayChange) (sl : Slot) (g : Option (BitVec 1 × BitVec 3)) : (plainSlot sl g).Frames f :=
  ⟨.refl f, nofun, nofun, .refl f⟩

theorem cSlot_frames {f : MayChange} {gi gp enc check} {eff : Core → Core} (h : ∀ c, CoreFrame f c (eff c)) :
    (cSlot gi gp enc check eff).Frames f :=
  ⟨.refl f, nofun, nofun, fun s => .setCore (h s.core)⟩

theorem trapSlot_frames (f : MayChange) (x : TrapForm) (code : Nat) : (trapSlot x code).Frames f :=
  ⟨.refl f, nofun, nofun, .refl f⟩

theorem storeSlot_frames {f : MayChange} (hf : f.pad = true) (g cls enc reads bad touches bytes) :
    (storeSlot g cls enc reads bad touches bytes).Frames f :=
  ⟨.refl f, .of_classWait, nofun, fun s => .setCore (.store hf s.core _)⟩

theorem drawerSlot_frames {f : MayChange} (hf : f.handles = true) (g cls enc bad reads hi i disp write size align kind dest) :
    (drawerSlot g cls enc bad reads hi i disp write size align kind dest).Frames f := by
  refine ⟨fun s => .useHandle hf s _, fun {s t} h => ?_, nofun, fun s => .setCore ?_⟩
  · simp only [drawerSlot] at h
    split at h
    · next h' => exact Option.some.inj h ▸ .handleWait hf h'
    · exact .of_hold h
  · dsimp only
    split
    · refine CoreFrame.trans ?_ (CoreFrame.makePending f _ _)
      exact .of_eq (sameRegisters_refl s.core) rfl rfl rfl
    · exact .of_eq (sameRegisters_refl s.core) rfl rfl rfl

/-- The destinations of an atomic made pending. -/
theorem CoreFrame.atPending (f : MayChange) (c : Core) (p : Prop) [Decidable p] (r q : PReg) :
    CoreFrame f c (if p then (c.makePending r).makePending q else c.makePending r) := by
  split
  · exact (CoreFrame.makePending f c r).trans (.makePending ..)
  · exact .makePending f c r

theorem atSlot_waits (f : MayChange) (x : AtForm) (op : BitVec 8) : SlotSem.Frames f { atSlot x op with eff := id } := by
  refine ⟨.refl f, fun {s t} h => ?_, nofun, .refl f⟩
  simp only [atSlot] at h
  split at h
  · exact .of_hold h
  · exact .of_classWait h

theorem atSlot_frames {f : MayChange} (hf : f.pad = true) (x : AtForm) (op : BitVec 8) : (atSlot x op).Frames f := by
  have hw := atSlot_waits f x op
  refine ⟨hw.walks, hw.wait, hw.late, fun s => .setCore ?_⟩
  dsimp only
  split
  · exact (CoreFrame.atPending f s.core ..).trans (.of_eq (sameRegisters_refl _) rfl rfl rfl)
  · split
    · refine CoreFrame.trans (CoreFrame.trans ?_ (CoreFrame.lateResult f _ _ _ _ _ _)) (CoreFrame.lateResult f _ _ _ _ _ _)
      exact ((CoreFrame.makePending f s.core _).trans (.makePending ..)).trans (.store hf _ _)
    · refine CoreFrame.trans ?_ (CoreFrame.lateResult f _ _ _ _ _ _)
      exact (CoreFrame.makePending f s.core _).trans (.store hf _ _)

theorem cmdSlot_frames {f : MayChange} {sl enc count check} {wait : State → Option State} {eff : Core → Core}
    (hw : ∀ {s t}, wait s = some t → Frame f s t) (h : ∀ c, CoreFrame f c (eff c)) : (cmdSlot sl enc count check wait eff).Frames f := by
  refine ⟨.refl f, fun {s t} g => ?_, nofun, fun s => .setCore (h s.core)⟩
  simp only [cmdSlot] at g
  split at g
  · next g' => exact Option.some.inj g ▸ hw g'
  · exact .of_hold g

theorem mSlot_frames {f : MayChange} {op enc check} {eff : Core → Core} (h : ∀ c, CoreFrame f c (eff c)) : (mSlot op enc check eff).Frames f :=
  have := cmdSlot_frames (sl := .m) (enc := enc) (count := Counters.m) (check := fun s => check s.core) (wait := fun _ => none)
    (eff := fun c => (eff c).raiseM) (f := f) nofun (fun c => (h c).trans (.of_eq (sameRegisters_refl _) rfl rfl rfl))
  ⟨this.walks, this.wait, this.late, this.eff⟩

theorem kSlot_frames {f : MayChange} (hf : f.handles = true) (x : KForm) (kind enc check) : (kSlot x kind enc check).Frames f :=
  have := cmdSlot_frames (sl := .k) (enc := enc) (count := Counters.k) (check := fun s => listedCause (check s.core)) (wait := kPending)
    (eff := fun c => (c.enqueue .k (c.capture .k kind (kOps x) 0 0)).raiseK) (.of_kPending hf)
    (fun c => (CoreFrame.enqueue f c ..).trans (.of_eq (sameRegisters_refl _) rfl rfl rfl))
  ⟨.kWalks hf, this.wait, this.late, this.eff⟩

theorem kfillSlot_waits {f : MayChange} (hf : f.handles = true) (x : KForm) : SlotSem.Frames f { kfillSlot x with eff := id } := by
  refine ⟨.kWalks hf, fun {s t} g => ?_, nofun, .refl f⟩
  simp only [kfillSlot, cmdSlot] at g
  split at g
  · next g' => exact Option.some.inj g ▸ .of_kPending hf g'
  · exact .of_hold g

theorem kfillSlot_frames {f : MayChange} (hf : f.handles = true) (hr : f.rings = true) (x : KForm) : (kfillSlot x).Frames f := by
  have hw := kfillSlot_waits hf x
  refine ⟨hw.walks, hw.wait, hw.late, fun s => .setCore ?_⟩
  have h : CoreFrame f s.core (s.core.enqueue .k (s.core.capture .k .kfill (kOps x) 0 0)).raiseK :=
    (CoreFrame.enqueue f _ ..).trans (.of_eq (sameRegisters_refl _) rfl rfl rfl)
  dsimp only
  split
  · exact h.trans ⟨sameRegisters_refl _, fun n => by simp [hr] at n, fun _ => rfl, fun _ => rfl, id⟩
  · exact h

theorem CoreFrame.raiseN (f : MayChange) (c : Core) : CoreFrame f c c.raiseN := .of_eq (sameRegisters_refl c) rfl rfl rfl

theorem nSlot_frames {f : MayChange} {x : NForm} {kind counts enc check} {post : Core → Core} (h : ∀ c, CoreFrame f c (post c)) :
    (nSlot x kind counts enc check post).Frames f := by
  refine cmdSlot_frames nofun (fun c => ?_)
  have he := CoreFrame.enqueue f c .n (c.capture .n kind (nOps x) 0 0)
  dsimp only
  split
  · exact (he.trans (.raiseN f _)).trans (h _)
  · exact he.trans (h _)

theorem sprRead_frames (f : MayChange) (x : IForm) (check) : (sprRead x check).Frames f :=
  ⟨.refl f, nofun, nofun, fun s => .setCore (.result f s.core ..)⟩

theorem sprWrite_frames (f : MayChange) (x : IForm) (check) : (sprWrite x check).Frames f := by
  refine ⟨.refl f, nofun, nofun, fun s => .setCore ?_⟩
  dsimp only
  split
  · split
    · exact .result f s.core ..
    · exact .refl f s.core
  · exact .result f s.core ..

/-- What each instruction may change as it issues (R101). -/
def Instr.mayChange : Instr → MayChange
  | .sync _ => { gangs := true }
  | .kfill _ | .kfillConfigure _ => { rings := true, handles := true }
  | .kcpy _ | .kput _ | .kdec _ | .kzero _ | .kloc _ | .ldh _ | .sth _ | .ldvh _ | .stvh _ => { handles := true }
  | .sts _ | .stv _ | .stvs _ | .stvg _ | .stvm _ | .setaw _ | .aadd _ | .amin _ | .amax _ | .aminn _ | .amaxn _ | .aand _ | .aor _
  | .axor _ | .aswp _ | .acas _ | .aincb _ | .aincw _ | .adecp _ | .afal _ | .afadd _ => { pad := true }
  | _ => .none

theorem CoreFrame.foldl {α : Type} {f : MayChange} {g : Core → α → Core} (h : ∀ c a, CoreFrame f c (g c a)) (l : List α) (c : Core) :
    CoreFrame f c (l.foldl g c) := by
  induction l generalizing c with
  | nil => exact .refl f c
  | cons a l ih => exact (h c a).trans (ih _)

theorem semCall_frames (f : MayChange) (x : BrForm) : (semCall x).Frames f :=
  cSlot_frames (fun c => ((CoreFrame.result f c ..).trans (.result f _ ..)).trans (.redirect f _ _))

theorem semRet_frames (f : MayChange) (x : BareForm) : (semRet x).Frames f :=
  cSlot_frames (fun c => (CoreFrame.result f c ..).trans (.redirect f _ _))

theorem semLoop_frames (f : MayChange) (x : LoopForm) : (semLoop x).Frames f := by
  refine cSlot_frames (fun c => ?_)
  dsimp only
  split
  · exact .refl f c
  · split
    · exact .result f c ..
    · exact (CoreFrame.result f c ..).trans (.redirect f _ _)

theorem semQfence_frames (f : MayChange) (x : QfenceForm) : (semQfence x).Frames f := by
  refine cSlot_frames (fun c => ?_)
  split
  · exact .refl f c
  · exact .of_eq (sameRegisters_refl c) rfl rfl rfl

theorem Frame.of_free {f : MayChange} {p : Prop} [Decidable p] {s t : State} (h : (if p then none else some s) = some t) :
    Frame f s t := by
  simp only [Option.ite_none_left_eq_some, Option.some.injEq] at h
  exact h.2 ▸ .refl f s

theorem CoreFrame.spill (f : MayChange) (c : Core) (x : Vector Word 512) : CoreFrame f c { c with spill := x } :=
  .of_eq (sameRegisters_refl c) rfl rfl rfl

theorem semSync_frames {f : MayChange} (hf : f.gangs = true) (x : SyncForm) : (semSync x).Frames f := by
  refine ⟨.refl f, nofun, nofun, fun s => ?_⟩
  exact (Frame.setCore (c := { s.core with strand := .sync x.bl x.pr }) (.of_eq (sameRegisters_refl _) rfl rfl rfl)).trans (.vote hf ..)

theorem semVsin_frames (f : MayChange) (x : VForm) : (semVsin x).Frames f := by
  refine ⟨.refl f, .of_streamWait, nofun, fun s => .setCore ?_⟩
  dsimp only
  split
  · exact .refl f s.core
  · refine CoreFrame.trans ?_ (CoreFrame.result f _ ..)
    exact .of_eq (sameRegisters_refl s.core) rfl rfl rfl

theorem semSetaw_frames {f : MayChange} (hf : f.pad = true) (x : AwForm) : (semSetaw x).Frames f :=
  ⟨.refl f, .of_classWait, nofun, fun s => .setCore (.store hf s.core _)⟩

theorem semWaita_frames (f : MayChange) (x : AwForm) : (semWaita x).Frames f := by
  refine ⟨.refl f, .of_classWait, fun {s t} h => ?_, .refl f⟩
  simp only [semWaita, Option.ite_none_left_eq_some, Option.some.injEq] at h
  obtain ⟨_, _, rfl⟩ := h
  refine .setCore (CoreFrame.trans ?_ (CoreFrame.asks f _ _))
  exact .of_eq (sameRegisters_refl s.core) rfl rfl rfl

theorem semXlate_frames (f : MayChange) (x : XlateForm) : (semXlate x).Frames f :=
  ⟨.refl f, nofun, nofun, fun s => (Frame.lookup f s ..).trans (.setCore (.result f _ ..))⟩

theorem semFenceSc_frames (f : MayChange) (x : FenceScForm) : (semFenceSc x).Frames f := by
  refine ⟨.refl f, fun {s t} h => ?_, nofun, .refl f⟩
  simp only [semFenceSc, Option.ite_none_right_eq_some, Option.some.injEq] at h
  exact h.2 ▸ .setCore (.of_eq (sameRegisters_refl _) rfl rfl rfl)

theorem semNpop_frames (f : MayChange) (x : NForm) : (semNpop x).Frames f :=
  nSlot_frames (fun c => (CoreFrame.foldl (fun d _ => .makePending f d _) _ c).trans (.makePending f _ _))

/-- Every instruction changes no more than `Instr.mayChange` says. -/
theorem slotSem_frames {i : Instr} {m : SlotSem} (h : slotSem i = some m) : m.Frames (Instr.mayChange i) := by
  cases i
  case add f | sub f | mul f | mulh f | mulhn f | div f | divn f | rem f | remn f | and f | or f | xor f | andn f | shl f | shr f
      | sra f | rol f | min f | max f | minn f | maxn f | clz f | ctz f | popc f | bswap f | exts f | extz f | ins f | sel f | lea f
      | cmp f | pand f | por f | pxor f | pmov f | ptos f | fadd f | fsub f | fmul f | ffma f | fmin f | fmax f | fdiv f | fsqrt f
      | fcmp f | fclass f | fsgn f | fcvt f | fcvti f | icvtf f | prep f | addi f | andi f | ori f | xori f | shli f | shri f | srai f
      | muli f | mini f | maxi f | cmpi f | pset f | ptst f | setfmt f | getfmt f | stg f | gtg f | lcset f | lcget f | rasrd f
      | raswr f | movi f | moviz f | movm f | movt f | addpc f | prepr f | vadd f | vsub f | vmul f | vmulh f | vmulhn f | vmin f
      | vmax f | vminn f | vmaxn f | vand f | vor f | vxor f | vandn f | vshl f | vshr f | vsra f | vabs f | vneg f | vclz f | vpopc f
      | vadds f | vaddsn f | vsubs f | vsubsn f | vsel f | vcmp f | vfadd f | vfsub f | vfmul f | vfma f | vfmin f | vfmax f | vfdiv f
      | vfsqrt f | vfexp2 f | vflog2 f | vfrcp f | vfrsq f | vfabs f | vfneg f | vfcmp f | vfclass f | vfredadd f | vfredmax f
      | vredadd f | vredmax f | vmov f | vsplat f | vsplati f | vextr f | vinsr f | vperm f | vperm2 f | vshuf f | vslide f | viota f
      | mand f | mor f | mxor f | mnot f | mset f | mget f | vany f | vall f | mpopc f | zfromv f | fil f | filv f | hinv f =>
    obtain rfl := Option.some.inj h
    exact ⟨.refl _, nofun, nofun, fun s => .setCore (.result _ s.core ..)⟩
  case get f | gets f =>
    obtain rfl := Option.some.inj h
    exact sprRead_frames _ ..
  case set f | sets f =>
    obtain rfl := Option.some.inj h
    exact sprWrite_frames _ ..
  case br f | done f | swap f | eret f | idle f | halt f =>
    obtain rfl := Option.some.inj h
    exact cSlot_frames (fun c => .of_eq (sameRegisters_refl _) rfl rfl rfl)
  case call f =>
    obtain rfl := Option.some.inj h
    exact semCall_frames _ _
  case ret f =>
    obtain rfl := Option.some.inj h
    exact semRet_frames _ _
  case loop f =>
    obtain rfl := Option.some.inj h
    exact semLoop_frames _ _
  case qfence f =>
    obtain rfl := Option.some.inj h
    exact semQfence_frames _ _
  case wait f =>
    obtain rfl := Option.some.inj h
    exact ⟨.refl _, .of_free, nofun, .refl _⟩
  case sync f =>
    obtain rfl := Option.some.inj h
    exact semSync_frames rfl _
  case trap f | brk f =>
    obtain rfl := Option.some.inj h
    exact trapSlot_frames _ ..
  case vcvt f | vqnt f | vdqnt f | vacc f | hget f =>
    obtain rfl := Option.some.inj h
    exact ⟨.refl _, .of_hold, nofun, fun s => .setCore (.result _ s.core ..)⟩
  case vaccw f =>
    obtain rfl := Option.some.inj h
    exact ⟨.refl _, .of_free, nofun, fun s => .setCore (.result _ s.core ..)⟩
  case vsin f =>
    obtain rfl := Option.some.inj h
    exact semVsin_frames _ _
  case vsout f =>
    obtain rfl := Option.some.inj h
    exact ⟨.refl _, .of_streamWait, nofun, fun s => .setCore (.of_eq (sameRegisters_refl _) rfl rfl rfl)⟩
  case zld f | zldh f | zldb f | kld f | lds f | ldv f | ldvs f | ldvg f =>
    obtain rfl := Option.some.inj h
    exact ⟨.refl _, .of_classWait, nofun, fun s => .setCore (.result _ s.core ..)⟩
  case sts f | stv f | stvs f | stvg f | stvm f =>
    obtain rfl := Option.some.inj h
    exact storeSlot_frames rfl ..
  case setaw f =>
    obtain rfl := Option.some.inj h
    exact semSetaw_frames rfl _
  case waita f =>
    obtain rfl := Option.some.inj h
    exact semWaita_frames _ _
  case spl f | splv f =>
    obtain rfl := Option.some.inj h
    exact ⟨.refl _, nofun, nofun, fun s => .setCore (.spill _ s.core _)⟩
  case fence f =>
    obtain rfl := Option.some.inj h
    exact ⟨.refl _, nofun, nofun, fun s => .setCore (.of_eq (sameRegisters_refl _) rfl rfl rfl)⟩
  case xlate f =>
    obtain rfl := Option.some.inj h
    exact semXlate_frames _ _
  case ldh f | sth f | ldvh f | stvh f =>
    obtain rfl := Option.some.inj h
    exact drawerSlot_frames rfl ..
  case aadd f | amin f | amax f | aminn f | amaxn f | aand f | aor f | axor f | aswp f | acas f | aincb f | aincw f | adecp f | afal f
      | afadd f =>
    obtain rfl := Option.some.inj h
    exact atSlot_frames rfl ..
  case fenceSc f =>
    obtain rfl := Option.some.inj h
    exact semFenceSc_frames _ _
  case mma f | mepi f | msend f | mred f | mclr f =>
    obtain rfl := Option.some.inj h
    exact mSlot_frames (fun c => (CoreFrame.enqueue _ c ..).trans (.of_eq (sameRegisters_refl _) rfl rfl rfl))
  case mstat f =>
    obtain rfl := Option.some.inj h
    exact mSlot_frames (fun c => (CoreFrame.enqueue _ c ..).trans (.makePending ..))
  case kcpy f | kput f | kdec f | kzero f | kloc f =>
    obtain rfl := Option.some.inj h
    exact kSlot_frames rfl ..
  case kfill f | kfillConfigure f =>
    obtain rfl := Option.some.inj h
    exact kfillSlot_frames rfl rfl ..
  case nsend f | nsendt f | npost f | npush f | nrot f | ngsend f | nclose f | ndisarm f =>
    obtain rfl := Option.some.inj h
    exact nSlot_frames (.refl _)
  case npop f =>
    obtain rfl := Option.some.inj h
    exact semNpop_frames _ _
  all_goals exact nomatch h

/-! ### Issue keeps what its slots keep -/

/-- The state that a due bundle leaves: what the slots' waits, a late wait or the slots' effects leave, or the state as it was, and after
that only the clocks and a trap. -/
theorem State.issueSlots_induct {s : State} {h : Header} {ms : List SlotSem} {Q : State → Prop}
    (hQ : ∀ {u v}, Q u → Frame .none u v → Q v) (h0 : Q s) (hw : Q (runWaits s ms).1) (hl : ∀ {t}, lateWait s ms = some t → Q t)
    (he : Q (runEffects s (effectOrder ms))) : Q (s.issueSlots h ms) := by
  have hout {t : State} (ht : s.waitOut h ms = some t) : Q t := by
    unfold State.waitOut at ht
    dsimp only at ht
    split at ht
    · exact Option.some.inj ht ▸ hw
    · split at ht
      · exact Option.some.inj ht ▸ hQ h0 (.setCore (.countDown ..))
      · exact hl ht
  unfold State.issueSlots
  split
  · next ht => exact hout ht
  · split
    · exact hQ h0 (.trapPrecise ..)
    · extract_lets left rest c u d v
      split
      · refine hQ h0 (.setCore (CoreFrame.trans ?_ (CoreFrame.asks ..)))
        exact .of_eq (sameRegisters_refl _) rfl rfl rfl
      · have hv : Frame .none u v := by
          refine .setCore (((CoreFrame.finish _ u.core h).trans ?_).trans (CoreFrame.asks ..))
          exact .of_eq (sameRegisters_refl d) rfl rfl rfl
        split
        · exact hQ (hQ he hv) (.setCore (.of_eq (sameRegisters_refl v.core) rfl rfl rfl))
        · exact hQ he hv

theorem SlotSem.Frames.of_waits {f : MayChange} {m : SlotSem} (h : m.Frames f) {s t : State} (ht : m.waits s = some t) : Frame f s t := by
  unfold SlotSem.waits at ht
  split at ht
  · cases ht
  · split at ht
    · exact Option.some.inj ht ▸ .refl f s
    · split at ht
      · cases ht
      · split at ht
        · cases ht
        · split at ht
          · exact Option.some.inj ht ▸ h.walks s
          · exact h.wait ht

theorem SlotSem.Frames.of_waitsLate {f : MayChange} {m : SlotSem} (h : m.Frames f) {s t : State} (ht : m.waitsLate s = some t) :
    Frame f s t := by
  unfold SlotSem.waitsLate at ht
  split at ht
  · cases ht
  · exact h.late ht

theorem SlotSem.Frames.effect {f : MayChange} {m : SlotSem} (h : m.Frames f) (s : State) : Frame f s (m.effect s) := by
  unfold SlotSem.effect
  split
  · exact h.eff s
  · exact .refl f s

theorem Frame.runWaits {f : MayChange} {ms : List SlotSem} (h : ∀ m ∈ ms, m.Frames f) (s : State) : Frame f s (runWaits s ms).1 := by
  induction ms generalizing s with
  | nil => exact .refl f s
  | cons m r ih =>
    have hr := ih (fun x hx => h x (List.mem_cons_of_mem _ hx))
    unfold Machine.runWaits
    split
    · next ht => exact ((h m List.mem_cons_self).of_waits ht).trans (hr _)
    · exact hr s

theorem Frame.of_lateWait {f : MayChange} {ms : List SlotSem} (h : ∀ m ∈ ms, m.Frames f) {s t : State} (ht : lateWait s ms = some t) :
    Frame f s t := by
  induction ms with
  | nil => cases ht
  | cons m r ih =>
    unfold lateWait at ht
    split at ht
    · next hm => exact Option.some.inj ht ▸ (h m List.mem_cons_self).of_waitsLate hm
    · exact ih (fun x hx => h x (List.mem_cons_of_mem _ hx)) ht

theorem Frame.runEffects {f : MayChange} {ms : List SlotSem} (h : ∀ m ∈ ms, m.Frames f) (s : State) : Frame f s (runEffects s ms) := by
  induction ms generalizing s with
  | nil => exact .refl f s
  | cons m r ih =>
    exact ((h m List.mem_cons_self).effect s).trans (ih (fun x hx => h x (List.mem_cons_of_mem _ hx)) _)

theorem mem_of_mem_effectOrder {m : SlotSem} {ms : List SlotSem} (h : m ∈ effectOrder ms) : m ∈ ms := by
  simp only [effectOrder, List.mem_append, List.mem_filter] at h
  tauto

/-- A due bundle whose slots keep a frame keeps it. -/
theorem Frame.issueSlots {f : MayChange} {ms : List SlotSem} (h : ∀ m ∈ ms, m.Frames f) (s : State) (hd : Header) :
    Frame f s (s.issueSlots hd ms) :=
  State.issueSlots_induct (Q := Frame f s) .quiet (.refl f s) (.runWaits h s) (.of_lateWait h)
    (.runEffects (fun m hm => h m (mem_of_mem_effectOrder hm)) s)

theorem Frame.issueOne {f : MayChange} {m : SlotSem} (h : m.Frames f) (s : State) : Frame f s (s.issueOne m) :=
  .issueSlots (by simpa using h) s _

/-- Anything at all that an instruction can change. -/
def MayChange.all : MayChange := ⟨true, true, true, true⟩

theorem MayChange.le_all (f : MayChange) : f.le .all := by simp [MayChange.le, MayChange.all]

theorem SlotSem.Frames.mono {f g : MayChange} (hfg : f.le g) {m : SlotSem} (h : m.Frames f) : m.Frames g :=
  ⟨fun s => (h.walks s).mono hfg, fun ht => (h.wait ht).mono hfg, fun ht => (h.late ht).mono hfg, fun s => (h.eff s).mono hfg⟩

theorem readSem_frames {p : Slot × SlotRead} {m : SlotSem} (h : readSem p = some m) : m.Frames .all := by
  obtain ⟨sl, r⟩ := p
  cases r with
  | nop => cases h
  | badZero => exact Option.some.inj h ▸ ⟨.refl _, nofun, nofun, .refl _⟩
  | reserved op => exact Option.some.inj h ▸ ⟨.refl _, nofun, nofun, .refl _⟩
  | instr i => exact (slotSem_frames h).mono (MayChange.le_all _)

theorem bundleSems_frames (b : Bundle) : ∀ m ∈ bundleSems b, m.Frames .all := by
  intro m hm
  obtain ⟨p, _, hp⟩ := List.mem_filterMap.1 hm
  exact readSem_frames hp

/-- A due bundle keeps the memories canonical. -/
theorem State.MemOk.issueSlots {s : State} (hs : s.MemOk) (h : Header) (b : Bundle) : (s.issueSlots h (bundleSems b)).MemOk :=
  (Frame.issueSlots (bundleSems_frames b) s h).memOk hs

end Sys2Proof.Machine
end

section
/-! SUPPORT. The functions of the machine above the slots keep its memories canonical: one lemma each. -/

namespace Sys2Proof.Machine

open Sys2Proof.Claims

/-! ### The functions of Machine/Issue -/

theorem State.MemOk.issueDue {s : State} (h : s.MemOk) : s.issueDue.MemOk := by
  unfold State.issueDue
  dsimp only
  split
  · simpa using h
  · split
    · exact h
    · exact h.issueSlots _ _

@[simp] theorem State.setCore_countDown_memOk {s : State} {c : Core} (h : c.spad = s.core.spad) :
    (s.setCore c.countDown).MemOk ↔ s.MemOk :=
  State.setCore_memOk_iff h

@[simp] theorem State.drainCycle_memOk (s : State) : s.drainCycle.MemOk ↔ s.MemOk := by
  simp [State.drainCycle]

theorem State.MemOk.runCycle {s : State} (h : s.MemOk) : s.runCycle.MemOk := by
  unfold State.runCycle
  dsimp only
  split
  · exact h
  · split
    · simpa using h
    · have ht : (if s.core.eretDrain then (s.setCore s.core.resume).trapDelivery else s).MemOk := by split <;> simpa using h
      generalize (if s.core.eretDrain then (s.setCore s.core.resume).trapDelivery else s) = t at ht ⊢
      split
      · exact ht
      · split
        · split <;> simpa using ht
        · split
          · simpa using ht
          · exact ht.issueDue

theorem State.MemOk.bundleCycle {s : State} (h : s.MemOk) : s.bundleCycle.MemOk := by
  unfold State.bundleCycle
  dsimp only
  split
  · exact h.runCycle
  · split <;> simpa using h
  · split
    · exact State.MemOk.runCycle (by simpa using h)
    · exact h
  · exact h

theorem State.MemOk.coreCycle {s : State} (h : s.MemOk) (t : CoreId) : (s.coreCycle t).MemOk := by
  have hb : ((s.at t).bundleCycle).MemOk := State.MemOk.bundleCycle (by simpa using h)
  simpa [State.coreCycle] using hb

/-! ### The functions of Machine/Matrix -/

@[simp] theorem State.startMsend_memOk (s : State) (k : Cmd) : (s.startMsend k).MemOk ↔ s.MemOk := by
  simp only [State.startMsend]
  (repeat' split) <;> simp

@[simp] theorem State.matrixDispatch_memOk (s : State) : s.matrixDispatch.MemOk ↔ s.MemOk := by
  simp only [State.matrixDispatch]
  (repeat' split) <;> simp

@[simp] theorem State.msendTake_memOk (s : State) : s.msendTake.MemOk ↔ s.MemOk := by
  simp only [State.msendTake]
  (repeat' split) <;> simp

@[simp] theorem State.msendLeave_memOk (s : State) : s.msendLeave.MemOk ↔ s.MemOk := by
  unfold State.msendLeave
  (repeat' split) <;> simp

/-! ### The functions of Machine/Copy -/

@[simp] theorem State.copySettle_memOk (s : State) (id : CoreId) : (s.copySettle id).MemOk ↔ s.MemOk := by
  simp only [State.copySettle]
  (repeat' split) <;> simp

@[simp] theorem State.copyFail_memOk (s : State) (id : CoreId) (k : Cmd) (n code : Nat) (info : Word) :
    (s.copyFail id k n code info).MemOk ↔ s.MemOk := by
  simp [State.copyFail]

@[simp] theorem State.copyDispatch_memOk (s : State) : s.copyDispatch.MemOk ↔ s.MemOk := by
  simp only [State.copyDispatch]
  (repeat' split) <;> simp

@[simp] theorem State.setCopy_memOk (s : State) (id : CoreId) (g : KExec → KExec) : (s.setCopy id g).MemOk ↔ s.MemOk := by
  simp only [State.setCopy]
  split <;> simp

@[simp] theorem State.markChunk_memOk (s : State) (id n : Nat) (x : ChunkState) : (s.markChunk id n x).MemOk ↔ s.MemOk := by
  simp [State.markChunk]

@[simp] theorem State.chunkLogged_memOk (s : State) (id : CoreId) (e : KExec) (n : Nat) (bs : List (BitVec 8)) (ready : Bool) :
    (s.chunkLogged id e n bs ready).MemOk ↔ s.MemOk := by
  simp [State.chunkLogged]

@[simp] theorem State.chunkFaults_memOk (s : State) (id : CoreId) (e : KExec) (n : Nat) (bs : List (BitVec 8)) (type lev : Nat) (entry va : Word) :
    (s.chunkFaults id e n bs type lev entry va).MemOk ↔ s.MemOk := by
  simp [State.chunkFaults]

@[simp] theorem State.chunkToDrawer_memOk (s : State) (id : CoreId) (e : KExec) (n : Nat) (bs : List (BitVec 8)) :
    (s.chunkToDrawer id e n bs).MemOk ↔ s.MemOk := by
  unfold State.chunkToDrawer
  dsimp only
  split
  · simp
  · split
    · simp
    · split
      · split <;> next h => simp [← State.memOk_of_freshBlocks h]
      · simp

@[simp] theorem State.chunkToLocal_memOk (s : State) (id : CoreId) (e : KExec) (n : Nat) (bs : List (BitVec 8)) :
    (s.chunkToLocal id e n bs).MemOk ↔ s.MemOk := by
  simp only [State.chunkToLocal]
  split <;> simp

@[simp] theorem State.chunkRead_memOk (s : State) (id : CoreId) (n : Nat) (raw : List (BitVec 8)) :
    (s.chunkRead id n raw).MemOk ↔ s.MemOk := by
  unfold State.chunkRead
  split <;> simp

@[simp] theorem State.chunkPacket_memOk (s : State) (e : KExec) (n : Nat) (data : List (BitVec 8)) :
    (s.chunkPacket e n data).MemOk ↔ s.MemOk := by
  simp [State.chunkPacket]

@[simp] theorem State.chunkFresh_memOk (s : State) (id : CoreId) (e : KExec) (n : Nat) : (s.chunkFresh id e n).MemOk ↔ s.MemOk := by
  unfold State.chunkFresh
  dsimp only
  split <;> next h => simp [← State.memOk_of_freshBlocks h]

@[simp] theorem State.issueChunk_memOk (s : State) (e : KExec) (n : Nat) : (s.issueChunk e n).MemOk ↔ s.MemOk := by
  simp only [State.issueChunk]
  (repeat' split) <;> simp

@[simp] theorem State.noteDrawerDone_memOk (s : State) : s.noteDrawerDone.MemOk ↔ s.MemOk := by
  refine State.mapCores_memOk_iff (fun t c => ?_)
  split
  · dsimp only
    split <;> rfl
  · rfl

@[simp] theorem State.chunkIssue_memOk (s : State) : s.chunkIssue.MemOk ↔ s.MemOk := by
  simp only [State.chunkIssue]
  (repeat' split) <;> simp

@[simp] theorem State.chunkBlocks_memOk (s : State) (id : CoreId) (e : KExec) (n : Nat) (rs : List Req) :
    (s.chunkBlocks id e n rs).MemOk ↔ s.MemOk := by
  refine State.foldl_memOk_iff (fun t r => ?_) rs s
  split
  · split <;> simp
  · rfl

@[simp] theorem State.dropBlocks_memOk (s : State) (id n : Nat) : (s.dropBlocks id n).MemOk ↔ s.MemOk := by
  simp [State.dropBlocks]

@[simp] theorem State.chunkComplete_memOk (s : State) (id : CoreId) (n : Nat) : (s.chunkComplete id n).MemOk ↔ s.MemOk := by
  simp only [State.chunkComplete]
  (repeat' split) <;> simp

@[simp] theorem State.chunkReadFault_memOk (s : State) (id : CoreId) : (s.chunkReadFault id).MemOk ↔ s.MemOk := by
  simp only [State.chunkReadFault]
  (repeat' split) <;> simp

@[simp] theorem State.serviceRead_memOk (s : State) (p : Packet) (len back : Nat) : (s.serviceRead p len back).MemOk ↔ s.MemOk := by
  simp only [State.serviceRead]
  (repeat' split) <;> simp

/-! ### The functions of Machine/Channel -/

@[simp] theorem State.sendFail_memOk (s : State) (k : Cmd) (code : Nat) (info : Word) :
    (s.sendFail k code info).MemOk ↔ s.MemOk := by
  simp [State.sendFail]

@[simp] theorem State.sendNowhere_memOk (s : State) (k : Cmd) (x : Nat) : (s.sendNowhere k x).MemOk ↔ s.MemOk := by
  simp [State.sendNowhere]

@[simp] theorem State.queueMessage_memOk (s : State) (k : Cmd) (data : List (BitVec 8)) (op : NetOp) :
    (s.queueMessage k data op).MemOk ↔ s.MemOk := by
  simp [State.queueMessage]

@[simp] theorem State.dispatchQueue_memOk (s : State) (k : Cmd) : (s.dispatchQueue k).MemOk ↔ s.MemOk := by
  simp only [State.dispatchQueue]
  (repeat' split) <;> simp

@[simp] theorem State.dispatchN_memOk (s : State) (k : Cmd) : (s.dispatchN k).MemOk ↔ s.MemOk := by
  simp only [State.dispatchN]
  (repeat' split) <;> simp

@[simp] theorem State.takeFired_memOk (s : State) : s.takeFired.MemOk ↔ s.MemOk := by
  simp only [State.takeFired]
  (repeat' split) <;> simp

@[simp] theorem State.channelDispatch_memOk (s : State) : s.channelDispatch.MemOk ↔ s.MemOk := by
  simp only [State.channelDispatch]
  split <;> simp

@[simp] theorem State.setSend_memOk (s : State) (e : NExec) : (s.setSend e).MemOk ↔ s.MemOk := by
  simp [State.setSend]

@[simp] theorem State.askFlit_memOk (s : State) (e : NExec) (k : Nat) : (s.askFlit e k).MemOk ↔ s.MemOk := by
  simp [State.askFlit]

@[simp] theorem State.sendFlit_memOk (s : State) (e : NExec) (id : Nat) : (s.sendFlit e id).MemOk ↔ s.MemOk := by
  simp [State.sendFlit]

@[simp] theorem State.sendPacket_memOk (s : State) : s.sendPacket.MemOk ↔ s.MemOk := by
  simp only [State.sendPacket]
  (repeat' split) <;> simp

@[simp] theorem State.sendPush_memOk (s : State) : s.sendPush.MemOk ↔ s.MemOk := by
  simp only [State.sendPush]
  split <;> simp

@[simp] theorem State.refuse_core (s : State) (org loc ctx mid tgt addr : Nat) : (s.refuse org loc ctx mid tgt addr).core = s.core := by
  unfold State.refuse State.offer State.offerLog
  dsimp only
  split
  · split <;> rfl
  · rfl

theorem State.memOk_of_sendAtomic {s t : State} (h : s.sendAtomic = some t) : t.MemOk ↔ s.MemOk := by
  unfold State.sendAtomic at h
  dsimp only at h
  split at h
  · cases h
  · split at h
    · split at h
      · cases h
      · split at h
        · simp [← Option.some.inj h, State.refuseNoTile]
        · split at h
          · cases h
          · simp [← Option.some.inj h]
    · cases h

@[simp] theorem State.packetSend_memOk (s : State) : s.packetSend.MemOk ↔ s.MemOk := by
  unfold State.packetSend
  extract_lets t u
  have hu : u.MemOk ↔ s.MemOk := by
    simp only [u]
    (repeat' split) <;> simp [t]
  clear_value u
  have hv : (match u.sendAtomic with | some v => v | none => u.takeFired.sendPacket).MemOk ↔ s.MemOk := by
    split
    · next h => exact (State.memOk_of_sendAtomic h).trans hu
    · simpa using hu
  split <;> split
  · exact hu
  · exact hv
  · exact hu
  · exact hv

@[simp] theorem State.atomicReply_memOk (s : State) (p : Packet) (id : Nat) (old : Word) (ok : Bool) (bad : Option (Nat × Word)) (fl : Flags) :
    (s.atomicReply p id old ok bad fl).MemOk ↔ s.MemOk := by
  simp [State.atomicReply]

theorem State.MemOk.serviceAtomic {s : State} (h : s.MemOk) (p : Packet) (id : Nat) (op : BitVec 8) (w : BitVec 2) (b cc : Word) :
    (s.serviceAtomic p id op w b cc).MemOk := by
  have hs (bs : ByteWrites) : (s.putCore p.dst ((s.coreAt p.dst).store bs)).MemOk := h.putCore _ (Core.store_wf bs (h.coreAt _))
  unfold State.serviceAtomic
  extract_lets c n size
  clear_value size
  split
  · exact h
  · split
    · split
      · simpa using h
      · split
        · simpa using h
        · split
          · simpa using h
          · simpa [c] using h
    · split
      · exact h
      · split
        all_goals simpa using hs _

@[simp] theorem State.takeReply_memOk (s : State) (p : Packet) (id : Nat) (old : Word) (ok : Bool) (bad : Option (Nat × Word)) (fl : Flags) :
    (s.takeReply p id old ok bad fl).MemOk ↔ s.MemOk := by
  simp only [State.takeReply]
  (repeat' split) <;> simp

/-! ### The functions of Machine/Queues -/

@[simp] theorem State.unitFault_memOk (s : State) (ctx source qid type lev : Nat) (entry va : Word) :
    (s.unitFault ctx source qid type lev entry va).MemOk ↔ s.MemOk := .rfl

@[simp] theorem State.putQueue_memOk (s : State) (q : Nat) (r : QueueRec) : (s.putQueue q r).MemOk ↔ s.MemOk := .rfl

@[simp] theorem State.answerPop_memOk (s : State) (p : Packet) (words : List Word) (ok : Bool) :
    (s.answerPop p words ok).MemOk ↔ s.MemOk := by
  simp [State.answerPop]

@[simp] theorem State.settlePops_memOk (s : State) (q : Nat) : (s.settlePops q).MemOk ↔ s.MemOk := by
  simp [State.settlePops]

/-- The state that an answer of an append carries. -/
def Appended.state : Appended → State
  | .done s | .waits s => s

@[simp] theorem Appended.done_state (s : State) : (Appended.done s).state = s := (rfl)
@[simp] theorem Appended.waits_state (s : State) : (Appended.waits s).state = s := (rfl)

theorem State.memOk_of_unitWrite {s : State} {who : JobOwner} {cache ctx : Nat} {va : Word} {bs : List (BitVec 8)} {r : Retry}
    (h : s.unitWrite who cache ctx va bs = r) : r.state.MemOk ↔ s.MemOk := by
  simp [← h]

@[simp] theorem State.spillOut_memOk (s : State) (q name : Nat) (e : List (BitVec 8)) : (s.spillOut q name e).state.MemOk ↔ s.MemOk := by
  unfold State.spillOut
  dsimp only
  split <;> next h => simp [← State.memOk_of_unitWrite h]

@[simp] theorem State.append_memOk (s : State) (q since name : Nat) (e : List (BitVec 8)) :
    (s.append q since name e).state.MemOk ↔ s.MemOk := by
  unfold State.append
  dsimp only
  (repeat' split) <;> simp

theorem State.memOk_of_append {s : State} {q since name : Nat} {e : List (BitVec 8)} {r : Appended} (h : s.append q since name e = r) :
    r.state.MemOk ↔ s.MemOk := by
  simp [← h]

@[simp] theorem State.pushDone_memOk (s : State) (p : Packet) : (s.pushDone p).MemOk ↔ s.MemOk := by
  simp only [State.pushDone]
  split <;> simp

@[simp] theorem State.pushArrives_memOk (s : State) (p : Packet) (q : Nat) : (s.pushArrives p q).MemOk ↔ s.MemOk := by
  unfold State.pushArrives
  dsimp only
  split
  · simp
  · split <;> next h => simpa using State.memOk_of_append h

@[simp] theorem State.pop_memOk (s : State) (p : Packet) (q : Nat) : (s.pop p q).MemOk ↔ s.MemOk := by
  simp only [State.pop]
  split <;> simp

@[simp] theorem State.closeQueue_memOk (s : State) (q : Nat) : (s.closeQueue q).MemOk ↔ s.MemOk := by
  simp [State.closeQueue]

@[simp] theorem State.spillMove_memOk (s : State) (q : Nat) : (s.spillMove q).MemOk ↔ s.MemOk := by
  unfold State.spillMove
  dsimp only
  split
  · rfl
  · split
    · next h => split <;> simp [← State.memOk_of_unitRead h]
    all_goals next h => simp [← State.memOk_of_unitRead h]

theorem State.inTurn_memOk_iff {s now : State} (h : now.MemOk ↔ s.MemOk) (port : Nat) (e : Event) :
    (s.inTurn port e now).MemOk ↔ s.MemOk := by
  unfold State.inTurn
  split
  · rfl
  · split
    · rfl
    · exact h

@[simp] theorem State.writeTail_memOk (s : State) (port q : Nat) (x : Word) : (s.writeTail port q x).MemOk ↔ s.MemOk := by
  simp [State.writeTail]

@[simp] theorem State.takeStaging_memOk (s : State) (q : Nat) : (s.takeStaging q).MemOk ↔ s.MemOk := by
  unfold State.takeStaging
  dsimp only
  split
  · rfl
  · split
    · next h => split <;> next g => simpa [← State.memOk_of_unitRead h] using State.memOk_of_append g
    all_goals next h => simp [← State.memOk_of_unitRead h]

@[simp] theorem State.writeEvent_memOk (s : State) (port c e : Nat) (x : BitVec 32) :
    (s.writeEvent port c e x).MemOk ↔ s.MemOk := by
  simp [State.writeEvent]

@[simp] theorem State.readWindow_memOk (s : State) (port off len : Nat) : (s.readWindow port off len).MemOk ↔ s.MemOk := by
  simp [State.readWindow]

@[simp] theorem State.writeWindow_memOk (s : State) (port off : Nat) (data : List (BitVec 8)) :
    (s.writeWindow port off data).MemOk ↔ s.MemOk := by
  simp [State.writeWindow]

/-! ### The functions of Machine/Launch -/

@[simp] theorem State.putLaunch_memOk (s : State) (l : Launch) : (s.putLaunch l).MemOk ↔ s.MemOk := .rfl

@[simp] theorem State.admitHead_memOk (s : State) (q : Nat) : (s.admitHead q).MemOk ↔ s.MemOk := by
  unfold State.admitHead
  split <;> simp

@[simp] theorem State.admitHeads_memOk (s : State) : s.admitHeads.MemOk ↔ s.MemOk := by
  simp [State.admitHeads]

@[simp] theorem State.dropHead_memOk (s : State) (q : Nat) : (s.dropHead q).MemOk ↔ s.MemOk := .rfl

@[simp] theorem State.dropLoad_memOk (s : State) (id : Nat) : (s.dropLoad id).MemOk ↔ s.MemOk := .rfl

@[simp] theorem State.toHead_memOk (s : State) (l : Launch) : (s.toHead l).MemOk ↔ s.MemOk := .rfl

@[simp] theorem State.bumpEvent_memOk (s : State) (c e : Nat) : (s.bumpEvent c e).MemOk ↔ s.MemOk := .rfl

@[simp] theorem State.reportLaunch_memOk (s : State) (l : Launch) (status : Nat) : (s.reportLaunch l status).MemOk ↔ s.MemOk := by
  simp [State.reportLaunch]

@[simp] theorem State.endLaunch_memOk (s : State) (l : Launch) (status : Nat) : (s.endLaunch l status).MemOk ↔ s.MemOk := by
  simp [State.endLaunch]

@[simp] theorem State.leaveTile_memOk (s : State) (tid : Nat) : (s.leaveTile tid).MemOk ↔ s.MemOk := .rfl

@[simp] theorem State.endGang_memOk (s : State) (g : Gang) : (s.endGang g).MemOk ↔ s.MemOk := by
  simp [State.endGang]

@[simp] theorem State.complete_memOk (s : State) (g : Nat) : (s.complete g).MemOk ↔ s.MemOk := by
  unfold State.complete
  (repeat' split) <;> simp

@[simp] theorem State.askDep_memOk (s : State) (l : Launch) (i : Nat) : (s.askDep l i).MemOk ↔ s.MemOk := by
  simp [State.askDep]

@[simp] theorem State.readDeps_memOk (s : State) (id : Nat) : (s.readDeps id).MemOk ↔ s.MemOk := by
  unfold State.readDeps
  split <;> simp

@[simp] theorem State.dropDeps_memOk (s : State) (p : Xfer → Bool) : (s.dropDeps p).MemOk ↔ s.MemOk :=
  State.mapCores_memOk_iff (s := s) (g := fun _ c => { c with xfers := c.xfers.filter (fun x => !p x) }) (fun _ _ => rfl)

@[simp] theorem State.judgeDeps_memOk (s : State) : s.judgeDeps.MemOk ↔ s.MemOk := by
  simp [State.judgeDeps]

@[simp] theorem State.placeLaunch_memOk (s : State) (l : Launch) (ox oy : Nat) (behind : Bool) :
    (s.placeLaunch l ox oy behind).MemOk ↔ s.MemOk := by
  simp [State.placeLaunch]

@[simp] theorem State.considerAll_memOk (s : State) (ls : List Launch) (seen shut : List Nat) :
    (s.considerAll ls seen shut).MemOk ↔ s.MemOk := by
  induction ls generalizing s seen shut with
  | nil => rfl
  | cons l r ih =>
    unfold State.considerAll
    dsimp only
    split <;> simp [ih]

@[simp] theorem State.placementRound_memOk (s : State) : s.placementRound.MemOk ↔ s.MemOk := by
  unfold State.placementRound
  split <;> simp

@[simp] theorem Retry.loaded_memOk (r : Retry) : r.loaded.2.MemOk ↔ r.state.MemOk := by
  cases r <;> rfl

theorem readParts_memOk {rd : PartReader} (hrd : ∀ i a n s, (rd i a n s).state.MemOk ↔ s.MemOk) (ps : List (Nat × Word × Nat))
    (s : State) : (readParts rd ps s).state.MemOk ↔ s.MemOk := by
  induction ps generalizing s with
  | nil => rfl
  | cons p r ih =>
    obtain ⟨i, a, n⟩ := p
    have h := hrd i a n s
    unfold readParts
    generalize rd i a n s = x at h ⊢
    cases x with
    | done bs t =>
      have ht := ih t
      dsimp only
      generalize readParts rd r t = y at ht ⊢
      cases y <;> simpa [← h] using ht
    | wait t =>
      have ht := ih t
      dsimp only
      generalize readParts rd r t = y at ht ⊢
      cases y <;> simpa [← h] using ht
    | fault => exact h
    | cause => exact h

theorem memOk_of_readParts {rd : PartReader} (hrd : ∀ i a n s, (rd i a n s).state.MemOk ↔ s.MemOk) {ps : List (Nat × Word × Nat)}
    {s : State} {r : Retry} (h : readParts rd ps s = r) : r.state.MemOk ↔ s.MemOk :=
  h ▸ readParts_memOk hrd ps s

theorem State.readImage_memOk {rd : PartReader} (hrd : ∀ i a n s, (rd i a n s).state.MemOk ↔ s.MemOk) (s : State) (image looptab : Word)
    (w h spend : Nat) : (s.readImage rd image looptab w h spend).2.MemOk ↔ s.MemOk := by
  unfold State.readImage
  split
  · rfl
  · have h0 := hrd 0 image 64 s
    split
    · next hb t g =>
      rw [g] at h0
      replace h0 : t.MemOk ↔ s.MemOk := h0
      rw [← h0]
      dsimp only
      split
      · have h1 := hrd 1 looptab 8 t
        split
        · rfl
        · split
          · next g => simpa [g] using h1
          · next g => simpa [g] using h1
          · simpa using h1
      · split
        · next g => exact memOk_of_readParts hrd g
        · simp [readParts_memOk hrd]
    · simpa using h0

theorem imageReader_memOk (who : Nat → JobOwner) (k ctx i : Nat) (a : Word) (n : Nat) (s : State) :
    (imageReader who k ctx i a n s).state.MemOk ↔ s.MemOk := by
  unfold imageReader
  split <;> simp

theorem State.memOk_of_readImage {s t : State} {who : Nat → JobOwner} {k ctx : Nat} {image looptab : Word} {w h spend : Nat} {l : Loaded}
    (g : s.readImage (imageReader who k ctx) image looptab w h spend = (l, t)) : t.MemOk ↔ s.MemOk := by
  simpa [g] using State.readImage_memOk (rd := imageReader who k ctx) (imageReader_memOk who k ctx) s image looptab w h spend

@[simp] theorem State.planeLoad_memOk (s : State) (id : Nat) : (s.planeLoad id).MemOk ↔ s.MemOk := by
  unfold State.planeLoad
  split
  · rfl
  · split
    · rfl
    · split <;> next h => simp [← State.memOk_of_readImage h]

@[simp] theorem State.grantLaunch_memOk (s : State) (id : Nat) : (s.grantLaunch id).MemOk ↔ s.MemOk := by
  unfold State.grantLaunch
  split <;> simp

@[simp] theorem State.startToken_memOk (s : State) (g t : Nat) : (s.startToken g t).MemOk ↔ s.MemOk := by
  unfold State.startToken
  split <;> simp

theorem Mem.wfFrom_filter (p : Host.Cell → Bool) {m : Mem} {lo : Nat} (h : Mem.wfFrom lo m = true) :
    Mem.wfFrom lo (m.filter p) = true := by
  induction m generalizing lo with
  | nil => rfl
  | cons e r ih =>
    obtain ⟨k, b⟩ := e
    simp only [Mem.wfFrom, Bool.and_eq_true, decide_eq_true_eq] at h
    obtain ⟨⟨hlo, hb⟩, hr⟩ := h
    rw [List.filter_cons]
    split
    · simpa [Mem.wfFrom, hlo, ih hr] using hb
    · exact Mem.wfFrom_mono (by omega) (ih hr)

/-- Bytes taken out of a memory leave it canonical. -/
theorem Core.clearWords_wf {c : Core} (h : c.spad.wf = true) (i : Nat) : (c.clearWords i).spad.wf = true :=
  Mem.wfFrom_filter _ h

theorem State.MemOk.prepareMember {s : State} (h : s.MemOk) (l : Launch) (t r : Nat) : (s.prepareMember l t r).MemOk := by
  have hc := h.coreAt t
  unfold State.prepareMember
  extract_lets k i j c1 c2 c3
  have h1 : c1.spad.wf = true := by
    simp only [c1]
    split
    · simpa using hc
    · exact hc
  clear_value c1
  have h2 : c2.spad.wf = true := by
    simp only [c2]
    split
    · exact Core.clearWords_wf h1 i
    · exact h1
  clear_value c2
  have h3 : c3.spad.wf = true := by
    simp only [c3]
    split
    · dsimp only
      exact Mem.wf_putBytes _ _ h2
    · exact h2
  clear_value c3
  refine h.putCore t ?_
  split
  · simpa using h3
  · exact h3

theorem State.MemOk.prepareMembers {s : State} (h : s.MemOk) : s.prepareMembers.MemOk := by
  refine State.MemOk.foldl (fun u l hu => ?_) _ h
  split
  · exact State.MemOk.foldl (fun v k hv => hv.prepareMember l k.1 k.2) _ hu
  · exact hu

@[simp] theorem State.startGang_memOk (s : State) (g : Nat) : (s.startGang g).MemOk ↔ s.MemOk := by
  unfold State.startGang
  split <;> simp

@[simp] theorem State.drain_memOk (s : State) (t : Nat) : (s.drain t).MemOk ↔ s.MemOk := by
  simp only [State.drain]
  split <;> simp

@[simp] theorem State.detect_memOk (s : State) (g bl : Nat) : (s.detect g bl).MemOk ↔ s.MemOk := by
  unfold State.detect
  split <;> simp

@[simp] theorem State.releaseLine_memOk (s : State) (g bl : Nat) : (s.releaseLine g bl).MemOk ↔ s.MemOk := by
  simp only [State.releaseLine]
  (repeat' split) <;> simp

@[simp] theorem State.dropFlying_memOk (s : State) (id : CoreId) : (s.dropFlying id).MemOk ↔ s.MemOk := by
  simp [State.dropFlying]

@[simp] theorem State.forget_memOk (s0 : State) (id : CoreId) : (s0.forget id).MemOk ↔ s0.MemOk := by
  simp [State.forget]

@[simp] theorem State.abortGang_memOk (s : State) (g : Gang) (tid status : Nat) : (s.abortGang g tid status).MemOk ↔ s.MemOk := by
  simp [State.abortGang]

/-! ### The functions of Machine/Records -/

@[simp] theorem State.readIngressOf_memOk (s : State) (t : Nat) (old new : List (BitVec 8)) :
    (s.readIngressOf t old new).MemOk ↔ s.MemOk := .rfl

/-! ### The functions of Machine/Contexts -/

@[simp] theorem State.putCtx_memOk (s : State) (c : Nat) (d : Ctx) : (s.putCtx c d).MemOk ↔ s.MemOk := .rfl

@[simp] theorem State.requestRefused_memOk (s : State) (ctx reg : Nat) : (s.requestRefused ctx reg).MemOk ↔ s.MemOk := by
  simp [State.requestRefused]

@[simp] theorem State.setPre_memOk (s : State) (x : Word) (busy : Bool) : (s.setPre x busy).MemOk ↔ s.MemOk := .rfl

@[simp] theorem State.preDone_memOk (s : State) (c code : Nat) : (s.preDone c code).MemOk ↔ s.MemOk := by
  simp [State.preDone]

@[simp] theorem State.foldr_memOk_iff {α : Type} {f : α → State → State} (h : ∀ a s, (f a s).MemOk ↔ s.MemOk) (l : List α) (s : State) :
    (l.foldr f s).MemOk ↔ s.MemOk := by
  induction l with
  | nil => rfl
  | cons a l ih => rw [List.foldr_cons, h, ih]

@[simp] theorem State.unplace_memOk (s : State) (c : Nat) : (s.unplace c).MemOk ↔ s.MemOk := by
  simp [State.unplace]

@[simp] theorem State.releaseHeld_memOk (s : State) (c : Nat) : (s.releaseHeld c).MemOk ↔ s.MemOk := by
  simp [State.releaseHeld]

@[simp] theorem State.saveRequest_memOk (s : State) (c : Nat) : (s.saveRequest c).MemOk ↔ s.MemOk := by
  simp [State.saveRequest]

@[simp] theorem State.withdrawPop_memOk (s : State) (t : Nat) : (s.withdrawPop t).MemOk ↔ s.MemOk := by
  unfold State.withdrawPop
  split
  · exact State.putCore_memOk_iff rfl
  · rfl

@[simp] theorem State.haltToken_memOk (s : State) (t : Nat) : (s.haltToken t).MemOk ↔ s.MemOk := by
  unfold State.haltToken
  split <;> simp

@[simp] theorem State.haltDone_memOk (s : State) (c : Nat) : (s.haltDone c).MemOk ↔ s.MemOk := by
  simp [State.haltDone]

@[simp] theorem State.tileHalted_memOk (s : State) (t : Nat) : (s.tileHalted t).MemOk ↔ s.MemOk := by
  unfold State.tileHalted
  split <;> simp

@[simp] theorem State.rename_memOk (s : State) (a b : Nat) : (s.rename a b).MemOk ↔ s.MemOk := .rfl

theorem State.MemOk.setAside {s : State} (h : s.MemOk) (t : Nat) : (s.setAside t).2.MemOk := by
  unfold State.setAside
  dsimp only
  rw [State.rename_memOk]
  refine State.MemOk.putCore (State.MemOk.putCore ?_ _ ?_) _ rfl
  · simpa using h
  · exact h.coreAt t

theorem State.MemOk.setAsideAll {s : State} (h : s.MemOk) (ts : List Nat) : (s.setAsideAll ts).2.MemOk := by
  induction ts generalizing s with
  | nil => exact h
  | cons t r ih => exact ih (h.setAside t)

theorem State.MemOk.saveGang {s : State} (h : s.MemOk) (g : Gang) : (s.saveGang g).MemOk :=
  h.setAsideAll g.tiles

theorem State.MemOk.saveEnd {s : State} (h : s.MemOk) (c : Nat) : (s.saveEnd c).MemOk := by
  unfold State.saveEnd
  split
  · dsimp only
    rw [State.preDone_memOk, State.putCtx_memOk]
    exact State.MemOk.foldl (fun u g hu => hu.saveGang g) _ (by simpa using h)
  · exact h

theorem State.MemOk.recordWritten {s : State} (h : s.MemOk) (t : Nat) : (s.recordWritten t).MemOk := by
  unfold State.recordWritten
  split
  · exact h
  · dsimp only
    split
    · split
      · next g =>
        have hu := (State.memOk_of_transfer g).2 h
        split <;> exact hu
      all_goals
        next g =>
        refine State.MemOk.saveEnd ?_ _
        exact (State.memOk_of_transfer g).2 h
    · exact h

theorem Tab.mem_of_mem_del {α : Type} {t : Tab α} {k : Nat} {e : Nat × α} (h : e ∈ Tab.del t k) : e ∈ t :=
  (List.mem_filter.1 h).1

theorem State.MemOk.delCore {s : State} (h : s.MemOk) (k : Nat) : ({ s with cores := Tab.del s.cores k } : State).MemOk :=
  ⟨h.1, h.2.1, fun e he => h.2.2 e (Tab.mem_of_mem_del he)⟩

theorem State.MemOk.putBack {s : State} (h : s.MemOk) (g : Gang) (ox oy tq : Nat) (p : Option Plane) (old key : Nat) :
    (s.putBack g ox oy tq p old key).MemOk := by
  unfold State.putBack
  split
  · exact h.delCore key
  · dsimp only
    rw [State.rename_memOk]
    exact (h.delCore key).putCore _ (by simpa using h.coreAt key)

theorem State.MemOk.resumeGang {s : State} (h : s.MemOk) (v : SavedGang) (ox oy : Nat) (p : Option Plane) : (s.resumeGang v ox oy p).MemOk :=
  State.MemOk.foldl (fun _ k hu => hu.putBack v.gang ox oy (bwcTq (Tab.getD s.bwc v.gang.ctx 0)) p k.1 k.2) (v.gang.tiles.zip v.tiles) h

@[simp] theorem State.restoreEnd_memOk (s : State) (c : Nat) : (s.restoreEnd c).MemOk ↔ s.MemOk := by
  simp [State.restoreEnd]

@[simp] theorem State.putSaved_memOk (s : State) (v : SavedGang) : (s.putSaved v).MemOk ↔ s.MemOk := .rfl

@[simp] theorem State.dropReload_memOk (s : State) (v : SavedGang) : (s.dropReload v).MemOk ↔ s.MemOk := by
  simp [State.dropReload]

@[simp] theorem State.recallMember_memOk (s : State) (v : SavedGang) (k i : Nat) : (s.recallMember v k i).MemOk ↔ s.MemOk := by
  unfold State.recallMember
  dsimp only
  split <;> next h => exact State.memOk_of_transfer h

theorem Core.recalled_wf (c : Core) (w : Nat) (old new : List (BitVec 8)) : (c.recalled w old new).spad.wf = true :=
  Mem.wf_putBytes _ 0 rfl

theorem State.MemOk.grantRestore {s : State} (h : s.MemOk) (v : SavedGang) (ox oy : Nat) : (s.grantRestore v ox oy).MemOk := by
  unfold State.grantRestore
  extract_lets got t lines start listed
  have ht : t.MemOk := by
    refine State.MemOk.foldl (fun u k hu => ?_) _ h
    split
    · rw [State.readIngressOf_memOk]
      exact hu.putCore _ (Core.recalled_wf ..)
    · exact hu
  have hl : listed.MemOk := State.MemOk.foldl (fun u k hu => hu.putCore k (c := { u.coreAt k with gate := start }) (hu.coreAt k)) _ ht
  simpa using hl

theorem State.MemOk.restoreStep {s : State} (h : s.MemOk) (id : Nat) : (s.restoreStep id).MemOk := by
  unfold State.restoreStep
  split
  · exact h
  · next v _ =>
    split
    · simpa using h
    · next ox oy _ =>
      split
      · simpa using h
      · split
        · split
          · exact h.resumeGang ..
          · exact h
        · split
          · exact h
          · dsimp only
            split <;> next g => simpa using (State.memOk_of_readImage g).2 h
        · have ht : (v.tiles.zipIdx.foldl (fun (u : State) k => u.recallMember v k.1 k.2) s).MemOk := by simpa using h
          dsimp only
          split
          · exact ht.grantRestore ..
          · exact ht

theorem State.MemOk.gangRestore {s : State} (h : s.MemOk) (c : Nat) : (s.gangRestore c).MemOk := by
  unfold State.gangRestore
  split
  · exact h
  · rw [State.restoreEnd_memOk]
    exact State.MemOk.foldl (fun u k hu => hu.restoreStep k) _ h

theorem State.MemOk.abortFor {s : State} (h : s.MemOk) (g : Gang) (tid : Nat) : (s.abortFor g tid).MemOk :=
  State.MemOk.saveEnd (by simpa using h) _

theorem State.MemOk.gangAbort {s : State} (h : s.MemOk) (t : Nat) : (s.gangAbort t).MemOk := by
  unfold State.gangAbort
  split
  · split
    · exact h.abortFor ..
    · exact h
  · exact h

@[simp] theorem State.dropSpillIn_memOk (s : State) (q : Nat) : (s.dropSpillIn q).MemOk ↔ s.MemOk := .rfl

@[simp] theorem State.sweepQueue_memOk (s : State) (q : Nat) : (s.sweepQueue q).MemOk ↔ s.MemOk := by
  simp [State.sweepQueue]

@[simp] theorem State.emptyQueue_memOk (s : State) (q : Nat) : (s.emptyQueue q).MemOk ↔ s.MemOk := by
  simp [State.emptyQueue]

theorem State.MemOk.dropSaved {s : State} (h : s.MemOk) (v : SavedGang) : (s.dropSaved v).MemOk := by
  have ht := State.MemOk.foldl (f := fun (u : State) k => { u.forget k with cores := Tab.del u.cores k }) (fun u k hu => by
    obtain ⟨hd, hf, _⟩ := (u.forget_memOk k).2 hu
    exact ⟨hd, hf, (hu.delCore k).2.2⟩) v.tiles (s := s.dropReload v) (by simpa using h)
  simpa [State.dropSaved] using ht

theorem State.MemOk.dismantle {s : State} (h : s.MemOk) (c : Nat) : (s.dismantle c).MemOk := by
  have hv := State.MemOk.foldl (f := fun (x : State) g => x.dropSaved g) (fun _ g hu => hu.dropSaved g)
  unfold State.dismantle
  extract_lets t u v w
  have hw : w.MemOk := hv _ (by simpa [u, t] using h)
  simpa using hw

theorem State.MemOk.destroyRequest {s : State} (h : s.MemOk) (c : Nat) : (s.destroyRequest c).MemOk := by
  simpa [State.destroyRequest] using h.dismantle c

@[simp] theorem State.destroyed_memOk (s : State) (c : Nat) : (s.destroyed c).MemOk ↔ s.MemOk := by
  simp [State.destroyed]

theorem State.MemOk.writePre {s : State} (h : s.MemOk) (x : Word) : (s.writePre x).MemOk := by
  unfold State.writePre
  extract_lets u c st t
  have hu : u.MemOk := by
    simp only [u]
    split <;> exact h
  have ht : t.MemOk := by simpa [t] using hu
  clear_value t u
  split
  · simpa using hu
  · split
    · simpa using hu
    · split
      · exact State.MemOk.saveEnd (by simpa using hu) _
      · split
        · simpa using ht
        · split
          · exact State.MemOk.destroyRequest (by simpa using hu) _
          · simpa using hu

/-! ### The functions of Machine/Faults -/

@[simp] theorem State.writeSd_memOk (s : State) (x : Word) : (s.writeSd x).MemOk ↔ s.MemOk := by
  simp [State.writeSd]

@[simp] theorem State.sdAck_memOk (s : State) (t : Nat) : (s.sdAck t).MemOk ↔ s.MemOk := by
  unfold State.sdAck
  split <;> simp

@[simp] theorem State.sdComplete_memOk (s : State) : s.sdComplete.MemOk ↔ s.MemOk := by
  simp [State.sdComplete]

@[simp] theorem State.writeRecord_memOk (s : State) : s.writeRecord.MemOk ↔ s.MemOk := by
  unfold State.writeRecord
  split
  · rfl
  · dsimp only
    split
    · rfl
    · split
      · next h => split <;> simp [← State.memOk_of_transfer h]
      all_goals next h => simp [← State.memOk_of_transfer h]

@[simp] theorem State.flushFaults_memOk (s : State) (x : Word) : (s.flushFaults x).MemOk ↔ s.MemOk := by
  simp [State.flushFaults]

/-! ### The functions of Machine/Tables -/

@[simp] theorem State.selectDesc_memOk (s : State) (x : Word) : (s.selectDesc x).MemOk ↔ s.MemOk := .rfl

@[simp] theorem State.dscResult_memOk (s : State) (ok : Bool) (tbl idx ctx : Nat) :
    (s.dscResult ok tbl idx ctx).MemOk ↔ s.MemOk := by
  simp [State.dscResult]

@[simp] theorem State.commitQueue_memOk (s : State) (q : Nat) : (s.commitQueue q).MemOk ↔ s.MemOk := by
  simp [State.commitQueue]

@[simp] theorem State.setGrants_memOk (s : State) (tiles : List Nat) (mid : Nat) (g : BitVec 2) (clear : Bool) :
    (s.setGrants tiles mid g clear).MemOk ↔ s.MemOk := .rfl

@[simp] theorem State.commitCtx_memOk (s : State) (c : Nat) : (s.commitCtx c).MemOk ↔ s.MemOk := by
  simp [State.commitCtx]

@[simp] theorem State.writeDscCtl_memOk (s : State) (x : Word) : (s.writeDscCtl x).MemOk ↔ s.MemOk := by
  simp [State.writeDscCtl]

@[simp] theorem State.selectAtb_memOk (s : State) (x : Word) : (s.selectAtb x).MemOk ↔ s.MemOk := .rfl

@[simp] theorem State.atbResult_memOk (s : State) (ok : Bool) : (s.atbResult ok).MemOk ↔ s.MemOk := by
  simp [State.atbResult]

@[simp] theorem State.commitGrant_memOk (s : State) : s.commitGrant.MemOk ↔ s.MemOk := by
  simp [State.commitGrant]

@[simp] theorem State.commitRange_memOk (s : State) : s.commitRange.MemOk ↔ s.MemOk := by
  simp [State.commitRange]

@[simp] theorem State.commitHostSet_memOk (s : State) : s.commitHostSet.MemOk ↔ s.MemOk := by
  simp [State.commitHostSet]

@[simp] theorem State.writeAtbCtl_memOk (s : State) (x : Word) : (s.writeAtbCtl x).MemOk ↔ s.MemOk := by
  unfold State.writeAtbCtl
  (repeat' split) <;> simp

@[simp] theorem State.writeSlt_memOk (s : State) (x : Word) : (s.writeSlt x).MemOk ↔ s.MemOk := by
  simp [State.writeSlt]

@[simp] theorem State.writeSltCtl_memOk (s : State) (x : Word) : (s.writeSltCtl x).MemOk ↔ s.MemOk := by
  simp only [State.writeSltCtl]
  (repeat' split) <;> simp

@[simp] theorem State.switchSlots_memOk (s : State) (n : Nat) : (s.switchSlots n).MemOk ↔ s.MemOk := by
  simp [State.switchSlots]

/-! ### The functions of Machine/Power -/

@[simp] theorem State.writePower_memOk (s : State) (x : Word) : (s.writePower x).MemOk ↔ s.MemOk := by
  simp [State.writePower]

@[simp] theorem State.powerStage_memOk (s : State) : s.powerStage.MemOk ↔ s.MemOk := by
  unfold State.powerStage
  split <;> simp

theorem State.MemOk.loseContexts {s : State} (h : s.MemOk) : s.loseContexts.MemOk :=
  ⟨h.1, h.2.1, fun e he => h.2.2 e (List.mem_filter.1 he).1⟩

theorem State.MemOk.shutDown {s : State} (h : s.MemOk) (f code : Nat) : (s.shutDown f code).MemOk :=
  State.MemOk.loseContexts (s := s.offer 7 f 0x40 0x0031 (leBytes 1 f ++ leBytes 2 code)) (by simpa using h)

theorem State.MemOk.sampleAll {s : State} (h : s.MemOk) : s.sampleAll.MemOk := by
  unfold State.sampleAll
  split
  · exact h
  · extract_lets t
    have ht : t.MemOk := by
      refine State.MemOk.foldl (fun u f hu => ?_) _ h
      dsimp only
      split <;> simpa using hu
    split
    · exact ht.shutDown ..
    · exact ht

@[simp] theorem State.writeThrottle_memOk (s : State) (f : Nat) (x : Word) : (s.writeThrottle f x).MemOk ↔ s.MemOk := .rfl

@[simp] theorem State.turnThrottles_memOk (s : State) : s.turnThrottles.MemOk ↔ s.MemOk := by
  simp [State.turnThrottles]

@[simp] theorem State.answerOrder_memOk (s : State) (o : Offer) : (s.answerOrder o).MemOk ↔ s.MemOk := by
  unfold State.answerOrder
  (repeat' split) <;> simp

@[simp] theorem State.stamp_memOk (s : State) : s.stamp.MemOk ↔ s.MemOk := by
  unfold State.stamp
  (repeat' split) <;> simp

@[simp] theorem State.wakeTimer_memOk (s : State) : s.wakeTimer.MemOk ↔ s.MemOk := by
  simp [State.wakeTimer]

@[simp] theorem State.writeBbIdx_memOk (s : State) (x : Word) : (s.writeBbIdx x).MemOk ↔ s.MemOk := .rfl

@[simp] theorem State.writeBbCode_memOk (s : State) (x : Word) : (s.writeBbCode x).MemOk ↔ s.MemOk := by
  simp [State.writeBbCode]

@[simp] theorem State.writeRank_memOk (s : State) (x : Word) : (s.writeRank x).MemOk ↔ s.MemOk := by
  simp [State.writeRank]

/-! ### The functions of Machine/Repair -/

@[simp] theorem State.addLog_memOk (s : State) (key unit kind place detail : Nat) :
    (s.addLog key unit kind place detail).MemOk ↔ s.MemOk := .rfl

@[simp] theorem State.logTile_memOk (s : State) (tid unit kind detail : Nat) :
    (s.logTile tid unit kind detail).1.MemOk ↔ s.MemOk := .rfl

@[simp] theorem State.logField_memOk (s : State) (tid kind : Nat) : (s.logField tid kind).1.MemOk ↔ s.MemOk := .rfl

@[simp] theorem State.logEnd_memOk (s : State) (tid unit n kind detail : Nat) :
    (s.logEnd tid unit n kind detail).MemOk ↔ s.MemOk := .rfl

@[simp] theorem State.enterJournal_memOk (s : State) (x : Word) : (s.enterJournal x).MemOk ↔ s.MemOk := .rfl

@[simp] theorem State.writeRep_memOk (s : State) (x : Word) (port : Bool) : (s.writeRep x port).MemOk ↔ s.MemOk := by
  simp [State.writeRep]

@[simp] theorem State.serviceCmd_memOk (s : State) (op : Nat) (x : Word) : (s.serviceCmd op x).MemOk ↔ s.MemOk := by
  simp [State.serviceCmd]

@[simp] theorem State.putMap_memOk (s : State) (f : Nat) (m : FieldMap) : (s.putMap f m).MemOk ↔ s.MemOk := .rfl

@[simp] theorem State.holdWatchdogs_memOk (s : State) : s.holdWatchdogs.MemOk ↔ s.MemOk := .rfl

@[simp] theorem State.setFrozen_memOk (s : State) (t : Nat) (b : Bool) : (s.setFrozen t b).MemOk ↔ s.MemOk := by
  simp [State.setFrozen]

@[simp] theorem State.loseHead_memOk (s : State) (q : Nat) : (s.loseHead q).MemOk ↔ s.MemOk := by
  simp [State.loseHead]

@[simp] theorem State.putMeshPort_memOk (s : State) (n : Nat) (q : MeshPort) : (s.putMeshPort n q).MemOk ↔ s.MemOk := .rfl

@[simp] theorem State.unhold_memOk (s : State) (id : Nat) (p : Nat → Bool) : (s.unhold id p).MemOk ↔ s.MemOk := .rfl

@[simp] theorem State.resend_memOk (s : State) (t d n id : Nat) : (s.resend t d n id).MemOk ↔ s.MemOk := by
  unfold State.resend
  split <;> simp

@[simp] theorem State.passHole_memOk (s : State) (t : Nat) (p : Packet) : (s.passHole t p).MemOk ↔ s.MemOk := by
  unfold State.passHole
  (repeat' split) <;> simp

theorem State.MemOk.makeHole {s : State} (h : s.MemOk) (t : Nat) : (s.makeHole t).MemOk := by
  unfold State.makeHole
  extract_lets s1 f s2 s3 s4 s5
  have h1 : s1.MemOk := by
    simp only [s1]
    split
    · exact h.abortFor ..
    · exact h
  clear_value s1
  simpa [s5, s4, s3, s2] using h1

theorem State.MemOk.retire {s : State} (h : s.MemOk) (t : Nat) : (s.retire t).MemOk := by
  unfold State.retire
  dsimp only
  split
  · simpa using h
  · split
    · simpa using h
    · exact h.makeHole t

theorem State.MemOk.retireOrWait {s : State} (h : s.MemOk) (t : Nat) : (s.retireOrWait t).MemOk := by
  unfold State.retireOrWait
  split
  · exact h
  · exact h.retire t

theorem State.MemOk.failAt {s : State} (h : s.MemOk) (f : Nat) (e : Nat × Nat × Nat) : (s.failAt f e).MemOk := by
  unfold State.failAt
  split
  · exact State.MemOk.retireOrWait (by simpa using h) _
  · exact h

theorem State.MemOk.containedError {s : State} (h : s.MemOk) (t u : Nat) : (s.containedError t u).MemOk := by
  unfold State.containedError
  split
  · split <;> simpa using h
  · split
    · exact h
    · refine State.MemOk.retireOrWait ?_ _
      simp only [State.offerLog_memOk, State.setFrozen_memOk]
      rw [State.putCore_memOk_iff]
      · simpa using h
      · split <;> simp

theorem State.MemOk.uncontainedError {s : State} (h : s.MemOk) (t u : Nat) : (s.uncontainedError t u).MemOk := by
  unfold State.uncontainedError
  split
  · exact h
  · have hp : (if s.copying t then s.logField t 2 else s.logTile t u 2 0).1.MemOk := by split <;> simpa using h
    split
    next s1 key g =>
    rw [g] at hp
    extract_lets s2 s3 c s4
    have h2 : s2.MemOk := by simpa [s2] using hp
    clear_value s2
    have h3 : s3.MemOk := by
      rw [show s3 = _ from rfl, State.forget_memOk]
      split
      · exact h2.abortFor ..
      · exact h2
    have h4 : s4.MemOk := by simpa [s4, c] using h3
    split
    · exact h4
    · exact h4.retireOrWait t

@[simp] theorem State.freezeOrder_memOk (s : State) (f : Nat) : (s.freezeOrder f).MemOk ↔ s.MemOk := by
  unfold State.freezeOrder
  split
  · rfl
  · split
    · rfl
    · simp

theorem Core.zeros_wf (c : Core) (t : Nat) : (c.zeros t).spad.wf = true := rfl

theorem State.MemOk.migrationCopy {s : State} (h : s.MemOk) (f : Nat) : (s.migrationCopy f).MemOk := by
  unfold State.migrationCopy
  split
  · split
    · exact h
    · exact State.MemOk.foldl (fun u t hu => hu.putCore t (Core.zeros_wf ..)) _ h
  · exact h

@[simp] theorem State.mapChange_memOk (s : State) (f : Nat) : (s.mapChange f).MemOk ↔ s.MemOk := by
  unfold State.mapChange
  split <;> simp

@[simp] theorem State.thawTile_memOk (s : State) (t : Nat) : (s.thawTile t).MemOk ↔ s.MemOk := by
  simp [State.thawTile]

@[simp] theorem State.markPoison_memOk (s : State) (t a : Nat) : (s.markPoison t a).MemOk ↔ s.MemOk := by
  unfold State.markPoison
  split <;> simp

@[simp] theorem State.stick_memOk (s : State) (id : Nat) : (s.stick id).MemOk ↔ s.MemOk := by
  unfold State.stick
  split <;> simp

@[simp] theorem State.portDies_memOk (s : State) (t d n : Nat) : (s.portDies t d n).MemOk ↔ s.MemOk := by
  simp [State.portDies]

@[simp] theorem State.resendHeld_memOk (s : State) (region : List Nat) : (s.resendHeld region).MemOk ↔ s.MemOk := by
  simp [State.resendHeld]

@[simp] theorem State.letIn_memOk (s : State) (region : List Nat) (p : Packet) : (s.letIn region p).MemOk ↔ s.MemOk := by
  unfold State.letIn
  split <;> simp

@[simp] theorem State.reopen_memOk (s : State) (region : List Nat) : (s.reopen region).MemOk ↔ s.MemOk := by
  simp [State.reopen]

theorem State.MemOk.thaw {s : State} (h : s.MemOk) (f : Nat) : (s.thaw f).MemOk := by
  unfold State.thaw
  split
  · split
    · exact h
    · exact State.MemOk.foldl (fun u e hu => hu.failAt f e) _ (by simpa using h)
  · exact h

@[simp] theorem State.linkDies_memOk (s : State) (n : Nat) : (s.linkDies n).MemOk ↔ s.MemOk := by
  simp [State.linkDies]

@[simp] theorem State.applyJournal_memOk (s : State) : s.applyJournal.MemOk ↔ s.MemOk := by
  simp [State.applyJournal]

@[simp] theorem State.failTile_memOk (s : State) (n : Nat) : (s.failTile n).MemOk ↔ s.MemOk := by
  simp [State.failTile]

@[simp] theorem State.failLink_memOk (s : State) (n : Nat) : (s.failLink n).MemOk ↔ s.MemOk := by
  simp [State.failLink]

@[simp] theorem State.applyStore_memOk (s : State) : s.applyStore.MemOk ↔ s.MemOk := by
  simp [State.applyStore]

/-! ### The functions of Machine/SysRegs -/

@[simp] theorem State.setSys_memOk (s : State) (f : SysRegs → SysRegs) : (s.setSys f).MemOk ↔ s.MemOk := .rfl

theorem State.memOk_of_writePlain {s t : State} {n : Nat} {x : Word} (h : s.writePlain n x = some t) : t.MemOk ↔ s.MemOk := by
  unfold State.writePlain at h
  split at h
  · simp [← Option.some.inj h]
  · split at h
    · simp [← Option.some.inj h]
    · split at h
      case h_17 => cases h
      all_goals simp [← Option.some.inj h]

theorem State.MemOk.writeSys {s : State} (h : s.MemOk) (n : Nat) (x : Word) (port : Bool) : (s.writeSys n x port).MemOk := by
  unfold State.writeSys
  split
  · next g => exact (State.memOk_of_writePlain g).2 h
  · split
    · simpa using h
    · split
      · simpa using h
      · split
        case h_5 => exact h.writePre x
        all_goals simpa using h

theorem State.MemOk.landCore {s : State} (h : s.MemOk) (t : CoreId) : (s.landCore t).MemOk := by
  unfold State.landCore
  dsimp only
  refine State.MemOk.foldl (fun v w hv => hv.writeSys w.1 w.2 false) _ ?_
  rw [State.putCore_memOk_iff (Core.land_spad ..), State.draw_memOk]
  exact h

/-! ### The functions of Machine/Mgmt -/

@[simp] theorem State.malformed_memOk (s : State) (src op : Nat) (seq : BitVec 32) :
    (s.malformed src op seq).MemOk ↔ s.MemOk := .rfl

@[simp] theorem State.portRead_memOk (s : State) (src : Nat) (seq arg : BitVec 32) (data : List (BitVec 8)) :
    (s.portRead src seq arg data).MemOk ↔ s.MemOk := by
  simp only [State.portRead]
  split <;> simp

theorem State.MemOk.portWrite {s : State} (h : s.MemOk) (src : Nat) (seq arg : BitVec 32) (data : List (BitVec 8)) :
    (s.portWrite src seq arg data).MemOk := by
  unfold State.portWrite
  dsimp only
  split
  · simpa using h
  · split
    · simpa using h
    · simpa using h.writeSys ..

@[simp] theorem State.portLog_memOk (s : State) (src : Nat) (seq arg : BitVec 32) (data : List (BitVec 8)) :
    (s.portLog src seq arg data).MemOk ↔ s.MemOk := by
  unfold State.portLog
  split
  · exact State.respond_memOk ..
  · simp

@[simp] theorem State.portBox_memOk (s : State) (src : Nat) (seq arg : BitVec 32) (data : List (BitVec 8)) :
    (s.portBox src seq arg data).MemOk ↔ s.MemOk := by
  simp [State.portBox]

@[simp] theorem State.portFlash_memOk (s : State) (src : Nat) (seq arg : BitVec 32) (data : List (BitVec 8)) :
    (s.portFlash src seq arg data).MemOk ↔ s.MemOk := by
  simp [State.portFlash]

theorem State.MemOk.portProgram {s : State} (h : s.MemOk) (src : Nat) (seq arg : BitVec 32) (data : List (BitVec 8)) :
    (s.portProgram src seq arg data).MemOk := by
  obtain ⟨hd, hf, hc⟩ := h
  unfold State.portProgram
  split
  · rw [State.respond_memOk]
    exact ⟨hd, Mem.wf_putBytes _ _ hf, hc⟩
  · simpa using ⟨hd, hf, hc⟩

theorem State.MemOk.afterReset {s : State} (h : s.MemOk) (boot : BootStage) : (s.afterReset boot).MemOk :=
  ⟨h.1, h.2.1, List.all_eq_true.1 State.reset_mems.2.2⟩

theorem State.MemOk.portReset {s : State} (h : s.MemOk) (src : Nat) (seq : BitVec 32) (boot : BootStage) : (s.portReset src seq boot).MemOk :=
  State.MemOk.afterReset (s := s.respond src 7 seq 0 []) h boot

@[simp] theorem State.releaseCore_memOk (s : State) : s.releaseCore.MemOk ↔ s.MemOk := by
  simp [State.releaseCore]

@[simp] theorem State.putPort_memOk (s : State) (p : Nat) (x : Port) : (s.putPort p x).MemOk ↔ s.MemOk := .rfl

@[simp] theorem State.ordered_memOk (s : State) (p order : Nat) (x : Port) : (s.ordered p order x).MemOk ↔ s.MemOk := by
  simp [State.ordered]

@[simp] theorem State.bindPort_memOk (s : State) (p : Nat) (o : Word) : (s.bindPort p o).MemOk ↔ s.MemOk := by
  simp [State.bindPort]

@[simp] theorem State.unbindPort_memOk (s : State) (p : Nat) : (s.unbindPort p).MemOk ↔ s.MemOk := by
  simp [State.unbindPort]

@[simp] theorem State.raisePort_memOk (s : State) (p : Nat) : (s.raisePort p).MemOk ↔ s.MemOk := by
  simp [State.raisePort]

@[simp] theorem State.hintPends_memOk (s : State) (p : Nat) : (s.hintPends p).MemOk ↔ s.MemOk := by
  simp [State.hintPends]

@[simp] theorem State.restPort_memOk (s : State) (p : Nat) : (s.restPort p).MemOk ↔ s.MemOk := by
  simp [State.restPort]

@[simp] theorem State.lowerPort_memOk (s : State) (p : Nat) : (s.lowerPort p).MemOk ↔ s.MemOk := by
  simp [State.lowerPort]

@[simp] theorem State.tickPorts_memOk (s : State) : s.tickPorts.MemOk ↔ s.MemOk := .rfl

@[simp] theorem State.wakeHint_memOk (s : State) (p : Nat) (sideband : Bool) : (s.wakeHint p sideband).MemOk ↔ s.MemOk := by
  simp [State.wakeHint]

@[simp] theorem State.portOrder_memOk (s : State) (src : Nat) (seq arg : BitVec 32) (data : List (BitVec 8)) :
    (s.portOrder src seq arg data).MemOk ↔ s.MemOk := by
  simp only [State.portOrder]
  (repeat' split) <;> simp

theorem State.MemOk.serveRequest {s : State} (h : s.MemOk) (src op : Nat) (seq arg : BitVec 32) (data : List (BitVec 8)) :
    (s.serveRequest src op seq arg data).MemOk := by
  unfold State.serveRequest
  split
  case h_2 => exact h.portWrite ..
  case h_6 => exact h.portProgram ..
  case h_7 =>
    split
    · exact h.portReset ..
    · split
      · exact h.portReset ..
      · simpa using h
  case h_8 => split <;> simpa using h
  all_goals simpa using h

@[simp] theorem State.otherTraffic_memOk (s : State) (src : Nat) (bs : List (BitVec 8)) :
    (s.otherTraffic src bs).MemOk ↔ s.MemOk := by
  unfold State.otherTraffic
  split <;> simp

theorem State.MemOk.datagram {s : State} (h : s.MemOk) (src : Nat) (bs : List (BitVec 8)) : (s.datagram src bs).MemOk := by
  unfold State.datagram
  dsimp only
  split
  · simpa using h
  · split
    · exact h
    · split
      · exact h
      · split
        · exact h
        · exact h.serveRequest ..

@[simp] theorem State.moveVector_memOk (s : State) (p l : Nat) (inward : Bool) (x : Vec) :
    (s.moveVector p l inward x).MemOk ↔ s.MemOk := by
  simp only [State.moveVector]
  (repeat' split) <;> simp

@[simp] theorem State.crossPort_memOk (s : State) (p : Nat) (q : Packet) : (s.crossPort p q).MemOk ↔ s.MemOk := by
  simp [State.crossPort]

@[simp] theorem State.peerDone_memOk (s : State) (q : Packet) : (s.peerDone q).MemOk ↔ s.MemOk := by
  simp [State.peerDone]

@[simp] theorem State.hopOut_memOk (s : State) (id : Nat) : (s.hopOut id).MemOk ↔ s.MemOk := by
  unfold State.hopOut
  (repeat' split) <;> simp

@[simp] theorem State.peerRefuses_memOk (s : State) (id : CoreId) (d : List (BitVec 8)) : (s.peerRefuses id d).MemOk ↔ s.MemOk := by
  simp only [State.peerRefuses]
  split <;> simp

@[simp] theorem State.goesOn_memOk (s : State) (q : Packet) (w : Walked) (place : PacketPlace) (back : List Nat) :
    (s.goesOn q w place back).MemOk ↔ s.MemOk := .rfl

@[simp] theorem State.putBackEvent_memOk (s : State) (e : Event) : (s.putBackEvent e).MemOk ↔ s.MemOk := .rfl

@[simp] theorem State.hopIn_memOk (s : State) (p : Nat) (h : BitVec 512) (d : List (BitVec 8)) :
    (s.hopIn p h d).MemOk ↔ s.MemOk := by
  simp only [State.hopIn]
  (repeat' split) <;> simp

/-! ### The functions of Machine/Boot -/

theorem firmwareCore_wf (now : Nat) (p : Plane) (addr : Nat) (data : List (BitVec 8)) : (firmwareCore now p addr data).spad.wf = true :=
  Mem.wf_putBytes _ _ rfl

theorem State.MemOk.startFirmware {s : State} (h : s.MemOk) : s.startFirmware.MemOk := by
  unfold State.startFirmware
  split
  · exact h.putCore _ (firmwareCore_wf ..)
  · exact h

@[simp] theorem State.zeroCycle_memOk (s : State) : s.zeroCycle.MemOk ↔ s.MemOk :=
  State.mapCores_memOk_iff (s := s) (g := fun _ c => { c with gate := c.gate - s.cycle }) (fun _ _ => rfl)

@[simp] theorem State.applyAndTrain_memOk (s : State) : s.applyAndTrain.MemOk ↔ s.MemOk := by
  simp [State.applyAndTrain]

theorem State.MemOk.bootOn {s : State} (h : s.MemOk) : s.bootOn.MemOk := by
  unfold State.bootOn
  split
  · exact h.startFirmware
  · split <;> simpa using h
  · simpa using h
  · exact h
  · exact h

/-! ### The functions of Machine/Schedule -/

theorem Core.nextBoundary_wf {c : Core} (h : c.spad.wf = true) (now : Nat) : (c.nextBoundary now).spad.wf = true := by
  have hl : (Core.landWords (c.beginCycle.acceptPush now)).spad.wf = true := Core.store_wf _ (by simpa using h)
  simpa [Core.nextBoundary] using hl

theorem State.MemOk.tick {s : State} (h : s.MemOk) : s.tick.MemOk := by
  obtain ⟨hd, hf, hc⟩ := h
  have ht : ({ s with
      cycle := s.cycle + 1, stampedNow := false, cores := s.cores.map (fun e => (e.1, e.2.nextBoundary (s.cycle + 1))) } : State).MemOk := by
    refine ⟨hd, hf, fun e he => ?_⟩
    obtain ⟨x, hx, rfl⟩ := List.mem_map.1 he
    exact Core.nextBoundary_wf (hc x hx) _
  simpa [State.tick] using ht.prepareMembers

theorem State.MemOk.nextCycle {s : State} (h : s.MemOk) : s.nextCycle.MemOk := by
  simpa [State.nextCycle] using h.tick

@[simp] theorem State.holding_memOk (s : State) (w : Nat) : (s.holding w).MemOk ↔ s.MemOk := by
  simp [State.holding]

/-! ### The functions of Machine/Step -/

@[simp] theorem State.withFetchWord_memOk (s : State) (_nbits w : Nat) : (s.withFetchWord _nbits w).MemOk ↔ s.MemOk := by
  simp [State.withFetchWord]

end Sys2Proof.Machine
end

section
/-! Every event and every step keeps the memories canonical (O56). -/

namespace Sys2Proof.Machine

open Sys2Proof.Claims

/-! ### Events -/

/-- Whatever state an outcome leaves is canonical. -/
def LeavesOk (o : Host.Outcome State Fault Refusal) : Prop := ∀ t, o = .next t → t.MemOk

@[simp] theorem leavesOk_next (t : State) : LeavesOk (.next t) ↔ t.MemOk := by
  simp [LeavesOk]

theorem execCreditReturn_leavesOk {s : State} (h : s.MemOk) (c : Nat) : LeavesOk (execCreditReturn c s) := by
  simp only [execCreditReturn, leavesOk_next]
  (repeat' split) <;> simpa using h

theorem arriveAt_wf {m : Mem} (h : m.wf = true) (aw : Nat) (bytes : Nat) : (arriveAt m aw bytes).wf = true := by
  unfold arriveAt
  extract_lets target
  split
  next sum k _ =>
  extract_lets m1 m2
  have h2 : m2.wf = true := Mem.wf_writeN _ _ _ (Mem.wf_writeN _ _ _ h)
  split
  · exact Mem.wf_write _ _ h2
  · exact h2

theorem execArrival_leavesOk {s : State} (h : s.MemOk) (a : Nat) : LeavesOk (execArrival a s) := by
  simp only [execArrival, leavesOk_next]
  split
  · exact h
  · next x _ =>
    split
    · exact h
    · have ht := h.putCore x.core (c := { (s.coreAt x.core).endXfer (.arrival a) with
          spad := arriveAt (s.coreAt x.core).spad x.aw x.bytes }) (arriveAt_wf (h.coreAt _) _ _)
      split
      · rw [State.chunkDone_memOk]
        exact ht
      · exact ht

theorem execReadRequestService_leavesOk {s : State} (h : s.MemOk) (p : Nat) : LeavesOk (execReadRequestService p s) := by
  simp only [execReadRequestService, leavesOk_next]
  (repeat' split) <;> simpa using h

theorem execRemoteAtomicService_leavesOk {s : State} (h : s.MemOk) (p : Nat) : LeavesOk (execRemoteAtomicService p s) := by
  simp only [execRemoteAtomicService, leavesOk_next]
  split
  · next q _ =>
    have ht : (s.comeIn q).MemOk := by simpa using h
    split
    · split
      · split
        · exact ht.serviceAtomic ..
        · exact ht
      · exact ht
    · exact h
  · exact h

theorem execQueueAppend_leavesOk {s : State} (h : s.MemOk) (p : Nat) : LeavesOk (execQueueAppend p s) := by
  simp only [execQueueAppend, leavesOk_next]
  split
  · (repeat' split) <;> simpa using h
  · split
    · exact h
    · split <;> next g => simpa using (State.memOk_of_append g).2 h

theorem execQueuePop_leavesOk {s : State} (h : s.MemOk) (p : Nat) : LeavesOk (execQueuePop p s) := by
  simp only [execQueuePop, leavesOk_next]
  (repeat' split) <;> simpa using h

theorem execNpopResultWrite_leavesOk {s : State} (h : s.MemOk) (p : Nat) : LeavesOk (execNpopResultWrite p s) := by
  simp only [execNpopResultWrite, leavesOk_next]
  (repeat' split) <;> simpa using h

theorem execQueueClose_leavesOk {s : State} (h : s.MemOk) (p : Nat) : LeavesOk (execQueueClose p s) := by
  simp only [execQueueClose, leavesOk_next]
  (repeat' split) <;> simpa using h

theorem execHostDrawerAccess_leavesOk {s : State} (h : s.MemOk) (port : Nat) (write : Bool) (addr : HostPlace) (len : Nat)
    (data : List (BitVec 8)) : LeavesOk (execHostDrawerAccess port write addr len data s) := by
  simp only [execHostDrawerAccess, leavesOk_next]
  split
  · rw [State.inTurn_memOk_iff]
    · exact h
    · split <;> simp
  · split <;> simpa using h

theorem execSystemRegisterWrite_leavesOk {s : State} (h : s.MemOk) (n : Nat) (x : Word) : LeavesOk (execSystemRegisterWrite n x s) := by
  simp only [execSystemRegisterWrite, leavesOk_next]
  cases g : s.writePlain n x with
  | none => exact h
  | some t => exact (State.memOk_of_writePlain g).2 h

theorem runEvent_leavesOk {s : State} (h : s.MemOk) (e : Event) : LeavesOk (runEvent e s) := by
  cases e
  case bundleIssue => exact (leavesOk_next _).2 (h.coreCycle ..)
  case lockstepResultLanding => exact (leavesOk_next _).2 (h.landCore ..)
  case gangAbort => exact (leavesOk_next _).2 (h.gangAbort ..)
  case remoteAtomicService => exact execRemoteAtomicService_leavesOk h _
  case arrival => exact execArrival_leavesOk h _
  case creditReturn => exact execCreditReturn_leavesOk h _
  case queueAppend => exact execQueueAppend_leavesOk h _
  case queuePop => exact execQueuePop_leavesOk h _
  case queueClose => exact execQueueClose_leavesOk h _
  case tailRegisterWrite => exact (leavesOk_next _).2 ((State.inTurn_memOk_iff (by simp) ..).2 h)
  case eventCounterWrite => exact (leavesOk_next _).2 ((State.inTurn_memOk_iff (by simp) ..).2 h)
  case hostDrawerAccess => exact execHostDrawerAccess_leavesOk h _ _ _ _ _
  case tileRecordWritten => exact (leavesOk_next _).2 (h.recordWritten ..)
  case gangRestore => exact (leavesOk_next _).2 (h.gangRestore ..)
  case slotGrant => exact (leavesOk_next _).2 (h.slotGrant ..)
  case sensorSample => exact (leavesOk_next _).2 (h.sampleAll)
  case systemRegisterWrite => exact execSystemRegisterWrite_leavesOk h _ _
  case containedError => exact (leavesOk_next _).2 (h.containedError ..)
  case migrationCopy => exact (leavesOk_next _).2 (h.migrationCopy ..)
  case migrationThaw => exact (leavesOk_next _).2 (h.thaw ..)
  case uncontainedError => exact (leavesOk_next _).2 (h.uncontainedError ..)
  case managementDatagram => exact (leavesOk_next _).2 (h.datagram ..)
  case systemRegisterWriteRequest => exact (leavesOk_next _).2 (h.portWrite ..)
  case flashWrite => exact (leavesOk_next _).2 (h.portProgram ..)
  case moduleReset => exact (leavesOk_next _).2 (h.portReset ..)
  case recoveryBoot => exact (leavesOk_next _).2 (h.portReset ..)
  case boot => exact (leavesOk_next _).2 (h.bootOn)
  case readRequestService => exact execReadRequestService_leavesOk h _
  case npopResultWrite => exact execNpopResultWrite_leavesOk h _
  case contextSaveRequest x | contextRestoreRequest x | contextDestroyRequest x =>
    refine (leavesOk_next _).2 ?_
    split
    · exact h.writePre x
    · exact h
  case trapDelivery | drawerLoadReturn | drawerStoreAccept | heldLoadReissue | sideLogReplay | shootdownRequest | shootdownAck
      | shootdownComplete | faultRecordWrite | faultBufferFlush | matrixDispatch | mmaPassStart | mmaPassRetire | accRowFinal
      | mepiRowWrite | msendRowSend | mredRowAdd | mclrRowWrite | copyDispatch | chunkIssue | chunkComplete | chunkReadFault
      | channelDispatch | packetSend | triggeredSendFire | spillMove | barrierDetect | barrierRelease | opticalVectorDelivery
      | drainPoint | stagingEntryTake | placementRound | dependenceRead | planeLoad | launchGrant | startToken | gangStart
      | launchComplete | haltToken | tileHalted | descriptorSelect | accessTableSelect | drawerRequestSend | sltDataWrite
      | slotTableCommit | slotTableSwitch | tokenRefill | linkTraining | linkWaitTimeout | fieldPowerWrite | fieldPowerStage
      | wakeTimer | eventStamp | bbIdxWrite | bbWcodeWrite | modRankWrite | clearRow | clearColumn | clearHole | clearDeadLink
      | addRow | addColumn | addHole | migrationFreezeOrder | mapChange | poisonMarked | meshLinkDead | systemRegisterReadRequest
      | faultLogRead | blackBoxRead | flashRead | coreRelease | portBind | portUnbind | portUp | portLowPower | portDown
      | wakeHint | contextDestroyed =>
    simpa [runEvent,
      execTrapDelivery, execDrawerLoadReturn, execDrawerStoreAccept, execHeldLoadReissue, execSideLogReplay,
      execShootdownRequest, execShootdownAck, execShootdownComplete, execFaultRecordWrite, execFaultBufferFlush,
      execMatrixDispatch, execMmaPassStart, execMmaPassRetire, execAccRowFinal, execMepiRowWrite, execMsendRowSend,
      execMredRowAdd, execMclrRowWrite, execCopyDispatch, execChunkIssue, execChunkComplete, execChunkReadFault,
      execChannelDispatch, execPacketSend, execTriggeredSendFire, execSpillMove, execBarrierDetect, execBarrierRelease,
      execOpticalVectorDelivery, execDrainPoint, execStagingEntryTake, execPlacementRound, execDependenceRead, execPlaneLoad,
      execLaunchGrant, execStartToken, execGangStart, execLaunchComplete, execHaltToken, execTileHalted, execDescriptorSelect,
      execAccessTableSelect, execDrawerRequestSend, execSltDataWrite, execSlotTableCommit, execSlotTableSwitch, execTokenRefill,
      execLinkTraining, execLinkWaitTimeout, execFieldPowerWrite, execFieldPowerStage, execWakeTimer, execEventStamp,
      execBbIdxWrite, execBbWcodeWrite, execModRankWrite, execClearRow, execClearColumn, execClearHole, execClearDeadLink,
      execAddRow, execAddColumn, execAddHole, execMigrationFreezeOrder, execMapChange, execPoisonMarked, execMeshLinkDead,
      execSystemRegisterReadRequest, execFaultLogRead, execBlackBoxRead, execFlashRead, execCoreRelease, execPortBind,
      execPortUnbind, execPortUp, execPortLowPower, execPortDown, execWakeHint, execContextDestroyed] using h
  case remoteAtomicReply | handleWalkEnd | packetDeposit | streamRegisterWatchdog | arrivalWaitWatchdog | opticalHop | staleLaunch
      | queueDescriptorCommit | contextDescriptorCommit | tileGrantCommit | drawerRangeCommit | hostContextSetCommit | bwcWrite
      | throttleWrite | linkFlitRetry | tailAcknowledge | opticalPortTrainingEnd =>
    simp only [runEvent, leavesOk_next,
      execRemoteAtomicReply, execHandleWalkEnd, execPacketDeposit, execStreamRegisterWatchdog, execArrivalWaitWatchdog,
      execOpticalHop, execStaleLaunch, execQueueDescriptorCommit, execContextDescriptorCommit, execTileGrantCommit,
      execDrawerRangeCommit, execHostContextSetCommit, execBwcWrite, execThrottleWrite, execLinkFlitRetry, execTailAcknowledge,
      execOpticalPortTrainingEnd]
    (repeat' split) <;> simpa using h

theorem step_leavesOk {s : State} (h : s.MemOk) : LeavesOk (step s) := by
  unfold step
  split
  · next e r _ => exact runEvent_leavesOk (s := { s with agenda := r }) h e
  · exact (leavesOk_next _).2 h.nextCycle

/-- Settles O56: one lemma for each function of the machine and for each event. -/
theorem stepKeepsMemoriesCanonical : Obligations.StepKeepsMemoriesCanonical := by
  unfold Obligations.StepKeepsMemoriesCanonical
  intro s t hs ht
  exact t.memOk_iff.1 (step_leavesOk (s.memOk_iff.2 hs) t ht)

end Sys2Proof.Machine
end

section
/-! What an instruction leaves unchanged, and the bytes of each store (O60). -/

namespace Sys2Proof.Machine

open Sys2Proof.Claims

/-! ### The bytes of a store -/
theorem storeAt_succ (a n x : Nat) : storeAt a (n + 1) x = (a, BitVec.ofNat 8 x) :: storeAt (a + 1) n (x / 256) := by
  have h : ((leBytes n (x / 256)).zipIdx 1).map (fun p => (a + p.2, p.1)) = (leBytes n (x / 256)).zipIdx.map (fun p => (a + 1 + p.2, p.1)) := by
    rw [List.zipIdx_succ]
    simp [Function.comp_def, Nat.add_assoc, Nat.add_comm 1]
  simp [storeAt, leBytes, h]

/-- A store of `n` bytes at `a` names the addresses from `a` up, `n` of them. -/
theorem exists_mem_storeAt {a n x b : Nat} : (∃ p ∈ storeAt a n x, p.1 = b) ↔ a ≤ b ∧ b < a + n := by
  induction n generalizing a x with
  | zero => simp [storeAt, leBytes]
  | succ n ih =>
    simp only [storeAt_succ, List.mem_cons, exists_eq_or_imp, ih]
    omega

/-- A byte that a store does not name reads as before. -/
theorem Core.store_read_of_ne {c : Core} (h : c.spad.wf = true) {bs : ByteWrites} {b : Nat} (hb : ∀ p ∈ bs, p.1 ≠ b) :
    (c.store bs).spad.read b = c.spad.read b :=
  Mem.read_fold bs b h hb

theorem Core.store_storeAt_keeps {c : Core} (h : c.spad.wf = true) (a n x : Nat) : keeps c.spad (c.store (storeAt a n x)).spad a n :=
  fun _ hb => Core.store_read_of_ne h (fun p hp hpb => hb (exists_mem_storeAt.1 ⟨p, hp, hpb⟩))

/-- A store lane by lane leaves every byte outside its lanes. -/
theorem Core.store_lanes_keeps {c : Core} (h : c.spad.wf = true) {ls : List Nat} {at_ val : Nat → Nat} {n b : Nat}
    (hb : ∀ i ∈ ls, ¬ (at_ i ≤ b ∧ b < at_ i + n)) :
    (c.store (ls.map (fun i => storeAt (at_ i) n (val i))).flatten).spad.read b = c.spad.read b := by
  refine Core.store_read_of_ne h (fun p hp hpb => ?_)
  simp only [List.mem_flatten, List.mem_map, exists_exists_and_eq_and] at hp
  obtain ⟨i, hi, hp⟩ := hp
  exact hb i hi (exists_mem_storeAt.1 ⟨p, hp, hpb⟩)

end Sys2Proof.Machine
end

section
/-! What an instruction leaves unchanged (O60): the slots and the statement. -/

namespace Sys2Proof.Machine

open Sys2Proof.Claims

/-! ### What each instruction leaves (O60) -/

/-- An instruction that has an encoding is a slot's: exec issues that slot alone. -/
theorem exists_slotSem_of_encode {i : Instr} {sl : Slot} {w : Nat} (h : encode i = some (sl, w)) :
    ∃ m, slotSem i = some m ∧ m.slot = sl ∧ ∀ s, exec i s = .next (s.issueOne m) := by
  cases i
  case add f | sub f | mul f | mulh f | mulhn f | div f | divn f | rem f | remn f | and f | or f | xor f | andn f | shl f | shr f
      | sra f | rol f | min f | max f | minn f | maxn f | clz f | ctz f | popc f | bswap f | exts f | extz f | ins f | sel f
      | lea f | addi f | andi f | ori f | xori f | shli f | shri f | srai f | muli f | mini f | maxi f | movi f | moviz f | movm f
      | movt f | addpc f | cmp f | cmpi f | pand f | por f | pxor f | pmov f | ptos f | pset f | ptst f | fadd f | fsub f | fmul f
      | ffma f | fmin f | fmax f | fdiv f | fsqrt f | fcmp f | fclass f | fsgn f | fcvt f | fcvti f | icvtf f | prep f | prepr f
      | get f | set f | gets f | sets f | setfmt f | getfmt f | stg f | gtg f | lcset f | lcget f | rasrd f | raswr f | br f
      | call f | ret f | loop f | wait f | sync f | done f | swap f | trap f | brk f | eret f | idle f | halt f | qfence f
      | vadd f | vsub f | vmul f | vmulh f | vmulhn f | vmin f | vmax f | vminn f | vmaxn f | vand f | vor f | vxor f | vandn f
      | vshl f | vshr f | vsra f | vabs f | vneg f | vclz f | vpopc f | vadds f | vaddsn f | vsubs f | vsubsn f | vsel f | vcmp f
      | vfadd f | vfsub f | vfmul f | vfma f | vfmin f | vfmax f | vfdiv f | vfsqrt f | vfexp2 f | vflog2 f | vfrcp f | vfrsq f
      | vfabs f | vfneg f | vfcmp f | vfclass f | vcvt f | vqnt f | vdqnt f | vfredadd f | vfredmax f | vredadd f | vredmax f
      | vmov f | vsplat f | vsplati f | vextr f | vinsr f | vperm f | vperm2 f | vshuf f | vslide f | viota f | vacc f | vaccw f
      | vsin f | vsout f | mand f | mor f | mxor f | mnot f | mset f | mget f | vany f | vall f | mpopc f | zld f | zldh f
      | zldb f | kld f | zfromv f | lds f | sts f | ldv f | stv f | ldvs f | stvs f | ldvg f | stvg f | stvm f | setaw f | waita f
      | spl f | fil f | splv f | filv f | xlate f | hinv f | hget f | ldh f | sth f | ldvh f | stvh f | aadd f | amin f | amax f
      | aminn f | amaxn f | aand f | aor f | axor f | aswp f | acas f | aincb f | aincw f | adecp f | afal f | afadd f | fence f
      | fenceSc f | mma f | mepi f | msend f | mred f | mclr f | mstat f | kcpy f | kput f | kfill f | kfillConfigure f | kdec f
      | kzero f | kloc f | nsend f | nsendt f | npost f | npush f | npop f | nrot f | ngsend f | nclose f | ndisarm f =>
    exact ⟨_, rfl, congrArg Prod.fst (Option.some.inj h), fun _ => rfl⟩
  all_goals exact nomatch h

theorem mayChange_gangs {i : Instr} {sl : Slot} {w : Nat} (h : encode i = some (sl, w)) (hc : sl ≠ .c) :
    (Instr.mayChange i).gangs = false := by
  cases i
  case sync f => exact absurd (congrArg Prod.fst (Option.some.inj h)).symm hc
  all_goals rfl

theorem mayChange_handles {i : Instr} {sl : Slot} {w : Nat} (h : encode i = some (sl, w)) (hl : sl ≠ .l) (hk : sl ≠ .k) :
    (Instr.mayChange i).handles = false := by
  cases i
  case ldh f | sth f | ldvh f | stvh f => exact absurd (congrArg Prod.fst (Option.some.inj h)).symm hl
  case kcpy f | kput f | kdec f | kzero f | kloc f | kfill f | kfillConfigure f =>
    exact absurd (congrArg Prod.fst (Option.some.inj h)).symm hk
  all_goals rfl

theorem mayChange_rings {i : Instr} (h : ∀ f, i ≠ .kfill f ∧ i ≠ .kfillConfigure f) : (Instr.mayChange i).rings = false := by
  cases i
  case kfill f => exact absurd rfl (h f).1
  case kfillConfigure f => exact absurd rfl (h f).2
  all_goals rfl

theorem mayChange_pad {i : Instr} (h : ¬ storesLocally i) : (Instr.mayChange i).pad = false := by
  cases i
  case sts f | stv f | stvs f | stvg f | stvm f | setaw f => exact absurd (by simp [storesLocally]) h
  case aadd f | amin f | amax f | aminn f | amaxn f | aand f | aor f | axor f | aswp f | acas f | aincb f | aincw f | adecp f | afal f
     | afadd f => exact absurd (by simp [storesLocally, remoteRows]) h
  all_goals rfl

/-- What an instruction that has an encoding leaves of the state, whether it issues, waits or traps. -/
theorem frame_of_exec {i : Instr} {sl : Slot} {w : Nat} {s t : State} (h : encode i = some (sl, w)) (ht : exec i s = .next t) :
    Frame (Instr.mayChange i) s t := by
  obtain ⟨m, hm, _, hx⟩ := exists_slotSem_of_encode h
  rw [hx, Host.Outcome.next.injEq] at ht
  exact ht ▸ .issueOne (slotSem_frames hm) s

/-- A bundle of one slot leaves what its waits leave, or its effect on the state as it was, and after that only the clocks. -/
theorem State.issueOne_induct {f : MayChange} {s : State} {m : SlotSem} {Q : State → Prop} (hm : m.slot ≠ .none)
    (hw : SlotSem.Frames f { m with eff := id }) (hQ : ∀ {u v}, Q u → Frame .none u v → Q v) (hf : ∀ {t}, Frame f s t → Q t)
    (he : Q (m.eff s)) : Q (s.issueOne m) := by
  have h0 : Q s := hf (.refl f s)
  refine State.issueSlots_induct hQ h0 ?_ (fun {t} ht => ?_) ?_
  · unfold runWaits
    split
    · next ht => exact hf (hw.of_waits ht)
    · exact h0
  · unfold lateWait at ht
    split at ht
    · next hl => exact Option.some.inj ht ▸ hf (hw.of_waitsLate hl)
    · cases ht
  · rw [effectOrder_one m hm]
    change Q (m.effect s)
    unfold SlotSem.effect
    split
    · exact he
    · exact h0

/-! ### The ring that a `kfill` configures (R196) -/

/-- What a `kfill` leaves of the rings, whatever of them configuring one and the clocks keep. -/
theorem kfill_rings {x : KForm} {s : State} {Q : Vector Ring 8 → Prop} (h0 : Q s.core.rings)
    (hc : s.core.cfg = true → Q (s.core.configureRing x.ring).rings) : Q (s.issueOne (kfillSlot x)).core.rings := by
  refine State.issueOne_induct (Q := fun t => Q t.core.rings) (by simp [kfillSlot, cmdSlot, plainSlot]) (kfillSlot_waits (f := { handles := true }) rfl x)
    (fun hu hv => ?_) (fun ht => ?_) ?_
  · rwa [hv.core.rings rfl]
  · rwa [ht.core.rings rfl]
  · simp only [kfillSlot, cmdSlot, onCore_core]
    split
    · next h => exact hc h
    · exact h0

theorem cfg_eq (c : Core) : c.cfg = (sg c 22).getLsbD 11 := rfl

theorem configureRing_get {c : Core} {g r : BitVec 3} (h : r ≠ g) : (c.configureRing g).rings.get r.toFin = c.rings.get r.toFin := by
  have hne : (g.toFin : Nat) ≠ r.toFin := fun e => h (BitVec.eq_of_toNat_eq e.symm)
  exact Vector.getElem_set_ne g.toFin.isLt r.toFin.isLt hne

/-! ### The bytes that a store leaves -/

/-- Bytes that the effect of a slot keeps, whose waits keep the scratchpad, its issue keeps. -/
theorem issueOne_keepsBytes {m : SlotSem} {s : State} {P : Nat → Prop} (hs : m.slot ≠ .none)
    (hw : SlotSem.Frames .none { m with eff := id }) (he : ∀ b, P b → (m.eff s).core.spad.read b = s.core.spad.read b) :
    ∀ b, P b → (s.issueOne m).core.spad.read b = s.core.spad.read b := by
  refine State.issueOne_induct (Q := fun t => ∀ b, P b → t.core.spad.read b = s.core.spad.read b) hs hw (fun hu hv b hb => ?_)
    (fun ht b hb => ?_) he
  · rw [hv.core.pad rfl]
    exact hu b hb
  · rw [ht.core.pad rfl]

theorem storeSlot_keepsBytes {g cls enc reads bad touches} {bytes : Core → ByteWrites} {s : State} {P : Nat → Prop}
    (he : ∀ b, P b → (s.core.store (bytes s.core)).spad.read b = s.core.spad.read b) :
    ∀ b, P b → (s.issueOne (storeSlot g cls enc reads bad touches bytes)).core.spad.read b = s.core.spad.read b := by
  refine issueOne_keepsBytes (by simp [storeSlot, plainSlot]) ⟨.refl _, .of_classWait, nofun, .refl _⟩ (fun b hb => ?_)
  simpa only [storeSlot, onCore_core] using he b hb

theorem semSetaw_keeps {s : State} (h : s.core.spad.wf = true) (f : AwForm) :
    keeps s.core.spad (s.issueOne (semSetaw f)).core.spad (awEa f s.core).toNat 16 := by
  refine issueOne_keepsBytes (by simp [semSetaw, storeSlot, plainSlot]) ⟨.refl _, .of_classWait, nofun, .refl _⟩ (fun b hb => ?_)
  simpa only [semSetaw, storeSlot, onCore_core] using Core.store_storeAt_keeps h _ _ _ b hb

theorem ab_eq (f : AtForm) : atWidth f.w / 8 = ab f := by
  unfold atWidth ab
  rw [Nat.shiftLeft_eq]
  omega

/-- The scratchpad after an atomic: as it was for a remote one, else with the new word stored. -/
theorem atSlot_eff_spad (f : AtForm) (op : BitVec 8) (s : State) : ((atSlot f op).eff s).core.spad = s.core.spad ∨
    ∃ x, ((atSlot f op).eff s).core.spad = (s.core.store (storeAt (s.core.sreg f.a).toNat (ab f) x)).spad := by
  simp only [atSlot, onCore_core, ab_eq]
  split
  · left
    split <;> simp
  · right
    (repeat' split) <;> simp only [Core.lateResult_spad, Core.store, Core.makePending_spad] <;> exact ⟨_, rfl⟩

theorem atSlot_keeps {s : State} (h : s.core.spad.wf = true) (f : AtForm) (op : BitVec 8) :
    keeps s.core.spad (s.issueOne (atSlot f op)).core.spad (s.core.sreg f.a).toNat (ab f) := by
  refine issueOne_keepsBytes (by simp [atSlot, plainSlot]) (atSlot_waits _ f op) (fun b hb => ?_)
  rcases atSlot_eff_spad f op s with h' | ⟨x, h'⟩
  · rw [h']
  · rw [h']
    exact Core.store_storeAt_keeps h _ _ x b hb

theorem exec_remoteRows : ∀ e ∈ remoteRows, ∀ (f : AtForm) (s : State), exec (e.1 f) s = .next (s.issueOne (atSlot f e.2.1)) := by
  intro e he f s
  simp only [remoteRows, List.mem_cons, List.not_mem_nil, or_false] at he
  rcases he with rfl | rfl | rfl | rfl | rfl | rfl | rfl | rfl | rfl | rfl | rfl | rfl | rfl | rfl | rfl <;> rfl

theorem exec_kfill {i : Instr} {f : KForm} (h : i = .kfill f ∨ i = .kfillConfigure f) (s : State) :
    exec i s = .next (s.issueOne (kfillSlot f)) := by
  rcases h with rfl | rfl <;> rfl

/-- Settles O60: a frame for each shape of slot, kept by issue, and the bytes that each store names. -/
theorem instructionsKeepTheRest : Obligations.InstructionsKeepTheRest := by
  unfold Obligations.InstructionsKeepTheRest
  refine ⟨fun i sl w s t hi ht => ?_, fun f s t hs ht => ?_, fun f s t hs ht => ?_, fun f s t hs ht => ?_, fun f s t hs ht => ?_,
    fun f s t hs ht => ?_, fun f s t hs ht => ?_, fun e he f s t hs ht => ?_⟩
  · have hf := frame_of_exec hi ht
    refine ⟨hf.cur, hf.others, hf.drawer, hf.flash, hf.sys, hf.net, hf.queues, hf.launches, fun hc => hf.gangs (mayChange_gangs hi hc),
      hf.core.registers, ?_, ?_, fun hl hk => hf.core.handles (mayChange_handles hi hl hk), fun hp => hf.core.pad (mayChange_pad hp)⟩
    · intro h
      by_cases hk : ∀ f, i ≠ .kfill f ∧ i ≠ .kfillConfigure f
      · exact hf.core.rings (mayChange_rings hk)
      · have hcfg := h.resolve_left hk
        obtain ⟨f, hif⟩ : ∃ f, i = .kfill f ∨ i = .kfillConfigure f := by
          simpa only [not_forall, not_and_or, not_not] using hk
        rw [exec_kfill hif, Host.Outcome.next.injEq] at ht
        exact ht ▸ kfill_rings (Q := (· = s.core.rings)) rfl (fun hc => by rw [cfg_eq, hcfg] at hc; cases hc)
    · intro f hif r hr
      rw [exec_kfill hif, Host.Outcome.next.injEq] at ht
      exact ht ▸ kfill_rings (Q := fun v => v.get r.toFin = s.core.rings.get r.toFin) rfl (fun _ => configureRing_get hr)
  · obtain rfl := Host.Outcome.next.inj ht
    exact storeSlot_keepsBytes (Core.store_storeAt_keeps hs _ _ _)
  · obtain rfl := Host.Outcome.next.inj ht
    exact storeSlot_keepsBytes (Core.store_storeAt_keeps hs _ _ _)
  · obtain rfl := Host.Outcome.next.inj ht
    exact semSetaw_keeps hs f
  · obtain rfl := Host.Outcome.next.inj ht
    exact storeSlot_keepsBytes (fun b hb => Core.store_lanes_keeps hs (fun i hi => hb i (List.mem_range.1 hi)))
  · obtain rfl := Host.Outcome.next.inj ht
    refine storeSlot_keepsBytes (fun b hb => Core.store_lanes_keeps hs (fun i hi => ?_))
    obtain ⟨hr, hl⟩ := List.mem_filter.1 hi
    exact hb i (List.mem_range.1 hr) hl
  · obtain rfl := Host.Outcome.next.inj ht
    refine storeSlot_keepsBytes (fun b hb => Core.store_lanes_keeps hs (fun i hi => ?_))
    obtain ⟨hr, hl⟩ := List.mem_filter.1 hi
    exact hb i (List.mem_range.1 hr) hl
  · rw [exec_remoteRows e he, Host.Outcome.next.injEq] at ht
    exact ht ▸ atSlot_keeps hs f _

end Sys2Proof.Machine
end

section
/-! Scratchpad stores write their bytes and no other (O21). -/

namespace Sys2Proof.Machine

open Sys2Proof.Claims

/-! ### What a store writes (R2, R151) -/

/-- A memory after a store of `n` bytes: the bytes of the value in turn, the old bytes elsewhere. -/
theorem Mem.read_storeAt {m : Mem} (h : m.wf = true) (a n x b : Nat) :
    (((storeAt a n x).foldl (fun m p => m.write p.1 p.2) m).read b).toNat =
      if a ≤ b ∧ b < a + n then x / 256 ^ (b - a) % 256 else (m.read b).toNat := by
  induction n generalizing m a x with
  | zero =>
    rw [if_neg (by omega)]
    rfl
  | succ n ih =>
    rw [storeAt_succ, List.foldl_cons, ih (Mem.wf_write _ _ h), Mem.read_write _ _ _ h]
    rcases Nat.lt_trichotomy b a with hlt | rfl | hgt
    · rw [if_neg (by omega), if_neg (by omega), if_neg (by omega)]
    · simp
    · rw [if_neg (c := b = a) (by omega)]
      obtain ⟨k, rfl⟩ : ∃ k, b = a + 1 + k := ⟨b - (a + 1), by omega⟩
      have he : 256 ^ (a + 1 + k - a) = 256 * 256 ^ k := by rw [show a + 1 + k - a = k + 1 by omega, pow_succ, mul_comm]
      rw [he, ← Nat.div_div_eq_div_mul, show a + 1 + k - (a + 1) = k by omega]
      exact if_congr (by omega) rfl rfl

/-- Bytes that stand for a number read back as that number. -/
theorem Mem.readN_eq_mod {m : Mem} {a n x : Nat} (h : ∀ i < n, (m.read (a + i)).toNat = x / 256 ^ i % 256) :
    m.readN a n = x % 256 ^ n := by
  induction n generalizing a x with
  | zero => simp [Mem.readN, Nat.mod_one]
  | succ n ih =>
    have h0 : (m.read a).toNat = x % 256 := by simpa using h 0 (by omega)
    have hr : m.readN (a + 1) n = x / 256 % 256 ^ n := ih (fun i hi => by
      rw [Nat.add_assoc, Nat.add_comm 1 i, h (i + 1) (by omega), pow_succ, mul_comm, Nat.div_div_eq_div_mul])
    rw [Mem.readN, h0, hr, pow_succ, mul_comm (256 ^ n), Nat.mod_mul]

/-- A store of contiguous bytes writes the words whole that lie inside them. -/
theorem coversWord_storeAt (a n x w : Nat) : coversWord (storeAt a n x) w = true ↔ a ≤ 8 * w ∧ 8 * w + 8 ≤ a + n := by
  simp only [coversWord, List.all_eq_true, List.mem_range, List.any_eq_true, beq_iff_eq, exists_mem_storeAt]
  constructor
  · intro h
    have h0 := h 0 (by omega)
    have h7 := h 7 (by omega)
    omega
  · intro h i hi
    omega

/-! ### Checks that a store passes (R149, R151) -/
theorem touchCause_none {c : Core} {ts : List Touch} (h : ∀ t ∈ ts, inPad c t.ea.toNat t.size t.align) : touchCause c ts = none := by
  have ha : ts.find? (fun t => t.ea.toNat % t.align != 0) = none := by
    simpa [List.find?_eq_none] using fun t ht => (h t ht).1
  have hr : ts.find? (fun t => decide (c.spend < t.ea.toNat + t.size)) = none := by
    simpa [List.find?_eq_none] using fun t ht => (h t ht).2
  simp [touchCause, ha, hr]

theorem of_mem_wordsOf {a n w : Nat} (h : w ∈ wordsOf a n) : a / 8 ≤ w ∧ 8 * w < a + n := by
  unfold wordsOf at h
  split at h
  · simp at h
  · obtain ⟨i, hi, rfl⟩ := List.mem_map.1 h
    have := List.mem_range.1 hi
    omega

theorem of_mem_wordsAt {as : List Nat} {n w : Nat} (h : w ∈ wordsAt as n) : ∃ a ∈ as, a / 8 ≤ w ∧ 8 * w < a + n := by
  obtain ⟨a, ha, hw⟩ := List.mem_flatMap.1 h
  exact ⟨a, ha, of_mem_wordsOf hw⟩

theorem of_mem_wordsAt_one {a n w : Nat} (h : w ∈ wordsAt [a] n) : a / 8 ≤ w ∧ 8 * w < a + n :=
  of_mem_wordsOf (by simpa [wordsAt] using h)

/-- A store that writes whole each poisoned word it touches. -/
theorem poisonWrite_none {c : Core} {sl : Slot} {ws : List Nat} {bs : ByteWrites}
    (h : ∀ w ∈ ws, w ∈ c.poison → coversWord bs w = true) : poisonWrite c sl ws bs = none := by
  have hf : ws.find? (fun w => c.poison.contains w && bs.any (fun p => p.1 / 8 == w) && !coversWord bs w) = none := by
    rw [List.find?_eq_none]
    intro w hw
    by_cases hp : w ∈ c.poison
    · simp [h w hw hp]
    · simp [hp]
  unfold poisonWrite
  rw [hf]

/-- Accesses at clean places touch no poisoned word. -/
theorem not_mem_poison_of_clean {c : Core} {as : List Nat} {n w : Nat} (h : ∀ a ∈ as, clean c a n) (hw : w ∈ wordsAt as n) :
    w ∉ c.poison := by
  obtain ⟨a, ha, h1, h2⟩ := of_mem_wordsAt hw
  exact h a ha w h1 h2

theorem touchWords_map {α : Type} (l : List α) (ea : α → Word) (n al : Nat) :
    touchWords (l.map (fun i => ⟨ea i, n, al⟩)) = wordsAt (l.map (fun i => (ea i).toNat)) n := by
  simp [touchWords, wordsAt, List.flatMap, Function.comp_def]

theorem wordsAt_bank {as : List Nat} {n : Nat} (h : oneBankEach as n) :
    ∀ v ∈ wordsAt as n, ∀ w ∈ wordsAt as n, bankOf v = bankOf w → v = w := by
  intro v hv w hw e
  obtain ⟨a, ha, hv1, hv2⟩ := of_mem_wordsAt hv
  obtain ⟨b, hb, hw1, hw2⟩ := of_mem_wordsAt hw
  exact h a ha b hb v w hv1 hv2 hw1 hw2 e

/-- A store slot with several accesses of one size, clear of poison, of each other's banks and of the other ports, issues. -/
theorem storeSlot_lanes {α : Type} {g : LGuard} {cls enc reads bad} {ts : Core → List Touch} {bytes : Core → ByteWrites} {s : State}
    (l : List α) (ea : α → Word) (n al : Nat) (hi : s.mayIssue (some g) reads) (he : ∀ e ∈ enc, e.2 = true)
    (hcls : s.core.classHeld cls = false) (hbad : bad = none)
    (hts : ts s.core = l.map (fun i => ⟨ea i, n, al⟩))
    (hpad : ∀ i ∈ l, inPad s.core (ea i).toNat n al)
    (hclean : ∀ w ∈ wordsAt (l.map (fun i => (ea i).toNat)) n, w ∈ s.core.poison →
      coversWord (bytes s.core) w = true)
    (hbank : ∀ v ∈ wordsAt (l.map (fun i => (ea i).toNat)) n, ∀ w ∈ wordsAt (l.map (fun i => (ea i).toNat)) n,
      bankOf v = bankOf w → v = w)
    (hal : alone s.core (l.map (fun i => (ea i).toNat)) n) :
    s.issueOne (storeSlot g cls enc reads bad ts bytes) =
      s.committedAsks (wordsAt (l.map (fun i => (ea i).toNat)) n) (fun c => c.store (bytes c)) := by
  have hw : touchWords (ts s.core) = wordsAt (l.map (fun i => (ea i).toNat)) n := by rw [hts, touchWords_map]
  rw [storeSlot_next hi he hcls hbad (touchCause_none ?_) (poisonWrite_none ?_) ?_ ?_, hw]
  · rw [hts]
    intro t ht
    obtain ⟨i, hi, rfl⟩ := List.mem_map.1 ht
    exact hpad i hi
  · rwa [hw]
  · rwa [hw]
  · rwa [hw]

/-! ### Each store of form LS, LV, LVS, LVG, STVM and AW -/
theorem tb_le (t : BitVec 4) : tb t ≤ 8 := by
  have h : t.toNat % 4 < 4 := Nat.mod_lt _ (by omega)
  unfold tb typeWidth
  interval_cases t.toNat % 4 <;> decide

theorem lsBad_none {f : LsForm} (h : f.t.toNat < 8) : lsBad f = none := by
  simp [lsBad, typeOk, h]

/-- A vector has as many lanes of a width as its 128 bytes hold of the lane's bytes (R128). -/
theorem lanes_of_bytes (lw : BitVec 2) : 128 / (laneWidth lw / 8) = 1024 / laneWidth lw := by
  revert lw
  decide

theorem wordsAt_one_bank {a n : Nat} (h : n ≤ 3064) : ∀ v ∈ wordsAt [a] n, ∀ w ∈ wordsAt [a] n, bankOf v = bankOf w → v = w := by
  simpa [wordsAt] using wordsOf_bank h

/-- The words of an 8-aligned access of whole words lie inside it. -/
theorem covered_of_aligned {a n w : Nat} (h : a % 8 = 0) (hn : n % 8 = 0) (x : Nat) (hw : w ∈ wordsAt [a] n) :
    coversWord (storeAt a n x) w = true := by
  have hin := of_mem_wordsAt_one hw
  exact (coversWord_storeAt a n x w).2 (by omega)

theorem sts_issues {f : LsForm} {s : State} (hgo : goLs (.sts f) f.gi f.gp f.cls s [.s f.a, .s f.d])
    (hpad : inPad s.core (ea s.core f.a f.disp) (tb f.t) (tb f.t)) (hcov : coversPoison s.core (ea s.core f.a f.disp) (tb f.t))
    (hal : alone s.core [ea s.core f.a f.disp] (tb f.t)) :
    s.issueOne (semSts f) = s.committedAsks (wordsAt [ea s.core f.a f.disp] (tb f.t))
      (fun c => c.store (storeAt (ea c f.a f.disp) (tb f.t) (c.sreg f.d).toNat)) := by
  obtain ⟨hwf, hi, hcls⟩ := hgo
  refine storeSlot_lanes [()] (fun _ => lsEa f s.core) (tb f.t) (tb f.t) hi (by simp) hcls
    (lsBad_none (by simpa [Instr.wf] using hwf)) rfl (fun _ _ => hpad) ?_ (wordsAt_one_bank (by have := tb_le f.t; omega)) hal
  intro w hw hp
  obtain ⟨h1, h2⟩ := of_mem_wordsAt_one (a := ea s.core f.a f.disp) hw
  exact (coversWord_storeAt _ _ _ w).2 (hcov w hp (by omega) h2)

theorem stv_issues {f : LvForm} {s : State} (hgo : goLs (.stv f) f.gi f.gp f.cls s [.s f.a, .v f.v])
    (hpad : inPad s.core (ea s.core f.a f.disp) 128 8) (hal : alone s.core [ea s.core f.a f.disp] 128) :
    s.issueOne (semStv f) = s.committedAsks (wordsAt [ea s.core f.a f.disp] 128)
      (fun c => c.store (storeAt (ea c f.a f.disp) 128 (c.vreg f.v).toNat)) := by
  obtain ⟨hwf, hi, hcls⟩ := hgo
  exact storeSlot_lanes [()] (fun _ => lvEa f s.core) 128 8 hi (by simpa [Instr.wf] using hwf) hcls rfl rfl (fun _ _ => hpad)
    (fun _ hw _ => covered_of_aligned hpad.1 rfl _ hw) (wordsAt_one_bank (by omega)) hal

theorem stvs_issues {f : LvsForm} {s : State} (hgo : goLs (.stvs f) f.gi f.gp f.cls s [.s f.a, .s f.s, .v f.v])
    (hpad : ∀ i < 1024 / laneWidth f.lw, inPad s.core (strideEa f s.core i) (laneWidth f.lw / 8) (laneWidth f.lw / 8) ∧
      clean s.core (strideEa f s.core i) (laneWidth f.lw / 8))
    (hbank : oneBankEach ((List.range (1024 / laneWidth f.lw)).map (strideEa f s.core)) (laneWidth f.lw / 8))
    (hal : alone s.core ((List.range (1024 / laneWidth f.lw)).map (strideEa f s.core)) (laneWidth f.lw / 8)) :
    s.issueOne (semStvs f) = s.committedAsks (wordsAt ((List.range (1024 / laneWidth f.lw)).map (strideEa f s.core)) (laneWidth f.lw / 8))
      (fun c => c.store ((List.range (1024 / laneWidth f.lw)).flatMap (fun i =>
        storeAt (strideEa f c i) (laneWidth f.lw / 8) (lane (laneWidth f.lw) (c.vreg f.v) i)))) := by
  obtain ⟨-, hi, hcls⟩ := hgo
  refine storeSlot_lanes (List.range (1024 / laneWidth f.lw)) (lvsEa f s.core) _ _ hi (by simp) hcls rfl
    (by rw [lvsTouches, lanes_of_bytes]) (fun i hi => (hpad i (List.mem_range.1 hi)).1)
    (fun w hw hp => absurd hp (not_mem_poison_of_clean ?_ hw)) (wordsAt_bank hbank) hal
  intro a ha
  obtain ⟨i, hi, rfl⟩ := List.mem_map.1 ha
  exact (hpad i (List.mem_range.1 hi)).2

theorem stvg_issues {f : LvgForm} {s : State} (hgo : goLs (.stvg f) f.gi f.gp f.cls s [.s f.a, .v f.vi, .v f.v])
    (hpad : ∀ i < 1024 / laneWidth f.lw, laneOn (laneWidth f.lw) (s.core.mreg f.m) i = true →
      inPad s.core (gatherEa f s.core i) (laneWidth f.lw / 8) (laneWidth f.lw / 8) ∧
      clean s.core (gatherEa f s.core i) (laneWidth f.lw / 8))
    (hbank : oneBankEach (((List.range (1024 / laneWidth f.lw)).filter (laneOn (laneWidth f.lw) (s.core.mreg f.m))).map
      (gatherEa f s.core)) (laneWidth f.lw / 8))
    (hal : alone s.core (((List.range (1024 / laneWidth f.lw)).filter (laneOn (laneWidth f.lw) (s.core.mreg f.m))).map
      (gatherEa f s.core)) (laneWidth f.lw / 8)) :
    s.issueOne (semStvg f) = s.committedAsks (wordsAt (((List.range (1024 / laneWidth f.lw)).filter
        (laneOn (laneWidth f.lw) (s.core.mreg f.m))).map (gatherEa f s.core)) (laneWidth f.lw / 8))
      (fun c => c.store (((List.range (1024 / laneWidth f.lw)).filter (laneOn (laneWidth f.lw) (c.mreg f.m))).flatMap (fun i =>
        storeAt (gatherEa f c i) (laneWidth f.lw / 8) (lane (laneWidth f.lw) (c.vreg f.v) i)))) := by
  obtain ⟨hwf, hi, hcls⟩ := hgo
  have hon : ∀ i ∈ lvgLanes f s.core, inPad s.core (gatherEa f s.core i) (laneWidth f.lw / 8) (laneWidth f.lw / 8) ∧
      clean s.core (gatherEa f s.core i) (laneWidth f.lw / 8) := by
    intro i hi
    obtain ⟨hr, ho⟩ := List.mem_filter.1 hi
    exact hpad i (List.mem_range.1 hr) ho
  refine storeSlot_lanes (lvgLanes f s.core) (lvgEa f s.core) _ _ hi (by simpa [Instr.wf] using hwf) hcls rfl rfl
    (fun i hi => (hon i hi).1) (fun w hw hp => absurd hp (not_mem_poison_of_clean ?_ hw)) (wordsAt_bank hbank) hal
  intro a ha
  obtain ⟨i, hi, rfl⟩ := List.mem_map.1 ha
  exact (hon i hi).2

theorem stvm_issues {f : StvmForm} {s : State} (hgo : goLs (.stvm f) f.gi f.gp f.cls s [.s f.a, .v f.v])
    (hpad : inPad s.core (ea s.core f.a f.disp) 128 8) (hclean : clean s.core (ea s.core f.a f.disp) 128)
    (hal : alone s.core [ea s.core f.a f.disp] 128) :
    s.issueOne (semStvm f) = s.committedAsks (wordsAt [ea s.core f.a f.disp] 128) (fun c => c.store
      (((List.range (1024 / laneWidth f.lw)).filter (laneOn (laneWidth f.lw) (c.mreg f.m))).flatMap (fun i =>
        storeAt (ea c f.a f.disp + i * (laneWidth f.lw / 8)) (laneWidth f.lw / 8) (lane (laneWidth f.lw) (c.vreg f.v) i)))) := by
  obtain ⟨-, hi, hcls⟩ := hgo
  exact storeSlot_lanes [()] (fun _ => stvmEa f s.core) 128 8 hi (by simp) hcls rfl rfl (fun _ _ => hpad)
    (fun w hw hp => absurd hp (not_mem_poison_of_clean (as := [ea s.core f.a f.disp]) (by simpa using hclean) hw))
    (wordsAt_one_bank (by omega)) hal

/-- `setaw` asks its bank for both words of the arrival word in one operation (R239). -/
theorem setaw_issues {f : AwForm} {s : State} (hgo : goLs (.setaw f) f.gi f.gp f.cls s [.s f.a, .s f.r1, .s f.r2])
    (hpad : inPad s.core (ea s.core f.a f.disp) 16 16) (hal : s.core.banksFree (arrivalAt (ea s.core f.a f.disp))) :
    s.issueOne (semSetaw f) = s.committedAsks (arrivalAt (ea s.core f.a f.disp)) (fun c => c.store (storeAt (ea c f.a f.disp) 16
      ((c.sreg f.r1).toNat % 2 ^ 32 + 2 ^ 64 * ((c.sreg f.r2).toNat % 2 ^ 32)))) := by
  obtain ⟨-, hi, hcls⟩ := hgo
  have hbytes : (fun c : Core => c.store (storeAt (ea c f.a f.disp) 16
      ((c.sreg f.r1).toNat % 2 ^ 32 + 2 ^ 64 * ((c.sreg f.r2).toNat % 2 ^ 32)))) =
      fun c => c.store (storeAt (awEa f c).toNat 16 ((c.sreg f.r1).toNat % 2 ^ 32 + (c.sreg f.r2).toNat % 2 ^ 32 * 2 ^ 64)) := by
    funext c
    rw [Nat.mul_comm (2 ^ 64)]
    rfl
  have halign : ea s.core f.a f.disp % 8 = 0 := by have := hpad.1; omega
  have htouch : touchCause s.core [⟨awEa f s.core, 16, 16⟩] = none := touchCause_none (fun t ht => by
    obtain rfl := List.mem_singleton.1 ht
    exact hpad)
  have hpoison : ∀ x, poisonWrite s.core .l (touchWords [⟨awEa f s.core, 16, 16⟩]) (storeAt (awEa f s.core).toNat 16 x) = none := fun x =>
    poisonWrite_none (fun w hw _ => covered_of_aligned halign rfl x hw)
  rw [hbytes]
  refine (SlotSem.issueOne_asks (by simp [semSetaw, storeSlot, plainSlot]) rfl hi ?_ rfl (lowestBit_none (by simp [semSetaw, storeSlot]))
    ?_ ?_ (by simp [semSetaw]) hal rfl).trans
    (by simp [State.committedAsks, semSetaw, storeSlot, plainSlot, onCore, arrivalAt, awWord, ea, awEa])
  · simp [semSetaw, storeSlot, classWait, hcls]
  · simp [semSetaw, storeSlot, htouch, hpoison]
  · simp only [semSetaw, storeSlot, onCore_core, Core.store, Core.lockstepCount]
    have := hi.2.2.2.2.2.2.1
    simp only [Core.lockstepCount] at this
    omega

/-! ### What a core holds after a store -/
theorem Core.mem_poison_store (c : Core) (a n x w : Nat) :
    w ∈ (c.store (storeAt a n x)).poison ↔ w ∈ c.poison ∧ ¬ (a ≤ 8 * w ∧ 8 * w + 8 ≤ a + n) := by
  rw [← coversWord_storeAt a n x w]
  simp [Core.store, List.mem_filter]

theorem Core.readN_store {c : Core} {a n x : Nat} (h : c.spad.wf = true) (hx : x < 256 ^ n) :
    (c.store (storeAt a n x)).spad.readN a n = x := by
  refine (Mem.readN_eq_mod (fun i hi => ?_)).trans (Nat.mod_eq_of_lt hx)
  rw [Core.store, Mem.read_storeAt h, if_pos (by omega), Nat.add_sub_cancel_left]

/-- Settles O21: each store slot issues by the rule of its shape, and the bytes of one access are read back one by one. -/
theorem scratchpadStoresWriteTheirBytes : Obligations.ScratchpadStoresWriteTheirBytes := by
  unfold Obligations.ScratchpadStoresWriteTheirBytes
  refine ⟨⟨?_, ?_, ?_, ?_, ?_, ?_⟩, ?_⟩
  · exact fun f s hgo hpad hcov hal => congrArg Host.Outcome.next (sts_issues hgo hpad hcov hal)
  · exact fun f s hgo hpad hal => congrArg Host.Outcome.next (stv_issues hgo hpad hal)
  · exact fun f s hgo hpad hbank hal => congrArg Host.Outcome.next (stvs_issues hgo hpad hbank hal)
  · exact fun f s hgo hpad hbank hal => congrArg Host.Outcome.next (stvg_issues hgo hpad hbank hal)
  · exact fun f s hgo hpad hclean hal => congrArg Host.Outcome.next (stvm_issues hgo hpad hclean hal)
  · exact fun f s hgo hpad hal => congrArg Host.Outcome.next (setaw_issues hgo hpad hal)
  · exact fun c a n x h =>
      ⟨Mem.read_storeAt h a n x, Core.mem_poison_store c a n x, Core.store_wf _ h, Core.readN_store h⟩

end Sys2Proof.Machine
end

section
/-! The fields that a well-formed instruction's encoding fixes (R62), slot by slot. -/

namespace Sys2Proof.Machine

open Sys2Proof.Claims

/-- Every field of the slot that its encoding fixes is as required (R62). -/
def SlotSem.encOk (m : SlotSem) : Prop := ∀ e ∈ m.enc, e.2 = true

/-! ### S slots -/
theorem rSlot_encOk {f : RForm} {enc reads check lat res} (h : ∀ e ∈ enc, e.2 = true) : (rSlot f enc reads check lat res).encOk := by
  simpa [SlotSem.encOk, rSlot] using h

theorem iSlot_encOk {f : IForm} {enc reads check lat res} (h : ∀ e ∈ enc, e.2 = true) : (iSlot f enc reads check lat res).encOk := by
  simpa [SlotSem.encOk, iSlot] using h

theorem lSlot_encOk {f : LForm} {enc reads lat res} (h : ∀ e ∈ enc, e.2 = true) : (lSlot f enc reads lat res).encOk := by
  simpa [SlotSem.encOk, lSlot] using h

-- The lemmas below all rewrite with the equations of `Instr.wf`, one for each instruction: this one makes them before the others start.
set_option Elab.async false in
theorem typed2_encOk {f : RForm} (hw : (Instr.add f).wf = true) (lat op) : (typed2 f lat op).encOk :=
  rSlot_encOk (by simp_all [Instr.wf])

theorem typedShift_encOk {f : RForm} (hw : (Instr.shl f).wf = true) (op) : (typedShift f op).encOk :=
  rSlot_encOk (by simp_all [Instr.wf])

theorem typed1_encOk {f : RForm} (hw : (Instr.clz f).wf = true) (op) : (typed1 f op).encOk :=
  rSlot_encOk (by simp_all [Instr.wf])

theorem imm2_encOk {f : IForm} (hw : (Instr.addi f).wf = true) (lat op) : (imm2 f lat op).encOk :=
  iSlot_encOk (by simp_all [Instr.wf])

theorem immShift_encOk {f : IForm} (hw : (Instr.shli f).wf = true) (op) : (immShift f op).encOk :=
  iSlot_encOk (by simp_all [Instr.wf])

theorem predLogic_encOk {f : RForm} (hw : (Instr.pand f).wf = true) (op) : (predLogic f op).encOk :=
  rSlot_encOk (by simp_all [Instr.wf])

/-- A field inside a field that is zero is zero. -/
theorem field_zero_of_field_zero {w lo n : Nat} {x : BitVec w} (h : field lo n x = (0 : BitVec n)) {lo' n' : Nat}
    (hlo : lo ≤ lo') (hn : lo' + n' ≤ lo + n) : field lo' n' x = (0 : BitVec n') := by
  refine BitVec.eq_of_getLsbD_eq fun i hi => ?_
  have hb := congrArg (·.getLsbD (lo' - lo + i)) h
  simp only [field, BitVec.getLsbD_extractLsb', BitVec.ofNat_eq_ofNat, BitVec.getLsbD_zero] at hb ⊢
  rw [show lo + (lo' - lo + i) = lo' + i by omega, decide_eq_true (by omega : lo' - lo + i < n)] at hb
  simpa [hi] using hb

theorem getLsbD_of_field_zero {w lo n : Nat} {x : BitVec w} (h : field lo n x = (0 : BitVec n)) {i : Nat} (hlo : lo ≤ i)
    (hi : i < lo + n) : x.getLsbD i = false := by
  have hb := congrArg (·.getLsbD (i - lo)) h
  simp only [field, BitVec.getLsbD_extractLsb', BitVec.ofNat_eq_ofNat, BitVec.getLsbD_zero] at hb
  rw [show lo + (i - lo) = i by omega, decide_eq_true (by omega : i - lo < n)] at hb
  simpa using hb

theorem noRound_ok {f : RForm} (h : field 4 4 f.x = (0 : BitVec 4)) : ∀ e ∈ noRound f, e.2 = true := by
  have hr : field 5 3 f.x = (0 : BitVec 3) := field_zero_of_field_zero h (by omega) (by omega)
  have hs : f.x.getLsbD 4 = false := getLsbD_of_field_zero h (le_refl 4) (by omega)
  simp only [noRound, fRnd, fSat, hr, hs]
  simp

theorem floatOp_encOk {f : RForm} {lat enc reads op} (hx : field 0 4 f.x = (0 : BitVec 4)) (h : ∀ e ∈ enc, e.2 = true) :
    (floatOp f lat enc reads op).encOk :=
  rSlot_encOk (List.forall_mem_cons.2 ⟨by simp [hx], h⟩)

theorem floatMinMax_encOk {f : RForm} (hw : (Instr.fmin f).wf = true) (mx) : (floatMinMax f mx).encOk := by
  obtain ⟨hc, hx⟩ : f.c = 0 ∧ field 0 8 f.x = (0 : BitVec 8) := by simpa [Instr.wf] using hw
  have h0 : field 0 4 f.x = (0 : BitVec 4) := field_zero_of_field_zero hx (by omega) (by omega)
  refine rSlot_encOk (List.forall_mem_cons.2 ⟨by simp [h0], List.forall_mem_cons.2 ⟨by simp [hc], noRound_ok ?_⟩⟩)
  exact field_zero_of_field_zero hx (by omega) (by omega)

theorem semFcmp_encOk {f : RForm} (hw : (Instr.fcmp f).wf = true) : (semFcmp f).encOk := by
  obtain ⟨⟨⟨hd, hc⟩, hx⟩, -⟩ : ((field 0 3 f.d = (0 : BitVec 3) ∧ f.c = 0) ∧ field 4 4 f.x = (0 : BitVec 4)) ∧ _ := by
    simpa [Instr.wf] using hw
  exact rSlot_encOk (List.forall_mem_cons.2 ⟨by simp [hd], List.forall_mem_cons.2 ⟨by simp [hc], noRound_ok hx⟩⟩)

theorem semFclass_encOk {f : RForm} (hw : (Instr.fclass f).wf = true) : (semFclass f).encOk := by
  obtain ⟨⟨hb, hc⟩, hx⟩ : (f.b = 0 ∧ f.c = 0) ∧ field 0 8 f.x = (0 : BitVec 8) := by simpa [Instr.wf] using hw
  have h0 : field 0 4 f.x = (0 : BitVec 4) := field_zero_of_field_zero hx (by omega) (by omega)
  refine rSlot_encOk (List.forall_mem_cons.2 ⟨by simp [h0], List.forall_mem_cons.2 ⟨by simp [hb],
    List.forall_mem_cons.2 ⟨by simp [hc], noRound_ok ?_⟩⟩⟩)
  exact field_zero_of_field_zero hx (by omega) (by omega)

theorem semFsgn_encOk {f : RForm} (hw : (Instr.fsgn f).wf = true) : (semFsgn f).encOk := by
  obtain ⟨⟨hc, hx⟩, -⟩ : (f.c = 0 ∧ field 2 6 f.x = (0 : BitVec 6)) ∧ _ := by simpa [Instr.wf] using hw
  have h2 : field 2 2 f.x = (0 : BitVec 2) := field_zero_of_field_zero hx (by omega) (by omega)
  refine rSlot_encOk (List.forall_mem_cons.2 ⟨by simp [h2], List.forall_mem_cons.2 ⟨by simp [hc], noRound_ok ?_⟩⟩)
  exact field_zero_of_field_zero hx (by omega) (by omega)

theorem sprRead_encOk {f : IForm} (hw : (Instr.get f).wf = true) (check) : (sprRead f check).encOk := by
  simp_all [Instr.wf, SlotSem.encOk, sprRead, sprEnc]

theorem sprWrite_encOk {f : IForm} (hw : (Instr.set f).wf = true) (check) : (sprWrite f check).encOk := by
  simp_all [Instr.wf, SlotSem.encOk, sprWrite, sprEnc]

/-! ### C and V slots -/
theorem cSlot_encOk {gi : BitVec 1} {gp : BitVec 3} {enc check eff} (h : ∀ e ∈ enc, e.2 = true) :
    (cSlot gi gp enc check eff).encOk := h

theorem vSlot_encOk {f : VForm} {enc reads check lat res} (h : ∀ e ∈ enc, e.2 = true) : (vSlot f enc reads check lat res).encOk := h

theorem bit_ne_one_iff (b : BitVec 1) : ¬ b = 1#1 ↔ b = 0#1 := by
  revert b
  decide

theorem vInt2_encOk {f : VForm} (hw : (Instr.vadd f).wf = true) (op) : (vInt2 f op).encOk :=
  vSlot_encOk (by simp_all [Instr.wf, zeroFrs, vbField, fnUnused, vSb, bit_ne_one_iff])

theorem vInt1_encOk {f : VForm} (hw : (Instr.vabs f).wf = true) (op) : (vInt1 f op).encOk :=
  vSlot_encOk (by simp_all [Instr.wf, zeroFrs, noVb])

theorem vFloat2_encOk {f : VForm} (hw : (Instr.vfadd f).wf = true) (lat op) : (vFloat2 f lat op).encOk :=
  vSlot_encOk (by simp_all [Instr.wf, vbField, fnUnused, vSb, bit_ne_one_iff])

theorem vFloat1_encOk {f : VForm} (hw : (Instr.vfsqrt f).wf = true) (lat op) : (vFloat1 f lat op).encOk :=
  vSlot_encOk (by simp_all [Instr.wf, noVb])

theorem vMinMax_encOk {f : VForm} (hw : (Instr.vfmin f).wf = true) (mx) : (vMinMax f mx).encOk :=
  vSlot_encOk (by simp_all [Instr.wf, vbField, fnUnused, vSb, bit_ne_one_iff])

theorem vSignOp_encOk {f : VForm} (hw : (Instr.vfabs f).wf = true) (more g) : (vSignOp f more g).encOk :=
  vSlot_encOk (by simp_all [Instr.wf, zeroRs, noVb])

theorem vFloatRed_encOk {f : VForm} (hw : (Instr.vfredadd f).wf = true) (mx ident root g) : (vFloatRed f mx ident root g).encOk :=
  vSlot_encOk (by simp_all [Instr.wf, noVb])

theorem vConv_encOk {f : VForm} {enc reads g} (h : ∀ e ∈ enc, e.2 = true) : (vConv f enc reads g).encOk := h

theorem vMove_encOk {f : VForm} {enc reads check g} (h : ∀ e ∈ zeroFrs f ++ enc, e.2 = true) : (vMove f enc reads check g).encOk := h

theorem semVsplat_encOk {f : VForm} (hw : (Instr.vsplat f).wf = true) : (semVsplat f).encOk := by
  have h7 : f.sb = 0#1 ∨ field 0 7 f.fn = 0#7 := by
    by_cases hb : f.sb = 1#1
    · exact .inr (by simp_all [Instr.wf])
    · exact .inl ((bit_ne_one_iff _).1 hb)
  exact vMove_encOk (by simp_all [Instr.wf, zeroFrs, vbField, fnUnused, vSb, bit_ne_one_iff])

theorem semVshuf_encOk {f : VForm} (hw : (Instr.vshuf f).wf = true) : (semVshuf f).encOk := by
  have h4 : shufPat f = 4 ↔ field 0 3 f.fn = (4 : BitVec 3) := by simp [shufPat, ← BitVec.toNat_inj]
  refine vMove_encOk ?_
  simp_all only [Instr.wf, Bool.and_eq_true, Bool.or_eq_true, beq_iff_eq, bne_iff_ne, decide_eq_true_eq]
  obtain ⟨⟨⟨⟨⟨⟨⟨hf, hr⟩, hs⟩, hb⟩, hc⟩, hu⟩, -⟩, hp⟩ := hw
  by_cases h : field 0 3 f.fn = (4 : BitVec 3)
  · obtain ⟨hvb, hsb⟩ := hp.resolve_left (not_not_intro h)
    simp_all [zeroFrs, fnUnused, vSb]
  · simp_all [zeroFrs, fnUnused, vSb, bit_ne_one_iff]

theorem semVqnt_encOk {f : VForm} (hw : (Instr.vqnt f).wf = true) {reads g} :
    (vConv f [vbField f, (198, f.vc == 0), (180, field 4 1 f.fn == 0), fnUnused f 8] reads g).encOk :=
  vConv_encOk (by simp_all [Instr.wf, vbField, fnUnused, vSb, bit_ne_one_iff])

theorem maskLogic_two_encOk {f : VForm} (hw : (Instr.mand f).wf = true) (g) : (maskLogic f true g).encOk :=
  vSlot_encOk (by simp_all [Instr.wf, zeroFrs])

theorem maskVote_encOk {f : VForm} (hw : (Instr.vany f).wf = true) (g) : (maskVote f g).encOk :=
  vSlot_encOk (by simp_all [Instr.wf, zeroFrs])

/-! ### L, M, K and N slots -/
theorem drawerSlot_encOk {g cls enc bad reads hi i disp write size align kind dest} (h : ∀ e ∈ enc, e.2 = true) :
    (drawerSlot g cls enc bad reads hi i disp write size align kind dest).encOk := h

/-- An atomic's zero fields (R168, R170). -/
theorem atSlot_encOk {f : AtForm} {op : BitVec 8} (hz : f.z = 0) (hc : op = 0x39 ∨ f.c = 0) (hp : atPred op = true ∨ f.pd = 0)
    (hb : (op ≠ 0x3A ∧ op ≠ 0x3B ∧ op ≠ 0x3C) ∨ f.b = 0) : (atSlot f op).encOk := by
  simp_all [SlotSem.encOk, atSlot, and_assoc]

theorem mSlot_encOk {op enc check eff} (h : ∀ e ∈ enc, e.2 = true) : (mSlot op enc check eff).encOk := h

theorem kSlot_encOk {f kind enc check} (h : ∀ e ∈ enc, e.2 = true) : (kSlot f kind enc check).encOk := h

theorem nSlot_encOk {f kind counts enc check post} (h : ∀ e ∈ enc, e.2 = true) : (nSlot f kind counts enc check post).encOk := h

theorem kfillSlot_encOk {f : KForm} (hw : (Instr.kfill f).wf = true) : (kfillSlot f).encOk := by
  simp_all [Instr.wf, SlotSem.encOk, kfillSlot, cmdSlot]

theorem encOk_of_wf {i : Instr} {m : SlotSem} (h : slotSem i = some m) (hw : i.wf = true) : m.encOk := by
  cases i
  case add | sub | mul | mulh | mulhn | div | divn | rem | remn | and | or | xor | andn | min | max | minn | maxn =>
    cases h; exact typed2_encOk hw _ _
  case shl | shr | sra | rol => cases h; exact typedShift_encOk hw _
  case clz | ctz | popc | bswap => cases h; exact typed1_encOk hw _
  case addi | andi | ori | xori | muli | mini | maxi => cases h; exact imm2_encOk hw _ _
  case shli | shri | srai => cases h; exact immShift_encOk hw _
  case pand | por | pxor => cases h; exact predLogic_encOk hw _
  case fadd | fsub | fmul | fdiv | ffma | fsqrt => cases h; exact floatOp_encOk (by simp_all [Instr.wf]) (by simp_all [Instr.wf])
  case fmin | fmax => cases h; exact floatMinMax_encOk hw _
  case fcmp => cases h; exact semFcmp_encOk hw
  case fclass => cases h; exact semFclass_encOk hw
  case fsgn => cases h; exact semFsgn_encOk hw
  case exts | extz | ins | sel | lea | cmp | pmov | ptos | fcvt | fcvti | icvtf | prep => cases h; exact rSlot_encOk (by simp_all [Instr.wf])
  case cmpi | pset | ptst | setfmt | getfmt | stg | gtg | lcset | lcget | rasrd | raswr => cases h; exact iSlot_encOk (by simp_all [Instr.wf])
  case movi | moviz | movm | movt | addpc | prepr => cases h; exact lSlot_encOk (by simp_all [Instr.wf])
  case get | gets => cases h; exact sprRead_encOk hw _
  case set | sets => cases h; exact sprWrite_encOk hw _
  case br | call | ret | loop | done | swap | eret | idle | halt | qfence => cases h; exact cSlot_encOk (by simp_all [Instr.wf])
  case wait | sync => cases h; simp_all [Instr.wf, SlotSem.encOk, semWait, semSync]
  case trap | brk => cases h; simp_all [Instr.wf, SlotSem.encOk, semTrap, semBrk, trapSlot]
  case vadd | vsub | vmul | vmulh | vmulhn | vmin | vmax | vminn | vmaxn | vand | vor | vxor | vandn | vshl | vshr | vsra | vadds | vaddsn
      | vsubs | vsubsn => cases h; exact vInt2_encOk hw _
  case vabs | vneg | vclz | vpopc => cases h; exact vInt1_encOk hw _
  case vfadd | vfsub | vfmul | vfdiv => cases h; exact vFloat2_encOk hw _ _
  case vfsqrt | vfexp2 | vflog2 | vfrcp | vfrsq => cases h; exact vFloat1_encOk hw _ _
  case vfmin | vfmax => cases h; exact vMinMax_encOk hw _
  case vfabs | vfneg | vfclass => cases h; exact vSignOp_encOk hw _ _
  case vfredadd | vfredmax => cases h; exact vFloatRed_encOk hw _ _ _ _
  case vcvt => cases h; exact vConv_encOk (by simp_all [Instr.wf, noVb])
  case vqnt | vdqnt => cases h; exact semVqnt_encOk hw
  case vacc | vaccw | vsin | vsout => cases h; simp_all [Instr.wf, SlotSem.encOk, semVacc, semVaccw, semVsin, semVsout, vSlot, zeroFrs, noVb]
  case vsel | vcmp | vfma | vfcmp | vredadd | vredmax | vextr | vinsr | mset | mget | mpopc | mnot =>
    cases h
    refine vSlot_encOk ?_
    simp_all [Instr.wf, zeroFrs, zeroRs, noVb, vbField, fnUnused, vSb, bit_ne_one_iff]
  case vsplat => cases h; exact semVsplat_encOk hw
  case vshuf => cases h; exact semVshuf_encOk hw
  case vmov | vsplati | vperm | vperm2 | vslide | viota =>
    cases h
    refine vMove_encOk ?_
    simp_all [Instr.wf, zeroFrs, noVb, vbField, fnUnused, vSb, bit_ne_one_iff]
  case mand | mor | mxor => cases h; exact maskLogic_two_encOk hw _
  case vany | vall => cases h; exact maskVote_encOk hw _
  case kld | zfromv | waita | spl | fil | splv | filv | xlate | hinv | hget | fence | fenceSc =>
    cases h
    simp_all [Instr.wf, SlotSem.encOk, semKld, zLoad, semZfromv, semWaita, semSpl, semFil, semSplv, semFilv, semXlate, semHinv, semHget,
      semFence, semFenceSc]
  case ldv | stv | ldvg | stvg => cases h; simp_all [Instr.wf, SlotSem.encOk, semLdv, semStv, semLdvg, semStvg, loadSlot, storeSlot]
  case zld | zldh | zldb | lds | sts | ldvs | stvs | stvm | setaw => cases h; exact nofun
  case ldh | sth | ldvh | stvh => cases h; exact drawerSlot_encOk (by simp_all [Instr.wf])
  case aadd | amin | amax | aminn | amaxn | aand | aor | axor | aswp | acas | aincb | aincw | adecp | afal | afadd =>
    cases h
    refine atSlot_encOk ?_ ?_ ?_ ?_ <;> simp_all [Instr.wf, atPred]
  case mma | mepi | msend | mred | mclr | mstat => cases h; exact mSlot_encOk (by simp_all [Instr.wf])
  case kcpy | kput | kdec | kzero | kloc => cases h; exact kSlot_encOk (by simp_all [Instr.wf, kZero])
  case kfill | kfillConfigure => cases h; exact kfillSlot_encOk hw
  case nsend | nsendt | npost | npush | npop | nrot | ngsend | nclose | ndisarm =>
    cases h
    exact nSlot_encOk (by simp_all [Instr.wf, nPlain, nNoCh])
  all_goals cases h


/-- A slot instruction issues its slot alone. -/
theorem exec_of_slotSem {i : Instr} {m : SlotSem} (h : slotSem i = some m) :
    m.slot ≠ .none ∧ ∀ s, exec i s = .next (s.issueOne m) := by
  cases i
  all_goals cases h
  all_goals refine ⟨?_, fun _ => rfl⟩
  case add f | sub f | mul f | mulh f | mulhn f | div f | divn f | rem f | remn f | and f | or f | xor f | andn f | shl f | shr f | sra f
      | rol f | min f | max f | minn f | maxn f | clz f | ctz f | popc f | bswap f | exts f | extz f | ins f | sel f | lea f | addi f
      | andi f | ori f | xori f | shli f | shri f | srai f | muli f | mini f | maxi f | movi f | moviz f | movm f | movt f | addpc f
      | cmp f | cmpi f | pand f | por f | pxor f | pmov f | ptos f | pset f | ptst f | fadd f | fsub f | fmul f | ffma f | fmin f
      | fmax f | fdiv f | fsqrt f | fcmp f | fclass f | fsgn f | fcvt f | fcvti f | icvtf f | prep f | prepr f | get f | set f
      | gets f | sets f | setfmt f | getfmt f | stg f | gtg f | lcset f | lcget f | rasrd f | raswr f => exact sSlot_ne f.s1
  all_goals exact nofun

end Sys2Proof.Machine
end

section
/-! The typed, immediate, predicate and mask rows, discarded writes and false guards (O58). -/

namespace Sys2Proof.Machine

open Sys2Proof.Claims

/-! ### The rows of the typed instructions (R105): one form, one meaning -/
theorem typedRows_are : ∀ e ∈ typedRows, ∀ f, (e.1 f).wf = (Instr.add f).wf ∧
    ∀ s, exec (e.1 f) s = .next (s.issueOne (typed2 f e.2.2 e.2.1)) := by
  intro e he
  simp only [typedRows, List.mem_cons, List.not_mem_nil, or_false] at he
  rcases he with rfl | rfl | rfl | rfl | rfl | rfl | rfl | rfl | rfl | rfl | rfl | rfl | rfl | rfl | rfl | rfl | rfl <;>
    exact fun _ => ⟨rfl, fun _ => rfl⟩

theorem shiftRows_are : ∀ e ∈ shiftRows, ∀ f, (e.1 f).wf = (Instr.add f).wf ∧
    ∀ s, exec (e.1 f) s = .next (s.issueOne (typedShift f e.2)) := by
  intro e he
  simp only [shiftRows, List.mem_cons, List.not_mem_nil, or_false] at he
  rcases he with rfl | rfl | rfl | rfl <;> exact fun _ => ⟨rfl, fun _ => rfl⟩

theorem typed1Rows_are : ∀ e ∈ typed1Rows, ∀ f, (e.1 f).wf = (Instr.clz f).wf ∧
    ∀ s, exec (e.1 f) s = .next (s.issueOne (typed1 f e.2)) := by
  intro e he
  simp only [typed1Rows, List.mem_cons, List.not_mem_nil, or_false] at he
  rcases he with rfl | rfl | rfl | rfl <;> exact fun _ => ⟨rfl, fun _ => rfl⟩

theorem immRows_are : ∀ e ∈ immRows, ∀ f, (e.1 f).wf = (Instr.addi f).wf ∧
    ∀ s, exec (e.1 f) s = .next (s.issueOne (imm2 f e.2.2 e.2.1)) := by
  intro e he
  simp only [immRows, List.mem_cons, List.not_mem_nil, or_false] at he
  rcases he with rfl | rfl | rfl | rfl | rfl | rfl | rfl <;> exact fun _ => ⟨rfl, fun _ => rfl⟩

theorem predRows_are : ∀ e ∈ predRows, ∀ f, (e.1 f).wf = (Instr.pand f).wf ∧
    ∃ op, ∀ s, exec (e.1 f) s = .next (s.issueOne (predLogic f op)) := by
  intro e he
  simp only [predRows, List.mem_cons, List.not_mem_nil, or_false] at he
  rcases he with rfl | rfl | rfl <;> exact fun _ => ⟨rfl, _, fun _ => rfl⟩

theorem maskRows_are : ∀ e ∈ maskRows, ∀ f, ∃ two op, slotSem (e.1 f) = some (maskLogic f two op) ∧
    ∀ s, exec (e.1 f) s = .next (s.issueOne (maskLogic f two op)) := by
  intro e he
  simp only [maskRows, List.mem_cons, List.not_mem_nil, or_false] at he
  rcases he with rfl | rfl | rfl | rfl <;> exact fun _ => ⟨_, _, rfl, fun _ => rfl⟩

theorem typed_wf {f : RForm} (hw : (Instr.add f).wf = true) :
    f.c = 0 ∧ field 4 8 f.x = (0 : BitVec 8) ∧ typeOk (field 0 4 f.x) = true := by
  simpa [Instr.wf, typeOk, and_assoc] using hw

theorem typed2_issues {f : RForm} {s : State} (hw : (Instr.add f).wf = true) (hi : s.mayIssue (some (f.gi, f.gp)) [.s f.a, .s f.b])
    (lat : Nat) (op : Nat → Nat → Nat → Nat) :
    s.issueOne (typed2 f lat op) = s.issued (intoS f lat (fun c =>
      typedTo f (op (tw f) ((c.sreg f.a).toNat % 2 ^ tw f) ((c.sreg f.b).toNat % 2 ^ tw f)))) := by
  obtain ⟨hc, hx, ht⟩ := typed_wf hw
  exact rSlot_next hi (by simp [hc, hx]) (if_pos ht)

theorem typedShift_issues {f : RForm} {s : State} (hw : (Instr.add f).wf = true) (hi : s.mayIssue (some (f.gi, f.gp)) [.s f.a, .s f.b])
    (op : Nat → Nat → Nat → Nat) :
    s.issueOne (typedShift f op) = s.issued (intoS f 1 (fun c =>
      typedTo f (op (tw f) ((c.sreg f.a).toNat % 2 ^ tw f) (c.sreg f.b).toNat))) := by
  obtain ⟨hc, hx, ht⟩ := typed_wf hw
  exact rSlot_next hi (by simp [hc, hx]) (if_pos ht)

theorem typed1_issues {f : RForm} {s : State} (hw : (Instr.clz f).wf = true) (hi : s.mayIssue (some (f.gi, f.gp)) [.s f.a])
    (op : Nat → Nat → Nat) :
    s.issueOne (typed1 f op) = s.issued (intoS f 1 (fun c => typedTo f (op (tw f) ((c.sreg f.a).toNat % 2 ^ tw f)))) := by
  obtain ⟨hb, hc, hx, ht⟩ : f.b = 0 ∧ f.c = 0 ∧ field 4 8 f.x = (0 : BitVec 8) ∧ typeOk (field 0 4 f.x) = true := by
    simpa [Instr.wf, typeOk, and_assoc] using hw
  exact rSlot_next hi (by simp [hb, hc, hx]) (if_pos ht)

theorem imm2_issues {f : IForm} {s : State} (hw : (Instr.addi f).wf = true) (hi : s.mayIssue (some (f.gi, f.gp)) [.s f.a])
    (lat : Nat) (op : Word → Word → Word) :
    s.issueOne (imm2 f lat op) = s.issued (intoSI f lat (fun c => op (c.sreg f.a) (f.imm.signExtend 64))) :=
  iSlot_next hi (by simpa [Instr.wf] using hw) rfl

/-- A write that is discarded leaves the core as it was (R9). -/
theorem Core.result_discarded {w : Write} (h : w.discarded = true) (c : Core) (sl : Slot) (n : Nat) (fl : Flags) :
    c.result sl n w fl = c := by
  simp [Core.result, h]

/-- A bundle whose effect leaves every core as it was only issues. -/
theorem State.issued_id {g : Core → Core} (h : ∀ c, g c = c) (s : State) : s.issued g = s.issued id :=
  congrArg s.issued (funext h)

theorem predLogic_issues {f : RForm} {s : State} (hw : (Instr.pand f).wf = true)
    (hi : s.mayIssue (some (f.gi, f.gp)) [.p (field 0 3 f.a), .p (field 0 3 f.b)]) (op : Bool → Bool → Bool) :
    s.issueOne (predLogic f op) = s.issued (fun c => c.result (sSlot f.s1) 1
      (.p (pdR f) (op (c.preg (field 0 3 f.a) != f.x.getLsbD 1) (c.preg (field 0 3 f.b) != f.x.getLsbD 0))) 0) :=
  rSlot_next hi (by simpa [Instr.wf, and_assoc] using hw) rfl

theorem maskLogic_issues {f : VForm} {s : State} {two : Bool} {op : Bool → Bool → Bool} (he : (maskLogic f two op).encOk)
    (hi : s.mayIssue none []) :
    s.issueOne (maskLogic f two op) = s.issued (fun c => c.result .v 2
      (.m (mOf f.vd) (maskGate f c (fun j => op ((c.mreg (mOf f.va)).getLsbD j) ((c.mreg (mOf f.vb)).getLsbD j)))) 0) :=
  vSlot_next hi he rfl

/-- Settles O58. -/
theorem discardedWritesAndFalseGuards : Obligations.DiscardedWritesAndFalseGuards := by
  unfold Obligations.DiscardedWritesAndFalseGuards
  refine ⟨fun c => ⟨rfl, rfl, rfl⟩, ?_, ?_, ?_, ?_, ?_⟩
  · intro e he f s ⟨hw, hi⟩ hd
    obtain ⟨hwf, hx⟩ := typedRows_are e he f
    rw [hx, typed2_issues (hwf ▸ hw) hi]
    exact congrArg _ (s.issued_id fun c => Core.result_discarded (by simp [Write.discarded, hd]) ..)
  · intro e he f s ⟨hw, hi⟩ hd
    obtain ⟨hwf, hx⟩ := immRows_are e he f
    rw [hx, imm2_issues (hwf ▸ hw) hi]
    exact congrArg _ (s.issued_id fun c => Core.result_discarded (by simp [Write.discarded, hd]) ..)
  · intro e he f s ⟨hw, hi⟩ hd
    obtain ⟨hwf, op, hx⟩ := predRows_are e he f
    rw [hx, predLogic_issues (hwf ▸ hw) hi]
    exact congrArg _ (s.issued_id fun c => Core.result_discarded (by simp [Write.discarded, pdR, hd]) ..)
  · intro e he f s ⟨hw, hi⟩ hd
    obtain ⟨two, op, hm, hx⟩ := maskRows_are e he f
    rw [hx, maskLogic_issues (encOk_of_wf hm hw) hi]
    exact congrArg _ (s.issued_id fun c => Core.result_discarded (by simp [Write.discarded, mOf, hd]) ..)
  · intro i m s hm hw hab hp hg hu
    obtain ⟨hs, hx⟩ := exec_of_slotSem hm
    rw [hx, SlotSem.issueOne_skip hs hab hp hg hu (lowestBit_none (encOk_of_wf hm hw))]

end Sys2Proof.Machine
end

section
/-! The operations of the typed instructions on bit vectors (O1). -/

namespace Sys2Proof.Machine

open Sys2Proof.Claims

/-! ### Integer operations as operations on bit vectors (R30, R105, R106) -/
section
variable {w : Nat} (x y : BitVec w)

theorem sintOf_toNat (hw : 0 < w) : sintOf w x.toNat = x.toInt := by
  have hp : 2 ^ w = 2 * 2 ^ (w - 1) := by rw [← pow_succ', Nat.sub_add_cancel hw]
  simp only [sintOf, Nat.mod_eq_of_lt x.isLt, BitVec.toInt_eq_toNat_cond]
  exact if_congr (by omega) rfl (by simp)

theorem wrapInt_eq (w : Nat) (i : Int) : wrapInt w i = (BitVec.ofInt w i).toNat := by
  simp [wrapInt]

theorem wrapInt_toInt : wrapInt w x.toInt = x.toNat := by
  rw [wrapInt_eq, BitVec.ofInt_toInt]

theorem toNat_ne_zero {x : BitVec w} (h : x ≠ 0) : x.toNat ≠ 0 := fun e => h (BitVec.eq_of_toNat_eq (by simpa using e))

theorem opAdd_eq : opAdd w x.toNat y.toNat = (x + y).toNat := by simp [opAdd]

theorem wrapInt_bmod (w : Nat) (i : Int) : wrapInt w (i.bmod (2 ^ w)) = wrapInt w i := by
  have h : i.bmod (2 ^ w) % (2 ^ w : Nat) = i % (2 ^ w : Nat) := Int.bmod_emod
  push_cast at h
  rw [wrapInt, wrapInt, h]

theorem opSub_eq : opSub w x.toNat y.toNat = (x - y).toNat := by
  have h : ((x.toNat : Int) - y.toNat) = ((2 ^ w - y.toNat + x.toNat : Nat) : Int) - 2 ^ w := by
    rw [Nat.cast_add, Nat.cast_sub y.isLt.le]
    push_cast
    ring
  rw [opSub, wrapInt, h, Int.sub_emod_right, BitVec.toNat_sub]
  rfl

theorem opMul_eq : opMul w x.toNat y.toNat = (x * y).toNat := by simp [opMul]

theorem opMulh_eq (hw : 0 < w) : opMulh w x.toNat y.toNat = (BitVec.ofInt w (x.toInt * y.toInt / 2 ^ w)).toNat := by
  rw [opMulh, sintOf_toNat x hw, sintOf_toNat y hw, wrapInt_eq]

theorem opDiv_eq (hw : 0 < w) : opDiv w x.toNat y.toNat = (if y = 0 then BitVec.allOnes w else x.sdiv y).toNat := by
  by_cases h : y = 0
  · simp [opDiv, h]
  · rw [opDiv, if_neg (toNat_ne_zero h), if_neg h, sintOf_toNat x hw, sintOf_toNat y hw, ← wrapInt_toInt, BitVec.toInt_sdiv, wrapInt_bmod]

theorem opDivn_eq : opDivn w x.toNat y.toNat = (if y = 0 then BitVec.allOnes w else x / y).toNat := by
  by_cases h : y = 0
  · simp [opDivn, h]
  · rw [opDivn, if_neg (toNat_ne_zero h), if_neg h, BitVec.toNat_udiv]

theorem opRem_eq (hw : 0 < w) : opRem w x.toNat y.toNat = (if y = 0 then x else x.srem y).toNat := by
  by_cases h : y = 0
  · simp [opRem, h]
  · rw [opRem, if_neg (toNat_ne_zero h), if_neg h, sintOf_toNat x hw, sintOf_toNat y hw, ← BitVec.toInt_srem, wrapInt_toInt]

theorem opRemn_eq : opRemn w x.toNat y.toNat = (if y = 0 then x else x % y).toNat := by
  by_cases h : y = 0
  · simp [opRemn, h]
  · rw [opRemn, if_neg (toNat_ne_zero h), if_neg h, BitVec.toNat_umod]

theorem opAndn_eq : opAndn w x.toNat y.toNat = (x &&& ~~~y).toNat := by
  simp [opAndn, Nat.mod_eq_of_lt y.isLt]

theorem opMin_eq (hw : 0 < w) : opMin w x.toNat y.toNat = (if y.toInt < x.toInt then y else x).toNat := by
  rw [opMin, sintOf_toNat x hw, sintOf_toNat y hw, apply_ite BitVec.toNat]

theorem opMax_eq (hw : 0 < w) : opMax w x.toNat y.toNat = (if x.toInt < y.toInt then y else x).toNat := by
  rw [opMax, sintOf_toNat x hw, sintOf_toNat y hw, apply_ite BitVec.toNat]

theorem opMinn_eq : opMinn w x.toNat y.toNat = (if y.toNat < x.toNat then y else x).toNat := by
  rw [apply_ite BitVec.toNat, opMinn]
  split <;> omega

theorem opMaxn_eq : opMaxn w x.toNat y.toNat = (if x.toNat < y.toNat then y else x).toNat := by
  rw [apply_ite BitVec.toNat, opMaxn]
  split <;> omega

theorem opShl_eq (n : Nat) : opShl w x.toNat n = (x <<< (n % w)).toNat := by
  simp [opShl, Nat.shiftLeft_eq]

theorem opShr_eq (n : Nat) : opShr w x.toNat n = (x >>> (n % w)).toNat := by
  simp [opShr, Nat.shiftRight_eq_div_pow]

theorem opSra_eq (hw : 0 < w) (n : Nat) : opSra w x.toNat n = (x.sshiftRight (n % w)).toNat := by
  rw [opSra, sintOf_toNat x hw, ← wrapInt_toInt, BitVec.toInt_sshiftRight, Int.shiftRight_eq_div_pow]
  norm_num

theorem opRol_eq (n : Nat) (hw : 0 < w) : opRol w x.toNat n = (x.rotateLeft (n % w)).toNat := by
  have hr : n % w < w := Nat.mod_lt _ hw
  have hlow : x.toNat / 2 ^ (w - n % w) < 2 ^ (n % w) := by
    rw [Nat.div_lt_iff_lt_mul (by positivity), ← pow_add, Nat.add_sub_cancel' hr.le]
    exact x.isLt
  have hhigh : x.toNat * 2 ^ (n % w) % 2 ^ w = (x.toNat % 2 ^ (w - n % w)) <<< (n % w) := by
    rw [Nat.shiftLeft_eq, ← Nat.mul_mod_mul_right, ← pow_add, Nat.sub_add_cancel hr.le]
  rw [opRol, BitVec.toNat_rotateLeft, Nat.mod_mod, Nat.shiftRight_eq_div_pow, Nat.shiftLeft_eq, hhigh,
    Nat.shiftLeft_add_eq_or_of_lt hlow]

/-! ### Counts of bits, and bytes reversed (R105) -/
theorem opClz_eq : if x = 0 then opClz w x.toNat = w
    else opClz w x.toNat < w ∧ 2 ^ (w - 1 - opClz w x.toNat) ≤ x.toNat ∧ x.toNat < 2 ^ (w - opClz w x.toNat) := by
  split
  next h => simp [opClz, h]
  next h =>
    have h0 : x.toNat ≠ 0 := toNat_ne_zero h
    have hlt : x.toNat.log2 < w := (Nat.log2_lt h0).2 x.isLt
    rw [opClz, if_neg h0, show w - 1 - (w - 1 - x.toNat.log2) = x.toNat.log2 by omega,
      show w - (w - 1 - x.toNat.log2) = x.toNat.log2 + 1 by omega]
    exact ⟨by omega, Nat.log2_self_le h0, Nat.lt_log2_self⟩

theorem ctzFrom_zero (n : Nat) : ctzFrom n 0 = n := by
  induction n with
  | zero => rfl
  | succ n ih => simp [ctzFrom, ih]

/-- Among the `n` bits of a number that is not 0 the lowest one set is found. -/
theorem ctzFrom_spec {n a : Nat} (h0 : a ≠ 0) (hlt : a < 2 ^ n) :
    ctzFrom n a < n ∧ a.testBit (ctzFrom n a) = true ∧ ∀ i < ctzFrom n a, a.testBit i = false := by
  induction n generalizing a with
  | zero => omega
  | succ n ih =>
    by_cases hodd : a % 2 = 1
    · simp [ctzFrom, hodd, Nat.testBit_zero]
    · obtain ⟨hn, hset, hlow⟩ := ih (a := a / 2) (by omega) (by rw [pow_succ] at hlt; omega)
      rw [ctzFrom, if_neg hodd]
      refine ⟨by omega, by rwa [Nat.testBit_succ], fun i hi => ?_⟩
      cases i with
      | zero => simpa [Nat.testBit_zero] using hodd
      | succ i => rw [Nat.testBit_succ]; exact hlow i (by omega)

theorem opCtz_eq : if x = 0 then opCtz w x.toNat = w
    else opCtz w x.toNat < w ∧ x.getLsbD (opCtz w x.toNat) = true ∧ ∀ i < opCtz w x.toNat, x.getLsbD i = false := by
  split
  next h => simp [opCtz, h, ctzFrom_zero]
  next h => exact ctzFrom_spec (toNat_ne_zero h) x.isLt

theorem popFrom_eq (n a : Nat) : popFrom n a = ((List.range n).filter (fun i => a.testBit i)).length := by
  induction n generalizing a with
  | zero => rfl
  | succ n ih =>
    rw [popFrom, ih, List.range_succ_eq_map, List.filter_cons, List.filter_map, Nat.testBit_zero]
    have hcomp : ((fun i => a.testBit i) ∘ Nat.succ) = fun i => (a / 2).testBit i := funext fun i => Nat.testBit_succ a i
    rcases Nat.mod_two_eq_zero_or_one a with h | h <;> simp [h, hcomp]
    omega

theorem bswapFrom_lt (n a : Nat) : bswapFrom n a < 256 ^ n := by
  induction n generalizing a with
  | zero => simp [bswapFrom]
  | succ n ih =>
    have h1 : a % 256 * 256 ^ n ≤ 255 * 256 ^ n := Nat.mul_le_mul_right _ (by omega)
    have h2 := ih (a / 256)
    rw [bswapFrom, pow_succ]
    omega

theorem bswapFrom_byte {n a i : Nat} (hi : i < n) : bswapFrom n a / 256 ^ i % 256 = a / 256 ^ (n - 1 - i) % 256 := by
  induction n generalizing a i with
  | zero => omega
  | succ n ih =>
    rw [bswapFrom, Nat.add_sub_cancel]
    rcases Nat.lt_or_eq_of_le (Nat.le_of_lt_succ hi) with hlt | rfl
    · have hsplit : a % 256 * 256 ^ n = 256 ^ i * (256 * (a % 256 * 256 ^ (n - 1 - i))) := by
        rw [show (256 : Nat) ^ n = 256 ^ i * (256 * 256 ^ (n - 1 - i)) by rw [← pow_succ', ← pow_add]; congr 1; omega]
        ring
      rw [hsplit, Nat.mul_add_div (by positivity), Nat.mul_add_mod, ih hlt, Nat.div_div_eq_div_mul, ← pow_succ',
        show n - 1 - i + 1 = n - i by omega]
    · rw [Nat.sub_self, pow_zero, Nat.div_one, Nat.mul_comm, Nat.mul_add_div (by positivity),
        Nat.div_eq_of_lt (bswapFrom_lt _ _)]
      simp

theorem opBswap_eq (hw : 8 * (w / 8) = w) :
    opBswap w x.toNat < 2 ^ w ∧ ∀ i < w / 8, opBswap w x.toNat / 256 ^ i % 256 = x.toNat / 256 ^ (w / 8 - 1 - i) % 256 := by
  refine ⟨?_, fun i hi => bswapFrom_byte hi⟩
  have h := bswapFrom_lt (w / 8) x.toNat
  rwa [show (256 : Nat) = 2 ^ 8 by norm_num, ← pow_mul, hw] at h

end

/-- Settles O1: the typed forms issue by the rule of form R, and each operation is the one on bit vectors. -/
theorem integerResults : Obligations.IntegerResults := by
  unfold Obligations.IntegerResults
  refine ⟨⟨?_, ?_, ?_⟩, ?_⟩
  · intro e he f s ⟨hw, hi⟩
    obtain ⟨hwf, hx⟩ := typedRows_are e he f
    rw [hx, typed2_issues (hwf ▸ hw) hi]
  · intro e he f s ⟨hw, hi⟩
    obtain ⟨hwf, hx⟩ := shiftRows_are e he f
    rw [hx, typedShift_issues (hwf ▸ hw) hi]
  · intro e he f s ⟨hw, hi⟩
    obtain ⟨hwf, hx⟩ := typed1Rows_are e he f
    rw [hx, typed1_issues (hwf ▸ hw) hi]
  · intro w hw x y
    have h0 : 0 < w := by fin_cases hw <;> decide
    have h8 : 8 * (w / 8) = w := by fin_cases hw <;> rfl
    exact ⟨opAdd_eq x y, opSub_eq x y, opMul_eq x y, opMulh_eq x y h0, rfl, opDiv_eq x y h0, opDivn_eq x y, opRem_eq x y h0,
      opRemn_eq x y, BitVec.toNat_and x y |>.symm, BitVec.toNat_or x y |>.symm, BitVec.toNat_xor x y |>.symm, opAndn_eq x y,
      opMin_eq x y h0, opMax_eq x y h0, opMinn_eq x y, opMaxn_eq x y, opClz_eq x, opCtz_eq x, popFrom_eq w x.toNat, opBswap_eq x h8,
      fun n => ⟨opShl_eq x n, opShr_eq x n, opSra_eq x h0 n, opRol_eq x n h0⟩⟩

end Sys2Proof.Machine
end

section
/-! Every step goes on (O53), and what reset leaves (O57). -/

namespace Sys2Proof.Machine

open Sys2Proof.Claims

/-- No arm of `exec` answers a fault or a refusal. -/
theorem exec_goesOn (i : Instr) (s : State) : ∃ t, exec i s = .next t := by
  cases i <;> exact ⟨_, rfl⟩

theorem runEvent_goesOn (e : Event) (s : State) : ∃ t, runEvent e s = .next t := by
  cases e <;> exact ⟨_, rfl⟩

theorem step_goesOn (s : State) : ∃ t, step s = .next t := by
  unfold step
  split
  · exact runEvent_goesOn _ _
  · exact ⟨_, rfl⟩

/-- Settles O53. -/
theorem everyInstructionGoesOn : Obligations.EveryInstructionGoesOn := by
  unfold Obligations.EveryInstructionGoesOn
  exact ⟨step_goesOn, exec_goesOn⟩

theorem reset_coreAt (t : CoreId) : State.reset.coreAt t = Core.fresh t := rfl

theorem fresh_fmt_invalid (t : CoreId) (n : BitVec 4) (h : 4 ≤ n) : fmtV ((Core.fresh t).fmt n) = false := by
  have : ∀ n : BitVec 4, 4 ≤ n → fmtV ((Core.fresh 0).fmt n) = false := by decide
  exact this n h

theorem fresh_wmarks (t : CoreId) (a : BitVec 2) : (Core.fresh t).wmarks.get a.toFin = 16 := by
  simp [Core.fresh]

theorem reset_rangeOf (m i : Nat) (h : (m, i) ≠ (64, 0)) (hi : i < 8) : (State.reset.rangeOf m i).v = false := by
  have hne : ¬ (m = 64 ∧ i = 0) := by simpa using h
  have hk : 8 * m + i ≠ 512 := by omega
  simp [State.rangeOf, State.reset, hne, Tab.getD, Tab.get?, hk, Range.none]

/-- Settles O57. -/
theorem resetState : Obligations.ResetState := by
  unfold Obligations.ResetState
  refine ⟨⟨?_, ?_⟩, rfl, rfl, rfl, rfl, rfl, rfl, rfl, rfl, ?_, ?_, ?_⟩
  · decide
  · decide
  · intro t ht
    simp [reset_coreAt, Core.inSystem, Core.fresh, ht]
  · intro t
    refine ⟨rfl, rfl, rfl, rfl, rfl, rfl, rfl, rfl, rfl, rfl, fresh_fmt_invalid t, fresh_wmarks t⟩
  · refine ⟨fun _ _ => rfl, fun _ _ => rfl, fun _ => rfl, fun _ => ⟨rfl, rfl⟩, rfl, rfl, reset_rangeOf⟩

end Sys2Proof.Machine
end

section
/-! Slots that do more than begin results: `trap` and `brk` with the traps they take, trap entry and return, special registers. -/

namespace Sys2Proof.Machine
open Sys2Proof.Claims

/-! ### Slots that do more than begin results -/

/-- A bundle that nothing holds leaves room in the snapshot (R18). -/
theorem State.unheld.room {s : State} (h : s.unheld) : s.core.lockstepCount ≤ 32 := by
  obtain ⟨-, -, -, hcount, -⟩ := h
  omega

theorem State.mayIssue.unheld {s : State} {g : Option (BitVec 1 × BitVec 3)} {rs : List PReg} (h : s.mayIssue g rs) : s.unheld :=
  h.2.2.2

/-- A slot whose effect on its core begins no result, and that touches no scratchpad word, issues with that effect. -/
theorem SlotSem.issueOne_committed {m : SlotSem} {s : State} {g : Core → Core} (hs : m.slot ≠ .none) (hab : m.absent s = none)
    (hi : s.mayIssue m.guard m.reads) (hw : m.wait s = none) (hl : m.late s = none) (he : m.encOk) (hc : m.check s = none)
    (hg : m.eff = onCore g) (hr : (g s.core).inflight = s.core.inflight) (hb : m.words s = []) (ha : m.after s = none)
    (hp : m.plain = false) : s.issueOne m = s.committed g := by
  have hroom : (m.eff s).core.lockstepCount ≤ 32 := by
    simpa only [hg, onCore_core, Core.lockstepCount, hr] using hi.unheld.room
  rw [SlotSem.issueOne_next hs hab hi hw hl (lowestBit_none he) hc hroom hb ha, hg, hp]
  simp [State.committed, onCore]

/-- A slot with a trap precise after effect issues with its effect and leaves the cause for the boundary behind its bundle (R28, R124). -/
theorem SlotSem.issueOne_trapsAfter {m : SlotSem} {s : State} {k : Cause} (hs : m.slot ≠ .none) (hab : m.absent s = none)
    (hi : s.mayIssue m.guard m.reads) (hw : m.wait s = none) (hl : m.late s = none) (he : m.encOk)
    (hc : m.check s = none) (hr : (m.eff s).core.lockstepCount ≤ 32) (hb : m.words s = []) (ha : m.after s = some k) :
    s.issueOne m = (m.eff s).setCore { (m.eff s).core.finish Header.zero with trapAfter := some k, stall := 0, undo := none } := by
  have hwait := SlotSem.waitOut_none hs hi hw hl hr
  obtain ⟨-, hg, -, -, -, -, -, hleft⟩ := hi
  have hcause : firstSlotCause s [m] = none := by simp [firstSlotCause, SlotSem.cause, hab, lowestBit_none he, hg, hc]
  have heff : runEffects s (effectOrder [m]) = m.eff s := by simp [effectOrder_one m hs, runEffects, SlotSem.effect, hg]
  have hafter : afterTrap s [m] = some k := by simp [afterTrap, hg, ha]
  have htouch : m.touched s = [] := by simp [SlotSem.touched, hg, hb]
  simp [State.issueOne, State.issueSlots, hwait, hcause, heff, hafter, hleft, htouch]

/-- The end of a bundle passes over the cause that its boundary is to take. -/
theorem Core.finish_trapAfter (c : Core) (k : Option Cause) :
    ({ c with trapAfter := k } : Core).finish Header.zero = { c.finish Header.zero with trapAfter := k, stall := 0 } := by
  unfold Core.finish
  dsimp only
  split <;> rfl

theorem trapSlot_issues {f : TrapForm} {s : State} (hi : s.mayIssue (some (f.gi, f.gp)) []) (hz : f.z = 0) (code : Nat) :
    s.issueOne (trapSlot f code) =
      s.committed (fun c => { c with trapAfter := some (precise .c code (f.imm.setWidth 64)) }) := by
  rw [SlotSem.issueOne_trapsAfter (m := trapSlot f code) (by simp [trapSlot, plainSlot]) rfl hi rfl rfl
    (by simp [SlotSem.encOk, trapSlot, hz]) rfl hi.unheld.room rfl rfl]
  simp only [State.committed, Core.issuedFrom, Core.undoOf_false, Core.finish_trapAfter]
  rfl

theorem Core.knowFailing_nil {c : Core} (h : c.failing = []) (net : List Packet) (id : CoreId) : c.knowFailing net id = c := by
  simp [Core.knowFailing, h]

/-- The cause of a `trap` or `brk` is taken at the boundary before anything else that is known there (R28, R124). -/
theorem trapDelivery_trapAfter {s : State} {k : Cause} (hk : s.core.trapAfter = some k) (hf : s.core.frozen = false)
    (hn : s.core.failing = []) :
    s.trapDelivery = (s.setCore { s.core with trapAfter := none }).takeTrap k (s.cycle + 1) := by
  simp [State.trapDelivery, Core.knowFailing_nil hn, hk, hf]

/-- Settles O9. -/
theorem trapAndBrkTakeTheirTraps : Obligations.TrapAndBrkTakeTheirTraps := by
  unfold Obligations.TrapAndBrkTakeTheirTraps
  refine ⟨?_, ?_, ?_⟩
  · intro f s ⟨hw, hi⟩
    exact congrArg _ (trapSlot_issues hi (by simpa [Instr.wf] using hw) _)
  · intro f s ⟨hw, hi⟩
    exact congrArg _ (trapSlot_issues hi (by simpa [Instr.wf] using hw) _)
  · intro s t k hk hf hn
    exact congrArg _ (trapDelivery_trapAfter hk hf hn)

/-! ### Taking a trap and returning from one (R27 to R29, R125) -/
theorem takeTrap_delivers {s : State} (he : s.core.trap.en = true) (hi : s.core.trap.inH = false) (k : Cause) (gate : Nat) :
    s.takeTrap k gate = s.setCore (s.core.deliver k s.core.pc gate) := by
  simp [State.takeTrap, he, hi]

/-- A trap that no handler takes halts the strand, or the management core, and keeps the cause (R29). -/
theorem takeTrap_halts {s : State} (h : s.core.trap.en = false ∨ s.core.trap.inH = true) (k : Cause) (gate : Nat) :
    (s.takeTrap k gate).core =
      { s.core with strand := if s.core.isMgmt then .coreHalt else .halted, undelivered := some k } ∧
    (s.takeTrap k gate).aborts = if s.core.isMgmt then s.aborts else s.aborts ++ [s.cur] := by
  have hno : (s.core.trap.en && !s.core.trap.inH) = false := by rcases h with h | h <;> simp [h]
  rw [State.takeTrap, hno]
  exact ⟨s.setCore_core _, rfl⟩

/-- Settles O10. -/
theorem trapEntryAndReturn : Obligations.TrapEntryAndReturn := by
  unfold Obligations.TrapEntryAndReturn
  refine ⟨⟨?_, ?_⟩, ?_⟩
  · intro s k g he hi
    rw [takeTrap_delivers he hi]
    simp only [State.setCore_core]
    refine ⟨rfl, rfl, rfl, rfl, rfl, rfl, rfl, rfl, rfl, rfl, rfl, rfl, rfl, fun hm => ?_, fun hm => ?_, rfl, rfl, rfl, rfl, rfl, rfl,
      rfl, he, rfl, fun t ht => State.setCore_coreAt_other _ _ ht⟩ <;> simp [Core.deliver, hm]
  · intro s k g h
    obtain ⟨hcore, haborts⟩ := takeTrap_halts h k g
    rw [hcore, haborts]
    refine ⟨rfl, rfl, fun hm => ?_, fun hm => ?_⟩ <;> simp [hm]
  · intro c
    refine ⟨rfl, rfl, rfl, rfl, rfl, rfl, rfl, ?_, ?_, ?_, rfl, rfl, rfl, rfl, rfl⟩ <;> intro h <;> simp [Core.resume, h]


/-! ### Special registers (R10, R114) -/

/-- A slot that begins results alone issues with its effect. -/
theorem SlotSem.issueOne_issued {m : SlotSem} {s : State} {g : Core → Core} (hs : m.slot ≠ .none) (hab : m.absent s = none)
    (hi : s.mayIssue m.guard m.reads) (hw : m.wait s = none) (hl : m.late s = none) (he : m.encOk) (hc : m.check s = none)
    (hg : m.eff s = onCore g s) (hr : (g s.core).lockstepCount ≤ 32) (hb : m.words s = []) (ha : m.after s = none)
    (hp : m.plain = true) : s.issueOne m = s.issued g := by
  rw [SlotSem.issueOne_next hs hab hi hw hl (lowestBit_none he) hc (by simpa [hg] using hr) hb ha, hg, hp]
  simp [State.issued, onCore]

theorem sprRead_issues {f : IForm} {s : State} {check : State → Option Cause} {x : Word} (he : (sprRead f check).encOk)
    (hi : s.mayIssue (some (f.gi, f.gp)) []) (hc : check s = none) (hx : s.readSpecial (sprNum f).toNat = some x) :
    s.issueOne (sprRead f check) = s.issued (intoSI f 2 (fun _ => x)) :=
  SlotSem.issueOne_issued (sSlot_ne f.s1) rfl hi rfl rfl he hc (by simp only [sprRead, hx]; rfl)
    (hi.unheld.result_room ..) rfl rfl (by cases h : f.s1 <;> simp [sprRead, plainSlot, sSlot, h])

theorem userWritable_iff (n : Nat) : userWritable n = true ↔
    n = 0x021 ∨ n = 0x022 ∨ n = 0x023 ∨ n = 0x030 ∨ n = 0x031 ∨ (0x040 ≤ n ∧ n ≤ 0x044) ∨ n = 0x050 := by
  simp [userWritable, or_assoc]

theorem lt_of_userWritable {n : Nat} (h : userWritable n = true) : n < 0x800 := by
  rw [userWritable_iff] at h
  omega

theorem sprWrite_eff_user {f : IForm} (hu : userWritable (sprNum f).toNat = true) (check : State → Option Cause) (s : State) :
    (sprWrite f check).eff s = onCore (fun c => c.result (sSlot f.s1) 1
      (if (sprNum f).toNat = 0x023 then .depth (field 0 5 (c.sreg f.a)) else .spr (sprNum f) (c.sreg f.a)) 0) s := by
  have hn := lt_of_userWritable hu
  simp only [sprWrite, onCore, hn, hu, if_true]

theorem sprWrite_eff_readOnly {f : IForm} (hn : (sprNum f).toNat < 0x800) (hu : userWritable (sprNum f).toNat = false)
    (check : State → Option Cause) (s : State) : (sprWrite f check).eff s = onCore id s := by
  simp [sprWrite, onCore, hn, hu]

theorem sprWrite_eff_sys {f : IForm} (hn : 0x800 ≤ (sprNum f).toNat) (check : State → Option Cause) (s : State) :
    (sprWrite f check).eff s = onCore (fun c => c.result (sSlot f.s1) 1 (.sys (sprNum f) (c.sreg f.a)) 0) s := by
  simp [sprWrite, onCore, Nat.not_lt.2 hn]

theorem sprWrite_issues {f : IForm} {s : State} {check : State → Option Cause} {g : Core → Core} (he : (sprWrite f check).encOk)
    (hi : s.mayIssue (some (f.gi, f.gp)) [.s f.a]) (hc : check s = none) (hd : depthCheck f s = none)
    (hg : (sprWrite f check).eff s = onCore g s) (hr : (g s.core).lockstepCount ≤ 32) :
    s.issueOne (sprWrite f check) = s.issued g :=
  SlotSem.issueOne_issued (sSlot_ne f.s1) rfl hi rfl rfl he (by simp [sprWrite, hc, hd]) hg hr rfl rfl
    (by cases h : f.s1 <;> simp [sprWrite, plainSlot, sSlot, h])

theorem readUser_isSome_of_userWritable {n : Nat} (h : userWritable n = true) (s : State) : (s.readUser n).isSome = true := by
  rw [userWritable_iff] at h
  unfold State.readUser
  rcases h with rfl | rfl | rfl | rfl | rfl | ⟨h1, h2⟩ | rfl
  case inr.inr.inr.inr.inr.inl => interval_cases n <;> rfl
  all_goals rfl

theorem readSpecial_of_lt {n : Nat} (h : n < 0x800) (s : State) : s.readSpecial n = s.readUser n := if_pos h

theorem readSpecial_of_le {n : Nat} (h : 0x800 ≤ n) (s : State) : s.readSpecial n = s.readSys n := if_neg (by omega)

theorem getCheck_none {f : IForm} {s : State} (hn : (sprNum f).toNat < 0x800) (hx : (s.readUser (sprNum f).toNat).isSome = true) :
    getCheck f s = none := by
  have h8 : ¬ 0x800 ≤ (sprNum f).toNat := by omega
  simp [getCheck, h8, readSpecial_of_lt hn, Option.isSome_iff_ne_none.1 hx]

theorem getsCheck_none {f : IForm} {s : State} {op : Nat} (hm : s.core.isMgmt = true) (hs : s.core.sysMode = true)
    (hx : (s.readSpecial (sprNum f).toNat).isSome = true) : getsCheck f op s = none :=
  firstCause_none (by simp [hx, Core.inSystem, hm, hs])

theorem depthCheck_none {f : IForm} {s : State} (h : (sprNum f).toNat = 0x023 → (s.core.sreg f.a).toNat ≤ 16) : depthCheck f s = none :=
  if_neg fun ⟨hn, hd⟩ => absurd (h hn) (by omega)

theorem sprNum_eq (f : IForm) : (field 0 12 f.imm : BitVec 12) = sprNum f := rfl

/-- Settles O11. -/
theorem specialRegisterMoves : Obligations.SpecialRegisterMoves := by
  unfold Obligations.SpecialRegisterMoves
  simp only [sprNum_eq]
  refine ⟨?_, ?_, ?_, ?_, ?_, ?_⟩
  · intro f s x ⟨hw, hi⟩ hn hx
    exact congrArg _ (sprRead_issues (sprRead_encOk hw _) hi (getCheck_none hn (Option.isSome_of_eq_some hx))
      ((readSpecial_of_lt hn s).trans hx))
  · intro f s ⟨hw, hi⟩ hu hne
    have h23 : (sprNum f).toNat ≠ 0x023 := fun e => hne (BitVec.eq_of_toNat_eq e)
    have heff := sprWrite_eff_user hu (getCheck f) s
    simp only [h23, if_false] at heff
    exact congrArg _ (sprWrite_issues (sprWrite_encOk hw _) hi
      (getCheck_none (lt_of_userWritable hu) (readUser_isSome_of_userWritable hu s))
      (depthCheck_none fun e => absurd e h23) heff (hi.unheld.result_room ..))
  · intro f s ⟨hw, hi⟩ hnum hd
    have h23 : (sprNum f).toNat = 0x023 := congrArg BitVec.toNat hnum
    have hu : userWritable (sprNum f).toNat = true := by rw [h23]; rfl
    have heff := sprWrite_eff_user hu (getCheck f) s
    simp only [h23, if_true] at heff
    exact congrArg _ (sprWrite_issues (sprWrite_encOk hw _) hi
      (getCheck_none (lt_of_userWritable hu) (readUser_isSome_of_userWritable hu s))
      (depthCheck_none fun _ => hd) heff (hi.unheld.result_room ..))
  · intro f s ⟨hw, hi⟩ hn hx hu
    have h23 : (sprNum f).toNat ≠ 0x023 := fun e => by rw [e] at hu; cases hu
    exact congrArg _ (sprWrite_issues (sprWrite_encOk hw _) hi (getCheck_none hn hx) (depthCheck_none fun e => absurd e h23)
      (sprWrite_eff_readOnly hn hu _ s) hi.unheld.room)
  · intro f s x ⟨hw, hi⟩ hm hs hx
    exact congrArg _ (sprRead_issues (sprRead_encOk hw _) hi (getsCheck_none hm hs (Option.isSome_of_eq_some hx)) hx)
  · intro f s ⟨hw, hi⟩ hm hs hn hx
    exact congrArg _ (sprWrite_issues (sprWrite_encOk hw _) hi (getsCheck_none hm hs (by rwa [readSpecial_of_le hn]))
      (depthCheck_none fun e => by omega) (sprWrite_eff_sys hn _ s) (hi.unheld.result_room ..))

end Sys2Proof.Machine
end

section
/-! Drawer accesses and the commands of the engines enter their queues (O25, O28, O29, O30). -/

namespace Sys2Proof.Machine

open Sys2Proof.Claims

/-! ### Drawer loads and stores (R165 to R167) -/

@[simp] theorem Core.makePending_inflight (c : Core) (r : PReg) : (c.makePending r).inflight = c.inflight := by
  unfold Core.makePending
  split <;> rfl

/-- A well-formed instruction whose slot neither begins a result nor touches a scratchpad word issues with its effect. -/
theorem exec_committed {i : Instr} {m : SlotSem} {s : State} {g : Core → Core} (hm : slotSem i = some m) (hwf : i.wf = true)
    (hab : m.absent s = none) (hi : s.mayIssue m.guard m.reads) (hw : m.wait s = none) (hl : m.late s = none)
    (hc : m.check s = none) (hg : m.eff = onCore g) (hr : (g s.core).inflight = s.core.inflight) (hb : m.words s = [])
    (ha : m.after s = none) (hp : m.plain = false) : exec i s = .next (s.committed g) := by
  obtain ⟨hs, hex⟩ := exec_of_slotSem hm
  rw [hex, SlotSem.issueOne_committed hs hab hi hw hl (encOk_of_wf hm hwf) hc hg hr hb ha hp]

/-- A handle that is neither pending nor shot down holds nothing (R162). -/
theorem State.handleWait_none {s : State} {r : BitVec 4} (hp : (s.core.hreg r).p = false) (hs : (s.core.hreg r).isShot = false) :
    s.handleWait r = none := by
  simp [State.handleWait, hp, hs]

theorem drawerCheck_none {h : Handle} {write : Bool} {off : Word} {n al : Nat} (hs : handleServes h write off.toNat n al)
    (r : BitVec 4) : drawerCheck h r write off n al = none := by
  obtain ⟨-, he, -, hv, hb, ha⟩ := hs
  refine firstCause_none ?_
  have hv' : (!h.v || (if write then h.wr else h.rd)) = true := by cases hh : h.v <;> simp_all
  have hb' : off.toNat + n ≤ h.pageBytes := hb
  simp [he, hv', ha, hb']

/-- The core with the access `newAccess` in its drawer path and L or S raised (R20, R166, R167). -/
def Core.drawerEnters (c : Core) (write : Bool) (a : Access) (dest : Option PReg) : Core :=
  let d : Core := { c with
    dacc := c.dacc ++ [a]
    nextAcc := c.nextAcc + 1
    cnt := if write then { c.cnt with s := c.cnt.s + 1 } else { c.cnt with l := c.cnt.l + 1 } }
  match dest with
  | some r => d.makePending r
  | none => d

theorem Core.drawerEnters_inflight (c : Core) (write : Bool) (a : Access) (dest : Option PReg) :
    (c.drawerEnters write a dest).inflight = c.inflight := by
  cases dest <;> simp [Core.drawerEnters]

/-- Drawer accesses of both directions enter alike. -/
theorem drawer_enters {ins : Instr} {s : State} {g : LGuard} {cls : BitVec 4} {enc : List (Nat × Bool)} {reads : List PReg}
    {h : BitVec 4} {i : BitVec 6} {disp : BitVec 12} {write : Bool} {n al : Nat} {kind : Core → AccKind} {dest : Option PReg}
    (hm : slotSem ins = some (drawerSlot g cls enc none reads (h, 0) (0, i) disp write n al kind dest)) (hw : ins.wf = true)
    (hi : s.mayIssue (some g) (.s i :: reads))
    (hh : handleServes (s.core.hregs.get h.toFin) write (dOff s.core i disp).toNat n al)
    (hcnt : (if write then s.core.cnt.s else s.core.cnt.l) < 63) (hlog : write = true → s.core.slog.length < 256) :
    exec ins s = .next (s.committed (fun c => c.drawerEnters write (newAccess c cls h i disp (kind c)) dest)) := by
  have hwait : s.handleWait h = none := by
    obtain ⟨hpend, -, hshot, -⟩ := hh
    exact State.handleWait_none hpend hshot
  have hlog' : (write && decide (256 ≤ s.core.slog.length)) = false := by
    cases write
    · rfl
    · simpa using hlog rfl
  refine exec_committed hm hw rfl hi ?_ rfl (drawerCheck_none hh h) rfl (Core.drawerEnters_inflight ..) rfl rfl rfl
  simp only [drawerSlot, hwait, hlog', Nat.not_le.2 hcnt]
  rfl

/-- Settles O25. -/
theorem drawerAccessesEnter : Obligations.DrawerAccessesEnter := by
  unfold Obligations.DrawerAccessesEnter
  have hbad {f : LdhForm} (ht : f.t.toNat < 8) : ldhBad f = none := if_pos (by simpa [typeOk] using ht)
  refine ⟨?_, ?_, ?_, ?_⟩
  · intro f s hw hi hh hc
    have hm : slotSem (.ldh f) = some (semLdh f) := rfl
    rw [semLdh, hbad (by simpa [Instr.wf] using hw)] at hm
    exact drawer_enters hm hw hi hh hc nofun
  · intro f s hw hi hh hc
    exact drawer_enters (ins := .ldvh f) rfl hw hi hh hc nofun
  · intro f s hw hi hh hc hl
    have hm : slotSem (.sth f) = some (semSth f) := rfl
    rw [semSth, hbad (by simpa [Instr.wf] using hw)] at hm
    exact drawer_enters hm hw hi hh hc fun _ => hl
  · intro f s hw hi hh hc hl
    exact drawer_enters (ins := .stvh f) rfl hw hi hh hc fun _ => hl

@[simp] theorem Core.makePending_cnt (c : Core) (r : PReg) : (c.makePending r).cnt = c.cnt := by
  unfold Core.makePending
  split <;> rfl


/-! ### What the engine slots check -/

theorem field_toNat {w : Nat} (lo n : Nat) (x : BitVec w) : (field lo n x).toNat = x.toNat / 2 ^ lo % 2 ^ n := by
  rw [field, BitVec.extractLsb'_toNat, Nat.shiftRight_eq_div_pow]

theorem resv_of_zeros {x : Word} {lo n : Nat} (h : zeros x lo n) : resv x lo n = true := beq_iff_eq.2 h

/-- A field is compared with a number as its value is. -/
theorem field_beq {w : Nat} {lo n : Nat} {x : BitVec w} {k : Nat} (hk : k < 2 ^ n) :
    (field lo n x == BitVec.ofNat n k) = decide (x.toNat / 2 ^ lo % 2 ^ n = k) := by
  rw [← field_toNat, Bool.eq_iff_iff, beq_iff_eq, decide_eq_true_iff, ← BitVec.toNat_inj, BitVec.toNat_ofNat, Nat.mod_eq_of_lt hk]

theorem listedCause_none {l : List (List (Bool × Cause))} (h : ∀ g ∈ l, ∀ e ∈ g, e.1 = true) : listedCause l = none := by
  induction l with
  | nil => rfl
  | cons g l ih =>
    obtain ⟨hg, hl⟩ := List.forall_mem_cons.1 h
    simp only [listedCause, lowestCause_none hg, ih hl]

@[simp] theorem Core.stgOf_m (c : Core) (i : Nat) : c.stgOf .m i = sg c i := by simp [Core.stgOf, stgBase, sg]
@[simp] theorem Core.stgOf_k (c : Core) (i : Nat) : c.stgOf .k i = sg c (16 + i) := rfl
@[simp] theorem Core.stgOf_n (c : Core) (i : Nat) : c.stgOf .n i = sg c (32 + i) := rfl

/-! ### A command enters its queue (R7, R8, R20) -/

theorem Core.capture_entered (c : Core) (sl : Slot) (k : CmdKind) (ops : BitVec 27) (fa fb : BitVec 4) :
    entered c (c.capture sl k ops fa fb) k ops (stgBase sl) := ⟨rfl, rfl, rfl, rfl, rfl, rfl, rfl⟩

@[simp] theorem Core.enqueue_inflight (c : Core) (sl : Slot) (k : Cmd) : (c.enqueue sl k).inflight = c.inflight := by
  cases sl <;> rfl

@[simp] theorem Core.own_inflight (c : Core) (a : BitVec 2) (ch : Bool) : (c.own a ch).inflight = c.inflight := rfl

/-- A command waits for nothing else when its queue and its counter have room. -/
theorem cmdSlot_wait_none {sl : Slot} {enc : List (Nat × Bool)} {count : Counters → Nat} {check : State → Option Cause}
    {wait : State → Option State} {eff : Core → Core} {s : State} (hw : wait s = none)
    (hq : (s.core.queueOf sl).length < 16) (hc : count s.core.cnt < 63) : (cmdSlot sl enc count check wait eff).wait s = none := by
  have hroom : ¬(queueDepth ≤ (s.core.queueOf sl).length ∨ 63 ≤ count s.core.cnt) := by
    simp only [queueDepth]
    omega
  simp only [cmdSlot, hw, Bool.or_eq_true, decide_eq_true_iff, if_neg hroom]

theorem mSlot_enters {i : Instr} {op : Nat} {enc : List (Nat × Bool)} {check : Core → Option Cause} {eff : Core → Core} {s : State}
    (hm : slotSem i = some (mSlot op enc check eff)) (hgo : goM i s) (hc : check s.core = none)
    (hr : (eff s.core).inflight = s.core.inflight) : exec i s = .next (s.committed (fun c => (eff c).raiseM)) := by
  obtain ⟨hw, hi, hmgmt, hq, hcnt⟩ := hgo
  exact exec_committed hm hw (by simp [mSlot, noArray, hmgmt]) hi
    (cmdSlot_wait_none (sl := .m) (enc := enc) (check := fun s => check s.core) (wait := fun _ => none)
      (eff := fun c => (eff c).raiseM) rfl hq hcnt) rfl hc rfl hr rfl rfl rfl

theorem nSlot_enters {i : Instr} {f : NForm} {kind : CmdKind} {counts : Bool} {enc : List (Nat × Bool)}
    {check : Core → List (List (Bool × Cause))} {post : Core → Core} {s : State}
    (hm : slotSem i = some (nSlot f kind counts enc check post)) (hgo : goN i s counts)
    (hc : ∀ g ∈ check s.core, ∀ e ∈ g, e.1 = true) (hr : ∀ c, (post c).inflight = c.inflight) :
    exec i s = .next (s.committed (fun c =>
      let d := c.enqueue .n (c.capture .n kind (nOps f) 0 0)
      post (if counts then d.raiseN else d))) := by
  obtain ⟨hw, hi, hq, hcnt⟩ := hgo
  have hcnt' : (if counts then s.core.cnt.n else 0) < 63 := by
    cases counts
    · exact Nat.zero_lt_succ 62
    · exact hcnt rfl
  refine exec_committed hm hw rfl hi (cmdSlot_wait_none (sl := .n) rfl hq hcnt') rfl (listedCause_none hc) rfl ?_ rfl rfl rfl
  cases counts <;> exact hr _

theorem State.useHandle_of_not_shot {s : State} {r : BitVec 4} (h : (s.core.hreg r).isShot = false) : s.useHandle r = s := by
  simp [State.useHandle, h]

/-- A K command whose handles are neither pending nor shot down does not wait for them (R162, R176). -/
theorem kPending_none {s : State}
    (hs : (sg s.core 22).getLsbD 4 = true → (s.core.hregs.get (field 0 4 (sg s.core 22) : BitVec 4).toFin).p = false ∧
      (s.core.hregs.get (field 0 4 (sg s.core 22) : BitVec 4).toFin).isShot = false)
    (hd : (sg s.core 22).getLsbD 9 = true → (s.core.hregs.get (field 5 4 (sg s.core 22) : BitVec 4).toFin).p = false ∧
      (s.core.hregs.get (field 5 4 (sg s.core 22) : BitVec 4).toFin).isShot = false) : kPending s = none := by
  have h4 : (if (sg s.core 22).getLsbD 4 then s.useHandle (field 0 4 (sg s.core 22)) else s) = s := by
    split
    next h => exact State.useHandle_of_not_shot (hs h).2
    next => rfl
  have h9 : (if (sg s.core 22).getLsbD 9 then s.useHandle (field 5 4 (sg s.core 22)) else s) = s := by
    split
    next h => exact State.useHandle_of_not_shot (hd h).2
    next => rfl
  have hwalks : kWalks s = s := by
    have hw : kWalks s = if (sg s.core 22).getLsbD 9
      then (if (sg s.core 22).getLsbD 4 then s.useHandle (field 0 4 (sg s.core 22)) else s).useHandle (field 5 4 (sg s.core 22))
      else (if (sg s.core 22).getLsbD 4 then s.useHandle (field 0 4 (sg s.core 22)) else s) := rfl
    rw [hw, h4, h9]
  have hs4 : ((sg s.core 22).getLsbD 4 && (s.core.hreg (field 0 4 (sg s.core 22))).p) = false :=
    Bool.and_eq_false_imp.2 fun h => (hs h).1
  have hd9 : ((sg s.core 22).getLsbD 9 && (s.core.hreg (field 5 4 (sg s.core 22))).p) = false :=
    Bool.and_eq_false_imp.2 fun h => (hd h).1
  unfold kPending
  rw [hwalks]
  exact if_neg (Bool.eq_false_iff.1 (Bool.or_eq_false_iff.2 ⟨hs4, hd9⟩))

/-- The core after a K command. -/
def Core.kEnter (c : Core) (f : KForm) (kind : CmdKind) : Core := (c.enqueue .k (c.capture .k kind (kOps f) 0 0)).raiseK

theorem kSlot_wait_none {f : KForm} {kind : CmdKind} {enc : List (Nat × Bool)} {check : Core → List (List (Bool × Cause))}
    {s : State} (hp : kPending s = none) (hq : s.core.cpy.queue.length < 16) (hc : s.core.cnt.k < 63) :
    (kSlot f kind enc check).wait s = none :=
  cmdSlot_wait_none (sl := .k) (enc := enc) (check := fun s => listedCause (check s.core)) (eff := fun c => c.kEnter f kind) hp hq hc

theorem kSlot_enters {i : Instr} {f : KForm} {kind : CmdKind} {enc : List (Nat × Bool)} {check : Core → List (List (Bool × Cause))}
    {s : State} (hm : slotSem i = some (kSlot f kind enc check)) (hgo : goK i s) (hc : ∀ g ∈ check s.core, ∀ e ∈ g, e.1 = true) :
    ∃ q, entered s.core q kind (kb f) 16 ∧ q.sh = s.core.hregs.get (field 0 4 (sg s.core 22) : BitVec 4).toFin ∧
      q.dh = s.core.hregs.get (field 5 4 (sg s.core 22) : BitVec 4).toFin ∧ exec i s = .next (kEntered s q) := by
  obtain ⟨hw, hi, hq, hcnt, hsrc, hdst⟩ := hgo
  exact ⟨s.core.capture .k kind (kOps f) 0 0, s.core.capture_entered .k .., rfl, rfl,
    exec_committed (g := fun c => c.kEnter f kind) hm hw rfl hi (kSlot_wait_none (kPending_none hsrc hdst) hq hcnt) rfl
      (listedCause_none hc) rfl rfl rfl rfl rfl⟩

/-! ### Matrix commands (R180 to R188) -/

theorem relChecks_of_relOk {c : Core} {sl : Slot} {n : Nat} {x : Word} (h : relOk c sl n x) :
    ∀ e ∈ relChecks sl n x c.gd.toList, e.1 = true := h

theorem mmaCheck_none {ops : BitVec 27} {c : Core} (hwf : (field 4 4 ops).toNat ≤ 3)
    (hfa : fmtV (c.fmt (field 15 4 ops)) = true) (hfb : fmtV (c.fmt (field 11 4 ops)) = true)
    (hex : exactBf16 (c.fmt (field 15 4 ops)) = true) (hst : fmtStore (c.fmt (field 15 4 ops)) = 16)
    (hb : bFormatOk (c.fmt (field 11 4 ops)) = true)
    (hsp : ops.getLsbD 9 = true → fmtStore (c.fmt (field 11 4 ops)) = 4 ∧ zeros (sg c 1) 6 58 ∧ (sg c 1).toNat % 64 ∈ [8, 16, 32])
    (hgx : ops.getLsbD 8 = true → fmtStore (c.fmt (field 11 4 ops)) = 4 ∧ ops.getLsbD 9 = false)
    (h0 : zeros (sg c 0) 13 51) (hp1 : 1 ≤ (sg c 0).toNat % 2 ^ 13) (hp2 : (sg c 0).toNat % 2 ^ 13 ≤ 4096)
    (hra : (c.rings.get (field 22 3 ops : BitVec 3).toFin).count ≠ 0) (hrb : (c.rings.get (field 19 3 ops : BitVec 3).toFin).count ≠ 0)
    (hne : (field 22 3 ops : BitVec 3) ≠ field 19 3 ops) (hsa : 2048 ≤ (c.rings.get (field 22 3 ops : BitVec 3).toFin).size * 128)
    (hsb : bBytes (c.fmt (field 11 4 ops)) (ops.getLsbD 9) (ops.getLsbD 8) ((sg c 1).toNat % 64) ≤
      (c.rings.get (field 19 3 ops : BitVec 3).toFin).size * 128) : mmaCheck ops c = none := by
  have hsp1 : (!ops.getLsbD 9 || fmtStore (c.fmt (field 11 4 ops)) == 4) = true := by
    cases h : ops.getLsbD 9 <;> simp_all
  have hsp2 : (!ops.getLsbD 9 || resv (sg c 1) 6 58) = true := by
    cases h : ops.getLsbD 9
    · rfl
    · obtain ⟨-, hz, -⟩ := hsp h
      exact resv_of_zeros hz
  have hsp3 : (!ops.getLsbD 9 || (sg c 1).toNat % 64 == 8 || (sg c 1).toNat % 64 == 16 || (sg c 1).toNat % 64 == 32) = true := by
    cases h : ops.getLsbD 9
    · rfl
    · obtain ⟨-, -, hn⟩ := hsp h
      simpa [or_assoc] using hn
  have hgx1 : (!ops.getLsbD 8 || (fmtStore (c.fmt (field 11 4 ops)) == 4 && !ops.getLsbD 9)) = true := by
    cases h : ops.getLsbD 8 <;> simp_all
  have hp : (field 0 13 (sg c 0)).toNat = (sg c 0).toNat % 2 ^ 13 := by simp
  have hn : (field 0 6 (sg c 1)).toNat = (sg c 1).toNat % 64 := by simp
  have hra' := bne_iff_ne.2 hra
  have hrb' := bne_iff_ne.2 hrb
  have hne' := bne_iff_ne.2 hne
  refine firstCause_none ?_
  simp only [Core.stgOf_m, hp, hn, List.forall_mem_cons, hra', hrb', hne', hsp1, hsp2, hsp3, hgx1, hfa, hfb, hex, hst,
    hb, resv_of_zeros h0, hp1, hp2, hsa, hsb, hwf]
  simp

theorem State.committed_congr {s : State} {g g' : Core → Core} (h : g s.core = g' s.core) : s.committed g = s.committed g' := by
  rw [State.committed, h, State.committed]

/-- An M command on an accumulator enters its queue and the accumulator's owner set. -/
theorem mCmd_enters {i : Instr} {op : Nat} {enc : List (Nat × Bool)} {check : Core → Option Cause} {kind : CmdKind} {ops : BitVec 27}
    {fa fb : BitVec 4} {a : BitVec 2} {ch : Bool} {s : State}
    (hm : slotSem i = some (mSlot op enc check (fun c => (c.enqueue .m (c.capture .m kind ops fa fb)).own a ch)))
    (hgo : goM i s) (hc : check s.core = none) :
    ∃ q, entered s.core q kind ops 0 ∧ q.fa = s.core.fmt fa ∧ q.fb = s.core.fmt fb ∧ exec i s = .next (mEntered s q a ch) := by
  refine ⟨s.core.capture .m kind ops fa fb, s.core.capture_entered .m .., rfl, rfl, 
    (mSlot_enters hm hgo hc ?_).trans ?_⟩
  · simp
  · refine congrArg _ (State.committed_congr ?_)
    simp only [Core.own, Core.raiseM, Core.enqueue]

theorem mepi_enters {f : MForm} {s : State} (hgo : goM (.mepi f) s) (hv : fmtV (s.core.fmt (field 15 4 f.ops)) = true)
    (hk : fmtKind (s.core.fmt (field 15 4 f.ops)) ≤ 4) (hst : 8 ≤ fmtStore (s.core.fmt (field 15 4 f.ops)))
    (h2 : zeros (sg s.core 2) 36 28) :
    ∃ q, entered s.core q .mepi f.ops 0 ∧ q.fa = s.core.fmt (field 15 4 f.ops) ∧
      exec (.mepi f) s = .next (mEntered s q (field 25 2 f.ops) false) := by
  have hw := hgo.1
  simp only [Instr.wf, Bool.and_eq_true, decide_eq_true_iff] at hw
  obtain ⟨⟨-, hr⟩, -⟩ := hw
  obtain ⟨q, hq, hfa, -, hex⟩ := mCmd_enters (i := .mepi f) rfl hgo (lowestCause_none (by
    simp only [List.forall_mem_cons, Core.stgOf_m, decide_eq_true hr, hv, decide_eq_true hk, decide_eq_true hst, resv_of_zeros h2]
    simp))
  exact ⟨q, hq, hfa, hex⟩

theorem msend_enters {f : MForm} {s : State} (hgo : goM (.msend f) s) (hc3 : (sg s.core 3).toNat / 2 ^ 10 % 4 ≠ 3)
    (h3 : zeros (sg s.core 3) 12 52) (h4 : zeros (sg s.core 4) 20 12) (h4' : zeros (sg s.core 4) 52 12)
    (hrel : (sg s.core 5).getLsbD 15 = true →
      relOk s.core .m 5 (sg s.core 5) ∧ zeros (sg s.core 5) 12 3 ∧ zeros (sg s.core 5) 24 40) :
    ∃ q, entered s.core q .msend f.ops 0 ∧ exec (.msend f) s = .next (mEntered s q (field 25 2 f.ops) false) := by
  have h3' : (field 10 2 (sg s.core 3) != 3) = true :=
    bne_iff_ne.2 fun h => hc3 (by rw [show 4 = 2 ^ 2 from rfl, ← field_toNat, h]; rfl)
  obtain ⟨q, hq, -, -, hex⟩ := mCmd_enters (i := .msend f) rfl hgo (lowestCause_none (by
    simp only [Core.stgOf_m, List.cons_append, List.nil_append, List.forall_mem_cons, h3', resv_of_zeros h3, resv_of_zeros h4,
      resv_of_zeros h4', true_and]
    split
    next h15 =>
      obtain ⟨hr, hz, hz'⟩ := hrel h15
      simp only [List.forall_mem_append, List.forall_mem_cons, resv_of_zeros hz, resv_of_zeros hz']
      exact ⟨hr, trivial, trivial, nofun⟩
    next => nofun))
  exact ⟨q, hq, hex⟩

theorem mred_enters {f : MForm} {s : State} (hgo : goM (.mred f) s) (h4 : zeros (sg s.core 4) 20 12)
    (h4' : zeros (sg s.core 4) 52 12) (h6 : zeros (sg s.core 6) 32 32) :
    ∃ q, entered s.core q .mred f.ops 0 ∧ exec (.mred f) s = .next (mEntered s q (field 25 2 f.ops) true) := by
  have hw := hgo.1
  simp only [Instr.wf, Bool.and_eq_true, decide_eq_true_iff] at hw
  have hr : (field 23 2 f.ops != 3) = true := bne_iff_ne.2 fun h => by
    have h3 : (field 23 2 f.ops).toNat = 3 := congrArg BitVec.toNat h
    omega
  obtain ⟨q, hq, -, -, hex⟩ := mCmd_enters (i := .mred f) rfl hgo (lowestCause_none (by
    simp only [Core.stgOf_m, List.forall_mem_cons, hr, resv_of_zeros h4, resv_of_zeros h4', resv_of_zeros h6]
    simp))
  exact ⟨q, hq, hex⟩

theorem mstat_enters {f : MForm} {s : State} (hgo : goM (.mstat f) s) :
    exec (.mstat f) s = .next (s.committed (fun c =>
      { (({ c with mat := { c.mat with queue := c.mat.queue ++ [s.core.capture .m .mstat f.ops 0 0] } } : Core).makePending
          (.s (field 21 6 f.ops))) with cnt := { c.cnt with m := c.cnt.m + 1 } })) := by
  refine (mSlot_enters (i := .mstat f) rfl hgo rfl (by simp)).trans ?_
  simp only [State.committed, Core.raiseM, Core.makePending_cnt]
  rfl

/-- Settles O28. -/
theorem matrixCommandsEnter : Obligations.MatrixCommandsEnter := by
  unfold Obligations.MatrixCommandsEnter
  refine ⟨?_, fun f s => mepi_enters, fun f s => msend_enters, fun f s => mred_enters, ?_,
    fun f s hgo => ⟨_, s.core.capture_entered .m .., mstat_enters hgo⟩⟩
  · intro f s hgo
    dsimp only
    intro hfa hfb hex hst hb hsp hgx h0 hp1 hp2 hra hrb hne hsa hsb
    obtain ⟨hwf, -⟩ : (field 4 4 f.ops).toNat ≤ 3 ∧ _ := by simpa only [Instr.wf, Bool.and_eq_true, decide_eq_true_iff] using hgo.1
    exact mCmd_enters (i := .mma f) rfl hgo (mmaCheck_none hwf hfa hfb hex hst hb hsp hgx h0 hp1 hp2 hra hrb hne hsa hsb)
  · intro f s hgo
    obtain ⟨q, hq, -, -, hex⟩ := mCmd_enters (i := .mclr f) rfl hgo rfl
    exact ⟨q, hq, hex⟩

/-! ### Copy commands (R189 to R197) -/

/-- What R190 checks of cx6, and of a command's own registers and ranges. -/
theorem kChecks_ok {sd dd cfg : Bool} {resvs ranges : List (Bool × Cause)} {c : Core} (h : cx6Ok c sd dd cfg)
    (hr : ∀ e ∈ resvs, e.1 = true) (hg : ∀ e ∈ ranges, e.1 = true) :
    ∀ g ∈ kChecks sd dd cfg resvs ranges c, ∀ e ∈ g, e.1 = true := by
  obtain ⟨hz, hsd, hdd, hcfg⟩ := h
  have bit {ok b : Bool} (hb : ok = false → b = false) : (ok || !b) = true := by
    cases ok
    · simp [hb rfl]
    · rfl
  simp only [kChecks, Core.stgOf_k, Nat.reduceAdd, List.forall_mem_cons, resv_of_zeros hz, bit hsd, bit hdd, bit hcfg, true_and]
  exact ⟨hr, ⟨nofun, nofun, hg, nofun⟩⟩

theorem kResv_ok {c : Core} (h : zeros (sg c 18) 48 16) : ∀ e ∈ kResv c, e.1 = true := by
  simp [kResv, resv_of_zeros h]

theorem field_bne_zero {x : Word} {lo n : Nat} (h : x.toNat / 2 ^ lo % 2 ^ n ≠ 0) : (field lo n x != 0) = true :=
  bne_iff_ne.2 fun e => h (by rw [← field_toNat, e]; rfl)

theorem kShape_ok {c : Core} (h : cx2Ok c) : ∀ e ∈ kShape c, e.1 = true := by
  obtain ⟨-, hn, hlo, hhi⟩ := h
  have hb : (field 0 32 (sg c 18)).toNat = (sg c 18).toNat % 2 ^ 32 := by simp
  simp only [kShape, Core.stgOf_k, Nat.reduceAdd, List.forall_mem_cons, field_bne_zero hn, hb, decide_eq_true hlo, decide_eq_true hhi]
  simp

/-- The commands that copy rows pass the checks of R190. -/
theorem kCopy_ok {sd dd : Bool} {c : Core} (h6 : cx6Ok c sd dd false) (h2 : cx2Ok c) :
    ∀ g ∈ kChecks sd dd false (kResv c) (kShape c) c, ∀ e ∈ g, e.1 = true :=
  kChecks_ok h6 (kResv_ok h2.1) (kShape_ok h2)

/-- A table of sixteen code lengths of at most 12 has none that is too long (R197). -/
theorem kdec_lengths {x : Word} (h : ∀ i < 16, x.toNat / 16 ^ i % 16 ≤ 12) :
    (List.range 16).find? (fun s => decide (12 < (field (4 * s) 4 x).toNat)) = none := by
  refine List.find?_eq_none.2 fun i hi => ?_
  have hl := h i (List.mem_range.1 hi)
  rw [field_toNat, Nat.pow_mul]
  simpa using hl

theorem kdec_ok {c : Core} (h6 : cx6Ok c true false false) (h2 : zeros (sg c 18) 48 16)
    (hn : (sg c 18).toNat / 2 ^ 32 % 2 ^ 16 = 1) (h7 : zeros (sg c 23) 20 44) (hc : (sg c 23).toNat % 2 ^ 20 ≠ 0)
    (hl : ∀ i < 16, (sg c 21).toNat / 16 ^ i % 16 ≤ 12) (hk : kdecFinal (sg c 21) = 8192) :
    ∀ g ∈ (kChecks true false false ((resv (c.stgOf .k 7) 20 44, stgBad .k 7 20) :: kResv c)
        [(field 32 16 (c.stgOf .k 2) == 1, stgBad .k 2 32), (field 0 20 (c.stgOf .k 7) != 0, stgBad .k 7 0)] c ++
      [[(((List.range 16).find? (fun s => decide (12 < (field (4 * s) 4 (c.stgOf .k 5)).toNat))).isNone,
          stgBad .k 5 (4 * ((List.range 16).find? (fun s => decide (12 < (field (4 * s) 4 (c.stgOf .k 5)).toNat))).getD 0))],
        [(kdecFinal (c.stgOf .k 5) == 8192, stgBad .k 5 0)]]), ∀ e ∈ g, e.1 = true := by
  have hone : (field 32 16 (sg c 18) == 1) = true := (field_beq (k := 1) (by decide)).trans (decide_eq_true hn)
  have hcount : (field 0 20 (sg c 23) != 0) = true := field_bne_zero (by simpa using hc)
  refine List.forall_mem_append.2 ⟨kChecks_ok h6 ?_ ?_, ?_⟩
  · exact List.forall_mem_cons.2 ⟨resv_of_zeros h7, kResv_ok h2⟩
  · simp only [Core.stgOf_k, Nat.reduceAdd, List.forall_mem_cons, hone, hcount]
    simp
  · exact List.forall_mem_cons.2 ⟨List.forall_mem_singleton.2 (Option.isNone_iff_eq_none.2 (kdec_lengths hl)),
      List.forall_mem_singleton.2 (List.forall_mem_singleton.2 (beq_iff_eq.2 hk))⟩

theorem sg_kEnter (c : Core) (f : KForm) (kind : CmdKind) (i : Nat) : sg (c.kEnter f kind) i = sg c i := rfl

/-- The core after a `kfill`: one that configures also sets its ring (R196). -/
def Core.kfillEnter (c : Core) (f : KForm) : Core := if c.cfg then (c.kEnter f .kfill).configureRing f.ring else c.kEnter f .kfill

theorem Core.configureRing_eq (c : Core) (g : BitVec 3) :
    c.configureRing g = { c with
      rings := c.rings.set g.toFin
        { fill := 0, tail := 0, head := 0, tags := Vector.replicate 64 0, count := (sg c 23).toNat / 2 ^ 32 % 128
          size := if (sg c 23).toNat / 2 ^ 32 % 128 = 0 then 0 else (sg c 23).toNat / 2 ^ 20 % 1024
          base := if (sg c 23).toNat / 2 ^ 32 % 128 = 0 then 0 else (sg c 23).toNat % 2 ^ 20 } } := by
  have hcount : (field 32 7 (sg c 23)).toNat = (sg c 23).toNat / 2 ^ 32 % 128 := field_toNat ..
  have hsize : (field 20 10 (sg c 23)).toNat = (sg c 23).toNat / 2 ^ 20 % 1024 := field_toNat ..
  have hbase : (field 0 20 (sg c 23)).toNat = (sg c 23).toNat % 2 ^ 20 := by simp
  rw [← hcount, ← hsize, ← hbase]
  rfl

theorem kfill_rows {i : KForm → Instr} (hi : i ∈ [Instr.kfill, Instr.kfillConfigure]) (f : KForm) :
    slotSem (i f) = some (kfillSlot f) ∧ ((i f).wf = true → f.swz.toNat ≤ 3) := by
  fin_cases hi <;> exact ⟨rfl, fun h => by simp_all [Instr.wf]⟩

theorem kfill_enters {i : Instr} {f : KForm} {s : State} (hm : slotSem i = some (kfillSlot f)) (hgo : goK i s)
    (hc : (if s.core.cfg then kfillCfgCheck f s.core else kfillCheck f s.core) = none) :
    exec i s = .next (s.committed (fun c => c.kfillEnter f)) := by
  obtain ⟨hw, hi, hq, hcnt, hsrc, hdst⟩ := hgo
  refine exec_committed hm hw rfl hi ?_ rfl hc rfl ?_ rfl rfl rfl
  · exact cmdSlot_wait_none (sl := .k) (enc := [(40, f.ops == 0)]) (eff := fun c => c.kfillEnter f)
      (check := fun s => if s.core.cfg then kfillCfgCheck f s.core else kfillCheck f s.core) (kPending_none hsrc hdst) hq hcnt
  · unfold Core.kfillEnter
    split <;> rfl

theorem kfillCheck_none {f : KForm} {c : Core} (hs : f.swz.toNat ≤ 3) (h6 : cx6Ok c true false true) (h2 : cx2Ok c)
    (hr : (c.rings.get f.ring.toFin).count ≠ 0)
    (hfit : (sg c 18).toNat / 2 ^ 32 % 2 ^ 16 * ((sg c 18).toNat % 2 ^ 32) ≤ (c.rings.get f.ring.toFin).size * 128) :
    kfillCheck f c = none := by
  have hfit' : (field 32 16 (sg c 18)).toNat * (field 0 32 (sg c 18)).toNat ≤ (c.rings.get f.ring.toFin).size * 128 := by
    rw [field_toNat, field_toNat]
    simpa using hfit
  refine listedCause_none (List.forall_mem_cons.2 ⟨?_, List.forall_mem_append.2 ⟨kChecks_ok h6 (kResv_ok h2.1) (kShape_ok h2), ?_⟩⟩)
  · simp [hs]
  · exact List.forall_mem_singleton.2 (List.forall_mem_singleton.2
      (Bool.and_eq_true_iff.2 ⟨bne_iff_ne.2 hr, decide_eq_true hfit'⟩))

/-- The geometry that cx7 names, as R196 admits it. -/
theorem kfillCfgCheck_none {f : KForm} {c : Core} (hs : f.swz.toNat ≤ 3) (h6 : cx6Ok c true false true)
    (h39 : zeros (sg c 23) 39 25) (h30 : zeros (sg c 23) 30 2)
    (hgeo : (sg c 23).toNat / 2 ^ 32 % 128 ≠ 0 → 1 ≤ (sg c 23).toNat / 2 ^ 20 % 1024 ∧ (sg c 23).toNat / 2 ^ 20 % 1024 ≤ 512 ∧
      (sg c 23).toNat / 2 ^ 32 % 128 ≤ 64 ∧ (sg c 23).toNat % 128 = 0 ∧
      (sg c 23).toNat % 2 ^ 20 + (sg c 23).toNat / 2 ^ 20 % 1024 * 128 * ((sg c 23).toNat / 2 ^ 32 % 128) ≤ c.spend)
    (hfill : (c.rings.get f.ring.toFin).fill = 0) (hbusy : c.ringBusy f.ring = false) : kfillCfgCheck f c = none := by
  have hcount : (field 32 7 (sg c 23)).toNat = (sg c 23).toNat / 2 ^ 32 % 128 := field_toNat ..
  have hsize : (field 20 10 (sg c 23)).toNat = (sg c 23).toNat / 2 ^ 20 % 1024 := field_toNat ..
  have hbase : (field 0 20 (sg c 23)).toNat = (sg c 23).toNat % 2 ^ 20 := by simp
  refine listedCause_none (List.forall_mem_cons.2 ⟨?_, List.forall_mem_append.2 ⟨kChecks_ok h6 ?_ nofun, ?_⟩⟩)
  · simp [hs]
  · simp only [Core.stgOf_k, Nat.reduceAdd, List.forall_mem_cons, resv_of_zeros h39, resv_of_zeros h30]
    simp
  · simp only [Core.stgOf_k, Nat.reduceAdd, List.forall_mem_cons, hfill, hbusy, hcount, hsize, hbase]
    refine ⟨⟨rfl, nofun⟩, ?_, nofun⟩
    split
    next => nofun
    next hne =>
      obtain ⟨h1, h512, h64, hal, hend⟩ := hgeo hne
      have hal' : (sg c 23).toNat % 2 ^ 20 % 128 = 0 := by omega
      rw [firstCause_none]
      · nofun
      · simp only [List.forall_mem_cons, decide_eq_true hal', decide_eq_true hend, decide_eq_true h64, decide_eq_true (And.intro h1 h512)]
        simp

/-- Settles O29. -/
theorem copyCommandsEnter : Obligations.CopyCommandsEnter := by
  unfold Obligations.CopyCommandsEnter
  refine ⟨?_, ?_, ?_, ?_, ?_, ?_, ?_⟩
  · intro f s hgo h6 h2
    exact kSlot_enters (i := .kcpy f) rfl hgo (kCopy_ok h6 h2)
  · intro f s hgo h6 h2
    obtain ⟨q, hq, -, -, hex⟩ := kSlot_enters (i := .kput f) rfl hgo (kCopy_ok h6 h2)
    exact ⟨q, hq, hex⟩
  · intro f s hgo h6 h2
    obtain ⟨q, hq, -, -, hex⟩ := kSlot_enters (i := .kloc f) rfl hgo (kCopy_ok h6 h2)
    exact ⟨q, hq, hex⟩
  · intro f s hgo h6 h2
    obtain ⟨q, hq, -, -, hex⟩ := kSlot_enters (i := .kzero f) rfl hgo (kCopy_ok h6 h2)
    exact ⟨q, hq, hex⟩
  · intro f s hgo h6 h2 hn h7 hc hl hk
    obtain ⟨q, hq, -, -, hex⟩ := kSlot_enters (i := .kdec f) rfl hgo (kdec_ok h6 h2 hn h7 hc hl hk)
    exact ⟨q, hq, hex⟩
  · intro i hi f s hgo h6 hcfg h2 hr hfit
    obtain ⟨hm, hswz⟩ := kfill_rows hi f
    have hcfg' : s.core.cfg = false := hcfg
    refine ⟨s.core.capture .k .kfill (kOps f) 0 0, s.core.capture_entered .k .., ?_⟩
    rw [kfill_enters hm hgo (by rw [hcfg']; exact kfillCheck_none (hswz hgo.1) h6 h2 hr hfit)]
    refine congrArg _ (State.committed_congr ?_)
    simp only [Core.kfillEnter, hcfg', Core.kEnter, Core.raiseK, Core.enqueue]
    rfl
  · intro i hi f s hgo h6 hcfg
    dsimp only
    intro h39 h30 hgeo hfill hbusy
    obtain ⟨hm, hswz⟩ := kfill_rows hi f
    have hcfg' : s.core.cfg = true := hcfg
    refine ⟨s.core.capture .k .kfill (kOps f) 0 0, s.core.capture_entered .k .., ?_⟩
    rw [kfill_enters hm hgo (by rw [hcfg']; exact kfillCfgCheck_none (hswz hgo.1) h6 h39 h30 hgeo hfill hbusy)]
    refine congrArg _ (State.committed_congr ?_)
    simp only [Core.kfillEnter, hcfg', if_true, Core.configureRing_eq, sg_kEnter]
    simp only [Core.kEnter, Core.raiseK, Core.enqueue]
    rfl

/-! ### Channel commands (R198 to R206) -/

theorem sendResv_ok {f : NForm} {c : Core} (h : sendOk f c) : ∀ e ∈ nSendResv f c, e.1 = true := by
  obtain ⟨h0, h1, -, -, h6, hA⟩ := h
  have hA' : resv (sg c (32 + (8 + f.aws.toNat))) 20 43 = true := by
    rw [← Nat.add_assoc]
    exact resv_of_zeros hA
  simp only [nSendResv, nLaddr, nAw, Core.stgOf_n, Nat.reduceAdd, List.forall_mem_cons, resv_of_zeros h0, resv_of_zeros h1,
    resv_of_zeros h6, hA']
  simp

theorem sendBytes_ok {f : NForm} {c : Core} (h : sendOk f c) : ∀ e ∈ nSendBytes c, e.1 = true := by
  obtain ⟨-, -, hlo, hhi, -, -⟩ := h
  have hb : (field 0 32 (sg c 33)).toNat = (sg c 33).toNat % 2 ^ 32 := by simp
  simp only [nSendBytes, Core.stgOf_n, Nat.reduceAdd, hb, List.forall_mem_singleton, decide_eq_true hlo, decide_eq_true hhi]
  simp

theorem nAwRequired_ok {f : NForm} {c : Core} (h : (sg c (40 + f.aws.toNat)).getLsbD 63 = true) : (nAwRequired f c).1 = true := by
  rw [nAwRequired, nAw, Core.stgOf_n, ← Nat.add_assoc]
  exact h

theorem nQid_ok {c : Core} (h : (sg c 36).toNat < 131072) : (nQid c).1 = true := decide_eq_true h

/-- An N command with nothing to do behind its enqueue enters. -/
theorem nCmd_enters {i : Instr} {f : NForm} {kind : CmdKind} {counts : Bool} {enc : List (Nat × Bool)}
    {check : Core → List (List (Bool × Cause))} {s : State} (hm : slotSem i = some (nSlot f kind counts enc check))
    (hgo : goN i s counts) (hc : ∀ g ∈ check s.core, ∀ e ∈ g, e.1 = true) :
    ∃ q, entered s.core q kind (nb f) 32 ∧ exec i s = .next (nEntered s q counts) := by
  refine ⟨s.core.capture .n kind (nOps f) 0 0, s.core.capture_entered .n .., (nSlot_enters hm hgo hc fun _ => rfl).trans ?_⟩
  refine congrArg _ (State.committed_congr ?_)
  cases counts <;> simp only [Core.enqueue, Core.raiseN] <;> rfl

/-! #### What an `npop` makes pending (R206) -/

theorem Core.isPending_makePending {c : Core} {r q : PReg} :
    (c.makePending r).isPending q = true ↔ c.isPending q = true ∨ (r = q ∧ q ≠ .s 0 ∧ q ≠ .p 0) := by
  unfold Core.makePending Core.isPending
  split
  next h =>
    refine ⟨.inl, fun h' => h'.elim id ?_⟩
    rintro ⟨rfl, hs, hp⟩
    exact absurd h (not_or.2 ⟨hs, hp⟩)
  next h =>
    obtain ⟨hs, hp⟩ := not_or.1 h
    by_cases hrq : r = q
    · subst hrq
      exact iff_of_true (by simp) (.inr ⟨rfl, hs, hp⟩)
    · have hfilter : (c.pend.filter (fun e => e.1 != r)).any (fun e => e.1 == q) = c.pend.any (fun e => e.1 == q) := by
        rw [List.any_filter]
        congr 1
        funext e
        by_cases he : e.1 = q
        · simp [he, Ne.symm hrq]
        · simp [he]
      simp [hrq, hfilter]

/-- Registers made pending change nothing but what is pending. -/
theorem Core.makePending_eq (c : Core) (r : PReg) : ∃ p, c.makePending r = { c with pend := p } := by
  unfold Core.makePending
  split
  · exact ⟨c.pend, rfl⟩
  · exact ⟨_, rfl⟩

theorem Core.makeAllPending_eq {α : Type} (reg : α → PReg) (l : List α) (c : Core) :
    ∃ p, l.foldl (fun d i => d.makePending (reg i)) c = { c with pend := p } := by
  induction l generalizing c with
  | nil => exact ⟨c.pend, rfl⟩
  | cons i l ih =>
    obtain ⟨p, hp⟩ := c.makePending_eq (reg i)
    obtain ⟨q, hq⟩ := ih (c.makePending (reg i))
    exact ⟨q, by rw [List.foldl_cons, hq, hp]⟩

theorem Core.isPending_makeAllPending {α : Type} (reg : α → PReg) (l : List α) (c : Core) (q : PReg) :
    (l.foldl (fun d i => d.makePending (reg i)) c).isPending q = true ↔
      c.isPending q = true ∨ ∃ i ∈ l, reg i = q ∧ q ≠ .s 0 ∧ q ≠ .p 0 := by
  induction l generalizing c with
  | nil => simp
  | cons i l ih => simp [ih, Core.isPending_makePending, or_assoc]

/-- What the end of a bundle leaves as its effects made it. -/
theorem Core.issuedFrom_keeps (c d : Core) (plain : Bool) :
    (c.issuedFrom d plain).pend = d.pend ∧ (c.issuedFrom d plain).cnt = d.cnt ∧ (c.issuedFrom d plain).chn = d.chn ∧
      (c.issuedFrom d plain).sregs = d.sregs ∧ (c.issuedFrom d plain).pregs = d.pregs ∧ (c.issuedFrom d plain).spad = d.spad := by
  unfold Core.issuedFrom Core.finish
  dsimp only
  split <;> exact ⟨rfl, rfl, rfl, rfl, rfl, rfl⟩

/-- The registers that an `npop` makes pending: s56 to s63 and its predicate (R206). -/
def Core.popPending (c : Core) (f : NForm) : Core :=
  ((List.range 8).foldl (fun d i => d.makePending (.s (BitVec.ofNat 6 (56 + i)))) c).makePending (.p (field 9 3 f.ops))

theorem Core.popPending_eq (c : Core) (f : NForm) : ∃ p, c.popPending f = { c with pend := p } := by
  obtain ⟨p, hp⟩ := c.makeAllPending_eq (fun i => PReg.s (BitVec.ofNat 6 (56 + i))) (List.range 8)
  obtain ⟨q, hq⟩ := Core.makePending_eq { c with pend := p } (.p (field 9 3 f.ops))
  exact ⟨q, by rw [Core.popPending, hp, hq]⟩

theorem Core.popPending_s (c : Core) (f : NForm) {i : Nat} (hi : i < 8) :
    (c.popPending f).isPending (.s (BitVec.ofNat 6 (56 + i))) = true := by
  have hne : BitVec.ofNat 6 (56 + i) ≠ 0 := fun h => by
    have h0 : (BitVec.ofNat 6 (56 + i)).toNat = 0 := congrArg BitVec.toNat h
    rw [BitVec.toNat_ofNat, Nat.mod_eq_of_lt (by omega)] at h0
    omega
  exact Core.isPending_makePending.2 (.inl ((Core.isPending_makeAllPending _ _ _ _).2
    (.inr ⟨i, List.mem_range.2 hi, rfl, fun e => hne (PReg.s.inj e), nofun⟩)))

theorem Core.popPending_p (c : Core) {f : NForm} (h : field 9 3 f.ops ≠ (0 : BitVec 3)) :
    (c.popPending f).isPending (.p (field 9 3 f.ops)) = true :=
  Core.isPending_makePending.2 (.inr ⟨rfl, nofun, fun e => h (PReg.p.inj e)⟩)

theorem npop_enters {f : NForm} {s : State} (hgo : goN (.npop f) s false) (hq : (sg s.core 36).toNat < 131072) :
    exec (.npop f) s = .next (s.committed (fun c => (c.enqueue .n (c.capture .n .npop (nOps f) 0 0)).popPending f)) := by
  have hw := hgo.1
  simp only [Instr.wf, Bool.and_eq_true, decide_eq_true_iff] at hw
  obtain ⟨⟨-, hpm⟩, -⟩ := hw
  have hm : slotSem (.npop f) = some (nSlot f .npop false (nNoCh f ++ [(8, field 0 9 f.ops == 0)])
      (fun c => [[(decide (f.pm.toNat ≤ 1), badField .n 20)], [nQid c]]) (fun c => c.popPending f)) := rfl
  refine (nSlot_enters hm hgo ?_ fun c => ?_).trans (congrArg _ (State.committed_congr ?_))
  · exact List.forall_mem_cons.2 ⟨List.forall_mem_singleton.2 (decide_eq_true hpm),
      List.forall_mem_singleton.2 (List.forall_mem_singleton.2 (nQid_ok hq))⟩
  · obtain ⟨p, hp⟩ := c.popPending_eq f
    rw [hp]
  · simp only [Bool.false_eq_true, if_false]

/-- Settles O30. -/
theorem channelCommandsEnter : Obligations.ChannelCommandsEnter := by
  unfold Obligations.ChannelCommandsEnter
  refine ⟨?_, ?_, ?_, ?_, ?_, ?_, ?_, ?_, ?_⟩
  · intro f s hgo hs
    refine nCmd_enters (i := .nsend f) rfl hgo ?_
    exact List.forall_mem_cons.2 ⟨sendResv_ok hs, List.forall_mem_singleton.2 (sendBytes_ok hs)⟩
  · intro f s hgo hs h2 h3
    refine nCmd_enters (i := .nsendt f) rfl hgo ?_
    refine List.forall_mem_cons.2 ⟨List.forall_mem_append.2 ⟨sendResv_ok hs, ?_⟩, List.forall_mem_singleton.2 (sendBytes_ok hs)⟩
    exact List.forall_mem_cons.2 ⟨resv_of_zeros h2, List.forall_mem_singleton.2 (resv_of_zeros h3)⟩
  · intro f s hgo hs hen
    refine nCmd_enters (i := .nrot f) rfl hgo ?_
    exact List.forall_mem_cons.2 ⟨sendResv_ok hs, List.forall_mem_cons.2 ⟨List.forall_mem_singleton.2 (nAwRequired_ok hen),
      List.forall_mem_singleton.2 (sendBytes_ok hs)⟩⟩
  · intro f s hgo hs hr h12 h24
    refine nCmd_enters (i := .ngsend f) rfl hgo ?_
    refine List.forall_mem_cons.2 ⟨List.forall_mem_append.2 ⟨sendResv_ok hs, ?_⟩,
      List.forall_mem_cons.2 ⟨hr, List.forall_mem_singleton.2 (sendBytes_ok hs)⟩⟩
    exact List.forall_mem_cons.2 ⟨resv_of_zeros h12, List.forall_mem_singleton.2 (resv_of_zeros h24)⟩
  · intro f s hgo h0 h1 hb hA
    refine nCmd_enters (i := .npost f) rfl hgo ?_
    have hn : (field 0 32 (sg s.core 33)).toNat = (sg s.core 33).toNat % 2 ^ 32 := by simp
    have hA' : field 0 32 (sg s.core 33) ≠ (0 : BitVec 32) → (nAwRequired f s.core).1 = true ∧
        resv (s.core.stgOf .n (nAw f)) 20 43 = true := fun hne => by
      obtain ⟨hen, hz⟩ := hA fun h => hne (BitVec.eq_of_toNat_eq (hn.trans h))
      refine ⟨nAwRequired_ok hen, ?_⟩
      rw [nAw, Core.stgOf_n, ← Nat.add_assoc]
      exact resv_of_zeros hz
    have hb' : (field 0 32 (sg s.core 33)).toNat ≤ 0xC0000 := by rwa [hn]
    have himp {b : Bool} (h : field 0 32 (sg s.core 33) ≠ (0 : BitVec 32) → b = true) :
        (!(field 0 32 (sg s.core 33) != 0) || b) = true := by
      by_cases hne : field 0 32 (sg s.core 33) = (0 : BitVec 32)
      · rw [hne]
        rfl
      · simp [h hne]
    refine List.forall_mem_cons.2 ⟨List.forall_mem_cons.2 ⟨resv_of_zeros h0, List.forall_mem_cons.2 ⟨resv_of_zeros h1,
      List.forall_mem_singleton.2 (himp fun h => (hA' h).2)⟩⟩, List.forall_mem_cons.2 ⟨?_, ?_⟩⟩
    · exact List.forall_mem_singleton.2 (himp fun h => (hA' h).1)
    · exact List.forall_mem_singleton.2 (List.forall_mem_singleton.2 (decide_eq_true hb'))
  · intro f s hgo h0 hq
    refine nCmd_enters (i := .npush f) rfl hgo ?_
    exact List.forall_mem_cons.2 ⟨List.forall_mem_singleton.2 (nQid_ok hq),
      List.forall_mem_singleton.2 (List.forall_mem_singleton.2 (resv_of_zeros h0))⟩
  · intro f s hgo hq
    exact nCmd_enters (i := .nclose f) rfl hgo (List.forall_mem_singleton.2 (List.forall_mem_singleton.2 (nQid_ok hq)))
  · intro f s hgo
    exact nCmd_enters (i := .ndisarm f) rfl hgo nofun
  · intro f s hgo hq
    obtain ⟨p, hp⟩ := Core.popPending_eq (s.core.enqueue .n (s.core.capture .n .npop (nOps f) 0 0)) f
    obtain ⟨hpend, hcnt, hchn, hs, hpr, hsp⟩ :=
      s.core.issuedFrom_keeps ((s.core.enqueue .n (s.core.capture .n .npop (nOps f) 0 0)).popPending f) false
    refine ⟨_, _, s.core.capture_entered .n .npop (nOps f) 0 0, npop_enters hgo hq, ?_, ?_, ?_, ?_, ?_, ?_, ?_⟩
    all_goals rw [State.committed, State.setCore_core]
    · rw [hchn, hp]; rfl
    · rw [hcnt, hp]; rfl
    · intro i hi
      rw [Core.isPending, hpend]
      exact Core.popPending_s _ f hi
    · intro h9
      rw [Core.isPending, hpend]
      exact Core.popPending_p _ h9
    · rw [hs, hp]; rfl
    · rw [hpr, hp]; rfl
    · rw [hsp, hp]; rfl

end Sys2Proof.Machine
end

section
/-! The preparation of a gang's members over a scratchpad that is not in canonical form (O44). -/

namespace Sys2Proof.Machine

open Sys2Proof.Claims

/-- A scratchpad out of canonical form: byte 5 stands behind byte 4000, so reading does not find it. -/
def disorderedPad : Mem := [(4000, 1), (5, 9)]

/-- Tile 0 with that scratchpad, in cycle 3. -/
def disorderedTile : State := { State.reset with cycle := 3, cores := [(0, { Core.fresh 0 with spad := disorderedPad })] }

/-- A launch granted in cycle 0 that starts in cycle 352. -/
def earlyLaunch : Launch :=
  { id := 0, qid := 0, ctx := 0, image := 0, looptab := 0, geom := 0, deps := [], args := [], bad := 0, st := .starting
    headAt := 0, stale := false, firsts := 0, ox := 0, oy := 0, behind := false, placedAt := 0, loaded := true, loadedAt := 0
    hold := false, grant := 0, startAt := 352, cost := 0, data := [], dataAddr := 0, tokens := [(0, 0)] }

/-- In that cycle word 1 of every bank is cleared, and byte 4000 with it. -/
theorem prepareMember_disorderedTile :
    ((disorderedTile.prepareMember earlyLaunch 0 0).coreAt 0).spad = [(5, 9)] := by
  rw [State.prepareMember, State.putCore_coreAt]
  rfl

/-- Refutes O44: the clearing of words 3072 to 6143 lets byte 5 be read, where the statement, which does not ask for a scratchpad in
canonical form there, has it read as before. -/
theorem not_gangsAndBarriers : ¬ Obligations.GangsAndBarriers := by
  unfold Obligations.GangsAndBarriers
  rintro ⟨-, -, -, hprepare, -⟩
  have hclear := (hprepare disorderedTile earlyLaunch 0 0 (by decide) (by decide)).2 1 (by decide) rfl 5
  rw [prepareMember_disorderedTile] at hclear
  exact absurd hclear (by decide)

end Sys2Proof.Machine
end

section
/-! The cycles of a strand and what its boundaries bring (O42): issue. -/

namespace Sys2Proof.Machine

open Sys2Proof.Claims

/-! ### Every instruction that a slot decodes to is a slot's -/

/-- What a slot holds has a meaning as a slot, when it is an instruction. -/
def HasSem (r : SlotRead) : Prop := ∀ i, r = .instr i → ∃ m, slotSem i = some m

theorem hasSem_instr {i : Instr} {m : SlotSem} (h : slotSem i = some m) : HasSem (.instr i) := by
  rintro _ ⟨⟩
  exact ⟨m, h⟩

theorem hasSem_reserved (op : Nat) : HasSem (.reserved op) := fun _ h => nomatch h

theorem hasSem_zero (b : Bool) : HasSem (if b then .nop else .badZero) := by
  cases b <;> exact fun _ h => nomatch h

theorem decodeS_hasSem (s1 : Bool) (w : BitVec 48) : HasSem (decodeS s1 w) := by
  unfold decodeS
  split
  case h_1 => exact hasSem_zero _
  case h_84 => exact hasSem_reserved _
  all_goals exact hasSem_instr rfl

theorem decodeC_hasSem (w : BitVec 32) : HasSem (decodeC w) := by
  unfold decodeC
  split
  case h_1 => exact hasSem_zero _
  case h_16 => exact hasSem_reserved _
  all_goals exact hasSem_instr rfl

theorem decodeV_hasSem (w : BitVec 64) : HasSem (decodeV w) := by
  unfold decodeV
  split
  case h_1 => exact hasSem_zero _
  case h_73 => exact hasSem_reserved _
  case h_56 => split <;> exact hasSem_instr rfl
  all_goals exact hasSem_instr rfl

theorem decodeL_hasSem (w : BitVec 48) : HasSem (decodeL w) := by
  unfold decodeL
  split
  case h_1 => exact hasSem_zero _
  case h_41 => exact hasSem_reserved _
  all_goals exact hasSem_instr rfl

theorem decodeZ_hasSem (w : BitVec 24) : HasSem (decodeZ w) := by
  unfold decodeZ
  split
  case h_1 => exact hasSem_zero _
  case h_7 => exact hasSem_reserved _
  all_goals exact hasSem_instr rfl

theorem decodeM_hasSem (w : BitVec 32) : HasSem (decodeM w) := by
  unfold decodeM
  split
  case h_1 => exact hasSem_zero _
  case h_8 => exact hasSem_reserved _
  all_goals exact hasSem_instr rfl

theorem decodeK_hasSem (w : BitVec 32) : HasSem (decodeK w) := by
  unfold decodeK
  split
  case h_1 => exact hasSem_zero _
  case h_8 => exact hasSem_reserved _
  all_goals exact hasSem_instr rfl

theorem decodeN_hasSem (w : BitVec 32) : HasSem (decodeN w) := by
  unfold decodeN
  split
  case h_1 => exact hasSem_zero _
  case h_11 => exact hasSem_reserved _
  all_goals exact hasSem_instr rfl

theorem decodeBundle_hasSem (b : Bundle) : ∀ p ∈ decodeBundle b, HasSem p.2 := by
  simp only [decodeBundle, List.forall_mem_cons]
  exact ⟨decodeS_hasSem _ _, decodeS_hasSem _ _, decodeC_hasSem _, decodeV_hasSem _, decodeL_hasSem _, decodeZ_hasSem _,
    decodeM_hasSem _, decodeK_hasSem _, decodeN_hasSem _, fun _ h => nomatch h⟩

/-! ### A bundle that holds one instruction -/

/-- A slot holds nothing, or an instruction. -/
def SoundRead : SlotRead → Prop
  | .nop | .instr _ => True
  | .badZero | .reserved _ => False

/-- The slots of a bundle that decoding does not refuse are those of its instructions. -/
theorem bundleSems_eq {b : Bundle} (h : ∀ p ∈ decodeBundle b, SoundRead p.2) : bundleSems b = (bundleInstrs b).filterMap slotSem := by
  rw [bundleSems, bundleInstrs, List.filterMap_filterMap]
  refine List.filterMap_congr fun p hp => ?_
  obtain ⟨sl, r⟩ := p
  have hr := h _ hp
  cases r
  case nop | instr i => rfl
  case badZero | reserved op => exact hr.elim

theorem exists_slotSem_of_mem {b : Bundle} {i : Instr} (h : i ∈ bundleInstrs b) : ∃ m, slotSem i = some m := by
  obtain ⟨p, hp, hi⟩ := List.mem_filterMap.1 h
  refine decodeBundle_hasSem b p hp i ?_
  split at hi
  next hr => exact hr.trans (congrArg _ (Option.some.inj hi))
  next => nomatch hi

/-- A bundle word that decodes to an instruction of a slot holds it alone, under a zero header (R61, R71). -/
theorem bundleSems_of_decodes {w : BundleWord} {i : Instr} (h : decodeTableWord 384 w.toNat = some i)
    (hi : ∀ t, i ≠ .bundleIssue t) :
    (splitBundle w).h = 0 ∧ (splitBundle w).low = 0 ∧ ∃ m, slotSem i = some m ∧ bundleSems (splitBundle w) = [m] := by
  unfold decodeTableWord at h
  rw [BitVec.ofNat_toNat, BitVec.setWidth_eq] at h
  dsimp only at h
  split at h
  next => nomatch h
  next hok =>
    simp only [Bool.or_eq_true, bne_iff_ne, List.any_eq_true, not_or, not_exists, not_and, ne_eq, not_not] at hok
    obtain ⟨⟨hh, hlow⟩, hall⟩ := hok
    have hsound : ∀ p ∈ decodeBundle (splitBundle w), SoundRead p.2 := fun p hp => by
      have hp := hall p hp
      obtain ⟨sl, r⟩ := p
      cases r
      case nop | instr i => trivial
      case badZero | reserved op => exact absurd rfl hp
    split at h
    next j hj =>
      cases h
      obtain ⟨m, hm⟩ := exists_slotSem_of_mem (b := splitBundle w) (i := i) (by simp [hj])
      exact ⟨hh, hlow, m, hm, by rw [bundleSems_eq hsound, hj]; simp [hm]⟩
    next => exact absurd (Option.some.inj h).symm (hi 0)

/-! ### Fetch -/

theorem packFrom_congr {w : Nat} {g g' : Nat → Nat} : ∀ {n i : Nat}, (∀ j, i ≤ j → j < i + n → g j = g' j) →
    packFrom w g n i = packFrom w g' n i
  | 0, _, _ => rfl
  | n + 1, i, h => by
    rw [packFrom, packFrom, h i (le_refl i) (by omega), packFrom_congr fun j hj hn => h j (by omega) (by omega)]

/-- The pieces of a number, packed, are the number. -/
theorem packFrom_pieces (w x : Nat) : ∀ n i : Nat, packFrom w (fun j => x / 2 ^ (w * j) % 2 ^ w) n i = x / 2 ^ (w * i) % 2 ^ (w * n)
  | 0, i => by simp [packFrom, Nat.mod_one]
  | n + 1, i => by
    rw [packFrom, packFrom_pieces w x n (i + 1), Nat.mod_mod, Nat.mul_succ w i, Nat.pow_add, ← Nat.div_div_eq_div_mul, Nat.mul_succ w n,
      Nat.add_comm (w * n), Nat.pow_add 2 w, Nat.mod_mul]

theorem Core.fetch_of_codeHolds {c : Core} {w : BundleWord} (h : codeHolds c w) : c.fetch = .inl w := by
  obtain ⟨hlit, hw⟩ | ⟨hlt, hn, hw⟩ := h
  · have hpack : packFrom 16 (fun j => (c.plane.half (c.pc + 1 + BitVec.ofNat 13 j)).toNat) 24 0 = w.toNat := by
      rw [packFrom_congr (g' := fun j => w.toNat / 2 ^ (16 * j) % 2 ^ 16) fun j _ hj => by rw [hw j (by omega), field_toNat],
        packFrom_pieces, Nat.mul_zero, Nat.pow_zero, Nat.div_one, Nat.mod_eq_of_lt w.isLt]
    simp only [Core.fetch, hlit, if_true, hpack, BitVec.ofNat_toNat, BitVec.setWidth_eq]
  · have hne : c.plane.half c.pc ≠ 0xFFFF := fun e => by rw [e] at hlt; exact absurd hlt (by decide)
    simp only [Core.fetch, hne, if_false, hlt, hn, and_self, if_true, hw]

/-- A bundle under a zero header at a boundary that no taken branch led to raises no cause of its own (R25). -/
theorem Core.bundleCause_none {c : Core} {w : BundleWord} (hp : c.pcFrom = none) (hf : c.fetch = .inl w) (hh : (splitBundle w).h = 0)
    (hl : (splitBundle w).low = 0) : c.bundleCause = none := by
  simp [Core.bundleCause, hp, hf, hh, hl]

/-! ### A cycle of a strand -/

/-- A running strand that nothing stops, at a boundary (R63, R327). -/
theorem State.runCycle_going {s : State} (hf : s.core.frozen = false) (hg : s.core.gate ≤ s.cycle) (he : s.core.eretDrain = false) :
    s.runCycle = if 0 < s.core.stall then
        (if s.issueFrozen then s else s.setCore ({ s.core with stall := s.core.stall - 1 } : Core).countDown)
      else if s.core.haltReq && !s.core.haltNew && !s.core.underPB then s.setCore s.core.saveStop
      else s.issueDue := by
  have hg' : ¬ s.cycle < s.core.gate := by omega
  simp [State.runCycle, hf, he, hg']

theorem State.bundleCycle_running {s : State} (h : s.core.strand = .running) : s.bundleCycle = s.runCycle := by
  simp [State.bundleCycle, h]

/-- What the bundle that is due holds, when it holds one instruction. -/
theorem dueAlone_sems {s : State} {i : Instr} (h : dueAlone s i) :
    ∃ w m, s.core.fetch = .inl w ∧ s.core.bundleCause = none ∧ headerOf (splitBundle w).h = Header.zero ∧
      bundleSems (splitBundle w) = [m] ∧ slotSem i = some m := by
  obtain ⟨-, -, -, -, -, -, hp, hi, w, hw, hd⟩ := h
  obtain ⟨hh, hl, m, hm, hs⟩ := bundleSems_of_decodes hd hi
  have hf := Core.fetch_of_codeHolds hw
  exact ⟨w, m, hf, Core.bundleCause_none hp hf hh hl, by rw [hh]; rfl, hs, hm⟩

theorem bundleCycle_dueAlone {s : State} {i : Instr} (h : dueAlone s i) : exec i s = .next s.bundleCycle := by
  obtain ⟨w, m, hf, hc, hh, hs, hm⟩ := dueAlone_sems h
  obtain ⟨hrun, hfr, hg, he, hst, hreq, -⟩ := h
  obtain ⟨-, hex⟩ := exec_of_slotSem hm
  rw [hex, State.bundleCycle_running hrun, State.runCycle_going hfr hg he, hst, hreq]
  simp only [State.issueDue, hc, hf, hh, hs, State.issueOne, Nat.lt_irrefl, if_false, Bool.false_and, Bool.false_eq_true]

theorem exec_bundleIssue (t : Nat) (s : State) : exec (.bundleIssue t) s = .next (banked s t (s.at t).bundleCycle) := rfl

/-- BUNDLE_ISSUE: a due bundle, STALL, bundle causes (R17, R18, R24, R61, R63, R413). -/
theorem bundleIssue_running (s : State) (t : Nat) (hrun : (s.coreAt t).strand = .running) (hfr : (s.coreAt t).frozen = false)
    (hg : (s.coreAt t).gate ≤ s.cycle) (he : (s.coreAt t).eretDrain = false) :
    (0 < (s.coreAt t).stall → (s.at t).issueFrozen = false → exec (.bundleIssue t) s =
      .next (banked s t ((s.at t).setCore ({ s.coreAt t with stall := (s.coreAt t).stall - 1 } : Core).countDown))) ∧
    (0 < (s.coreAt t).stall → (s.at t).issueFrozen = true → exec (.bundleIssue t) s = .next (banked s t (s.at t))) ∧
    (∀ k, (s.coreAt t).stall = 0 → (s.coreAt t).haltReq = false → (s.coreAt t).bundleCause = some k →
      exec (.bundleIssue t) s = .next (banked s t ((s.at t).trapPrecise k))) := by
  have hcycle : (s.at t).bundleCycle = _ := (State.bundleCycle_running (s := s.at t) hrun).trans
    (State.runCycle_going (s := s.at t) hfr hg he)
  have hcore : (s.at t).core = s.coreAt t := rfl
  rw [exec_bundleIssue, hcycle, hcore]
  refine ⟨fun hst hfz => ?_, fun hst hfz => ?_, fun k hst hreq hc => ?_⟩
  · simp [hst, hfz]
  · simp [hst, hfz]
  · simp [hst, hreq, State.issueDue, hcore, hc]

/-- BUNDLE_ISSUE of a strand that is stopped or at its end (R13, R123, R374, R398). -/
theorem bundleIssue_stopped (s : State) (t : Nat) :
    ((s.coreAt t).strand = .running → (s.coreAt t).frozen = true → exec (.bundleIssue t) s = .next (banked s t (s.at t))) ∧
    ((s.coreAt t).strand = .running → s.cycle < (s.coreAt t).gate → exec (.bundleIssue t) s = .next (banked s t (s.at t))) ∧
    (∀ w, (s.coreAt t).strand = .ended w → (s.coreAt t).frozen = false → (s.at t).issueFrozen = false →
      exec (.bundleIssue t) s = .next (banked s t ((s.at t).setCore (s.coreAt t).countDown))) ∧
    (∀ w, (s.coreAt t).strand = .ended w → ((s.coreAt t).frozen = true ∨ (s.at t).issueFrozen = true) →
      exec (.bundleIssue t) s = .next (banked s t (s.at t))) ∧
    (((s.coreAt t).strand = .none ∨ (s.coreAt t).strand = .saved ∨ (s.coreAt t).strand = .halted ∨
      (s.coreAt t).strand = .coreHalt ∨ (∃ b p, (s.coreAt t).strand = .sync b p) ∨
      (∃ w, (s.coreAt t).strand = .drained w)) → exec (.bundleIssue t) s = .next (banked s t (s.at t))) := by
  have hcore : (s.at t).core = s.coreAt t := rfl
  have hcyc : (s.at t).cycle = s.cycle := rfl
  rw [exec_bundleIssue]
  refine ⟨fun hrun hfr => ?_, fun hrun hg => ?_, fun w hend hfr hfz => ?_, fun w hend h => ?_, fun h => ?_⟩
  · rw [State.bundleCycle_running (s := s.at t) hrun, State.runCycle, hcore, hfr]
    rfl
  · rw [State.bundleCycle_running (s := s.at t) hrun, State.runCycle, hcore, hcyc, decide_eq_true hg, Bool.or_true]
    rfl
  · simp [State.bundleCycle, hcore, hend, hfr, hfz]
  · simp [State.bundleCycle, hcore, hend, h]
  · rcases h with h | h | h | h | ⟨b, p, h⟩ | ⟨w, h⟩ <;> simp only [State.bundleCycle, hcore, h]

end Sys2Proof.Machine
end

section
/-! What the boundaries of a strand bring: results, traps, drain points, watchdogs, the abort of its gang (O42). -/

namespace Sys2Proof.Machine

open Sys2Proof.Claims

/-! ### Results that land (R13, R16, R49) -/

/-- The core whose one result in flight is taken out to land. -/
def Core.emptied (c : Core) : Core := { c with inflight := [], mat := { c.mat with fl := 0 } }

/-- A boundary at which the only result in flight is due. -/
theorem Core.land_one {c : Core} {r q : Res} (h : c.inflight = [r]) (hq : (if r.late then { r with rem := r.rem - 1 } else r) = q)
    (hrem : q.rem = 0) (hd : q.w.discarded = false) (tie : Bool) :
    c.land tie = ({ (c.emptied.landGroup tie [q]).1 with
      fstat := (c.emptied.landGroup tie [q]).1.fstat ||| c.mat.fl ||| q.fl }, (c.emptied.landGroup tie [q]).2) := by
  have hsplit : [[q]].filter isFstatGroup ++ [[q]].filter (fun g => !isFstatGroup g) = [[q]] := by
    cases hf : isFstatGroup [q] <;> simp [hf]
  simp only [Core.land, h, List.map_cons, List.map_nil, hq, List.filter_cons, hrem, beq_self_eq_true, if_true, List.filter_nil,
    hd, Bool.not_false, bne_self_eq_false, Bool.false_eq_true, if_false]
  have hgroup : groupRes [q] = [[q]] := rfl
  rw [hgroup, hsplit]
  simp [Core.landAll, Core.emptied]

/-- The order that made the register of a write pending, if it is. -/
def Core.awaitedBy (c : Core) (w : Write) : Option Nat := w.preg?.bind fun q => (c.pend.find? (fun e => e.1 == q)).map (·.2)

/-- One result alone at a boundary, as `settle` keeps it. -/
theorem Core.landGroup_one {c : Core} {r : Res} {tie ends : Bool} (h : settle (c.awaitedBy r.w) tie [r] = (some r, false, ends))
    (hsys : ∀ n x, r.w ≠ .sys n x) : c.landGroup tie [r] =
      ((if ends then { c with pend := c.pend.filter (fun e => some e.1 != r.w.preg?) } else c : Core).apply r.w, []) := by
  unfold Core.awaitedBy at h
  unfold Core.landGroup
  dsimp only
  generalize r.w.preg? = reg at h ⊢
  cases reg
  case none | some q =>
    dsimp only [Option.bind_none, Option.bind_some] at h ⊢
    rw [h]
    dsimp only
    cases hw : r.w
    case sys n x => exact absurd hw (hsys n x)
    all_goals rfl

/-- What the boundary leaves of a lockstep result whose register nothing awaits. -/
theorem Core.landGroup_lockstep {c : Core} {r : Res} (hl : r.late = false) (hp : c.pend = []) (hsys : ∀ n x, r.w ≠ .sys n x)
    (tie : Bool) : c.landGroup tie [r] = (c.apply r.w, []) := by
  have hpend : c.awaitedBy r.w = none := by simp [Core.awaitedBy, hp]
  rw [Core.landGroup_one (ends := false) (by rw [hpend]; simp [settle, hl, bestRes]) hsys]
  rfl

/-- What the boundary leaves of a late result that its register awaits. -/
theorem Core.landGroup_late {c : Core} {r : Res} {q : PReg} (hl : r.late = true) (hw : r.w.preg? = some q) (hp : c.pend = [(q, r.ord)])
    (tie : Bool) : c.landGroup tie [r] = (({ c with pend := [] } : Core).apply r.w, []) := by
  have hpend : c.awaitedBy r.w = some r.ord := by simp [Core.awaitedBy, hp, hw]
  rw [Core.landGroup_one (ends := true) (by rw [hpend]; simp [settle, hl, bestRes]) fun n x hr => by rw [hr] at hw; cases hw]
  simp [hp, hw]

/-- A write of a scalar, predicate or vector register has no part in what is pending. -/
theorem Core.apply_pend {w : Write} {q : PReg} (h : w.preg? = some q) (c : Core) (l : List (PReg × Nat)) :
    ({ c with pend := l } : Core).apply w = { c.apply w with pend := l } := by
  cases w
  case s | p | v => rfl
  all_goals exact nomatch h

theorem State.landCore_of_land {s : State} {t : CoreId} {c : Core} (h : ∀ tie, (s.coreAt t).land tie = (c, [])) :
    s.landCore t = s.draw.2.putCore t c := by
  have hc : s.draw.2.coreAt t = s.coreAt t := rfl
  simp only [State.landCore, hc, h]
  rfl

theorem landing_lockstep {s : State} {t : Nat} {r : Res} (hin : (s.coreAt t).inflight = [r]) (hd : r.w.discarded = false)
    (hsys : ∀ n x, r.w ≠ .sys n x) (hp : (s.coreAt t).pend = []) (hl : r.late = false) (hrem : r.rem = 0) :
    exec (.lockstepResultLanding t) s = .next (s.draw.2.putCore t (landed (s.coreAt t) r)) := by
  refine congrArg _ (State.landCore_of_land fun tie => ?_)
  rw [Core.land_one hin (by rw [hl]; rfl) hrem hd, Core.landGroup_lockstep (c := (s.coreAt t).emptied) hl hp hsys]
  rfl

theorem landing_late {s : State} {t : Nat} {r : Res} {q : PReg} (hin : (s.coreAt t).inflight = [r]) (hd : r.w.discarded = false)
    (hw : r.w.preg? = some q) (hp : (s.coreAt t).pend = [(q, r.ord)]) (hl : r.late = true) (hrem : r.rem = 1) :
    exec (.lockstepResultLanding t) s = .next (s.draw.2.putCore t { landed (s.coreAt t) r with pend := [] }) := by
  refine congrArg _ (State.landCore_of_land fun tie => ?_)
  rw [Core.land_one (q := { r with rem := 0 }) hin (by rw [hl, hrem]; rfl) rfl hd,
    Core.landGroup_late (c := (s.coreAt t).emptied) (r := { r with rem := 0 }) hl hw hp, Core.apply_pend hw]
  rfl

/-! ### The delivery of a deferred cause (R24, R25, R28) -/

theorem firstDeferred_mem {l : List Cause} {k : Cause} (h : firstDeferred l = some k) : k ∈ l := by
  induction l generalizing k with
  | nil => cases h
  | cons a r ih =>
    rw [firstDeferred] at h
    split at h
    next => simp_all
    next q hq =>
      split at h
      · simp_all
      · exact List.mem_cons_of_mem _ (ih (hq.trans h))

theorem firstDeferred_cons_isSome (a : Cause) (r : List Cause) : ∃ k, firstDeferred (a :: r) = some k := by
  rw [firstDeferred]
  split
  · exact ⟨_, rfl⟩
  · split <;> exact ⟨_, rfl⟩

/-- The cause whose command comes before every other's is delivered first. -/
theorem firstDeferred_eq {l : List Cause} {k : Cause} (hk : k ∈ l) (h : ∀ q ∈ l, q ≠ k → k.ord < q.ord) :
    firstDeferred l = some k := by
  induction l with
  | nil => cases hk
  | cons a r ih =>
    rw [firstDeferred]
    by_cases ha : a = k
    · subst ha
      split
      next => rfl
      next q hq =>
        by_cases hqa : q = a
        · rw [hqa, ite_self]
        · have hlt := h q (List.mem_cons_of_mem _ (firstDeferred_mem hq)) hqa
          simp [Cause.before, hlt]
    · have hkr : k ∈ r := by simpa [Ne.symm ha] using hk
      have hlt := h a (by simp) ha
      rw [ih hkr fun q hq => h q (List.mem_cons_of_mem _ hq)]
      have hb : a.before k = false := by simp [Cause.before]; omega
      simp [hb]

/-- What the removal of a failing command leaves alone (R178). -/
theorem Core.dropFailed_keeps (c : Core) (k : Cause) :
    (c.dropFailed k).trap = c.trap ∧ (c.dropFailed k).pc = c.pc ∧ (c.dropFailed k).redirects = c.redirects ∧
      (c.dropFailed k).sregs = c.sregs ∧ (c.dropFailed k).deferred = c.deferred := by
  unfold Core.dropFailed
  split
  case h_1 =>
    dsimp only
    split <;> exact ⟨rfl, rfl, rfl, rfl, rfl⟩
  case h_2 =>
    split
    · split <;> exact ⟨rfl, rfl, rfl, rfl, rfl⟩
    · exact ⟨rfl, rfl, rfl, rfl, rfl⟩
  case h_3 =>
    dsimp only
    split
    · split
      · exact ⟨rfl, rfl, rfl, rfl, rfl⟩
      · split
        · exact ⟨rfl, rfl, rfl, rfl, rfl⟩
        · split <;> exact ⟨rfl, rfl, rfl, rfl, rfl⟩
    · exact ⟨rfl, rfl, rfl, rfl, rfl⟩
  case h_4 => exact ⟨rfl, rfl, rfl, rfl, rfl⟩

/-- The core as the delivery of a deferred cause `k` finds it. -/
def Core.withoutCause (c : Core) (k : Cause) : Core := ({ c with deferred := c.deferred.filter (· != k) } : Core).dropFailed k

theorem Core.withoutCause_keeps (c : Core) (k : Cause) :
    (c.withoutCause k).trap = c.trap ∧ (c.withoutCause k).pc = c.pc ∧ (c.withoutCause k).redirects = c.redirects ∧
      (c.withoutCause k).sregs = c.sregs ∧ (c.withoutCause k).deferred = c.deferred.filter (· != k) :=
  Core.dropFailed_keeps _ k

theorem trapDelivery_deferred {s : State} {k : Cause} (hk : k ∈ s.core.deferred) (hfr : k.fresh = false)
    (hfirst : ∀ q ∈ s.core.deferred, q.fresh = false → q ≠ k → k.ord < q.ord) (hfail : s.core.failing = [])
    (hrun : s.core.strand = .running) (hin : s.core.trap.inH = false) (hen : s.core.trap.en = true) (hst : s.core.stall = 0)
    (hfz : s.core.frozen = false) (haf : s.core.trapAfter = none) (her : s.core.eretDrain = false) :
    s.trapDelivery = s.setCore ((s.core.withoutCause k).deliver k s.core.pc (s.cycle + 1)) := by
  have hdef : firstDeferred (s.core.deferred.filter (fun q => !q.fresh && !(s.core.trap.inH && s.core.held.contains q))) = some k := by
    refine firstDeferred_eq (List.mem_filter.2 ⟨hk, by simp [hfr, hin]⟩) fun q hq hne => ?_
    obtain ⟨hq, hqf⟩ := List.mem_filter.1 hq
    exact hfirst q hq (by simp_all) hne
  obtain ⟨htrap, hpc, -⟩ := s.core.withoutCause_keeps k
  have hbound : (s.core.stall != 0 || s.core.eretDrain || s.core.frozen) = false := by simp [hst, her, hfz]
  have htake : s.trapDelivery = (s.setCore (s.core.withoutCause k)).takeTrap k (s.cycle + 1) := by
    unfold State.trapDelivery
    rw [Core.knowFailing_nil hfail]
    dsimp only
    split
    next q hq => cases haf.symm.trans hq
    next =>
      split
      next hq => cases hdef.symm.trans hq
      next q hq =>
        cases hdef.symm.trans hq
        split
        next => rw [hbound]; rfl
        next w hs => cases hrun.symm.trans hs
        next hne _ => exact absurd hrun hne
  rw [htake, takeTrap_delivers (by simp [htrap, hen]) (by simp [htrap, hin]), State.setCore_core, State.setCore_setCore, hpc]

/-! ### Drain points (R123) -/

theorem drainable_of_drainedOut {c : Core} (h : drainedOut c) : c.drainable = true := by
  obtain ⟨h1, h2, h3, h4, h5, h6, h7, h8, h9, h10, h11, h12, h13, h14⟩ := h
  simp [Core.drainable, h1, h2, h3, h4, h5, h6, h7, h8, h9, h10, h11, h12, h13, h14]

theorem drain_ended {s : State} {t : Nat} {w : Bool} (he : (s.coreAt t).strand = .ended w) (hd : drainedOut (s.coreAt t))
    (hf : (s.coreAt t).frozen = false) :
    exec (.drainPoint t) s = .next (s.putCore t { s.coreAt t with
      strand := .drained w, chn := { (s.coreAt t).chn with posts := if w then (s.coreAt t).chn.posts else [] } }) := by
  refine congrArg _ (?_ : s.drain t = _)
  simp [State.drain, he, drainable_of_drainedOut hd, hf]

/-! ### Watchdogs (R143, R160) -/

/-- The cause that a due bundle of one slot raises in this cycle. -/
theorem dueCause_dueAlone {s : State} {i : Instr} {m : SlotSem} {k : Cause} (hdue : dueAlone s i) (hm : slotSem i = some m)
    (hwf : i.wf = true) (hab : m.absent s = none) (hi : s.mayIssue m.guard m.reads) (hw : m.wait s = none) (hl : m.late s = none)
    (hr : (m.eff s).core.lockstepCount ≤ 32) (hc : m.check s = some k) : s.dueCause = some k := by
  obtain ⟨w, m', hf, hb, hh, hs, hm'⟩ := dueAlone_sems hdue
  have hon := hi.2.1
  obtain rfl : m' = m := Option.some.inj (hm'.symm.trans hm)
  obtain ⟨hrun, hfr, hg, he, hst, -⟩ := hdue
  have hg' : ¬ s.cycle < s.core.gate := by omega
  have hwait := SlotSem.waitOut_none (exec_of_slotSem hm).1 hi hw hl hr
  have hcause : firstSlotCause s [m'] = some k := by
    simp [firstSlotCause, SlotSem.cause, hab, lowestBit_none (encOk_of_wf hm hwf), hon, hc]
  simp [State.dueCause, hrun, hfr, hg', he, hst, hb, hf, hh, hs, hwait, hcause]

theorem streamWatchdog_traps {s : State} {t : Nat} {k : Cause} (h : (s.at t).dueCause = some k) (hk : k.code = 0x11) :
    exec (.streamRegisterWatchdog t) s = .next ((s.at t).trapPrecise k) := by
  have hexec : execStreamRegisterWatchdog t s = .next ((s.at t).trapPrecise k) := by
    simp only [execStreamRegisterWatchdog, h, hk, if_true]
  exact hexec

theorem arrivalWatchdog_traps {s : State} {t : Nat} {k : Cause} (h : (s.at t).dueCause = some k) (hk : k.code = 0x12) :
    exec (.arrivalWaitWatchdog t) s = .next ((s.at t).trapPrecise k) := by
  have hexec : execArrivalWaitWatchdog t s = .next ((s.at t).trapPrecise k) := by
    simp only [execArrivalWaitWatchdog, h, hk, if_true]
  exact hexec

theorem vsin_watchdog {s : State} {f : VForm} (hdue : dueAlone s (.vsin f)) (hgo : goV .vsin f s (rd f)) (hm : s.core.isMgmt = false)
    (hport : ∃ p, portOf s.cur = some p) (hempty : s.core.orx.get (field 0 2 f.fn : BitVec 2).toFin = [])
    (hdog : max 1024 s.core.wdog.toNat ≤ s.core.waitedV) :
    s.dueCause = some (precise .v 0x11 ((field 0 2 f.fn : BitVec 2).setWidth 64)) := by
  obtain ⟨hwf, hi⟩ := hgo
  obtain ⟨p, hp⟩ := hport
  have heff : (semVsin f).eff s = s.setCore s.core := by
    simp only [semVsin, onCore, hempty]
  refine dueCause_dueAlone hdue (m := semVsin f) rfl hwf (by simp [semVsin, noStream, hm, hp]) hi ?_ rfl ?_ ?_
  · show streamWait (s.core.orx.get (field 0 2 f.fn : BitVec 2).toFin).isEmpty s = none
    simp [-BitVec.extractLsb'_toNat, streamWait, Nat.not_lt.2 hdog]
  · rw [heff, State.setCore_core]
    exact hi.unheld.room
  · have ho : BitVec.ofNat 64 (field 0 2 f.fn : BitVec 2).toNat = (field 0 2 f.fn : BitVec 2).setWidth 64 := BitVec.ofNat_toNat ..
    show streamCheck f s = _
    unfold streamCheck
    dsimp only
    generalize (s.port.bnd && s.port.bctx.toNat == s.core.pos.ctx.toNat) = bound
    rw [decide_eq_true hdog, ho]
    cases bound <;> rfl

theorem waita_watchdog {s : State} {f : AwForm} (hdue : dueAlone s (.waita f))
    (hgo : goLs (.waita f) f.gi f.gp f.cls s [.s f.a, .s f.r1]) (hpad : inPad s.core (ea s.core f.a f.disp) 16 16)
    (hseen : s.core.waitaSeen = false)
    (hgen : 2 ^ 31 ≤ (BitVec.ofNat 32 (s.core.spad.readN (ea s.core f.a f.disp + 8) 4) - (field 0 32 (s.core.sreg f.r1))).toNat)
    (hdog : max 1024 s.core.wdog.toNat ≤ s.core.waitedL) :
    s.dueCause = some (precise .l 0x12 (s.core.sreg f.a + f.disp.signExtend 64)) := by
  obtain ⟨hwf, hi, hcls⟩ := hgo
  have hreach : genReached (genAt s.core (awEa f s.core).toNat) (field 0 32 (s.core.sreg f.r1)) = false :=
    decide_eq_false (Nat.not_lt.2 hgen)
  have htouch : touchCause s.core [⟨awEa f s.core, 16, 16⟩] = none :=
    touchCause_none (List.forall_mem_singleton.2 hpad)
  have hdog' : s.core.watchLimit ≤ s.core.waitedL := hdog
  refine dueCause_dueAlone hdue (m := semWaita f) rfl hwf rfl hi ?_ ?_ hi.unheld.room ?_
  · simp [semWaita, classWait, hcls]
  · simp [semWaita, awReads, hreach, hseen, hdog']
  · simp only [semWaita, htouch, hseen, Bool.not_false, decide_eq_true hdog', Bool.and_self, if_true]
    rfl

/-! ### The abort of a gang (R29, R374) -/

/-- What giving up the rest of the module's work for a core leaves: of every core all but its transfers, the event counters, the
contexts, the events offered. -/
def leavesStrands (s u : State) : Prop :=
  (∀ t, ∃ x, u.coreAt t = { s.coreAt t with xfers := x }) ∧ u.evctr = s.evctr ∧ u.ctxs = s.ctxs ∧ u.offered = s.offered

theorem leavesStrands.of_eq {s u : State} (h : u.cores = s.cores) (he : u.evctr = s.evctr) (hc : u.ctxs = s.ctxs)
    (ho : u.offered = s.offered) : leavesStrands s u :=
  ⟨fun t => ⟨(s.coreAt t).xfers, by rw [State.coreAt, h]; rfl⟩, he, hc, ho⟩

theorem leavesStrands.trans {s u v : State} (h : leavesStrands s u) (h' : leavesStrands u v) : leavesStrands s v := by
  obtain ⟨hx, he, hc, ho⟩ := h
  obtain ⟨hx', he', hc', ho'⟩ := h'
  refine ⟨fun t => ?_, he'.trans he, hc'.trans hc, ho'.trans ho⟩
  obtain ⟨x, hx⟩ := hx t
  obtain ⟨y, hy⟩ := hx' t
  exact ⟨y, by rw [hy, hx]⟩

theorem State.skipSeq_leavesStrands (s : State) (p : Packet) : leavesStrands s (s.skipSeq p) := by
  unfold State.skipSeq State.tookSeq
  split
  · exact .of_eq rfl rfl rfl rfl
  · split
    · split <;> exact .of_eq rfl rfl rfl rfl
    · exact .of_eq rfl rfl rfl rfl

theorem State.offNet_leavesStrands (s : State) (p : Packet) : leavesStrands s (s.offNet p) := by
  refine ⟨fun t => ?_, rfl, rfl, rfl⟩
  have hat : (s.offNet p).coreAt t = (s.putCore p.dst ((s.coreAt p.dst).endXfer (.packet p.id))).coreAt t := rfl
  by_cases ht : t = p.dst
  · subst ht
    exact ⟨_, hat.trans (State.putCore_coreAt ..)⟩
  · exact ⟨(s.coreAt t).xfers, hat.trans (State.putCore_coreAt_other _ _ ht)⟩

theorem State.dropFlying_leavesStrands (s : State) (id : CoreId) : leavesStrands s (s.dropFlying id) := by
  unfold State.dropFlying
  generalize s.net.filter (fun p => p.dropsWith id) = ps
  induction ps generalizing s with
  | nil => exact .of_eq rfl rfl rfl rfl
  | cons p ps ih => exact ((s.skipSeq_leavesStrands p).trans (State.offNet_leavesStrands _ p)).trans (ih _)

theorem State.forget_leavesStrands (s : State) (id : CoreId) : leavesStrands s (s.forget id) :=
  (s.dropFlying_leavesStrands id).trans (.of_eq rfl rfl rfl rfl)

/-- A member of a gang that is aborted for tile `tid`, the core once `c`. -/
def haltedFor (tid : Nat) (c d : Core) : Prop :=
  d.strand = .halted ∧ d.dacc = [] ∧ d.inflight = [] ∧ d.spad = c.spad ∧ d.undelivered = c.undelivered ∧
    (c.undelivered = none → d.trap.cause = 0x16 ∧ d.trap.info0.toNat = tid % 2 ^ 64)

theorem Core.abortMember_haltedFor {c d : Core} (hs : d.spad = c.spad) (hu : d.undelivered = c.undelivered) (tid : Nat) :
    haltedFor tid c (d.abortMember tid) := by
  refine ⟨rfl, rfl, rfl, hs, hu, fun hn => ?_⟩
  have hd : d.undelivered.isSome = false := by rw [hu, hn]; rfl
  simp [Core.abortMember, hd]

/-- One member halted, with what the rest of the module holds for it given up. -/
def State.haltMember (tid : Nat) (s : State) (id : CoreId) : State := (s.forget id).putCore id (((s.forget id).coreAt id).abortMember tid)

/-- What the members halted so far leave: scratchpads and undelivered causes, event counters, contexts, events offered. -/
def keepsPads (s u : State) : Prop :=
  (∀ m, (u.coreAt m).spad = (s.coreAt m).spad ∧ (u.coreAt m).undelivered = (s.coreAt m).undelivered) ∧
    u.evctr = s.evctr ∧ u.ctxs = s.ctxs ∧ u.offered = s.offered

theorem State.haltMember_step {tid : Nat} {s u : State} (h : keepsPads s u) (id : CoreId) :
    keepsPads s (u.haltMember tid id) ∧ haltedFor tid (s.coreAt id) ((u.haltMember tid id).coreAt id) ∧
      ∀ m, haltedFor tid (s.coreAt m) (u.coreAt m) → haltedFor tid (s.coreAt m) ((u.haltMember tid id).coreAt m) := by
  obtain ⟨hkeep, he, hc, ho⟩ := h
  obtain ⟨hx, he', hc', ho'⟩ := u.forget_leavesStrands id
  have hid : haltedFor tid (s.coreAt id) ((u.haltMember tid id).coreAt id) := by
    obtain ⟨x, hx⟩ := hx id
    obtain ⟨hsp, hun⟩ := hkeep id
    rw [State.haltMember, State.putCore_coreAt, hx]
    exact Core.abortMember_haltedFor hsp hun tid
  have hother : ∀ m, m ≠ id → ∃ x, (u.haltMember tid id).coreAt m = { u.coreAt m with xfers := x } := fun m hm => by
    rw [State.haltMember, State.putCore_coreAt_other _ _ hm]
    exact hx m
  refine ⟨⟨fun m => ?_, he'.trans he, hc'.trans hc, ho'.trans ho⟩, hid, fun m hm => ?_⟩
  · by_cases hmi : m = id
    · subst hmi
      obtain ⟨-, -, -, hsp, hun, -⟩ := hid
      exact ⟨hsp, hun⟩
    · obtain ⟨x, hx⟩ := hother m hmi
      rw [hx]
      exact hkeep m
  · by_cases hmi : m = id
    · exact hmi ▸ hid
    · obtain ⟨x, hx⟩ := hother m hmi
      rw [hx]
      exact hm

theorem haltMembers {tid : Nat} {s : State} (l : List CoreId) : ∀ {u : State}, keepsPads s u →
    keepsPads s (l.foldl (State.haltMember tid) u) ∧
      ∀ m, m ∈ l ∨ haltedFor tid (s.coreAt m) (u.coreAt m) →
        haltedFor tid (s.coreAt m) ((l.foldl (State.haltMember tid) u).coreAt m) := by
  induction l with
  | nil => exact fun h => ⟨h, fun m hm => hm.resolve_left (List.not_mem_nil)⟩
  | cons id l ih =>
    intro u h
    obtain ⟨hk, hid, hrest⟩ := State.haltMember_step h id
    obtain ⟨hk', hall⟩ := ih hk
    refine ⟨hk', fun m hm => hall m ?_⟩
    rcases hm with hm | hm
    · rcases List.mem_cons.1 hm with rfl | hm
      · exact .inr hid
      · exact .inl hm
    · exact .inr (hrest m hm)

/-! #### Events offered (R381) -/

theorem mem_replace_or {α : Type} [DecidableEq α] {a b x : α} {l : List α} (h : x ∈ l) :
    x ∈ l.replace a b ∨ (x = a ∧ b ∈ l.replace a b) := by
  induction l with
  | nil => cases h
  | cons y l ih =>
    rw [List.replace_cons]
    by_cases hy : y = a
    · subst hy
      rcases List.mem_cons.1 h with rfl | h
      · exact .inr ⟨rfl, by simp⟩
      · exact .inl (by simp [h])
    · have hne : (a == y) = false := by simpa using Ne.symm hy
      rw [hne]
      rcases List.mem_cons.1 h with rfl | h
      · exact .inl (by simp)
      · exact (ih h).imp (List.mem_cons_of_mem _) fun ⟨hx, hb⟩ => ⟨hx, List.mem_cons_of_mem _ hb⟩

/-- A merge keeps the origin and the code of every event. -/
theorem merge_keeps {l : List Offer} {x : Offer} (h : x ∈ l) (o : Offer) (n : Nat) :
    ∃ y ∈ (l.reverse.replace o { o with merged := n }).reverse, y.org = x.org ∧ y.code = x.code := by
  rcases mem_replace_or (a := o) (b := { o with merged := n }) (List.mem_reverse.2 h) with hx | ⟨rfl, hb⟩
  · exact ⟨x, List.mem_reverse.2 hx, rfl, rfl⟩
  · exact ⟨_, List.mem_reverse.2 hb, rfl, rfl⟩

/-- An event offered is buffered, whether it is merged or not. -/
theorem State.offer_buffered (s : State) (org loc ctx code : Nat) (data : List (BitVec 8)) :
    buffered (s.offer org loc ctx code data) org code := by
  unfold State.offer State.offerLog
  dsimp only
  split
  next o ho =>
    have hmem : o ∈ s.offered.filter (fun o => o.org == org && o.loc == loc) := List.mem_of_getLast? ho
    obtain ⟨hs, hp⟩ := List.mem_filter.1 hmem
    split
    next hc =>
      obtain ⟨y, hy, horg, hcode⟩ := merge_keeps hs o (o.merged + 1)
      simp only [Bool.and_eq_true, decide_eq_true_iff, beq_iff_eq] at hp hc
      exact ⟨y, hy, horg.trans hp.1, hcode.trans hc.2⟩
    next => exact ⟨_, List.mem_append_right _ (List.mem_singleton_self _), rfl, rfl⟩
  next => exact ⟨_, List.mem_append_right _ (List.mem_singleton_self _), rfl, rfl⟩

/-- An event buffered stays so when others are offered. -/
theorem State.buffered_offer {s : State} {org' code' : Nat} (h : buffered s org' code') (org loc ctx code : Nat)
    (data : List (BitVec 8)) : buffered (s.offer org loc ctx code data) org' code' := by
  obtain ⟨o', ho', horg, hcode⟩ := h
  unfold State.offer State.offerLog
  dsimp only
  split
  next o ho =>
    split
    next =>
      obtain ⟨y, hy, horg', hcode'⟩ := merge_keeps ho' o (o.merged + 1)
      exact ⟨y, hy, horg'.trans horg, hcode'.trans hcode⟩
    next => exact ⟨o', List.mem_append_left _ ho', horg, hcode⟩
  next => exact ⟨o', List.mem_append_left _ ho', horg, hcode⟩

/-! #### The abort -/

theorem State.offer_keeps (s : State) (org loc ctx code : Nat) (data : List (BitVec 8)) :
    (s.offer org loc ctx code data).cores = s.cores ∧ (s.offer org loc ctx code data).gangs = s.gangs ∧
      (s.offer org loc ctx code data).ctxs = s.ctxs ∧ (s.offer org loc ctx code data).evctr = s.evctr := by
  unfold State.offer State.offerLog
  dsimp only
  split
  · split <;> exact ⟨rfl, rfl, rfl, rfl⟩
  · exact ⟨rfl, rfl, rfl, rfl⟩

/-- The report of a completion (R282, R293). -/
theorem State.reportLaunch_reported {s v : State} (h : v.evctr = s.evctr) (l : Launch) (status : Nat) :
    reported s (v.reportLaunch l status) l := by
  refine ⟨?_, State.offer_buffered ..⟩
  obtain ⟨-, -, -, hev⟩ := State.offer_keeps (if geomCen l.geom then v.bumpEvent l.ctx (geomCevt l.geom) else v) 2 0 l.ctx 0x0002
    (leBytes 4 l.qid ++ leBytes 1 status)
  rw [State.reportLaunch, hev]
  split
  next hc => simp [State.bumpEvent, eventKey, h]
  next hc => simp [h]

theorem State.reportLaunch_keeps (s : State) (l : Launch) (status : Nat) :
    (s.reportLaunch l status).cores = s.cores ∧ (s.reportLaunch l status).gangs = s.gangs ∧
      (s.reportLaunch l status).ctxs = s.ctxs := by
  obtain ⟨hcores, hgangs, hctxs, -⟩ := State.offer_keeps (if geomCen l.geom then s.bumpEvent l.ctx (geomCevt l.geom) else s) 2 0 l.ctx
    0x0002 (leBytes 4 l.qid ++ leBytes 1 status)
  unfold State.reportLaunch
  dsimp only
  rw [hcores, hgangs, hctxs]
  split <;> exact ⟨rfl, rfl, rfl⟩

theorem State.buffered_reportLaunch {s : State} {org code : Nat} (h : buffered s org code) (l : Launch) (status : Nat) :
    buffered (s.reportLaunch l status) org code := by
  refine State.buffered_offer ?_ ..
  split
  · exact h
  · exact h

/-- A gang taken off its tiles, its members halted. -/
def State.haltGang (s : State) (g : Gang) (tid : Nat) : State :=
  let mine := g.tiles.filter (fun t => !g.left.contains t)
  let t := mine.foldl (State.haltMember tid) s
  { t with gangs := t.gangs.filter (fun x => x.id != g.id), aborts := t.aborts.filter (fun a => !mine.contains a) }

theorem State.abortGang_eq {g : Gang} (ho : g.isOver = false) (s : State) (tid status : Nat) : s.abortGang g tid status =
    ((s.haltGang g tid).offer 2 0 g.ctx 0x0023 (leBytes 2 tid ++ leBytes 4 g.launch.qid)).reportLaunch g.launch status := by
  unfold State.abortGang
  rw [ho]
  rfl

theorem State.haltGang_halts (s : State) (g : Gang) (tid : Nat) :
    (∀ x ∈ (s.haltGang g tid).gangs, x.id ≠ g.id) ∧ (s.haltGang g tid).evctr = s.evctr ∧ (s.haltGang g tid).ctxs = s.ctxs ∧
      ∀ m ∈ g.tiles, m ∉ g.left → haltedFor tid (s.coreAt m) ((s.haltGang g tid).coreAt m) := by
  have hstart : keepsPads s s := ⟨fun _ => ⟨rfl, rfl⟩, rfl, rfl, rfl⟩
  obtain ⟨⟨-, hev, hctxs, -⟩, hhalt⟩ := haltMembers (tid := tid) (g.tiles.filter (fun t => !g.left.contains t)) hstart
  refine ⟨fun x hx => ?_, hev, hctxs, fun m hm hl => hhalt m (.inl (List.mem_filter.2 ⟨hm, by simpa using hl⟩))⟩
  simpa using (List.mem_filter.1 hx).2

/-- The abort of a gang that has not completed (R374). -/
theorem State.abortGang_aborts {s : State} {g : Gang} (ho : g.isOver = false) (tid status : Nat) :
    (∀ x ∈ (s.abortGang g tid status).gangs, x.id ≠ g.id) ∧ reported s (s.abortGang g tid status) g.launch ∧
      buffered (s.abortGang g tid status) 2 0x0023 ∧ (s.abortGang g tid status).ctxs = s.ctxs ∧
      ∀ m ∈ g.tiles, m ∉ g.left → haltedFor tid (s.coreAt m) ((s.abortGang g tid status).coreAt m) := by
  obtain ⟨hgone, hev, hctxs, hhalt⟩ := s.haltGang_halts g tid
  obtain ⟨hcores₁, hgangs₁, hctxs₁, hev₁⟩ :=
    State.offer_keeps (s.haltGang g tid) 2 0 g.ctx 0x0023 (leBytes 2 tid ++ leBytes 4 g.launch.qid)
  rw [State.abortGang_eq ho]
  obtain ⟨hcores₂, hgangs₂, hctxs₂⟩ := State.reportLaunch_keeps
    ((s.haltGang g tid).offer 2 0 g.ctx 0x0023 (leBytes 2 tid ++ leBytes 4 g.launch.qid)) g.launch status
  refine ⟨?_, State.reportLaunch_reported (hev₁.trans hev) _ _, State.buffered_reportLaunch (State.offer_buffered ..) _ _,
    hctxs₂.trans (hctxs₁.trans hctxs), fun m hm hl => ?_⟩
  · rw [hgangs₂, hgangs₁]
    exact hgone
  · have hcores := hcores₂.trans hcores₁
    have hat := hhalt m hm hl
    unfold State.coreAt at hat ⊢
    rw [hcores]
    exact hat

/-- An abort outside a save is the abort alone (R327, R329). -/
theorem State.abortFor_eq {s : State} {g : Gang} {t : Nat} (hctxs : (s.abortGang g t 5).ctxs = s.ctxs) (h2 : (s.ctx g.ctx).st ≠ 2)
    (h3 : (s.ctx g.ctx).st ≠ 3) : s.abortFor g t = s.abortGang g t 5 := by
  have hctx : (s.abortGang g t 5).ctx g.ctx = s.ctx g.ctx := by rw [State.ctx, hctxs, State.ctx]
  have hhalt : (s.abortGang g t 5).haltDone g.ctx = s.abortGang g t 5 := if_neg (by rw [hctx]; exact fun h => h2 h.1)
  rw [State.abortFor, hhalt]
  exact if_neg (by rw [hctx]; exact fun h => h3 h.1)

theorem gangAbort_aborts {s : State} {t : Nat} {g : Gang} (ht : t ∈ s.aborts) (hg : s.gangOf t = some g) (ho : g.isOver = false)
    (h2 : (s.ctx g.ctx).st ≠ 2) (h3 : (s.ctx g.ctx).st ≠ 3) : exec (.gangAbort t) s = .next (s.abortGang g t 5) := by
  obtain ⟨-, -, -, hctxs, -⟩ := State.abortGang_aborts (s := s) ho t 5
  refine congrArg _ (?_ : s.gangAbort t = _)
  rw [State.gangAbort, if_pos (by simpa using ht), hg]
  exact State.abortFor_eq hctxs h2 h3

/-- Settles O42. -/
theorem strandBoundaries : Obligations.StrandBoundaries := by
  unfold Obligations.StrandBoundaries
  refine ⟨⟨?_, ?_, ?_, ?_⟩, ?_, ?_, ?_, ?_, ?_, ?_, ?_⟩
  · intro s t
    exact ⟨_, exec_bundleIssue t s⟩
  · intro s t i hdue
    exact ⟨_, bundleCycle_dueAlone hdue, exec_bundleIssue t s⟩
  · intro s t
    exact bundleIssue_running s t
  · intro s t
    exact bundleIssue_stopped s t
  · intro s t r c hin hd hsys hp hl hrem
    exact ⟨_, landing_lockstep hin hd hsys hp hl hrem, State.putCore_coreAt .., rfl⟩
  · intro s t r q c hin hd hw hp hl hrem
    exact ⟨_, landing_late hin hd hw hp hl hrem, State.putCore_coreAt ..⟩
  · intro s t k c hk hfr hfirst hfail hrun hin hen hst hfz haf her
    have hdel := trapDelivery_deferred (s := s.at t) hk hfr hfirst hfail hrun hin hen hst hfz haf her
    obtain ⟨htrap, -, hred, hregs, hdef⟩ := c.withoutCause_keeps k
    refine ⟨_, (congrArg Host.Outcome.next hdel : exec (.trapDelivery t) s = _), rfl, ?_⟩
    rw [State.setCore_core]
    refine ⟨congrArg (·.vec) htrap, rfl, ?_, ?_, hred, rfl, hregs⟩
    · rw [← htrap]
      rfl
    · show k ∉ (c.withoutCause k).deferred
      rw [hdef]
      simp
  · intro s t w he hd hf
    refine ⟨_, drain_ended he hd hf, ?_⟩
    rw [State.putCore_coreAt]
    exact ⟨rfl, rfl, rfl⟩
  · intro s t f hdue hgo hm hport hempty hdog
    exact streamWatchdog_traps (vsin_watchdog hdue hgo hm hport hempty hdog) rfl
  · intro s t f c hdue hgo hpad hseen hgen hdog
    exact arrivalWatchdog_traps (waita_watchdog hdue hgo hpad hseen hgen hdog) rfl
  · intro s t g ht hg ho h2 h3
    obtain ⟨hgangs, hrep, hbuf, -, hhalt⟩ := State.abortGang_aborts (s := s) ho t 5
    refine ⟨_, gangAbort_aborts ht hg ho h2 h3, hgangs, hrep, hbuf, fun m hm hl => ?_⟩
    obtain ⟨hst, hacc, hin, hsp, -, htrap⟩ := hhalt m hm hl
    exact ⟨hst, hacc, hin, hsp, htrap⟩

end Sys2Proof.Machine
end

section
/-! Scalar floating point and conversions (O4). -/

namespace Sys2Proof.Machine

open Sys2Proof.Claims

/-! ### Form R: a well-formed instruction whose check passes issues -/

theorem exec_rSlot {i : Instr} {f : RForm} {enc reads check lat res} {s : State}
    (hm : slotSem i = some (rSlot f enc reads check lat res)) (hw : i.wf = true) (hi : s.mayIssue (some (f.gi, f.gp)) reads)
    (hc : check s.core = none) :
    exec i s = .next (s.issued (fun c => c.result (sSlot f.s1) lat (res c).1 (res c).2)) := by
  obtain ⟨-, hx⟩ := exec_of_slotSem hm
  have he : ∀ e ∈ enc, e.2 = true := by simpa [SlotSem.encOk, rSlot] using encOk_of_wf hm hw
  rw [hx, rSlot_next hi he hc]

/-! ### The checks of scalar floating point (R32, R38, R45, R111) -/

theorem floatChecks_ok {f : RForm} {c : Core} (hr : (fRnd f).toNat ≤ 4) (h : floatEntry (c.fmt (fEnt f))) :
    ∀ e ∈ floatChecks f c, e.1 = true := by
  obtain ⟨hv, hf⟩ := h
  simp [floatChecks, hr, hv, hf]

/-- RND of an operation that does not round (R90). -/
theorem fRnd_le_of_zero {f : RForm} (h : field 4 4 f.x = (0 : BitVec 4)) : (fRnd f).toNat ≤ 4 := by
  have hz : field 5 3 f.x = (0 : BitVec 3) := field_zero_of_field_zero h (by omega) (by omega)
  simp [fRnd, hz]

/-- An operation that neither rounds nor has a sub-code passes with a valid float entry. -/
theorem floatChecks_none {f : RForm} {c : Core} (hx : field 0 8 f.x = (0 : BitVec 8)) (h : floatEntry (c.fmt (fEnt f))) :
    lowestCause (floatChecks f c) = none :=
  lowestCause_none (floatChecks_ok (fRnd_le_of_zero (field_zero_of_field_zero hx (by omega) (by omega))) h)

theorem fcmpOk_of_wf {x : BitVec 4} (h : (decide (x.toNat ≤ 3) || x == 10) = true) : fcmpOk x.toNat = true := by
  revert x
  decide

theorem fcmp_check {f : RForm} {c : Core} (hw : (Instr.fcmp f).wf = true) (h : floatEntry (c.fmt (fEnt f))) :
    lowestCause ((fcmpOk (field 0 4 f.x : BitVec 4).toNat, sBad f.s1 0) :: floatChecks f c) = none := by
  obtain ⟨⟨-, hx⟩, hcc⟩ : ((field 0 3 f.d = (0 : BitVec 3) ∧ f.c = 0) ∧ field 4 4 f.x = (0 : BitVec 4)) ∧
      (decide ((field 0 4 f.x : BitVec 4).toNat ≤ 3) || field 0 4 f.x == (10 : BitVec 4)) = true := by
    simpa [Instr.wf] using hw
  exact lowestCause_none (List.forall_mem_cons.2 ⟨fcmpOk_of_wf hcc, floatChecks_ok (fRnd_le_of_zero hx) h⟩)

theorem fsgn_check {f : RForm} {c : Core} (hw : (Instr.fsgn f).wf = true) (h : floatEntry (c.fmt (fEnt f))) :
    lowestCause (((field 0 2 f.x : BitVec 2).toNat ≤ 2, sBad f.s1 0) :: floatChecks f c) = none := by
  obtain ⟨⟨-, hx⟩, hfn⟩ : (f.c = 0 ∧ field 2 6 f.x = (0 : BitVec 6)) ∧ (field 0 2 f.x : BitVec 2).toNat ≤ 2 := by
    simpa [Instr.wf] using hw
  have hr : (fRnd f).toNat ≤ 4 := fRnd_le_of_zero (field_zero_of_field_zero hx (by omega) (by omega))
  exact lowestCause_none (List.forall_mem_cons.2 ⟨decide_eq_true hfn, floatChecks_ok hr h⟩)

/-! ### The rows of the float instructions (R111): one form, one meaning -/

theorem floatRows_are : ∀ e ∈ floatRows, ∀ f, ∃ enc,
    slotSem (e.1 f) = some (floatOp f e.2.1 enc (e.2.2.1 f) (e.2.2.2 (fRnd f) f)) ∧
      ((e.1 f).wf = true → (fRnd f).toNat ≤ 4) := by
  intro e he f
  simp only [floatRows, List.mem_cons, List.not_mem_nil, or_false] at he
  rcases he with rfl | rfl | rfl | rfl | rfl | rfl <;>
    exact ⟨_, rfl, fun hw => by simp_all [Instr.wf, fRnd]⟩

theorem minMaxRows_are : ∀ e ∈ minMaxRows, ∀ f, slotSem (e.1 f) = some (floatMinMax f e.2) ∧
    ((e.1 f).wf = true → field 0 8 f.x = (0 : BitVec 8)) := by
  intro e he f
  simp only [minMaxRows, List.mem_cons, List.not_mem_nil, or_false] at he
  rcases he with rfl | rfl <;> exact ⟨rfl, fun hw => by simp_all [Instr.wf]⟩

/-! ### `fsgn` (R111): a code with its sign bit replaced -/

/-- The low `p` bits of a number under a bit `p` of one's own. -/
theorem testBit_mod_add_bit (a p n : Nat) (b : Bool) : (a % 2 ^ p + if b then 2 ^ p else 0).testBit n =
    if n < p then a.testBit n else if n = p then b else false := by
  have hor : (a % 2 ^ p + if b then 2 ^ p else 0) = 2 ^ p * b.toNat ||| a % 2 ^ p := by
    rw [← Nat.two_pow_add_eq_or_of_lt (Nat.mod_lt _ (by positivity))]
    cases b <;> simp [Nat.add_comm]
  rw [hor, Nat.testBit_or, Nat.testBit_mod_two_pow, Nat.testBit_two_pow_mul]
  rcases lt_trichotomy n p with h | rfl | h
  · simp [h, Nat.not_le.2 h]
  · cases b <;> simp
  · have hb : b.toNat.testBit (n - p) = false :=
      Nat.testBit_lt_two_pow (b.toNat_le.trans_lt (Nat.one_lt_two_pow (by omega)))
    simp [hb, h.not_gt, h.ne']

/-- A code of `p + 1` bits whose sign bit, where the format has one, is replaced by `b`. -/
theorem getLsbD_withSign (a : Word) (p : Nat) (sgn b : Bool) {n : Nat} (hn : n < 64) :
    (BitVec.ofNat 64 (if sgn then a.toNat % 2 ^ (p + 1) % 2 ^ p + (if b then 2 ^ p else 0) else a.toNat % 2 ^ (p + 1))).getLsbD n =
      if n < p ∨ (n = p ∧ sgn = false) then a.getLsbD n else if n = p then b else false := by
  rw [BitVec.getLsbD_ofNat, decide_eq_true hn, Bool.true_and]
  cases sgn
  · have hle : (n < p ∨ n = p) ↔ n < p + 1 := by omega
    have hne : ¬ n < p + 1 → n ≠ p := by omega
    simp only [Bool.false_eq_true, if_false, and_true, Nat.testBit_mod_two_pow, hle]
    by_cases h : n < p + 1
    · simp [h, BitVec.testBit_toNat]
    · simp [h, hne h]
  · rw [if_pos rfl, Nat.mod_mod_of_dvd _ (pow_dvd_pow 2 (Nat.le_succ p)), testBit_mod_add_bit]
    simp [BitVec.testBit_toNat]

/-- Bit `p` of a source, as `fsgn` reads it from the second one. -/
theorem div_mod_beq_one (x : Word) (p : Nat) : (x.toNat / 2 ^ p % 2 == 1) = x.getLsbD p := by
  rw [← BitVec.testBit_toNat, Nat.testBit_eq_decide_div_mod_eq]
  rfl

/-- Bit `p` of a source, as `fsgn` reads it from the code of `p + 1` bits in the first one. -/
theorem mod_div_beq_one (x : Word) (p : Nat) : (x.toNat % 2 ^ (p + 1) / 2 ^ p == 1) = x.getLsbD p := by
  rw [pow_succ, Nat.mod_mul_right_div_self, div_mod_beq_one]

theorem fsgn_fn_cases {fn : BitVec 2} (h : fn.toNat ≤ 2) : fn = 0 ∨ fn = 1 ∨ fn = 2 := by
  revert fn
  decide

theorem fmtStore_pos (e : BitVec 32) : 0 < fmtStore e := by
  simp [fmtStore, Nat.shiftLeft_eq]

/-- `fsgn` issues with a code whose bits are those of the first source, but for the sign where the format has one (R111). -/
theorem fsgn_issues {f : RForm} {s : State} (hgo : goR .fsgn f s [.s f.a, .s f.b]) (h : floatEntry (s.core.fmt (fEnt f))) :
    ∃ x : Word, exec (.fsgn f) s = .next (s.issued (intoS f 4 (fun _ => x))) ∧
      ∀ n < 64, x.getLsbD n =
        (let e := s.core.fmt (fEnt f)
         let sa := (s.core.sreg f.a).getLsbD (fmtStore e - 1)
         let sb := (s.core.sreg f.b).getLsbD (fmtStore e - 1)
         if n < fmtStore e - 1 ∨ (n = fmtStore e - 1 ∧ fmtSgn e = false) then (s.core.sreg f.a).getLsbD n
         else if n = fmtStore e - 1 then
           (if field 0 2 f.x = 0 then sb else if field 0 2 f.x = 1 then !sb else sa ^^ sb)
         else false) := by
  obtain ⟨hw, hi⟩ := hgo
  obtain ⟨-, hfn⟩ : (f.c = 0 ∧ field 2 6 f.x = (0 : BitVec 6)) ∧ (field 0 2 f.x : BitVec 2).toNat ≤ 2 := by
    simpa [Instr.wf] using hw
  refine ⟨_, exec_rSlot (i := .fsgn f) rfl hw hi (fsgn_check hw h), fun n hn => ?_⟩
  obtain ⟨p, hp⟩ : ∃ p, fmtStore (s.core.fmt (fEnt f)) = p + 1 := ⟨_, (Nat.succ_pred_eq_of_pos (fmtStore_pos _)).symm⟩
  simp only [hp, Nat.add_sub_cancel, getLsbD_withSign _ _ _ _ hn, mod_div_beq_one, div_mod_beq_one]
  refine if_congr .rfl rfl (if_congr .rfl ?_ rfl)
  rcases fsgn_fn_cases hfn with h0 | h1 | h2
  · simp [h0]
  · simp [h1]
  · simp [h2]

/-- Settles O4: each instruction is a slot of form R whose check a valid entry passes, and `fsgn` is followed bit by bit. -/
theorem floatAndConversionResults : Obligations.FloatAndConversionResults := by
  unfold Obligations.FloatAndConversionResults
  refine ⟨⟨?_, ?_, ?_, ?_, ?_⟩, ?_, ?_, ?_⟩
  · intro e he f s ⟨hw, hi⟩ h
    obtain ⟨enc, hm, hr⟩ := floatRows_are e he f
    exact exec_rSlot hm hw hi (lowestCause_none (floatChecks_ok (hr hw) h))
  · intro e he f s ⟨hw, hi⟩ h
    obtain ⟨hm, hx⟩ := minMaxRows_are e he f
    exact exec_rSlot hm hw hi (floatChecks_none (hx hw) h)
  · intro f s ⟨hw, hi⟩ h
    exact exec_rSlot (i := .fcmp f) rfl hw hi (fcmp_check hw h)
  · intro f s ⟨hw, hi⟩ h
    obtain ⟨-, hx⟩ : (f.b = 0 ∧ f.c = 0) ∧ field 0 8 f.x = (0 : BitVec 8) := by simpa [Instr.wf] using hw
    exact exec_rSlot (i := .fclass f) rfl hw hi (floatChecks_none hx h)
  · intro f s hgo h
    exact fsgn_issues hgo h
  · intro f s ⟨hw, hi⟩ hv hk hs
    obtain ⟨-, hr⟩ : ((f.b = 0 ∧ field 4 2 f.c = (0 : BitVec 2)) ∧ field 0 4 f.x = (0 : BitVec 4)) ∧ (fRnd f).toNat ≤ 4 := by
      simpa [Instr.wf, fRnd] using hw
    exact exec_rSlot (i := .fcvt f) rfl hw hi (lowestCause_none (by simp [fEnt, hr, hv, hk, hs]))
  · intro f s ⟨hw, hi⟩ hv
    obtain ⟨⟨-, ht⟩, hr⟩ : ((f.b = 0 ∧ f.c = 0) ∧ typeOk (field 0 4 f.x) = true) ∧ (fRnd f).toNat ≤ 4 := by
      simpa [Instr.wf, fRnd, typeOk] using hw
    exact exec_rSlot (i := .fcvti f) rfl hw hi (lowestCause_none (by simp [fEnt, hr, ht, hv]))
  · intro f s ⟨hw, hi⟩ hv hk
    obtain ⟨⟨-, ht⟩, hr⟩ : ((f.b = 0 ∧ f.c = 0) ∧ typeOk (field 0 4 f.x) = true) ∧ (fRnd f).toNat ≤ 4 := by
      simpa [Instr.wf, fRnd, typeOk] using hw
    exact exec_rSlot (i := .icvtf f) rfl hw hi (lowestCause_none (by simp [fEnt, hr, ht, hv, hk]))

end Sys2Proof.Machine
end

section
/-! Reductions over the fixed tree (O15): the model's pairwise fold is the tree of R51. -/

namespace Sys2Proof.Machine

open Sys2Proof.Claims

/-! ### The tree (R51) -/

/-- One level of the tree over `2 * n` leaves in order leaves `n` nodes in order. -/
theorem pairUp_map_range {α : Type} (g : α → α → α) (leaf : Nat → α) (n : Nat) :
    pairUp g ((List.range (2 * n)).map leaf) = (List.range n).map fun j => g (leaf (2 * j)) (leaf (2 * j + 1)) := by
  induction n generalizing leaf with
  | zero => rfl
  | succ n ih =>
    have hsplit : List.range (2 * (n + 1)) = 0 :: 1 :: (List.range (2 * n)).map (· + 2) := by
      rw [show 2 * (n + 1) = 2 * n + 1 + 1 by omega, List.range_succ_eq_map, List.range_succ_eq_map]
      simp [Function.comp_def]
    rw [hsplit, List.range_succ_eq_map]
    simp only [List.map_cons, List.map_map, pairUp]
    exact congrArg _ (ih (leaf ∘ (· + 2)))

/-- A tree one level higher is the tree over the nodes of the first level. -/
theorem tree_firstLevel {α : Type} (g : α → α → α) (leaf : Nat → α) (k j : Nat) :
    tree g (fun j => g (leaf (2 * j)) (leaf (2 * j + 1))) k j = tree g leaf (k + 1) j := by
  induction k generalizing j with
  | zero => rfl
  | succ k ih => rw [tree, ih, ih]; rfl

/-- The levels of the fold over `2 ^ k` leaves leave the root of the tree alone. -/
theorem treeFold_eq_tree {α : Type} (g : α → α → α) (leaf : Nat → α) (k : Nat) :
    treeFold g k ((List.range (2 ^ k)).map leaf) = [tree g leaf k 0] := by
  induction k generalizing leaf with
  | zero => rfl
  | succ k ih => rw [treeFold, Nat.pow_succ', pairUp_map_range, ih, tree_firstLevel]

/-- The lanes of a vector are as many as a full tree has leaves (R128). -/
theorem vn_eq_two_pow (f : VForm) : vn f = 2 ^ (vn f).log2 := by
  have h : ∀ l : BitVec 2, 1024 / laneWidth l = 2 ^ (1024 / laneWidth l).log2 := by decide
  exact h f.lw

/-- The fold of a reduction over the lanes answers the root of the tree. -/
theorem treeFold_lanes {α : Type} (f : VForm) (g : α → α → α) (leaf : Nat → α) (d : α) :
    (treeFold g (vn f).log2 ((List.range (vn f)).map leaf)).head?.getD d = tree g leaf (1024 / lw f).log2 0 := by
  have h := treeFold_eq_tree g leaf (vn f).log2
  rw [← vn_eq_two_pow] at h
  rw [h]
  rfl

/-! ### The reductions (R137) -/

theorem vIntRed_issues {f : VForm} {s : State} {enc : List (Nat × Bool)} {ident : Nat} {g node : Nat → Nat → Nat}
    (he : (vIntRed f enc ident g).encOk) (hi : s.mayIssue none [.v f.va]) (hg : ∀ a b, g a b = node a b) :
    s.issueOne (vIntRed f enc ident g) = s.issued (fun c => c.result .v 6 (.v f.vd (BitVec.ofNat 1024
      (tree node (fun i => if on f c i then la f c i else ident) (1024 / lw f).log2 0))) 0) := by
  obtain rfl : g = node := funext₂ hg
  refine (vSlot_next hi he rfl).trans ?_
  simp only [treeFold_lanes]
  rfl

/-- A valid entry of the lanes' width passes the checks of a float vector instruction (R32, R45, R133). -/
theorem vFloatChecks_ok {f : VForm} {c : Core} (hr : f.rnd.toNat ≤ 4) (h : vecEntry f c) : ∀ e ∈ vFloatChecks f c, e.1 = true := by
  obtain ⟨⟨hv, hf⟩, hl⟩ := h
  have hw : vw f = fmtStore (c.fmt f.fmt) := hl
  simp [vFloatChecks, hr, hv, hf, hw]

theorem vFloatRed_issues {f : VForm} {s : State} {mx : Bool} {ident : Num} {root : BitVec 32 → Nat}
    {g : BitVec 32 → Num → Num → Nat × Flags} (hw : (Instr.vfredadd f).wf = true) (hi : s.mayIssue none [.v f.va])
    (h : vecEntry f s.core) :
    s.issueOne (vFloatRed f mx ident root g) = s.issued (fun c =>
      let e := c.fmt f.fmt
      let r := tree (rCombine mx ident (c.decode e) (g e)) (fun i => (if on f c i then some (la f c i) else none, 0))
        (1024 / lw f).log2 0
      c.result .v 6 (.v f.vd (BitVec.ofNat 1024 (r.1.getD (root e)))) r.2) := by
  have hr : f.rnd.toNat ≤ 4 := by simp_all [Instr.wf]
  refine (vSlot_next hi (vFloatRed_encOk hw mx ident root g) (lowestCause_none (vFloatChecks_ok hr h))).trans ?_
  simp only [treeFold_lanes]
  rfl

/-- Settles O15: the fold of each reduction is the tree of R51. -/
theorem vectorReductionResults : Obligations.VectorReductionResults := by
  unfold Obligations.VectorReductionResults
  refine ⟨?_, ?_, ?_, ?_⟩
  · intro f s ⟨hw, hi⟩
    have he : (semVredadd f).encOk := encOk_of_wf (i := .vredadd f) rfl hw
    refine congrArg _ (vIntRed_issues he hi fun a b => ?_)
    simp only [beq_iff_eq]
    rfl
  · intro f s ⟨hw, hi⟩
    have he : (semVredmax f).encOk := encOk_of_wf (i := .vredmax f) rfl hw
    exact congrArg _ (vIntRed_issues he hi fun a b => rfl)
  · intro f s ⟨hw, hi⟩ h
    exact congrArg _ (vFloatRed_issues hw hi h)
  · intro f s ⟨hw, hi⟩ h
    exact congrArg _ (vFloatRed_issues hw hi h)

end Sys2Proof.Machine
end

section
/-! Reserved fields and sub-codes (O59): what traps before it issues (R24, R62, R101). -/

namespace Sys2Proof.Machine

open Sys2Proof.Claims

/-! ### A slot whose fields are not as required -/

/-- Nothing of one slot's own, and nothing outside it, holds its bundle. -/
theorem SlotSem.waitOut_none_of_waits {m : SlotSem} {s : State} (hs : m.slot ≠ .none) (hw : m.waits s = none)
    (hl : m.waitsLate s = none) (hu : s.unheld) (hr : (m.effect s).core.lockstepCount ≤ 32) : s.waitOut Header.zero [m] = none := by
  obtain ⟨hload, hlog, hthrottle, -, -⟩ := hu
  simp [State.waitOut, State.issueFrozen, runWaits, hw, hload, hlog, hthrottle, effectOrder_one m hs, runEffects, lateWait, hl,
    Nat.not_lt.2 hr]

/-- A field that is not as required traps before the guard is looked at (R62, R101). -/
theorem SlotSem.issueOne_reservedField {m : SlotSem} {s : State} {bit : Nat} (hs : m.slot ≠ .none) (hab : m.absent s = none)
    (hw : m.waits s = none) (hl : m.waitsLate s = none) (hu : s.unheld) (hr : (m.effect s).core.lockstepCount ≤ 32)
    (hbit : lowestBit m.enc = some bit) : s.issueOne m = s.trapPrecise (badField m.slot bit) := by
  have hcause : m.cause s = some (badField m.slot bit) := by simp [SlotSem.cause, hab, hbit]
  simp [State.issueOne, State.issueSlots, SlotSem.waitOut_none_of_waits hs hw hl hu hr, firstSlotCause, hcause]

/-! ### S slots: a field not as required, and a failing check -/

/-- Whatever its guard, an S slot leaves room in the snapshot when nothing held its bundle (R18). -/
theorem rSlot_room {s : State} (hu : s.unheld) (f : RForm) (enc reads check lat res) :
    ((rSlot f enc reads check lat res).effect s).core.lockstepCount ≤ 32 := by
  unfold SlotSem.effect
  split
  · simpa only [rSlot, onCore_core] using hu.result_room ..
  · exact hu.room

/-- A form-R instruction of whose fields the first alone is not as required traps with the bundle bit of that field. -/
theorem rSlot_reservedField {f : RForm} {bit : Nat} {enc reads check lat res} {s : State} (hi : s.mayIssue (some (f.gi, f.gp)) reads)
    (he : ∀ e ∈ enc, e.2 = true) :
    s.issueOne (rSlot f ((bit, false) :: enc) reads check lat res) = s.trapPrecise (badField (sSlot f.s1) (sBase f.s1 + bit)) := by
  have hrest : lowestBit (enc.map fun e => (sBase f.s1 + e.1, e.2)) = none := lowestBit_none (by simpa using he)
  have hbit : lowestBit (rSlot f ((bit, false) :: enc) reads check lat res).enc = some (sBase f.s1 + bit) := by
    simp [rSlot, lowestBit, hrest]
  exact SlotSem.issueOne_reservedField (sSlot_ne f.s1) rfl (SlotSem.waits_none hi rfl) (by simp [SlotSem.waitsLate, rSlot, plainSlot])
    hi.unheld (rSlot_room hi.unheld ..) hbit

theorem rSlot_traps {f : RForm} {enc reads check lat res} {s : State} {k : Cause} (hi : s.mayIssue (some (f.gi, f.gp)) reads)
    (he : ∀ e ∈ enc, e.2 = true) (hk : check s.core = some k) : s.issueOne (rSlot f enc reads check lat res) = s.trapPrecise k :=
  SlotSem.issueOne_trap (sSlot_ne f.s1) rfl hi rfl rfl (lowestBit_none (rSlot_encOk he)) hk
    (by simpa only [rSlot, onCore_core] using hi.unheld.result_room ..)

theorem iSlot_traps {f : IForm} {enc reads check lat res} {s : State} {k : Cause} (hi : s.mayIssue (some (f.gi, f.gp)) reads)
    (he : ∀ e ∈ enc, e.2 = true) (hk : check s.core = some k) : s.issueOne (iSlot f enc reads check lat res) = s.trapPrecise k :=
  SlotSem.issueOne_trap (sSlot_ne f.s1) rfl hi rfl rfl (lowestBit_none (iSlot_encOk he)) hk
    (by simpa only [iSlot, onCore_core] using hi.unheld.result_room ..)

/-! ### The bundle bits of an S slot's fields (R60) -/

/-- The C field of form R. -/
theorem sBase_c (s1 : Bool) : sBase s1 + 12 = if s1 then 284 else 332 := by
  cases s1 <;> rfl

/-- The lowest bit of an S slot, where X and IMM18 begin. -/
theorem sBad_zero (s1 : Bool) : sBad s1 0 = badField (sSlot s1) (if s1 then 272 else 320) := by
  cases s1 <;> rfl

/-! ### The instructions -/

theorem typed2_traps_c {f : RForm} {s : State} (hi : s.mayIssue (some (f.gi, f.gp)) [.s f.a, .s f.b])
    (hx : field 4 8 f.x = (0 : BitVec 8)) (hc : f.c ≠ 0) (lat : Nat) (op : Nat → Nat → Nat → Nat) :
    s.issueOne (typed2 f lat op) = s.trapPrecise (badField (sSlot f.s1) (if f.s1 then 284 else 332)) := by
  rw [typed2, beq_eq_false_iff_ne.2 hc, rSlot_reservedField hi (by simp [hx]), sBase_c]

theorem typed2_traps_type {f : RForm} {s : State} (hi : s.mayIssue (some (f.gi, f.gp)) [.s f.a, .s f.b])
    (hx : field 4 8 f.x = (0 : BitVec 8)) (hc : f.c = 0) (ht : 8 ≤ (field 0 4 f.x : BitVec 4).toNat) (lat : Nat)
    (op : Nat → Nat → Nat → Nat) :
    s.issueOne (typed2 f lat op) = s.trapPrecise (badField (sSlot f.s1) (if f.s1 then 272 else 320)) := by
  have hcode : typeOk (field 0 4 f.x) = false := decide_eq_false (Nat.not_lt.2 ht)
  exact rSlot_traps hi (by simp [hx, hc]) (by simp [hcode, sBad_zero])

theorem bfCheck_traps {f : RForm} (h : 64 < (field 6 6 f.x : BitVec 6).toNat + (field 0 6 f.x : BitVec 6).toNat + 1) :
    bfCheck f = some (badField (sSlot f.s1) (if f.s1 then 272 else 320)) :=
  (if_neg (Nat.not_le.2 h)).trans (congrArg some (sBad_zero f.s1))

theorem stgCheck_traps {f : IForm} (h : 48 ≤ (field 0 6 f.imm : BitVec 6).toNat) :
    stgCheck f = some (badField (sSlot f.s1) (if f.s1 then 272 else 320)) :=
  (if_neg (Nat.not_lt.2 h)).trans (congrArg some (sBad_zero f.s1))

theorem semCmp_traps {f : RForm} {s : State} (hi : s.mayIssue (some (f.gi, f.gp)) [.s f.a, .s f.b])
    (hd : field 0 3 f.d = (0 : BitVec 3)) (hc : f.c = 0) (hx : field 4 8 f.x = (0 : BitVec 8))
    (hcc : 9 < (field 0 4 f.x : BitVec 4).toNat) :
    s.issueOne (semCmp f) = s.trapPrecise (badField (sSlot f.s1) (if f.s1 then 272 else 320)) :=
  rSlot_traps hi (by simp [hd, hc, hx]) (by rw [if_neg (Nat.not_le.2 hcc), sBad_zero])

/-- `setfmt` of an entry that reset fills, or of a word that R32 rejects, traps with the word. -/
theorem semSetfmt_traps {f : IForm} {s : State} (hgo : goI .setfmt f s [.s f.a])
    (h : (field 0 4 f.imm : BitVec 4).toNat < 4 ∨ fmtLegal (field 0 32 (s.core.sreg f.a)) = false) :
    s.issueOne (semSetfmt f) =
      s.trapPrecise (precise (sSlot f.s1) 0x06 ((field 0 32 (s.core.sreg f.a) : BitVec 32).setWidth 64)) := by
  obtain ⟨hw, hi⟩ := hgo
  have hno : (decide (4 ≤ (field 0 4 f.imm : BitVec 4).toNat) && fmtLegal (field 0 32 (s.core.sreg f.a))) = false := by
    rw [Bool.and_eq_false_iff, decide_eq_false_iff_not, Nat.not_le]
    exact h
  exact iSlot_traps hi (by simpa [Instr.wf, and_assoc] using hw) (if_neg (Bool.eq_false_iff.1 hno))

/-- Settles O59: a field's fault comes before the guard, a sub-code's is the slot's check. -/
theorem reservedFieldsTrap : Obligations.ReservedFieldsTrap := by
  unfold Obligations.ReservedFieldsTrap
  refine ⟨?_, ?_, ?_, ?_, ?_, ?_, ?_⟩
  · intro i m s bit hm hbit hab hw hl hu hr
    obtain ⟨hs, hx⟩ := exec_of_slotSem hm
    rw [hx, SlotSem.issueOne_reservedField hs hab hw hl hu hr hbit]
  · exact fun i m hm hwf => lowestBit_none (encOk_of_wf hm hwf)
  · intro e he f s hi hx
    obtain ⟨-, hex⟩ := typedRows_are e he f
    refine ⟨fun hc => (hex s).trans (congrArg _ ?_), fun hc ht => (hex s).trans (congrArg _ ?_)⟩
    · exact typed2_traps_c hi hx hc ..
    · exact typed2_traps_type hi hx hc ht ..
  · intro i hmem f s hi hb hc hlen
    have henc : ∀ e ∈ [(18, f.b == 0), (12, f.c == 0)], e.2 = true := by simp [hb, hc]
    simp only [List.mem_cons, List.not_mem_nil, or_false] at hmem
    rcases hmem with rfl | rfl
    · exact congrArg _ (rSlot_traps hi henc (bfCheck_traps hlen))
    · exact congrArg _ (rSlot_traps hi henc (bfCheck_traps hlen))
  · intro f s hi hd hc hx hcc
    exact congrArg _ (semCmp_traps hi hd hc hx hcc)
  · intro f s hgo h
    exact congrArg _ (semSetfmt_traps hgo h)
  · intro f s hi hd hb hz hn
    exact congrArg _ (iSlot_traps hi (by simp [hd, hb, hz]) (stgCheck_traps hn))

end Sys2Proof.Machine
end

section
/-! SUPPORT. The decoder and the encoder undo each other: for the fields of a word, for each form, for each slot, and for a
bundle of one slot (R60, R66 to R71, R86 to R100). -/

namespace Sys2Proof

open Sys2Proof.Machine

/-! ### Fields of words put side by side -/

/-- Two fields that touch, side by side, are one field. -/
theorem field_append_field {hi lo m n w : Nat} (x : BitVec w) (h : hi = lo + n) :
    (field hi m x ++ field lo n x : BitVec (m + n)) = field lo (m + n) x := by
  subst h
  exact BitVec.extractLsb'_append_extractLsb'_eq_extractLsb' rfl

theorem field_append_low {lo k m n : Nat} (x : BitVec m) (y : BitVec n) (h : lo + k ≤ n) : field lo k (x ++ y) = field lo k y :=
  BitVec.extractLsb'_append_eq_of_add_le h

theorem field_append_high {lo k m n : Nat} (x : BitVec m) (y : BitVec n) (h : n ≤ lo) :
    field lo k (x ++ y) = field (lo - n) k x :=
  BitVec.extractLsb'_append_eq_of_le h

theorem field_self {n : Nat} (x : BitVec n) : field 0 n x = x := BitVec.extractLsb'_eq_self

/-! ### Bundles (R60) -/

@[simp] theorem splitBundle_joinBundle (b : Bundle) : splitBundle (joinBundle b) = b := by
  simp (disch := decide) only [splitBundle, joinBundle, field_append_high, field_append_low, field_self, Nat.reduceSub]

@[simp] theorem joinBundle_splitBundle (b : BundleWord) : joinBundle (splitBundle b) = b := by
  simp (disch := decide) only [splitBundle, joinBundle, field_append_field, field_self]

/-! ### Forms: a word is the one put together from an opcode and operands just when they are what is read from it (R66 to R70) -/

/-- What is read back is what was put, and what is put back is what was read. -/
theorem eq_iff_of_reads {O F W : Type} {put : O → F → W} {opc : W → O} {get : W → F} {op : O} {f : F} {w : W}
    (hread : opc (put op f) = op ∧ get (put op f) = f) (hput : put (opc w) (get w) = w) :
    put op f = w ↔ opc w = op ∧ get w = f where
  mp h := h ▸ hread
  mpr := fun ⟨hop, hf⟩ => hop ▸ hf ▸ hput

theorem putRForm_eq_iff {op : BitVec 8} {f : RForm} {w : BitVec 48} :
    putRForm op f = w ↔ field 40 8 w = op ∧ getRForm f.s1 w = f :=
  eq_iff_of_reads
    (by simp (disch := decide) only [putRForm, getRForm, field_append_high, field_append_low, field_self, Nat.reduceSub, and_self])
    (by simp (disch := decide) only [putRForm, getRForm, field_append_field, field_self])

theorem putIForm_eq_iff {op : BitVec 8} {f : IForm} {w : BitVec 48} :
    putIForm op f = w ↔ field 40 8 w = op ∧ getIForm f.s1 w = f :=
  eq_iff_of_reads
    (by simp (disch := decide) only [putIForm, getIForm, field_append_high, field_append_low, field_self, Nat.reduceSub, and_self])
    (by simp (disch := decide) only [putIForm, getIForm, field_append_field, field_self])

theorem putLForm_eq_iff {op : BitVec 8} {f : LForm} {w : BitVec 48} :
    putLForm op f = w ↔ field 40 8 w = op ∧ getLForm f.s1 w = f :=
  eq_iff_of_reads
    (by simp (disch := decide) only [putLForm, getLForm, field_append_high, field_append_low, field_self, Nat.reduceSub, and_self])
    (by simp (disch := decide) only [putLForm, getLForm, field_append_field, field_self])

theorem putBrForm_eq_iff {op : BitVec 6} {f : BrForm} {w : BitVec 32} :
    putBrForm op f = w ↔ field 26 6 w = op ∧ getBrForm w = f :=
  eq_iff_of_reads
    (by simp (disch := decide) only [putBrForm, getBrForm, field_append_high, field_append_low, field_self, Nat.reduceSub, and_self])
    (by simp (disch := decide) only [putBrForm, getBrForm, field_append_field, field_self])

theorem putBareForm_eq_iff {op : BitVec 6} {f : BareForm} {w : BitVec 32} :
    putBareForm op f = w ↔ field 26 6 w = op ∧ getBareForm w = f :=
  eq_iff_of_reads
    (by simp (disch := decide) only [putBareForm, getBareForm, field_append_high, field_append_low, field_self, Nat.reduceSub, and_self])
    (by simp (disch := decide) only [putBareForm, getBareForm, field_append_field, field_self])

theorem putLoopForm_eq_iff {op : BitVec 6} {f : LoopForm} {w : BitVec 32} :
    putLoopForm op f = w ↔ field 26 6 w = op ∧ getLoopForm w = f :=
  eq_iff_of_reads
    (by simp (disch := decide) only [putLoopForm, getLoopForm, field_append_high, field_append_low, field_self, Nat.reduceSub, and_self])
    (by simp (disch := decide) only [putLoopForm, getLoopForm, field_append_field, field_self])

theorem putWaitForm_eq_iff {op : BitVec 6} {f : WaitForm} {w : BitVec 32} :
    putWaitForm op f = w ↔ field 26 6 w = op ∧ getWaitForm w = f :=
  eq_iff_of_reads
    (by simp (disch := decide) only [putWaitForm, getWaitForm, field_append_high, field_append_low, field_self, Nat.reduceSub, and_self])
    (by simp (disch := decide) only [putWaitForm, getWaitForm, field_append_field, field_self])

theorem putSyncForm_eq_iff {op : BitVec 6} {f : SyncForm} {w : BitVec 32} :
    putSyncForm op f = w ↔ field 26 6 w = op ∧ getSyncForm w = f :=
  eq_iff_of_reads
    (by simp (disch := decide) only [putSyncForm, getSyncForm, field_append_high, field_append_low, field_self, Nat.reduceSub, and_self])
    (by simp (disch := decide) only [putSyncForm, getSyncForm, field_append_field, field_self])

theorem putTrapForm_eq_iff {op : BitVec 6} {f : TrapForm} {w : BitVec 32} :
    putTrapForm op f = w ↔ field 26 6 w = op ∧ getTrapForm w = f :=
  eq_iff_of_reads
    (by simp (disch := decide) only [putTrapForm, getTrapForm, field_append_high, field_append_low, field_self, Nat.reduceSub, and_self])
    (by simp (disch := decide) only [putTrapForm, getTrapForm, field_append_field, field_self])

theorem putQfenceForm_eq_iff {op : BitVec 6} {f : QfenceForm} {w : BitVec 32} :
    putQfenceForm op f = w ↔ field 26 6 w = op ∧ getQfenceForm w = f :=
  eq_iff_of_reads
    (by simp (disch := decide) only [putQfenceForm, getQfenceForm, field_append_high, field_append_low,
      field_self, Nat.reduceSub, and_self])
    (by simp (disch := decide) only [putQfenceForm, getQfenceForm, field_append_field, field_self])

theorem putVForm_eq_iff {op : BitVec 8} {f : VForm} {w : BitVec 64} :
    putVForm op f = w ↔ field 56 8 w = op ∧ getVForm w = f :=
  eq_iff_of_reads
    (by simp (disch := decide) only [putVForm, getVForm, field_append_high, field_append_low, field_self, Nat.reduceSub, and_self])
    (by simp (disch := decide) only [putVForm, getVForm, field_append_field, field_self])

theorem putLsForm_eq_iff {op : BitVec 8} {f : LsForm} {w : BitVec 48} :
    putLsForm op f = w ↔ field 40 8 w = op ∧ getLsForm w = f :=
  eq_iff_of_reads
    (by simp (disch := decide) only [putLsForm, getLsForm, field_append_high, field_append_low, field_self, Nat.reduceSub, and_self])
    (by simp (disch := decide) only [putLsForm, getLsForm, field_append_field, field_self])

theorem putLvForm_eq_iff {op : BitVec 8} {f : LvForm} {w : BitVec 48} :
    putLvForm op f = w ↔ field 40 8 w = op ∧ getLvForm w = f :=
  eq_iff_of_reads
    (by simp (disch := decide) only [putLvForm, getLvForm, field_append_high, field_append_low, field_self, Nat.reduceSub, and_self])
    (by simp (disch := decide) only [putLvForm, getLvForm, field_append_field, field_self])

theorem putLvsForm_eq_iff {op : BitVec 8} {f : LvsForm} {w : BitVec 48} :
    putLvsForm op f = w ↔ field 40 8 w = op ∧ getLvsForm w = f :=
  eq_iff_of_reads
    (by simp (disch := decide) only [putLvsForm, getLvsForm, field_append_high, field_append_low, field_self, Nat.reduceSub, and_self])
    (by simp (disch := decide) only [putLvsForm, getLvsForm, field_append_field, field_self])

theorem putLvgForm_eq_iff {op : BitVec 8} {f : LvgForm} {w : BitVec 48} :
    putLvgForm op f = w ↔ field 40 8 w = op ∧ getLvgForm w = f :=
  eq_iff_of_reads
    (by simp (disch := decide) only [putLvgForm, getLvgForm, field_append_high, field_append_low, field_self, Nat.reduceSub, and_self])
    (by simp (disch := decide) only [putLvgForm, getLvgForm, field_append_field, field_self])

theorem putStvmForm_eq_iff {op : BitVec 8} {f : StvmForm} {w : BitVec 48} :
    putStvmForm op f = w ↔ field 40 8 w = op ∧ getStvmForm w = f :=
  eq_iff_of_reads
    (by simp (disch := decide) only [putStvmForm, getStvmForm, field_append_high, field_append_low, field_self, Nat.reduceSub, and_self])
    (by simp (disch := decide) only [putStvmForm, getStvmForm, field_append_field, field_self])

theorem putAwForm_eq_iff {op : BitVec 8} {f : AwForm} {w : BitVec 48} :
    putAwForm op f = w ↔ field 40 8 w = op ∧ getAwForm w = f :=
  eq_iff_of_reads
    (by simp (disch := decide) only [putAwForm, getAwForm, field_append_high, field_append_low, field_self, Nat.reduceSub, and_self])
    (by simp (disch := decide) only [putAwForm, getAwForm, field_append_field, field_self])

theorem putSpForm_eq_iff {op : BitVec 8} {f : SpForm} {w : BitVec 48} :
    putSpForm op f = w ↔ field 40 8 w = op ∧ getSpForm w = f :=
  eq_iff_of_reads
    (by simp (disch := decide) only [putSpForm, getSpForm, field_append_high, field_append_low, field_self, Nat.reduceSub, and_self])
    (by simp (disch := decide) only [putSpForm, getSpForm, field_append_field, field_self])

theorem putSpvForm_eq_iff {op : BitVec 8} {f : SpvForm} {w : BitVec 48} :
    putSpvForm op f = w ↔ field 40 8 w = op ∧ getSpvForm w = f :=
  eq_iff_of_reads
    (by simp (disch := decide) only [putSpvForm, getSpvForm, field_append_high, field_append_low, field_self, Nat.reduceSub, and_self])
    (by simp (disch := decide) only [putSpvForm, getSpvForm, field_append_field, field_self])

theorem putXlateForm_eq_iff {op : BitVec 8} {f : XlateForm} {w : BitVec 48} :
    putXlateForm op f = w ↔ field 40 8 w = op ∧ getXlateForm w = f :=
  eq_iff_of_reads
    (by simp (disch := decide) only [putXlateForm, getXlateForm, field_append_high, field_append_low, field_self, Nat.reduceSub, and_self])
    (by simp (disch := decide) only [putXlateForm, getXlateForm, field_append_field, field_self])

theorem putHinvForm_eq_iff {op : BitVec 8} {f : HinvForm} {w : BitVec 48} :
    putHinvForm op f = w ↔ field 40 8 w = op ∧ getHinvForm w = f :=
  eq_iff_of_reads
    (by simp (disch := decide) only [putHinvForm, getHinvForm, field_append_high, field_append_low, field_self, Nat.reduceSub, and_self])
    (by simp (disch := decide) only [putHinvForm, getHinvForm, field_append_field, field_self])

theorem putHgetForm_eq_iff {op : BitVec 8} {f : HgetForm} {w : BitVec 48} :
    putHgetForm op f = w ↔ field 40 8 w = op ∧ getHgetForm w = f :=
  eq_iff_of_reads
    (by simp (disch := decide) only [putHgetForm, getHgetForm, field_append_high, field_append_low, field_self, Nat.reduceSub, and_self])
    (by simp (disch := decide) only [putHgetForm, getHgetForm, field_append_field, field_self])

theorem putLdhForm_eq_iff {op : BitVec 8} {f : LdhForm} {w : BitVec 48} :
    putLdhForm op f = w ↔ field 40 8 w = op ∧ getLdhForm w = f :=
  eq_iff_of_reads
    (by simp (disch := decide) only [putLdhForm, getLdhForm, field_append_high, field_append_low, field_self, Nat.reduceSub, and_self])
    (by simp (disch := decide) only [putLdhForm, getLdhForm, field_append_field, field_self])

theorem putLdvhForm_eq_iff {op : BitVec 8} {f : LdvhForm} {w : BitVec 48} :
    putLdvhForm op f = w ↔ field 40 8 w = op ∧ getLdvhForm w = f :=
  eq_iff_of_reads
    (by simp (disch := decide) only [putLdvhForm, getLdvhForm, field_append_high, field_append_low, field_self, Nat.reduceSub, and_self])
    (by simp (disch := decide) only [putLdvhForm, getLdvhForm, field_append_field, field_self])

theorem putAtForm_eq_iff {op : BitVec 8} {f : AtForm} {w : BitVec 48} :
    putAtForm op f = w ↔ field 40 8 w = op ∧ getAtForm w = f :=
  eq_iff_of_reads
    (by simp (disch := decide) only [putAtForm, getAtForm, field_append_high, field_append_low, field_self, Nat.reduceSub, and_self])
    (by simp (disch := decide) only [putAtForm, getAtForm, field_append_field, field_self])

theorem putFenceForm_eq_iff {op : BitVec 8} {f : FenceForm} {w : BitVec 48} :
    putFenceForm op f = w ↔ field 40 8 w = op ∧ getFenceForm w = f :=
  eq_iff_of_reads
    (by simp (disch := decide) only [putFenceForm, getFenceForm, field_append_high, field_append_low, field_self, Nat.reduceSub, and_self])
    (by simp (disch := decide) only [putFenceForm, getFenceForm, field_append_field, field_self])

theorem putFenceScForm_eq_iff {op : BitVec 8} {f : FenceScForm} {w : BitVec 48} :
    putFenceScForm op f = w ↔ field 40 8 w = op ∧ getFenceScForm w = f :=
  eq_iff_of_reads
    (by simp (disch := decide) only [putFenceScForm, getFenceScForm, field_append_high, field_append_low,
      field_self, Nat.reduceSub, and_self])
    (by simp (disch := decide) only [putFenceScForm, getFenceScForm, field_append_field, field_self])

theorem putZForm_eq_iff {op : BitVec 5} {f : ZForm} {w : BitVec 24} :
    putZForm op f = w ↔ field 19 5 w = op ∧ getZForm w = f :=
  eq_iff_of_reads
    (by simp (disch := decide) only [putZForm, getZForm, field_append_high, field_append_low, field_self, Nat.reduceSub, and_self])
    (by simp (disch := decide) only [putZForm, getZForm, field_append_field, field_self])

theorem putMForm_eq_iff {op : BitVec 5} {f : MForm} {w : BitVec 32} :
    putMForm op f = w ↔ field 27 5 w = op ∧ getMForm w = f :=
  eq_iff_of_reads
    (by simp (disch := decide) only [putMForm, getMForm, field_append_high, field_append_low, field_self, Nat.reduceSub, and_self])
    (by simp (disch := decide) only [putMForm, getMForm, field_append_field, field_self])

theorem putKForm_eq_iff {op : BitVec 5} {f : KForm} {w : BitVec 32} :
    putKForm op f = w ↔ field 27 5 w = op ∧ getKForm w = f :=
  eq_iff_of_reads
    (by simp (disch := decide) only [putKForm, getKForm, field_append_high, field_append_low, field_self, Nat.reduceSub, and_self])
    (by simp (disch := decide) only [putKForm, getKForm, field_append_field, field_self])

theorem putNForm_eq_iff {op : BitVec 5} {f : NForm} {w : BitVec 32} :
    putNForm op f = w ↔ field 27 5 w = op ∧ getNForm w = f :=
  eq_iff_of_reads
    (by simp (disch := decide) only [putNForm, getNForm, field_append_high, field_append_low, field_self, Nat.reduceSub, and_self])
    (by simp (disch := decide) only [putNForm, getNForm, field_append_field, field_self])

/-! ### What a slot's word holds (R87) -/

/-- What a slot's word must be to be read so: zero for an empty slot, an instruction's own word for that instruction. -/
def SlotRead.Tells (sl : Slot) (w : Nat) : SlotRead → Prop
  | .nop => w = 0
  | .instr i => encode i = some (sl, w)
  | .badZero | .reserved _ => True

theorem tells_zero {n : Nat} {sl : Slot} (w : BitVec n) : (if w == 0 then SlotRead.nop else .badZero).Tells sl w.toNat := by
  split
  next h => simp [SlotRead.Tells, eq_of_beq h]
  next => trivial

theorem tells_instr {n : Nat} {sl : Slot} {x w : BitVec n} {i : Instr} (he : encode i = some (sl, x.toNat)) (hx : x = w) :
    (SlotRead.instr i).Tells sl w.toNat :=
  hx ▸ he

theorem decodeS_tells (s1 : Bool) (w : BitVec 48) : (decodeS s1 w).Tells (sSlot s1) w.toNat := by
  unfold decodeS
  split
  case h_1 => exact tells_zero w
  case h_84 => trivial
  all_goals
    next hop =>
      refine tells_instr rfl ?_
      simp only [putRForm_eq_iff, putIForm_eq_iff, putLForm_eq_iff]
      exact ⟨BitVec.eq_of_toNat_eq hop, rfl⟩

theorem decodeC_tells (w : BitVec 32) : (decodeC w).Tells .c w.toNat := by
  unfold decodeC
  split
  case h_1 => exact tells_zero w
  case h_16 => trivial
  all_goals
    next hop =>
      refine tells_instr rfl ?_
      simp only [putBrForm_eq_iff, putBareForm_eq_iff, putLoopForm_eq_iff, putWaitForm_eq_iff, putSyncForm_eq_iff,
        putTrapForm_eq_iff, putQfenceForm_eq_iff, and_true]
      exact BitVec.eq_of_toNat_eq hop

theorem decodeV_tells (w : BitVec 64) : (decodeV w).Tells .v w.toNat := by
  unfold decodeV
  split
  case h_1 => exact tells_zero w
  case h_73 => trivial
  case h_56 hop =>
    have hword : putVForm 0x45 (getVForm w) = w := putVForm_eq_iff.2 ⟨BitVec.eq_of_toNat_eq hop, rfl⟩
    split
    · exact tells_instr rfl hword
    · exact tells_instr rfl hword
  all_goals
    next hop => exact tells_instr rfl (putVForm_eq_iff.2 ⟨BitVec.eq_of_toNat_eq hop, rfl⟩)

theorem decodeL_tells (w : BitVec 48) : (decodeL w).Tells .l w.toNat := by
  unfold decodeL
  split
  case h_1 => exact tells_zero w
  case h_41 => trivial
  all_goals
    next hop =>
      refine tells_instr rfl ?_
      simp only [putLsForm_eq_iff, putLvForm_eq_iff, putLvsForm_eq_iff, putLvgForm_eq_iff, putStvmForm_eq_iff,
        putAwForm_eq_iff, putSpForm_eq_iff, putSpvForm_eq_iff, putXlateForm_eq_iff, putHinvForm_eq_iff, putHgetForm_eq_iff,
        putLdhForm_eq_iff, putLdvhForm_eq_iff, putAtForm_eq_iff, putFenceForm_eq_iff, putFenceScForm_eq_iff, and_true]
      exact BitVec.eq_of_toNat_eq hop

theorem decodeZ_tells (w : BitVec 24) : (decodeZ w).Tells .z w.toNat := by
  unfold decodeZ
  split
  case h_1 => exact tells_zero w
  case h_7 => trivial
  all_goals
    next hop => exact tells_instr rfl (putZForm_eq_iff.2 ⟨BitVec.eq_of_toNat_eq hop, rfl⟩)

theorem decodeM_tells (w : BitVec 32) : (decodeM w).Tells .m w.toNat := by
  unfold decodeM
  split
  case h_1 => exact tells_zero w
  case h_8 => trivial
  all_goals
    next hop => exact tells_instr rfl (putMForm_eq_iff.2 ⟨BitVec.eq_of_toNat_eq hop, rfl⟩)

theorem decodeK_tells (w : BitVec 32) : (decodeK w).Tells .k w.toNat := by
  unfold decodeK
  split
  case h_1 => exact tells_zero w
  case h_8 => trivial
  all_goals
    next hop => exact tells_instr rfl (putKForm_eq_iff.2 ⟨BitVec.eq_of_toNat_eq hop, rfl⟩)

theorem decodeN_tells (w : BitVec 32) : (decodeN w).Tells .n w.toNat := by
  unfold decodeN
  split
  case h_1 => exact tells_zero w
  case h_11 => trivial
  all_goals
    next hop => exact tells_instr rfl (putNForm_eq_iff.2 ⟨BitVec.eq_of_toNat_eq hop, rfl⟩)

/-! ### An instruction's word read back -/

/-- What slot `sl` with word `w` holds. -/
def readSlot (sl : Slot) (w : Nat) : SlotRead :=
  match sl with
  | .s0 => decodeS false (BitVec.ofNat 48 w)
  | .s1 => decodeS true (BitVec.ofNat 48 w)
  | .c => decodeC (BitVec.ofNat 32 w)
  | .v => decodeV (BitVec.ofNat 64 w)
  | .l => decodeL (BitVec.ofNat 48 w)
  | .z => decodeZ (BitVec.ofNat 24 w)
  | .m => decodeM (BitVec.ofNat 32 w)
  | .k => decodeK (BitVec.ofNat 32 w)
  | .n => decodeN (BitVec.ofNat 32 w)
  | .h | .none => .nop

theorem readSlot_s (s1 : Bool) (x : BitVec 48) : readSlot (if s1 then .s1 else .s0) x.toNat = decodeS s1 x := by
  cases s1 <;> simp [readSlot]

theorem readSlot_c (x : BitVec 32) : readSlot .c x.toNat = decodeC x := by simp [readSlot]
theorem readSlot_v (x : BitVec 64) : readSlot .v x.toNat = decodeV x := by simp [readSlot]
theorem readSlot_l (x : BitVec 48) : readSlot .l x.toNat = decodeL x := by simp [readSlot]
theorem readSlot_z (x : BitVec 24) : readSlot .z x.toNat = decodeZ x := by simp [readSlot]
theorem readSlot_m (x : BitVec 32) : readSlot .m x.toNat = decodeM x := by simp [readSlot]
theorem readSlot_k (x : BitVec 32) : readSlot .k x.toNat = decodeK x := by simp [readSlot]
theorem readSlot_n (x : BitVec 32) : readSlot .n x.toNat = decodeN x := by simp [readSlot]

/-- A form's word in a slot reads as what the row of its opcode says of its operands. -/
theorem readSlot_of_reads {F : Type} {k n w : Nat} {sl sl' : Slot} {r : SlotRead} {put : BitVec k → F → BitVec n}
    {opc : BitVec n → BitVec k} {get : BitVec n → F} {op : BitVec k} {f : F} {decode : BitVec n → SlotRead}
    (he : some (sl, (put op f).toNat) = some (sl', w)) (hslot : ∀ x : BitVec n, readSlot sl x.toNat = decode x)
    (hform : put op f = put op f ↔ opc (put op f) = op ∧ get (put op f) = f)
    (hrow : ∀ x, opc x = op → get x = f → decode x = r) : readSlot sl' w = r := by
  obtain ⟨hop, hf⟩ := hform.1 rfl
  cases he
  exact (hslot _).trans (hrow _ hop hf)

/-- The lowest bit of FN tells `vperm2` from `vperm`, which share an opcode (R138). -/
theorem decodeV_putVForm_vperm (f : VForm) :
    decodeV (putVForm 0x45 f) = .instr (if f.fn.getLsbD 0 then .vperm2 f else .vperm f) := by
  obtain ⟨hop, hf⟩ := putVForm_eq_iff.1 (rfl : putVForm 0x45 f = _)
  have hbit : (putVForm 0x45 f).getLsbD 0 = f.fn.getLsbD 0 := by
    rw [putVForm, BitVec.getLsbD_append]
    rfl
  rw [decodeV, hop, hf, hbit]
  exact (apply_ite SlotRead.instr _ _ _).symm

/-- The reserved bits of FN begin at its lowest bit, whether or not the B operand is a scalar. -/
theorem vperm_fn_even {f : VForm} (h : (Instr.vperm f).wf = true) : f.fn.getLsbD 0 = false := by
  simp only [Instr.wf, Bool.and_eq_true, beq_iff_eq] at h
  obtain ⟨-, hfn⟩ := h
  have hmod : f.fn.toNat % 2 = 0 := by
    split at hfn
    · omega
    · omega
  rw [← BitVec.testBit_toNat, Nat.testBit_zero, hmod]
  rfl

/-- The instruction that a word reads as: the forms of `kfill` share theirs (R196). -/
def Instr.asRead : Instr → Instr
  | .kfillConfigure f => .kfill f
  | i => i

/-- The word of a well-formed instruction reads as the instruction, by the row of its opcode and what its form reads back. -/
theorem readSlot_encode {i : Instr} {sl : Slot} {w : Nat} (hwf : i.wf = true) (he : encode i = some (sl, w)) :
    readSlot sl w = .instr i.asRead := by
  cases i with
  | add f | sub f | mul f | mulh f | mulhn f | div f | divn f | rem f | remn f | and f | or f | xor f | andn f | shl f | shr f
  | sra f | rol f | min f | max f | minn f | maxn f | clz f | ctz f | popc f | bswap f | exts f | extz f | ins f | sel f
  | lea f | cmp f | pand f | por f | pxor f | pmov f | ptos f | fadd f | fsub f | fmul f | ffma f | fmin f | fmax f | fdiv f
  | fsqrt f | fcmp f | fclass f | fsgn f | fcvt f | fcvti f | icvtf f | prep f =>
    exact readSlot_of_reads he (readSlot_s f.s1) putRForm_eq_iff fun x hop hf => by rw [decodeS, hop, hf]; rfl
  | addi f | andi f | ori f | xori f | shli f | shri f | srai f | muli f | mini f | maxi f | cmpi f | pset f | ptst f | get f
  | set f | gets f | sets f | setfmt f | getfmt f | stg f | gtg f | lcset f | lcget f | rasrd f | raswr f =>
    exact readSlot_of_reads he (readSlot_s f.s1) putIForm_eq_iff fun x hop hf => by rw [decodeS, hop, hf]; rfl
  | movi f | moviz f | movm f | movt f | addpc f | prepr f =>
    exact readSlot_of_reads he (readSlot_s f.s1) putLForm_eq_iff fun x hop hf => by rw [decodeS, hop, hf]; rfl
  | br f | call f =>
    exact readSlot_of_reads he readSlot_c putBrForm_eq_iff fun x hop hf => by rw [decodeC, hop, hf]; rfl
  | ret f | done f | swap f | eret f | idle f | halt f =>
    exact readSlot_of_reads he readSlot_c putBareForm_eq_iff fun x hop hf => by rw [decodeC, hop, hf]; rfl
  | loop f =>
    exact readSlot_of_reads he readSlot_c putLoopForm_eq_iff fun x hop hf => by rw [decodeC, hop, hf]; rfl
  | wait f =>
    exact readSlot_of_reads he readSlot_c putWaitForm_eq_iff fun x hop hf => by rw [decodeC, hop, hf]; rfl
  | sync f =>
    exact readSlot_of_reads he readSlot_c putSyncForm_eq_iff fun x hop hf => by rw [decodeC, hop, hf]; rfl
  | trap f | brk f =>
    exact readSlot_of_reads he readSlot_c putTrapForm_eq_iff fun x hop hf => by rw [decodeC, hop, hf]; rfl
  | qfence f =>
    exact readSlot_of_reads he readSlot_c putQfenceForm_eq_iff fun x hop hf => by rw [decodeC, hop, hf]; rfl
  | vadd f | vsub f | vmul f | vmulh f | vmulhn f | vmin f | vmax f | vminn f | vmaxn f | vand f | vor f | vxor f | vandn f
  | vshl f | vshr f | vsra f | vabs f | vneg f | vclz f | vpopc f | vadds f | vaddsn f | vsubs f | vsubsn f | vsel f | vcmp f
  | vfadd f | vfsub f | vfmul f | vfma f | vfmin f | vfmax f | vfdiv f | vfsqrt f | vfexp2 f | vflog2 f | vfrcp f | vfrsq f
  | vfabs f | vfneg f | vfcmp f | vfclass f | vcvt f | vqnt f | vdqnt f | vfredadd f | vfredmax f | vredadd f | vredmax f
  | vmov f | vsplat f | vsplati f | vextr f | vinsr f | vshuf f | vslide f | viota f | vacc f | vaccw f | vsin f | vsout f
  | mand f | mor f | mxor f | mnot f | mset f | mget f | vany f | vall f | mpopc f =>
    exact readSlot_of_reads he readSlot_v putVForm_eq_iff fun x hop hf => by rw [decodeV, hop, hf]; rfl
  | zld f | zldh f | zldb f | kld f | zfromv f =>
    exact readSlot_of_reads he readSlot_z putZForm_eq_iff fun x hop hf => by rw [decodeZ, hop, hf]; rfl
  | lds f | sts f =>
    exact readSlot_of_reads he readSlot_l putLsForm_eq_iff fun x hop hf => by rw [decodeL, hop, hf]; rfl
  | ldv f | stv f =>
    exact readSlot_of_reads he readSlot_l putLvForm_eq_iff fun x hop hf => by rw [decodeL, hop, hf]; rfl
  | ldvs f | stvs f =>
    exact readSlot_of_reads he readSlot_l putLvsForm_eq_iff fun x hop hf => by rw [decodeL, hop, hf]; rfl
  | ldvg f | stvg f =>
    exact readSlot_of_reads he readSlot_l putLvgForm_eq_iff fun x hop hf => by rw [decodeL, hop, hf]; rfl
  | stvm f =>
    exact readSlot_of_reads he readSlot_l putStvmForm_eq_iff fun x hop hf => by rw [decodeL, hop, hf]; rfl
  | setaw f | waita f =>
    exact readSlot_of_reads he readSlot_l putAwForm_eq_iff fun x hop hf => by rw [decodeL, hop, hf]; rfl
  | spl f | fil f =>
    exact readSlot_of_reads he readSlot_l putSpForm_eq_iff fun x hop hf => by rw [decodeL, hop, hf]; rfl
  | splv f | filv f =>
    exact readSlot_of_reads he readSlot_l putSpvForm_eq_iff fun x hop hf => by rw [decodeL, hop, hf]; rfl
  | xlate f =>
    exact readSlot_of_reads he readSlot_l putXlateForm_eq_iff fun x hop hf => by rw [decodeL, hop, hf]; rfl
  | hinv f =>
    exact readSlot_of_reads he readSlot_l putHinvForm_eq_iff fun x hop hf => by rw [decodeL, hop, hf]; rfl
  | hget f =>
    exact readSlot_of_reads he readSlot_l putHgetForm_eq_iff fun x hop hf => by rw [decodeL, hop, hf]; rfl
  | ldh f | sth f =>
    exact readSlot_of_reads he readSlot_l putLdhForm_eq_iff fun x hop hf => by rw [decodeL, hop, hf]; rfl
  | ldvh f | stvh f =>
    exact readSlot_of_reads he readSlot_l putLdvhForm_eq_iff fun x hop hf => by rw [decodeL, hop, hf]; rfl
  | aadd f | amin f | amax f | aminn f | amaxn f | aand f | aor f | axor f | aswp f | acas f | aincb f | aincw f | adecp f
  | afal f | afadd f =>
    exact readSlot_of_reads he readSlot_l putAtForm_eq_iff fun x hop hf => by rw [decodeL, hop, hf]; rfl
  | fence f =>
    exact readSlot_of_reads he readSlot_l putFenceForm_eq_iff fun x hop hf => by rw [decodeL, hop, hf]; rfl
  | fenceSc f =>
    exact readSlot_of_reads he readSlot_l putFenceScForm_eq_iff fun x hop hf => by rw [decodeL, hop, hf]; rfl
  | mma f | mepi f | msend f | mred f | mclr f | mstat f =>
    exact readSlot_of_reads he readSlot_m putMForm_eq_iff fun x hop hf => by rw [decodeM, hop, hf]; rfl
  | kcpy f | kput f | kfill f | kfillConfigure f | kdec f | kzero f | kloc f =>
    exact readSlot_of_reads he readSlot_k putKForm_eq_iff fun x hop hf => by rw [decodeK, hop, hf]; rfl
  | nsend f | nsendt f | npost f | npush f | npop f | nrot f | ngsend f | nclose f | ndisarm f =>
    exact readSlot_of_reads he readSlot_n putNForm_eq_iff fun x hop hf => by rw [decodeN, hop, hf]; rfl
  | vperm f =>
    cases he
    rw [readSlot_v, decodeV_putVForm_vperm, vperm_fn_even hwf]
    rfl
  | vperm2 f =>
    have hbit : f.fn.getLsbD 0 = true := by
      simp only [Instr.wf, Bool.and_eq_true] at hwf
      exact hwf.2
    cases he
    rw [readSlot_v, decodeV_putVForm_vperm, hbit]
    rfl
  | _ => nomatch he

/-! ### A bundle of one slot (R60, R71) -/

/-- The slots that hold instructions, in the order of R25. -/
def slots : List Slot := [.s0, .s1, .c, .v, .l, .z, .m, .k, .n]

/-- The word of a slot, the header's bits, and under `none` the bits of no slot. -/
def Bundle.word (b : Bundle) : Slot → Nat
  | .h => b.h.toNat
  | .s0 => b.s0.toNat
  | .s1 => b.s1.toNat
  | .c => b.c.toNat
  | .v => b.v.toNat
  | .l => b.l.toNat
  | .z => b.z.toNat
  | .m => b.m.toNat
  | .k => b.k.toNat
  | .n => b.n.toNat
  | .none => b.low.toNat

theorem Bundle.eq_of_word {a b : Bundle} (h : ∀ sl, a.word sl = b.word sl) : a = b := by
  have e {n : Nat} {x y : BitVec n} (hxy : x.toNat = y.toNat) : x = y := BitVec.eq_of_toNat_eq hxy
  cases a
  cases b
  exact Bundle.mk.injEq .. ▸
    ⟨e (h .h), e (h .s0), e (h .s1), e (h .c), e (h .v), e (h .l), e (h .z), e (h .m), e (h .k), e (h .n), e (h .none)⟩

theorem word_slotBundle_other {sl sl' : Slot} (w : Nat) (h : sl' ≠ sl) : (slotBundle sl w).word sl' = 0 := by
  revert h
  cases sl <;> cases sl' <;> simp [slotBundle, Bundle.word]

theorem word_slotBundle_same (b : Bundle) {sl : Slot} (h : sl ∈ slots) : (slotBundle sl (b.word sl)).word sl = b.word sl := by
  cases sl <;> simp_all [slotBundle, Bundle.word, slots]

/-- A bundle that is zero beside one slot is that slot's word alone. -/
theorem slotBundle_word {b : Bundle} {sl : Slot} (h : sl ∈ slots) (hzero : ∀ sl', sl' ≠ sl → b.word sl' = 0) :
    slotBundle sl (b.word sl) = b :=
  Bundle.eq_of_word fun sl' => by
    by_cases hsl : sl' = sl
    · rw [hsl, word_slotBundle_same b h]
    · rw [word_slotBundle_other _ hsl, hzero sl' hsl]

theorem decodeBundle_eq_map (b : Bundle) : decodeBundle b = slots.map fun sl => (sl, readSlot sl (b.word sl)) := by
  simp [decodeBundle, slots, readSlot, Bundle.word]

theorem readSlot_word_tells (b : Bundle) {sl : Slot} (h : sl ∈ slots) : (readSlot sl (b.word sl)).Tells sl (b.word sl) := by
  simp only [slots, List.mem_cons, List.not_mem_nil, or_false] at h
  rcases h with rfl | rfl | rfl | rfl | rfl | rfl | rfl | rfl | rfl
  · exact readSlot_s false b.s0 ▸ decodeS_tells false b.s0
  · exact readSlot_s true b.s1 ▸ decodeS_tells true b.s1
  · exact readSlot_c b.c ▸ decodeC_tells b.c
  · exact readSlot_v b.v ▸ decodeV_tells b.v
  · exact readSlot_l b.l ▸ decodeL_tells b.l
  · exact readSlot_z b.z ▸ decodeZ_tells b.z
  · exact readSlot_m b.m ▸ decodeM_tells b.m
  · exact readSlot_k b.k ▸ decodeK_tells b.k
  · exact readSlot_n b.n ▸ decodeN_tells b.n

theorem readSlot_zero (sl : Slot) : readSlot sl 0 = .nop := by
  cases sl <;> rfl

theorem readSlot_word_slotBundle (sl : Slot) (w : Nat) : readSlot sl ((slotBundle sl w).word sl) = readSlot sl w := by
  cases sl <;> simp only [readSlot, slotBundle, Bundle.word, BitVec.ofNat_toNat, BitVec.setWidth_eq]

theorem mem_slots_of_readSlot {sl : Slot} {w : Nat} {i : Instr} (h : readSlot sl w = .instr i) : sl ∈ slots := by
  cases sl with
  | h | none => nomatch h
  | s0 | s1 | c | v | l | z | m | k | n => decide

theorem ne_of_mem_slots {sl : Slot} (h : sl ∈ slots) : Slot.h ≠ sl ∧ Slot.none ≠ sl := by
  revert sl
  decide

/-- A bundle that holds one instruction, under a zero header, with nothing that decoding refuses. -/
def Bundle.HoldsAlone (b : Bundle) (i : Instr) : Prop :=
  b.h = 0 ∧ b.low = 0 ∧ (∀ p ∈ decodeBundle b, SoundRead p.2) ∧ bundleInstrs b = [i]

theorem decodeTableWord_of_holdsAlone {b : BundleWord} {i : Instr} (h : (splitBundle b).HoldsAlone i) :
    decodeTableWord 384 b.toNat = some i := by
  obtain ⟨hh, hlow, hsound, hone⟩ := h
  rw [decodeTableWord, BitVec.ofNat_toNat, BitVec.setWidth_eq, if_neg, hone]
  simp only [Bool.or_eq_true, bne_iff_ne, List.any_eq_true, not_or, not_exists, not_and, ne_eq, not_not]
  refine ⟨⟨hh, hlow⟩, fun p hp => ?_⟩
  have hsound := hsound p hp
  obtain ⟨sl, r⟩ := p
  cases r
  case nop | instr => exact Bool.false_ne_true
  case badZero | reserved => exact hsound.elim

/-- A bundle of several instructions, or of none, decodes to BUNDLE_ISSUE (R71). -/
theorem holdsAlone_of_decodeTableWord {b : BundleWord} {i : Instr} (h : decodeTableWord 384 b.toNat = some i)
    (hi : ∀ t, i ≠ .bundleIssue t) : (splitBundle b).HoldsAlone i := by
  rw [decodeTableWord, BitVec.ofNat_toNat, BitVec.setWidth_eq] at h
  split at h
  next => nomatch h
  next hok =>
    simp only [Bool.or_eq_true, bne_iff_ne, List.any_eq_true, not_or, not_exists, not_and, ne_eq, not_not] at hok
    obtain ⟨⟨hh, hlow⟩, hall⟩ := hok
    refine ⟨hh, hlow, fun p hp => ?_, ?_⟩
    · have hp := hall p hp
      obtain ⟨sl, r⟩ := p
      cases r
      case nop | instr => trivial
      case badZero | reserved => exact absurd rfl hp
    · split at h
      next hone => exact Option.some.inj h ▸ hone
      next => exact absurd (Option.some.inj h).symm (hi 0)

/-- The one slot that is filled holds its instruction, and the others hold nothing. -/
theorem decodeBundle_slotBundle {sl : Slot} {w : Nat} {i : Instr} (h : readSlot sl w = .instr i) :
    decodeBundle (slotBundle sl w) = slots.map fun sl' => (sl', if sl' = sl then .instr i else .nop) := by
  rw [decodeBundle_eq_map]
  refine List.map_congr_left fun sl' _ => ?_
  split
  next hsl => rw [hsl, readSlot_word_slotBundle, h]
  next hsl => rw [word_slotBundle_other w hsl, readSlot_zero]

theorem bundleInstrs_slotBundle {sl : Slot} {w : Nat} {i : Instr} (h : readSlot sl w = .instr i) :
    bundleInstrs (slotBundle sl w) = [i] := by
  have hmem := mem_slots_of_readSlot h
  rw [bundleInstrs, decodeBundle_slotBundle h]
  simp only [slots, List.mem_cons, List.not_mem_nil, or_false] at hmem
  rcases hmem with rfl | rfl | rfl | rfl | rfl | rfl | rfl | rfl | rfl <;> rfl

theorem holdsAlone_slotBundle {sl : Slot} {w : Nat} {i : Instr} (h : readSlot sl w = .instr i) : (slotBundle sl w).HoldsAlone i := by
  obtain ⟨hhead, hnone⟩ := ne_of_mem_slots (mem_slots_of_readSlot h)
  refine ⟨BitVec.eq_of_toNat_eq (word_slotBundle_other w hhead), BitVec.eq_of_toNat_eq (word_slotBundle_other w hnone), ?_,
    bundleInstrs_slotBundle h⟩
  rw [decodeBundle_slotBundle h]
  refine List.forall_mem_map.2 fun sl' _ => ?_
  dsimp only
  split <;> trivial

/-- The slots of a bundle beside the one that holds its instruction are empty. -/
theorem Bundle.HoldsAlone.exists_mem {b : Bundle} {i : Instr} (h : b.HoldsAlone i) :
    ∃ sl, (sl, .instr i) ∈ decodeBundle b ∧ ∀ p ∈ decodeBundle b, p.1 ≠ sl → p.2 = .nop := by
  obtain ⟨-, -, hsound, hone⟩ := h
  obtain ⟨before, ⟨sl, r⟩, after, hlist, hbefore, hr, hafter⟩ := List.filterMap_eq_cons_iff.1 hone
  rw [List.filterMap_eq_nil_iff] at hafter
  have hempty : ∀ p ∈ decodeBundle b, p.1 ≠ sl → p.2 = .nop := by
    intro p hp hne
    have hsound := hsound p hp
    have hother : p ∈ before ∨ p ∈ after := by
      rw [hlist, List.mem_append, List.mem_cons] at hp
      exact hp.imp_right fun hp => hp.resolve_left fun hp => hne (congrArg Prod.fst hp)
    have hnone := hother.elim (hbefore p) (hafter p)
    obtain ⟨sl', r'⟩ := p
    cases r'
    case nop => rfl
    case instr => nomatch hnone
    case badZero | reserved => exact hsound.elim
  cases r with
  | instr j =>
    cases hr
    exact ⟨sl, by simp [hlist], hempty⟩
  | nop | badZero | reserved => nomatch hr

/-- A bundle that holds one instruction is that instruction's word, and zero beside it. -/
theorem Bundle.HoldsAlone.exists_slot {b : Bundle} {i : Instr} (h : b.HoldsAlone i) :
    ∃ sl ∈ slots, encode i = some (sl, b.word sl) ∧ ∀ sl', sl' ≠ sl → b.word sl' = 0 := by
  obtain ⟨sl, hmem, hempty⟩ := h.exists_mem
  obtain ⟨hh, hlow, -, -⟩ := h
  rw [decodeBundle_eq_map] at hmem hempty
  obtain ⟨sl₀, hsl, hpair⟩ := List.mem_map.1 hmem
  obtain ⟨rfl, hread⟩ := Prod.mk.inj hpair
  have hzero : ∀ sl' ∈ slots, sl' ≠ sl₀ → b.word sl' = 0 := fun sl' hsl' hne => by
    have htells := readSlot_word_tells b hsl'
    have hnop : readSlot sl' (b.word sl') = .nop := hempty _ (List.mem_map_of_mem hsl') hne
    rwa [hnop] at htells
  refine ⟨sl₀, hsl, ?_, fun sl' hne => ?_⟩
  · have htells := readSlot_word_tells b hsl
    rwa [hread] at htells
  · cases sl' with
    | h => exact congrArg BitVec.toNat hh
    | none => exact congrArg BitVec.toNat hlow
    | s0 | s1 | c | v | l | z | m | k | n => exact hzero _ (by decide) hne

end Sys2Proof
end

section
/-! SUPPORT. The words of instructions, decoded: the round trip, and the spec's worked examples (R60 to R71, R86 to R100). -/

namespace Sys2Proof

/-- Settles O55: an instruction's slot reads its word back, and the word of a slot that reads as an instruction is that instruction's. -/
theorem encodeDecodeRoundTrip : Obligations.EncodeDecodeRoundTrip := by
  unfold Obligations.EncodeDecodeRoundTrip
  refine ⟨fun i sl w hwf he => ?_, fun b i h hi => ?_⟩
  · have hone := holdsAlone_slotBundle (readSlot_encode hwf he)
    rw [← splitBundle_joinBundle (slotBundle sl w)] at hone
    exact decodeTableWord_of_holdsAlone hone
  · obtain ⟨sl, hsl, he, hzero⟩ := (holdsAlone_of_decodeTableWord h hi).exists_slot
    exact ⟨sl, _, he, by rw [slotBundle_word hsl hzero, joinBundle_splitBundle]⟩

/-- Settles O54: the decoder, evaluated on each word. -/
theorem decodeWords : Obligations.DecodeWords := by
  unfold Obligations.DecodeWords
  and_intros <;> decide +kernel

end Sys2Proof
end

section
/-! SUPPORT. What begins a cycle counts CYCLE up by one and changes it no more (R10). -/

namespace Sys2Proof.Machine

/-! ### Walks and transfers -/

@[simp] theorem State.startWalk_cycle (s : State) (k ctx : Nat) (va : Word) : (s.startWalk k ctx va).2.cycle = s.cycle := by
  unfold State.startWalk
  split <;> rfl

@[simp] theorem State.leafFor_cycle (s : State) (k ctx : Nat) (va : Word) : (s.leafFor k ctx va).2.cycle = s.cycle := by
  unfold State.leafFor
  split
  · rfl
  · dsimp only
    split <;> rfl

theorem State.cycle_of_leafFor {s t : State} {k ctx : Nat} {va : Word} {l : Option Leaf} (h : s.leafFor k ctx va = (l, t)) :
    t.cycle = s.cycle := by
  simpa [h] using s.leafFor_cycle k ctx va

@[simp] theorem State.deepest_cycle (s : State) (k ctx va : Nat) (levs : List Nat) : (s.deepest k ctx va levs).2.cycle = s.cycle := by
  induction levs generalizing s with
  | nil => rfl
  | cons lev r ih =>
    unfold State.deepest
    split
    · exact ih s
    · dsimp only
      split
      · rfl
      · exact ih _

@[simp] theorem State.readTable_cycle (s : State) (k : Nat) (w : Walk) : (s.readTable k w).cycle = s.cycle := by
  unfold State.readTable
  split <;> rfl

@[simp] theorem State.beginWalk_cycle (s : State) (k : Nat) (w : Walk) : (s.beginWalk k w).cycle = s.cycle := by
  have h := s.deepest_cycle k w.ctx w.va.toNat [3, 2, 1]
  unfold State.beginWalk
  generalize s.deepest k w.ctx w.va.toNat [3, 2, 1] = p at h ⊢
  obtain ⟨_ | e, t⟩ := p
  · dsimp only
    split
    · exact h
    · exact (t.readTable_cycle ..).trans h
  · exact (t.readTable_cycle ..).trans h

@[simp] theorem State.stepWalk_cycle (s : State) (k : Nat) (w : Walk) : (s.stepWalk k w).cycle = s.cycle := by
  unfold State.stepWalk
  (repeat' split) <;> simp [State.putWalk, State.putCache]

@[simp] theorem State.stepWalks_cycle (s : State) : s.stepWalks.cycle = s.cycle :=
  foldl_keeps State.cycle (fun _ _ => foldl_keeps State.cycle (fun t _ => t.stepWalk_cycle ..) _ _) _ _

@[simp] theorem State.holdWalk_cycle (s : State) (k ctx id : Nat) : (s.holdWalk k ctx id).cycle = s.cycle := by
  unfold State.holdWalk
  split <;> rfl

@[simp] theorem State.resolve_cycle (s : State) (j : Job) (todo : List (Nat × Nat)) : (s.resolve j todo).2.cycle = s.cycle := by
  induction todo generalizing s j with
  | nil => rfl
  | cons p r ih =>
    obtain ⟨off, n⟩ := p
    simp only [State.resolve]
    split
    · simp [apply_ite Prod.snd, apply_ite State.cycle, ih]
    · split
      next h => simp [apply_ite Prod.snd, apply_ite State.cycle, ih, State.cycle_of_leafFor h]
      next h => split <;> simp [State.cycle_of_leafFor h]

@[simp] theorem State.stepJob_cycle (s : State) (id : Nat) : (s.stepJob id).cycle = s.cycle := by
  simp only [State.stepJob]
  (repeat' split) <;> simp [State.putJob, State.leaveReqs]

@[simp] theorem State.stepJobs_cycle (s : State) : s.stepJobs.cycle = s.cycle :=
  foldl_keeps State.cycle (fun t _ => t.stepJob_cycle _) _ _

/-! ### Requests, members and launches -/

@[simp] theorem State.enterQueues_cycle (s : State) : s.enterQueues.cycle = s.cycle := by
  refine foldl_keeps State.cycle (fun t r => ?_) _ _
  split <;> rfl

@[simp] theorem State.prepareMember_cycle (s : State) (l : Launch) (t r : Nat) : (s.prepareMember l t r).cycle = s.cycle := rfl

@[simp] theorem State.prepareMembers_cycle (s : State) : s.prepareMembers.cycle = s.cycle := by
  refine foldl_keeps State.cycle (fun t l => ?_) _ _
  split
  · exact foldl_keeps State.cycle (fun u (k : Nat × Nat) => u.prepareMember_cycle l k.1 k.2) _ _
  · rfl

@[simp] theorem State.turnThrottles_cycle (s : State) : s.turnThrottles.cycle = s.cycle := by
  unfold State.turnThrottles
  split <;> rfl

@[simp] theorem State.admitHead_cycle (s : State) (q : Nat) : (s.admitHead q).cycle = s.cycle := by
  unfold State.admitHead
  dsimp only
  split
  · split <;> rfl
  · rfl

@[simp] theorem State.admitHeads_cycle (s : State) : s.admitHeads.cycle = s.cycle :=
  foldl_keeps State.cycle (fun t _ => t.admitHead_cycle _) _ _

/-! ### The cycle -/

@[simp] theorem State.tick_cycle (s : State) : s.tick.cycle = s.cycle + 1 := by
  simp [State.tick, State.tickPorts, State.dropPast, State.hostReplies, State.noteDrawerDone, State.mapCores, State.tickLinks]

theorem State.nextCycle_cycle (s : State) : s.nextCycle.cycle = s.cycle + 1 := by
  simp only [State.nextCycle, State.tick_cycle]

end Sys2Proof.Machine
end

section
/-! SUPPORT. A step: the next event of the agenda, or the next cycle (R61, R72, R73, R413). -/

namespace Sys2Proof.Machine

open Sys2Proof.Claims

theorem step_agenda {s : State} {e : Event} {r : List Event} (h : s.agenda = e :: r) : step s = runEvent e { s with agenda := r } := by
  rw [step, h]

theorem step_next {s : State} (h : s.agenda = []) : step s = .next s.nextCycle := by
  rw [step, h]

/-- Settles O52: the issue of a due bundle is the cycle of its strand, which `bundleCycle_dueAlone` says is `exec` of its instruction. -/
theorem stepRunsDecodedInstruction : Obligations.StepRunsDecodedInstruction := by
  unfold Obligations.StepRunsDecodedInstruction
  refine ⟨fun s t i r ha hdue => ?_, fun s e r ha => step_agenda ha, fun s ha => ⟨step_next ha, s.nextCycle_cycle⟩, fun s => ?_⟩
  · exact ⟨_, bundleCycle_dueAlone hdue, (step_agenda ha).trans (exec_bundleIssue t { s with agenda := r })⟩
  · -- An event's meaning is the call that the instruction of its name makes, one conjunct for each event.
    and_intros <;> intros <;> rfl

end Sys2Proof.Machine
end

section
/-! Comparisons and predicates (O3), and the instructions that need system mode (O8). -/

namespace Sys2Proof.Machine

open Sys2Proof.Claims

/-! ### Well-formed instructions of form I and of the C slot, and the traps of a failing check -/

theorem exec_iSlot {i : Instr} {f : IForm} {enc reads check lat res} {s : State}
    (hm : slotSem i = some (iSlot f enc reads check lat res)) (hw : i.wf = true) (hi : s.mayIssue (some (f.gi, f.gp)) reads)
    (hc : check s.core = none) :
    exec i s = .next (s.issued (fun c => c.result (sSlot f.s1) lat (res c).1 (res c).2)) := by
  obtain ⟨-, hx⟩ := exec_of_slotSem hm
  have he : ∀ e ∈ enc, e.2 = true := by simpa [SlotSem.encOk, iSlot] using encOk_of_wf hm hw
  rw [hx, iSlot_next hi he hc]

theorem exec_cSlot {i : Instr} {gi : BitVec 1} {gp : BitVec 3} {enc check eff} {s : State}
    (hm : slotSem i = some (cSlot gi gp enc check eff)) (hw : i.wf = true) (hi : s.mayIssue (some (gi, gp)) [])
    (hc : check s.core = none) (hr : (eff s.core).lockstepCount ≤ 32) : exec i s = .next (s.issued eff) := by
  obtain ⟨-, hx⟩ := exec_of_slotSem hm
  have he : ∀ e ∈ enc, e.2 = true := encOk_of_wf hm hw
  rw [hx, cSlot_next hi he hc hr]

/-- A well-formed instruction whose check raises a cause takes that trap (R24, R28). -/
theorem exec_traps {i : Instr} {m : SlotSem} {s : State} {k : Cause} (hm : slotSem i = some m) (hwf : i.wf = true)
    (hab : m.absent s = none) (hi : s.mayIssue m.guard m.reads) (hw : m.wait s = none) (hl : m.late s = none)
    (hc : m.check s = some k) (hr : (m.eff s).core.lockstepCount ≤ 32) : exec i s = .next (s.trapPrecise k) := by
  obtain ⟨hs, hx⟩ := exec_of_slotSem hm
  rw [hx, SlotSem.issueOne_trap hs hab hi hw hl (lowestBit_none (encOk_of_wf hm hwf)) hc hr]

theorem exec_cSlot_traps {i : Instr} {gi : BitVec 1} {gp : BitVec 3} {enc check eff} {s : State} {k : Cause}
    (hm : slotSem i = some (cSlot gi gp enc check eff)) (hw : i.wf = true) (hi : s.mayIssue (some (gi, gp)) [])
    (hc : check s.core = some k) (hr : (eff s.core).lockstepCount ≤ 32) : exec i s = .next (s.trapPrecise k) :=
  exec_traps hm hw rfl hi rfl rfl hc (by simpa only [cSlot, onCore_core] using hr)

/-! ### Comparisons and predicate logic (R91, R109) -/

/-- The model compares numbers below 2 ^ 64 as the codes of R91 compare words, signed or unsigned. -/
theorem cmpInt_toNat (cc : Nat) (x y : Word) : cmpInt cc 64 x.toNat y.toNat = compare64 cc x y := by
  have hsint : ∀ z : Word, sintOf 64 z.toNat = z.toInt := fun z => sintOf_toNat z (by decide)
  have heq : (x.toNat == y.toNat) = (x == y) := Bool.eq_iff_iff.2 (by rw [beq_iff_eq, beq_iff_eq, BitVec.toNat_inj])
  match cc with
  | 0 => rw [cmpInt, compare64, heq]
  | 1 => rw [cmpInt, compare64, bne, bne, heq]
  | 2 | 3 | 4 | 5 => rw [cmpInt, compare64, hsint, hsint]
  | 6 | 7 | 8 => rw [cmpInt, compare64]
  | _ + 9 => simp only [cmpInt, compare64]

theorem predRows_slotSem : ∀ e ∈ predRows, ∀ f, slotSem (e.1 f) = some (predLogic f e.2) := by
  intro e he f
  simp only [predRows, List.mem_cons, List.not_mem_nil, or_false] at he
  rcases he with rfl | rfl | rfl <;> rfl

theorem cmp_code_le {f : RForm} (hw : (Instr.cmp f).wf = true) : (field 0 4 f.x : BitVec 4).toNat ≤ 9 := by
  obtain ⟨-, hcc⟩ : _ ∧ (field 0 4 f.x : BitVec 4).toNat ≤ 9 := by simpa [Instr.wf] using hw
  exact hcc

theorem cmpi_code_le {f : IForm} (hw : (Instr.cmpi f).wf = true) : (field 0 4 f.b : BitVec 4).toNat ≤ 9 := by
  obtain ⟨-, hcc⟩ : _ ∧ (field 0 4 f.b : BitVec 4).toNat ≤ 9 := by simpa [Instr.wf] using hw
  exact hcc

/-- Settles O3: each instruction is a slot of form R or I that puts its result on its way, and the model's comparison is R91's. -/
theorem predicateResults : Obligations.PredicateResults := by
  unfold Obligations.PredicateResults
  simp only [← cmpInt_toNat, ne_eq, decide_not]
  refine ⟨?_, ?_, ?_, ?_, ?_, ?_, ?_⟩
  · intro f s ⟨hw, hi⟩
    exact exec_rSlot (i := .cmp f) rfl hw hi (if_pos (cmp_code_le hw))
  · intro f s ⟨hw, hi⟩
    exact exec_iSlot (i := .cmpi f) rfl hw hi (if_pos (cmpi_code_le hw))
  · intro e he f s ⟨hw, hi⟩
    exact exec_rSlot (predRows_slotSem e he f) hw hi rfl
  · intro f s ⟨hw, hi⟩
    exact exec_rSlot (i := .pmov f) rfl hw hi rfl
  · intro f s ⟨hw, hi⟩
    exact exec_rSlot (i := .ptos f) rfl hw hi rfl
  · intro f s ⟨hw, hi⟩
    exact exec_iSlot (i := .pset f) rfl hw hi rfl
  · intro f s ⟨hw, hi⟩
    exact exec_iSlot (i := .ptst f) rfl hw hi rfl

/-! ### System mode (R102, R126) -/

theorem Core.inSystem_true {c : Core} (hm : c.isMgmt = true) (hs : c.sysMode = true) : c.inSystem = true := by
  simp [Core.inSystem, hm, hs]

theorem Core.inSystem_false {c : Core} (h : c.isMgmt = false ∨ c.sysMode = false) : c.inSystem = false := by
  rwa [Core.inSystem, Bool.and_eq_false_iff]

/-- Outside system mode a register that exists is refused with the opcode. -/
theorem getsCheck_userMode {f : IForm} {s : State} (h : s.core.inSystem = false)
    (hx : (s.readSpecial (sprNum f).toNat).isSome = true) (op : Nat) :
    getsCheck f op s = some (precise (sSlot f.s1) 0x1B (BitVec.ofNat 64 op)) := by
  simp [getsCheck, firstCause, h, hx]

theorem sprRead_room {s : State} (hu : s.unheld) (f : IForm) (check : State → Option Cause) :
    ((sprRead f check).eff s).core.lockstepCount ≤ 32 := by
  simpa only [sprRead, State.setCore_core] using hu.result_room ..

/-- A write to a special register begins one result at most. -/
theorem sprWrite_room {s : State} (hu : s.unheld) (f : IForm) (check : State → Option Cause) :
    ((sprWrite f check).eff s).core.lockstepCount ≤ 32 := by
  cases hw : userWritable (sprNum f).toNat with
  | true =>
    rw [sprWrite_eff_user hw, onCore_core]
    exact hu.result_room ..
  | false =>
    rcases Nat.lt_or_ge (sprNum f).toNat 0x800 with hn | hn
    · rw [sprWrite_eff_readOnly hn hw, onCore_core]
      exact hu.room
    · rw [sprWrite_eff_sys hn, onCore_core]
      exact hu.result_room ..

/-- Settles O8: each instruction's check is that of system mode, and it decides between its effect and cause 0x1B. -/
theorem systemInstructionsNeedSystemMode : Obligations.SystemInstructionsNeedSystemMode := by
  unfold Obligations.SystemInstructionsNeedSystemMode
  refine ⟨?_, ?_, ?_, ?_, ?_, ?_⟩
  · intro f s ⟨hw, hi⟩ hm hs
    exact exec_cSlot (i := .idle f) rfl hw hi (if_pos (Core.inSystem_true hm hs)) hi.unheld.room
  · intro f s ⟨hw, hi⟩ hm hs
    exact exec_cSlot (i := .halt f) rfl hw hi (if_pos (Core.inSystem_true hm hs)) hi.unheld.room
  · intro f s ⟨hw, hi⟩ h
    exact exec_cSlot_traps (i := .idle f) rfl hw hi (if_neg (by simp [Core.inSystem_false h])) hi.unheld.room
  · intro f s ⟨hw, hi⟩ h
    exact exec_cSlot_traps (i := .halt f) rfl hw hi (if_neg (by simp [Core.inSystem_false h])) hi.unheld.room
  · intro f s ⟨hw, hi⟩ h hx
    exact exec_traps (i := .gets f) rfl hw rfl hi rfl rfl (getsCheck_userMode (Core.inSystem_false h) hx 0x60)
      (sprRead_room hi.unheld f _)
  · intro f s ⟨hw, hi⟩ h hx
    have hc : (semSets f).check s = some (precise (sSlot f.s1) 0x1B 0x61) := by
      simp only [semSets, sprWrite, getsCheck_userMode (Core.inSystem_false h) hx]
      rfl
    exact exec_traps (i := .sets f) rfl hw rfl hi rfl rfl hc (sprWrite_room hi.unheld f _)

end Sys2Proof.Machine
end

section
/-! Bit fields, immediates and constants (O2), and the staging register of O5's counterexample. -/

namespace Sys2Proof.Machine

open Sys2Proof.Claims

/-! ### Form L: a well-formed instruction issues -/

theorem exec_lSlot {i : Instr} {f : LForm} {enc reads lat res} {s : State}
    (hm : slotSem i = some (lSlot f enc reads lat res)) (hw : i.wf = true) (hi : s.mayIssue (some (f.gi, f.gp)) reads) :
    exec i s = .next (s.issued (fun c => c.result (sSlot f.s1) lat (res c).1 (res c).2)) := by
  obtain ⟨-, hx⟩ := exec_of_slotSem hm
  have he : ∀ e ∈ enc, e.2 = true := by simpa [SlotSem.encOk, lSlot] using encOk_of_wf hm hw
  rw [hx, lSlot_next hi he]

/-! ### Bit fields (R105, R106) -/

theorem sintOf_eq_toInt (n x : Nat) : sintOf (n + 1) x = (BitVec.ofNat (n + 1) x).toInt := by
  rw [← sintOf_toNat _ (Nat.succ_pos n), BitVec.toNat_ofNat, sintOf, sintOf, Nat.mod_mod]

theorem ofNat_div_two_pow (x : Word) (pos len : Nat) : BitVec.ofNat len (x.toNat / 2 ^ pos) = (x >>> pos).setWidth len :=
  BitVec.eq_of_toNat_eq (by simp [Nat.shiftRight_eq_div_pow])

theorem sext_bitField (x : Word) (pos n : Nat) :
    BitVec.ofInt 64 (sintOf (n + 1) (x.toNat / 2 ^ pos)) = ((x >>> pos).setWidth (n + 1)).signExtend 64 := by
  rw [sintOf_eq_toInt, ofNat_div_two_pow]
  rfl

theorem zext_bitField (x : Word) (pos n : Nat) :
    BitVec.ofNat 64 (x.toNat / 2 ^ pos % 2 ^ (n + 1)) = ((x >>> pos).setWidth (n + 1)).setWidth 64 :=
  BitVec.eq_of_toNat_eq (by simp [Nat.shiftRight_eq_div_pow])

/-- `ins`, bit by bit: the hole in b is filled by the low bits of a. -/
theorem getLsbD_insert (a b : Word) {pos len i : Nat} (hi : i < 64) :
    ((b &&& ~~~BitVec.ofNat 64 ((2 ^ len - 1) * 2 ^ pos)) ||| BitVec.ofNat 64 (a.toNat % 2 ^ len * 2 ^ pos)).getLsbD i =
      if pos ≤ i ∧ i < pos + len then a.getLsbD (i - pos) else b.getLsbD i := by
  simp only [BitVec.getLsbD_or, BitVec.getLsbD_and, BitVec.getLsbD_not, BitVec.getLsbD_ofNat, hi, decide_true, Bool.true_and,
    Nat.testBit_mul_two_pow, Nat.testBit_mod_two_pow, Nat.testBit_two_pow_sub_one, BitVec.testBit_toNat]
  have hlen : pos ≤ i → (i < pos + len ↔ i - pos < len) := by omega
  by_cases h1 : pos ≤ i
  · by_cases h2 : i < pos + len <;> simp [h1, h2, ← hlen h1]
  · simp [h1]

/-- The field of a well-formed `exts`, `extz` or `ins` lies in the word (R106). -/
theorem bfCheck_of_wf {f : RForm} (hw : (Instr.exts f).wf = true ∨ (Instr.extz f).wf = true ∨ (Instr.ins f).wf = true) :
    bfCheck f = none := by
  have h : (field 6 6 f.x : BitVec 6).toNat + (field 0 6 f.x : BitVec 6).toNat + 1 ≤ 64 := by
    simp only [Instr.wf, Bool.and_eq_true, decide_eq_true_eq] at hw
    rcases hw with ⟨-, h⟩ | ⟨-, h⟩ | ⟨-, h⟩ <;> exact h
  exact if_pos h

/-! ### Addresses, code indices and immediate shifts (R105, R107, R108) -/

theorem shiftLeft_eq_mul (x : Word) (n : Nat) : x <<< n = x * BitVec.ofNat 64 (2 ^ n) :=
  BitVec.eq_of_toNat_eq (by simp [Nat.shiftLeft_eq])

/-- A code index relative to the PC as a word (R108). -/
theorem pcRel_setWidth (c : Core) (x : BitVec 30) :
    (pcRel c x).setWidth 64 = BitVec.ofInt 64 (((c.pc.toNat : Int) + x.toInt) % 8192) := by
  have hx : ((x.toNat % 8192 : Nat) : Int) = x.toInt % 8192 := by
    rw [BitVec.toInt_eq_toNat_cond]
    split <;> omega
  apply BitVec.eq_of_toNat_eq
  rw [BitVec.toNat_setWidth, pcRel, BitVec.toNat_add, BitVec.toNat_setWidth, BitVec.toNat_ofInt]
  omega

theorem immShiftRows_slotSem : ∀ e ∈ immShiftRows, ∀ f, slotSem (e.1 f) = some (immShift f e.2) := by
  intro e he f
  simp only [immShiftRows, List.mem_cons, List.not_mem_nil, or_false] at he
  rcases he with rfl | rfl | rfl <;> rfl

/-- Settles O2: each instruction is a slot of form R, I or L, and the model's arithmetic on numbers is that of the words. -/
theorem bitFieldSelectAndImmediateResults : Obligations.BitFieldSelectAndImmediateResults := by
  unfold Obligations.BitFieldSelectAndImmediateResults
  simp only [← sext_bitField, ← zext_bitField, ← shiftLeft_eq_mul, ← pcRel_setWidth]
  refine ⟨⟨?_, ?_, ?_, ?_, ?_⟩, ?_, ?_, ?_, ?_, ?_, ?_, ?_⟩
  · intro f s ⟨hw, hi⟩
    exact exec_rSlot (i := .exts f) rfl hw hi (bfCheck_of_wf (.inl hw))
  · intro f s ⟨hw, hi⟩
    exact exec_rSlot (i := .extz f) rfl hw hi (bfCheck_of_wf (.inr (.inl hw)))
  · intro f s ⟨hw, hi⟩
    exact ⟨_, exec_rSlot (i := .ins f) rfl hw hi (bfCheck_of_wf (.inr (.inr hw))), fun _ hn => getLsbD_insert _ _ hn⟩
  · intro f s ⟨hw, hi⟩
    exact exec_rSlot (i := .sel f) rfl hw hi rfl
  · intro f s ⟨hw, hi⟩
    exact exec_rSlot (i := .lea f) rfl hw hi rfl
  · intro e he f s ⟨hw, hi⟩
    obtain ⟨hwf, hx⟩ := immRows_are e he f
    rw [hx, imm2_issues (hwf ▸ hw) hi]
  · intro e he f s ⟨hw, hi⟩
    exact exec_iSlot (immShiftRows_slotSem e he f) hw hi rfl
  · intro f s ⟨hw, hi⟩
    exact exec_lSlot (i := .movi f) rfl hw hi
  · intro f s ⟨hw, hi⟩
    exact exec_lSlot (i := .moviz f) rfl hw hi
  · intro f s ⟨hw, hi⟩
    exact exec_lSlot (i := .movm f) rfl hw hi
  · intro f s ⟨hw, hi⟩
    exact exec_lSlot (i := .movt f) rfl hw hi
  · intro f s ⟨hw, hi⟩
    exact exec_lSlot (i := .addpc f) rfl hw hi

/-! ### Staging registers (R5, R116) -/

/-- `gtg` reads a staging register without its reserved bits (R5). -/
theorem gtg_issues {f : IForm} {s : State} (hgo : goI .gtg f s []) :
    exec (.gtg f) s = .next (s.issued (intoSI f 1 (fun c => c.stgReg (field 0 6 f.imm)))) := by
  obtain ⟨hw, hi⟩ := hgo
  obtain ⟨-, hn⟩ : ((f.a = 0 ∧ f.b = 0) ∧ field 6 12 f.imm = (0 : BitVec 12)) ∧ (field 0 6 f.imm : BitVec 6).toNat < 48 := by
    simpa [Instr.wf] using hw
  exact exec_iSlot (i := .gtg f) rfl hw hi (if_pos hn)

/-- Tile 0 with a running strand that has written every bit of staging register mx0, its reserved bits [63:13] with them. -/
def reservedBitsWritten : State :=
  { State.reset with
    cur := 0
    cores := [(0, { Core.fresh 0 with strand := .running, stg := (Core.fresh 0).stg.set 0 (BitVec.allOnes 64) })] }

/-- `gtg s1, mx0`. -/
def readMx0 : IForm := { s1 := false, gi := 0, gp := 0, d := 1, a := 0, b := 0, imm := 0 }

theorem readMx0_go : goI .gtg readMx0 reservedBitsWritten [] := by
  simp only [goI, State.mayIssue, State.unheld]
  decide

/-- The model puts the 13 bits of mx0 on their way that its map does not reserve. -/
theorem readMx0_result : (reservedBitsWritten.issued (intoSI readMx0 1 (fun c =>
    c.stgReg (field 0 6 readMx0.imm)))).core.inflight.map (·.w) = [.s 1 0x1FFF] := by decide

/-- The statement names the register as it is stored, with the reserved bits. -/
theorem readMx0_claimed : (reservedBitsWritten.issued (intoSI readMx0 1 (fun c =>
    c.stg.toList.getD (field 0 6 readMx0.imm : BitVec 6).toNat 0))).core.inflight.map (·.w) = [.s 1 (BitVec.allOnes 64)] := by decide

/-- Refutes O5: `gtg` of a staging register whose reserved bits were written reads them as zero (R5), where the statement has them read
as written. -/
theorem not_namedRegisterMoves : ¬ Obligations.NamedRegisterMoves := by
  unfold Obligations.NamedRegisterMoves
  rintro ⟨-, -, -, -, -, hgtg, -⟩
  have hstate := Host.Outcome.next.inj ((gtg_issues readMx0_go).symm.trans (hgtg readMx0 reservedBitsWritten readMx0_go))
  have hresult : ([.s 1 0x1FFF] : List Write) = [.s 1 (BitVec.allOnes 64)] :=
    readMx0_result.symm.trans ((congrArg (fun u : State => u.core.inflight.map (·.w)) hstate).trans readMx0_claimed)
  exact absurd hresult (by decide)

end Sys2Proof.Machine
end

section
/-! Transfers (O6), and the waits, ends and joins of the C slot (O7). -/

namespace Sys2Proof.Machine

open Sys2Proof.Claims

/-! ### Transfers (R21, R22, R120) -/

/-- A free bundle leaves room for two more results (R18). -/
theorem State.unheld.result_result_room {s : State} (h : s.unheld) (sl sl' : Slot) (n n' : Nat) (w w' : Write) (fl fl' : Flags) :
    ((s.core.result sl n w fl).result sl' n' w' fl').lockstepCount ≤ 32 := by
  have h1 := Core.result_count s.core sl n w fl
  have h2 := Core.result_count (s.core.result sl n w fl) sl' n' w' fl'
  obtain ⟨-, -, -, hcount, -⟩ := h
  omega

/-- What `loop` does, by its count (R120). -/
def loopEff (f : LoopForm) (c : Core) : Core :=
  if c.lcreg f.lc = 0 then c
  else if c.lcreg f.lc = 1 then c.result .c 1 (.lc f.lc 0) 0
  else taken (c.result .c 1 (.lc f.lc (c.lcreg f.lc - 1)) 0) (c.treg f.t)

theorem semLoop_eq (f : LoopForm) : semLoop f = cSlot f.gi f.gp [(240, f.z == 0)] (fun _ => none) (loopEff f) := by
  refine congrArg (cSlot _ _ _ _) (funext fun c => ?_)
  unfold loopEff
  by_cases h1 : c.lcreg f.lc = 1
  · simp [h1]
  · simp only [h1, if_false]
    rfl

theorem loopEff_room {s : State} (hu : s.unheld) (f : LoopForm) : (loopEff f s.core).lockstepCount ≤ 32 := by
  unfold loopEff
  split_ifs
  · exact hu.room
  · exact hu.result_room ..
  · exact hu.result_room ..

/-- A redirect that is due takes effect with its bundle (R21). -/
theorem Core.finish_redirect_due {c : Core} {t src : CodeIdx} (he : c.eretDrain = false)
    (hr : c.redirects = [{ target := t, left := 1, src := src }]) (h : Header) :
    (c.finish h).pc = t ∧ (c.finish h).pcFrom = some src ∧ (c.finish h).redirects = [] := by
  simp [Core.finish, he, hr]

/-- A bundle behind which no redirect is due is followed by the next one of the code (R21, R72). -/
theorem Core.finish_pc_sequential {c : Core} (he : c.eretDrain = false) (hr : ∀ r ∈ c.redirects, r.left ≠ 0 ∧ r.left ≠ 1)
    (h : Header) : (c.finish h).pc = c.seqPc c.pc := by
  have hnone : (c.redirects.map (fun r => { r with left := r.left - 1 })).find? (fun r => r.left == 0) = none := by
    simp only [List.find?_eq_none, List.forall_mem_map, beq_iff_eq]
    intro r hm
    have := hr r hm
    omega
  simp only [Core.finish, he, hnone, Bool.false_eq_true, if_false, Core.countDown_pc]

/-- Settles O6: the transfers are slots of the C slot, and the end of a bundle counts its pending redirects down. -/
theorem transfersTakeEffectAfterTwoMore : Obligations.TransfersTakeEffectAfterTwoMore := by
  unfold Obligations.TransfersTakeEffectAfterTwoMore
  refine ⟨⟨?_, ?_, ?_, ?_, ?_, ?_⟩, ?_, ?_, ?_⟩
  · intro f s ⟨hw, hi⟩
    exact exec_cSlot (i := .br f) rfl hw hi rfl hi.unheld.room
  · intro f s ⟨hw, hi⟩ hd
    exact exec_cSlot (i := .call f) rfl hw hi (if_pos hd) (hi.unheld.result_result_room ..)
  · intro f s ⟨hw, hi⟩ hd
    exact exec_cSlot_traps (i := .call f) rfl hw hi (if_neg (Nat.not_lt.2 hd)) (hi.unheld.result_result_room ..)
  · intro f s ⟨hw, hi⟩ hd
    exact exec_cSlot (i := .ret f) rfl hw hi (if_neg fun h0 => by simp [h0] at hd) (hi.unheld.result_room ..)
  · intro f s ⟨hw, hi⟩ hd
    exact exec_cSlot_traps (i := .ret f) rfl hw hi (if_pos hd) (hi.unheld.result_room ..)
  · intro f s ⟨hw, hi⟩
    exact exec_cSlot (i := .loop f) (congrArg some (semLoop_eq f)) hw hi rfl (loopEff_room hi.unheld f)
  · intro c h t src he hr
    exact Core.finish_redirect_due he hr h
  · intro c h t src n he hr
    exact ⟨by simp [Core.finish, he, hr], Core.finish_pc_sequential he (by simp [hr]) h⟩
  · intro c h he hr
    exact Core.finish_pc_sequential he (by simp [hr]) h

/-! ### Waiting (R121, R122) -/

/-- An instruction whose slot's wait holds leaves the state that its wait answers. -/
theorem exec_waits {i : Instr} {m : SlotSem} {s t : State} (hm : slotSem i = some m) (h : m.waits s = some t) :
    exec i s = .next t := by
  obtain ⟨-, hx⟩ := exec_of_slotSem hm
  rw [hx, SlotSem.issueOne_wait h]

/-- A slot with its guard true and no source pending waits when its own wait holds. -/
theorem SlotSem.waits_own {m : SlotSem} {s t : State} (hab : m.absent s = none) (hp : guardPending m.guard s.core = false)
    (hg : guardOn m.guard s.core = true) (he : m.early s = false) (hr : m.reads.any s.core.isPending = false) (hw : m.wait s = some t) :
    m.waits s = some t := by
  simp [SlotSem.waits, hab, hp, hg, he, hr, hw]

/-- Is every counter at or below its bound (R121)? -/
def withinBounds (f : WaitForm) (c : Core) : Bool :=
  decide (c.cnt.l ≤ f.l.toNat) && decide (c.cnt.s ≤ f.s.toNat) && decide (c.cnt.k ≤ f.k.toNat) && decide (c.cnt.m ≤ f.m.toNat) &&
    decide (c.cnt.n ≤ f.n.toNat)

theorem semWait_wait (f : WaitForm) (s : State) : (semWait f).wait s = if withinBounds f s.core then none else some s := rfl

theorem wait_issues {f : WaitForm} {s : State} (hw : (Instr.wait f).wf = true) (hi : s.mayIssue (some (f.gi, f.gp)) [])
    (h : withinBounds f s.core = true) : exec (.wait f) s = .next (s.issued id) := by
  obtain ⟨hs, hx⟩ := exec_of_slotSem (i := .wait f) rfl
  rw [hx, SlotSem.issueOne_next hs rfl hi (by rw [semWait_wait, if_pos h]) rfl (lowestBit_none (encOk_of_wf (i := .wait f) rfl hw)) rfl
    hi.unheld.room rfl rfl]
  rfl

theorem wait_holds {f : WaitForm} {s : State} (hi : s.mayIssue (some (f.gi, f.gp)) [])
    (h : withinBounds f s.core = false) : exec (.wait f) s = .next s := by
  obtain ⟨hp, hg, -, -⟩ := hi
  exact exec_waits (i := .wait f) rfl (m := semWait f)
    (SlotSem.waits_own rfl hp hg rfl rfl (by rw [semWait_wait, if_neg (by simp [h])]))

/-! ### The return from a trap (R125) -/

theorem or_any_fails (b : Bool) (x y : Option MExec) : (b || [x, y].any MExec.fails) = (b || MExec.fails x || MExec.fails y) := by
  rw [List.any_cons, List.any_cons, List.any_nil, Bool.or_false, Bool.or_assoc]

/-- What `eret` does: its drain begins, and an engine stays stopped whose cause is held or still to be known (R25, R178). -/
def eretEff (c : Core) : Core :=
  { c with
    eretDrain := true
    mat := { c.mat with stopped := (c.deferred ++ c.failing).any (·.slot == .m) || MExec.fails c.mat.exec || MExec.fails c.mat.epi }
    cpy := { c.cpy with stopped := (c.deferred ++ c.failing).any (·.slot == .k) ||
      (match c.cpy.exec with | some e => e.failed.isSome | none => false) }
    chn := { c.chn with stopped := (c.deferred ++ c.failing).any (·.slot == .n) } }

theorem semEret_eq (f : BareForm) : semEret f = cSlot f.gi f.gp [(240, f.z == 0)] (fun _ => none) eretEff :=
  congrArg (cSlot _ _ _ _) (funext fun c =>
    congrArg (fun b => ({ eretEff c with mat := { c.mat with stopped := b } } : Core)) (or_any_fails _ _ _))

/-! ### Arrivals at a barrier line (R122) -/

/-- The gang with one arrival more on line `bl`: of tile `t` in cycle `now`, with vote `v` (R122, R264). -/
def Gang.arrival (g : Gang) (bl : BitVec 2) (t : CoreId) (v : Bool) (now : Nat) : Gang :=
  { g with
    lines := g.lines.set bl.toFin { g.lines.get bl.toFin with
      arrived := (g.lines.get bl.toFin).arrived ++ [(t, v)], lastTid := t, lastAt := now } }

theorem State.vote_eq {s : State} {g : Gang} (hg : s.gangOf s.cur = some g) (bl : BitVec 2) (v : Bool) :
    s.vote bl v = s.putGang (g.arrival bl s.cur v s.cycle) := by
  simp only [State.vote, hg, Gang.arrival]

theorem semSync_eff {s : State} {g : Gang} (hg : s.gangOf s.cur = some g) (f : SyncForm) :
    (semSync f).eff s = (s.setCore { s.core with strand := .sync f.bl f.pr }).putGang
      (g.arrival f.bl s.cur (s.core.preg f.pv) s.cycle) :=
  State.vote_eq (s := s.setCore { s.core with strand := .sync f.bl f.pr }) hg f.bl (s.core.preg f.pv)

theorem sync_issues {f : SyncForm} {s : State} {g : Gang} (hw : (Instr.sync f).wf = true)
    (hi : s.mayIssue (some (f.gi, f.gp)) [.p f.pv]) (hg : s.gangOf s.cur = some g) :
    exec (.sync f) s = .next (s.issuedAll (fun u => (u.setCore { u.core with strand := .sync f.bl f.pr }).putGang
      (g.arrival f.bl s.cur (s.core.preg f.pv) s.cycle))) := by
  obtain ⟨hs, hx⟩ := exec_of_slotSem (i := .sync f) rfl
  have hroom : ((semSync f).eff s).core.lockstepCount ≤ 32 := by
    rw [semSync_eff hg, show ∀ u : State, (u.putGang _).core = u.core from fun _ => rfl, State.setCore_core]
    exact hi.unheld.room
  rw [hx, SlotSem.issueOne_next hs rfl hi rfl rfl (lowestBit_none (encOk_of_wf (i := .sync f) rfl hw)) rfl hroom rfl rfl,
    semSync_eff hg]
  rfl

/-! ### Queue joins (R127) -/

/-- A join orders operations just when its mask names two different queues. -/
theorem joinsQueues_iff {m : BitVec 4} :
    joinsQueues m = true ↔ ∃ i j : Nat, i ≠ j ∧ m.getLsbD i = true ∧ m.getLsbD j = true := by
  have hfin : joinsQueues m = true ↔ ∃ i j : Fin 4, i ≠ j ∧ m.getLsbD i = true ∧ m.getLsbD j = true := by
    revert m
    decide
  rw [hfin]
  constructor
  · rintro ⟨i, j, hne, hi, hj⟩
    exact ⟨i, j, fun h => hne (Fin.ext h), hi, hj⟩
  · rintro ⟨i, j, hne, hi, hj⟩
    exact ⟨⟨i, BitVec.lt_of_getLsbD hi⟩, ⟨j, BitVec.lt_of_getLsbD hj⟩, fun h => hne (Fin.mk.inj h), hi, hj⟩

/-- What a `qfence` does: with two queues or more it records the open operations issued before it, and the triggered sends that have not
fired when it names their queue. -/
def joinEff (f : QfenceForm) (c : Core) : Core :=
  if joinsQueues f.mask then
    { c with qfences := c.qfences ++
      [{ mask := f.mask.setWidth 16, ord := c.issueNo
         waits := (c.openIn f.mask).filter (fun n => decide (n / 4 < c.issueNo)) ++
          (if f.mask.getLsbD 1 then (c.unfired.filter (fun n => decide (n < c.issueNo))).map lateName else []) }] }
  else c

theorem semQfence_eq (f : QfenceForm) : semQfence f = cSlot f.gi f.gp [(244, f.z == 0)] (fun _ => none) (joinEff f) := by
  refine congrArg (cSlot _ _ _ _) (funext fun c => ?_)
  unfold joinEff
  cases joinsQueues f.mask <;> rfl

theorem joinEff_room {s : State} (hu : s.unheld) (f : QfenceForm) : (joinEff f s.core).lockstepCount ≤ 32 := by
  unfold joinEff
  split <;> exact hu.room

theorem qfence_issues {f : QfenceForm} {s : State} (hw : (Instr.qfence f).wf = true) (hi : s.mayIssue (some (f.gi, f.gp)) []) :
    exec (.qfence f) s = .next (s.issued (joinEff f)) :=
  exec_cSlot (i := .qfence f) (congrArg some (semQfence_eq f)) hw hi rfl (joinEff_room hi.unheld f)

/-- Settles O7: a `wait` holds just while a counter is above its bound, and the other C slots issue with their effects. -/
theorem waitsEndsAndJoins : Obligations.WaitsEndsAndJoins := by
  unfold Obligations.WaitsEndsAndJoins
  refine ⟨?_, ?_, ?_, ?_, ?_, ?_, ?_, ?_⟩
  · intro f s ⟨hw, hi⟩ hl hs hk hm hn
    exact wait_issues hw hi (by simp [withinBounds, hl, hs, hk, hm, hn])
  · intro f s ⟨hw, hi⟩ h
    exact wait_holds hi (by simp only [withinBounds, Bool.and_eq_false_iff, decide_eq_false_iff_not]; omega)
  · intro f s g ⟨hw, hi⟩ hg
    exact sync_issues hw hi hg
  · intro f s ⟨hw, hi⟩
    exact exec_cSlot (i := .done f) rfl hw hi rfl hi.unheld.room
  · intro f s ⟨hw, hi⟩
    exact exec_cSlot (i := .swap f) rfl hw hi rfl hi.unheld.room
  · intro f s ⟨hw, hi⟩
    exact exec_cSlot (i := .eret f) (congrArg some (semEret_eq f)) hw hi rfl hi.unheld.room
  · intro f s ⟨hw, hi⟩ h
    exact (qfence_issues hw hi).trans (congrArg _ (congrArg s.issued (funext fun _ => if_pos (joinsQueues_iff.2 h))))
  · intro f s ⟨hw, hi⟩ h
    have hone : ¬ joinsQueues f.mask = true := fun hj => by
      obtain ⟨i, j, hne, hi, hj⟩ := joinsQueues_iff.1 hj
      exact hne (h i j hi hj)
    exact (qfence_issues hw hi).trans (congrArg _ (congrArg s.issued (funext fun _ => if_neg hone)))

end Sys2Proof.Machine
end

section
/-! Requests over the management port and their responses (O50). -/

namespace Sys2Proof.Machine

open Sys2Proof.Claims

/-! ### Bytes and numbers (R2) -/

@[simp] theorem leBytes_length (n x : Nat) : (leBytes n x).length = n := by
  induction n generalizing x with
  | zero => rfl
  | succ n ih => simp [leBytes, ih]

theorem bytesNat_leBytes (n x : Nat) : bytesNat (leBytes n x) = x % 256 ^ n := by
  induction n generalizing x with
  | zero => simp [leBytes, bytesNat, Nat.mod_one]
  | succ n ih => rw [leBytes, bytesNat, ih, BitVec.toNat_ofNat, pow_succ' 256 n, Nat.mod_mul]

/-- A number that fits its bytes is read back from them. -/
theorem bytesNat_leBytes_of_lt {n x : Nat} (h : x < 256 ^ n) : bytesNat (leBytes n x) = x := by
  rw [bytesNat_leBytes, Nat.mod_eq_of_lt h]

/-- A word is read back from its eight bytes. -/
theorem ofNat_bytesNat_leBytes (x : Word) : BitVec.ofNat 64 (bytesNat (leBytes 8 x.toNat)) = x := by
  rw [bytesNat_leBytes_of_lt (by exact x.isLt), BitVec.ofNat_toNat, BitVec.setWidth_eq]

/-- Bytes put into a memory are read back, and the others are as before. -/
theorem Mem.read_putBytes {m : Mem} (h : m.wf = true) (bs : List (BitVec 8)) (a x : Nat) :
    (m.putBytes a bs).read x = if a ≤ x ∧ x < a + bs.length then bs.getD (x - a) 0 else m.read x := by
  induction bs generalizing m a with
  | nil => rw [if_neg (by simp)]; rfl
  | cons b r ih =>
    rw [Mem.putBytes, ih (Mem.wf_write _ _ h), Mem.read_write _ _ _ h, List.length_cons]
    rcases Nat.lt_trichotomy x a with hlt | rfl | hgt
    · rw [if_neg (by omega), if_neg (by omega), if_neg (by omega)]
    · simp
    · obtain ⟨k, rfl⟩ : ∃ k, x = a + 1 + k := ⟨x - (a + 1), by omega⟩
      rw [if_neg (c := a + 1 + k = a) (by omega), show a + 1 + k - (a + 1) = k by omega, show a + 1 + k - a = k + 1 by omega,
        List.getD_cons_succ]
      exact if_congr (by omega) rfl rfl

/-! ### Responses (R404) -/

/-- A response sent from a state that has sent no more than `s`. -/
theorem answered_respond {s t : State} (h : t.outbox = s.outbox) (src op : Nat) (seq : BitVec 32) (status : Nat)
    (payload : List (BitVec 8)) : answered s (t.respond src op seq status payload) src op seq status payload := by
  refine ⟨by rw [State.respond, h], ?_⟩
  simp only [State.respond]
  rw [List.drop_append_of_le_length (Nat.sub_le _ _)]
  exact List.mem_append_right _ (List.mem_singleton_self _)

/-! ### Registers (R400, R405) -/

/-- A write of a register without behaviour of its own leaves its writable bits and offers no event. -/
theorem plainRegs_written : ∀ r ∈ plainRegs, ∀ (s : State) (x : Word), ∃ t, s.writePlain r.1 x = some t ∧
    t.readSys r.1 = some (x &&& r.2) ∧ t.offered = s.offered ∧ t.outbox = s.outbox := by
  intro r hr s x
  have hall : x &&& 18446744073709551615#64 = x := BitVec.and_allOnes
  fin_cases hr <;> exact ⟨_, rfl, by simp [State.readSys, State.setSys, hall], rfl, rfl⟩

theorem plainRegs_idle : ∀ r ∈ plainRegs, (0x800 ≤ r.1 ∧ r.1 ≤ 0xFFF) ∧ ∀ s : State, (s.readSys r.1).isSome = true ∧
    s.registerBusy r.1 = false := by
  intro r hr
  fin_cases hr <;> exact ⟨by decide, fun _ => ⟨rfl, rfl⟩⟩

theorem portRead_some {s : State} {arg : BitVec 32} {x : Word} (h0 : 0x800 ≤ arg.toNat) (h1 : arg.toNat ≤ 0xFFF)
    (hx : s.readSys arg.toNat = some x) (src : Nat) (seq : BitVec 32) :
    s.portRead src seq arg [] = s.respond src 1 seq 0 (leBytes 8 x.toNat) := by
  simp only [State.portRead, h0, h1, hx, and_self, if_true]

theorem portRead_none {s : State} {arg : BitVec 32} (hx : s.readSys arg.toNat = none) (src : Nat) (seq : BitVec 32) :
    s.portRead src seq arg [] = s.respond src 1 seq 1 [] := by
  simp only [State.portRead, hx, ite_self, State.malformed]

/-- A write of a register that exists and is not busy (R405). -/
theorem portWrite_plain {s t : State} {n : Nat} (hn : 0x800 ≤ n ∧ n ≤ 0xFFF) (hx : (s.readSys n).isSome = true)
    (hb : s.registerBusy n = false) {x : Word} (ht : s.writePlain n x = some t) (ho : t.offered = s.offered) (src : Nat)
    (seq : BitVec 32) :
    s.portWrite src seq (BitVec.ofNat 32 n) (leBytes 8 x.toNat) = t.respond src 2 seq 0 [] := by
  have hnum : (BitVec.ofNat 32 n).toNat = n := by
    rw [BitVec.toNat_ofNat]
    omega
  have hok : ¬ ((leBytes 8 x.toNat).length ≠ 8 ∨ n < 0x800 ∨ 0xFFF < n ∨ (s.readSys n).isNone = true) := by
    rintro (h | h | h | h)
    · exact h (leBytes_length ..)
    · omega
    · omega
    · simp [← Option.not_isSome, hx] at h
  have hwrite : s.writeSys n x true = t := by simp only [State.writeSys, ht]
  have href : t.refusals = s.refusals := by rw [State.refusals, State.refusals, ho]
  simp only [State.portWrite, hnum, if_neg hok, hb, Bool.false_eq_true, if_false, ofNat_bytesNat_leBytes, hwrite, href, if_true]

/-- A write of SD_CTL while its BUSY bit is set has no effect (R405). -/
theorem portWrite_busy {s : State} (h : s.sys.sdCtl.getLsbD 62 = true) (x : Word) (src : Nat) (seq : BitVec 32) :
    s.portWrite src seq 0x821 (leBytes 8 x.toNat) = s.respond src 2 seq 3 [] := by
  have hread : s.readSys 0x821 = some s.sys.sdCtl := rfl
  simp [State.portWrite, State.registerBusy, hread, h]

/-! ### Logs and flash (R380, R382, R405) -/

@[simp] theorem LogRec.bytes_length (r : LogRec) : r.bytes.length = 32 := by
  simp [LogRec.bytes]

/-- A full fault log is sent record by record (R380). -/
theorem portLog_full {s : State} {arg : BitVec 32} (hg : goodSelector arg = true) {rs : List LogRec}
    (hrs : Tab.getD s.flogs arg.toNat [] = rs) (hlen : rs.length = 16) (src : Nat) (seq : BitVec 32) :
    s.portLog src seq arg [] = s.respond src 3 seq 0 (leBytes 4 15 ++ rs.reverse.flatMap LogRec.bytes) := by
  have hbytes : (rs.reverse.flatMap LogRec.bytes).length = 512 := by
    simp [List.length_flatMap, hlen]
  simp only [State.portLog, hg, hrs, and_self, if_true, List.length_reverse, hlen]
  rw [List.take_append_of_le_length hbytes.ge, List.take_of_length_le hbytes.le]

theorem field_eq_zero {w lo n : Nat} {x : BitVec w} (h : x.toNat / 2 ^ lo % 2 ^ n = 0) : (field lo n x : BitVec n) = 0 :=
  BitVec.eq_of_toNat_eq ((field_toNat ..).trans h)

/-- The index and the number of records of a black-box read (R405). -/
theorem portBox_records {i n : Nat} (hi : i < 4096) (h1 : 1 ≤ n) (h16 : n ≤ 16) (s : State) (src : Nat) (seq : BitVec 32) :
    s.portBox src seq (BitVec.ofNat 32 (i + n * 2 ^ 16)) [] = s.respond src 4 seq 0
      ((List.range n).flatMap (fun k => Tab.getD s.bbox ((i + k) % 4096) (List.replicate 64 0))) := by
  have hnat : (BitVec.ofNat 32 (i + n * 2 ^ 16)).toNat = i + n * 2 ^ 16 := by
    rw [BitVec.toNat_ofNat]
    omega
  have hidx : (field 0 12 (BitVec.ofNat 32 (i + n * 2 ^ 16)) : BitVec 12).toNat = i := by rw [field_toNat, hnat]; omega
  have hnum : (field 16 5 (BitVec.ofNat 32 (i + n * 2 ^ 16)) : BitVec 5).toNat = n := by rw [field_toNat, hnat]; omega
  have hz1 : field 12 4 (BitVec.ofNat 32 (i + n * 2 ^ 16)) = (0 : BitVec 4) :=
    field_eq_zero (by rw [hnat]; omega)
  have hz2 : field 21 11 (BitVec.ofNat 32 (i + n * 2 ^ 16)) = (0 : BitVec 11) :=
    field_eq_zero (by rw [hnat]; omega)
  simp only [State.portBox, hidx, hnum, hz1, hz2, h1, h16, and_self, if_true]

theorem goodOffset_of {arg : BitVec 32} (hmod : arg.toNat % 1024 = 0) (hlt : arg.toNat < 2 ^ 26) : goodOffset arg = true := by
  rw [goodOffset, hmod, decide_eq_true hlt]
  rfl

theorem portFlash_bytes {arg : BitVec 32} (hg : goodOffset arg = true) {n : Nat} (h1 : 1 ≤ n) (hn : n ≤ 1024) (s : State) (src : Nat)
    (seq : BitVec 32) : s.portFlash src seq arg (leBytes 4 n) = s.respond src 5 seq 0 (s.flash.bytes arg.toNat n) := by
  have hnum : bytesNat (leBytes 4 n) = n := bytesNat_leBytes_of_lt (by omega)
  simp only [State.portFlash, leBytes_length, hg, hnum, h1, hn, and_self, if_true]

theorem portProgram_puts {arg : BitVec 32} (hg : goodOffset arg = true) {d : List (BitVec 8)} (hd : d.length = 1024) (s : State)
    (src : Nat) (seq : BitVec 32) : s.portProgram src seq arg d =
      ({ s with flash := s.flash.putBytes arg.toNat d } : State).respond src 6 seq 0 [] := by
  simp only [State.portProgram, hd, hg, and_self, if_true]

theorem Mem.putBytes_holds {m : Mem} (h : m.wf = true) (a : Nat) (bs : List (BitVec 8)) : holds (m.putBytes a bs) a bs := by
  intro j hj
  rw [Mem.read_putBytes h, if_pos (by omega), Nat.add_sub_cancel_left]

theorem Mem.putBytes_keeps {m : Mem} (h : m.wf = true) (a : Nat) (bs : List (BitVec 8)) : keeps m (m.putBytes a bs) a bs.length := by
  intro b hb
  rw [Mem.read_putBytes h, if_neg hb]

/-! ### Release -/

theorem releaseCore_outbox (s : State) : s.releaseCore.outbox = s.outbox := by
  unfold State.releaseCore
  dsimp only
  split <;> rfl

theorem releaseCore_halted {s : State} (h : (s.coreAt mgmtCore).strand = .coreHalt) :
    s.releaseCore = s.putCore mgmtCore { s.coreAt mgmtCore with strand := .running, undelivered := none } := by
  simp only [State.releaseCore, h, beq_self_eq_true, if_true]

/-! ### Messages (R404) -/

/-- Header and payload of a message: what its CRC is taken of. -/
def messageHead (op seq arg : Nat) (payload : List (BitVec 8)) : List (BitVec 8) :=
  leBytes 2 0x4D59 ++ leBytes 1 1 ++ leBytes 1 op ++ leBytes 4 seq ++ leBytes 2 payload.length ++ leBytes 2 0 ++ leBytes 4 arg ++ payload

theorem message_eq (op seq arg : Nat) (payload : List (BitVec 8)) : message op seq arg payload =
    messageHead op seq arg payload ++ leBytes 4 (crc32c (messageHead op seq arg payload)).toNat := rfl

theorem messageHead_length (op seq arg : Nat) (payload : List (BitVec 8)) :
    (messageHead op seq arg payload).length = 16 + payload.length := by
  simp [messageHead]
  omega

theorem message_length (op seq arg : Nat) (payload : List (BitVec 8)) : (message op seq arg payload).length = 20 + payload.length := by
  rw [message_eq, List.length_append, messageHead_length, leBytes_length]
  omega

theorem message_op {op : Nat} (h : op < 256) (seq arg : Nat) (payload : List (BitVec 8)) :
    msgField (message op seq arg payload) 3 1 = op := bytesNat_leBytes_of_lt (n := 1) h

theorem message_seq {seq : Nat} (h : seq < 2 ^ 32) (op arg : Nat) (payload : List (BitVec 8)) :
    msgField (message op seq arg payload) 4 4 = seq := bytesNat_leBytes_of_lt (n := 4) h

theorem message_len {payload : List (BitVec 8)} (h : payload.length < 2 ^ 16) (op seq arg : Nat) :
    msgField (message op seq arg payload) 8 2 = payload.length := bytesNat_leBytes_of_lt (n := 2) h

theorem message_arg {arg : Nat} (h : arg < 2 ^ 32) (op seq : Nat) (payload : List (BitVec 8)) :
    msgField (message op seq arg payload) 12 4 = arg := bytesNat_leBytes_of_lt (n := 4) h

theorem message_payload (op seq arg : Nat) (payload : List (BitVec 8)) :
    ((message op seq arg payload).drop 16).take payload.length = payload := by
  have hdrop : (message op seq arg payload).drop 16 = payload ++ leBytes 4 (crc32c (messageHead op seq arg payload)).toNat := rfl
  rw [hdrop, List.take_left]

theorem goodDatagram_message {payload : List (BitVec 8)} (h : payload.length < 2 ^ 16) (op seq arg : Nat) :
    goodDatagram (message op seq arg payload) = true := by
  have hsub : (message op seq arg payload).length - 4 = (messageHead op seq arg payload).length := by
    rw [message_length, messageHead_length]
    omega
  have hhead : (message op seq arg payload).take ((message op seq arg payload).length - 4) = messageHead op seq arg payload := by
    rw [hsub, message_eq, List.take_left]
  have hcrc : msgField (message op seq arg payload) ((message op seq arg payload).length - 4) 4 =
      (crc32c (messageHead op seq arg payload)).toNat := by
    rw [msgField, hsub, message_eq, List.drop_left, List.take_of_length_le (by simp), bytesNat_leBytes_of_lt (by exact BitVec.isLt _)]
  have hmagic : msgField (message op seq arg payload) 0 2 = 0x4D59 := bytesNat_leBytes_of_lt (n := 2) (by omega)
  have hversion : msgField (message op seq arg payload) 2 1 = 1 := bytesNat_leBytes_of_lt (n := 1) (by omega)
  have hzero : msgField (message op seq arg payload) 10 2 = 0 := bytesNat_leBytes_of_lt (n := 2) (by omega)
  rw [goodDatagram, hhead, hcrc, hmagic, hversion, hzero, message_len h, message_length]
  simp

theorem datagram_bad {src : Nat} {bs : List (BitVec 8)} (hsrc : src < 2 ^ 48) (h : goodDatagram bs = false) (s : State) :
    s.datagram src bs = s := by
  simp only [State.datagram, Nat.not_le.2 hsrc, if_false, h, Bool.not_false, if_true]

/-- A request waits while the response to an order is under way (log 74). -/
theorem datagram_waits {s : State} {src : Nat} {bs : List (BitVec 8)} (hsrc : src < 2 ^ 48) (hgood : goodDatagram bs = true)
    (ha : s.awaited ≠ []) : s.datagram src bs = { s with portWait := s.portWait ++ [(src, bs)] } := by
  simp only [State.datagram, Nat.not_le.2 hsrc, if_false, hgood, Bool.not_true, Bool.false_eq_true, ne_eq, ha, not_false_eq_true, if_true]

/-- An echo request is echoed once the port has an address (log 115). -/
theorem datagram_echoed {s : State} {a : BitVec 96} (ha : s.portAddress = some a) {src : Nat} (hsrc : 2 ^ 48 ≤ src)
    (hlt : src < 2 * 2 ^ 48) (bs : List (BitVec 8)) :
    s.datagram src bs = { s with outbox := s.outbox ++ [.datagram src bs] } := by
  have hone : src / 2 ^ 48 = 1 := by omega
  simp only [State.datagram, hsrc, if_true, State.otherTraffic, ha, hone, true_or]

theorem datagram_noAddress {s : State} (ha : s.portAddress = none) {src : Nat} (hsrc : 2 ^ 48 ≤ src) (bs : List (BitVec 8)) :
    s.datagram src bs = s := by
  simp only [State.datagram, hsrc, if_true, State.otherTraffic, ha]

/-- A repeated sequence number gets the kept response and no other effect (R404). -/
theorem datagram_repeated {s : State} {src : Nat} {bs : List (BitVec 8)} {k : Kept} (hsrc : src < 2 ^ 48)
    (hgood : goodDatagram bs = true) (ha : s.awaited = [])
    (hk : s.kept.find? (fun k => k.src == src && k.seq == msgField bs 4 4) = some k) :
    s.datagram src bs = { s with outbox := s.outbox ++ [.datagram src k.resp] } := by
  simp only [State.datagram, Nat.not_le.2 hsrc, if_false, hgood, Bool.not_true, Bool.false_eq_true, ne_eq, ha, not_true_eq_false, hk]

/-- A new request is served (R404, R405). -/
theorem datagram_serves {s : State} {src op : Nat} {seq arg : BitVec 32} {d : List (BitVec 8)} (hsrc : src < 2 ^ 48)
    (ha : s.awaited = []) (hd : d.length < 2 ^ 16) (hk : ∀ k ∈ s.kept, ¬ (k.src = src ∧ k.seq = seq.toNat)) (hop : op < 256) :
    s.datagram src (message op seq.toNat arg.toNat d) = s.serveRequest src op seq arg d := by
  have hfind : s.kept.find? (fun k => k.src == src && k.seq == seq.toNat) = none := by
    simpa using hk
  simp only [State.datagram, message_seq seq.isLt, Nat.not_le.2 hsrc, if_false, goodDatagram_message hd, Bool.not_true, Bool.false_eq_true,
    ha, ne_eq, not_true_eq_false, hfind, message_op hop, message_arg arg.isLt, message_len hd, message_payload, BitVec.ofNat_toNat,
    BitVec.setWidth_eq]

/-! ### Orders to ports (R405, R407) -/

@[simp] theorem State.offer_awaited (s : State) (org loc ctx code : Nat) (data : List (BitVec 8)) :
    (s.offer org loc ctx code data).awaited = s.awaited := by
  unfold State.offer State.offerLog
  dsimp only
  split
  · split <;> rfl
  · rfl

@[simp] theorem State.ordered_awaited (s : State) (p order : Nat) (x : Port) : (s.ordered p order x).awaited = s.awaited := by
  unfold State.ordered
  split
  · rfl
  · rw [State.offer_awaited]
    rfl

@[simp] theorem State.hintPends_awaited (s : State) (p : Nat) : (s.hintPends p).awaited = s.awaited := by
  rw [State.hintPends, State.offer_awaited]
  rfl

@[simp] theorem State.restPort_awaited (s : State) (p : Nat) : (s.restPort p).awaited = s.awaited := by
  unfold State.restPort
  dsimp only
  split <;> simp

/-- The numbers of the orders but bind (R405). -/
theorem isOrder_cases {i : Nat → Instr} {k : Nat} (h : isOrder i k) : k = 2 ∨ k = 3 ∨ k = 4 ∨ k = 5 := by
  rcases h with ⟨-, rfl⟩ | ⟨-, rfl⟩ | ⟨-, rfl⟩ | ⟨-, rfl⟩ <;> simp

/-- The word of an order but bind names the order and is in form (R405). -/
theorem orderWord {k : Nat} (h : k = 2 ∨ k = 3 ∨ k = 4 ∨ k = 5) :
    badOrder (BitVec.ofNat 64 (k * 2 ^ 24)) = false ∧ (field 24 8 (BitVec.ofNat 64 (k * 2 ^ 24)) : BitVec 8).toNat = k := by
  rcases h with rfl | rfl | rfl | rfl <;> decide

/-- An order carried out over the management port waits for its event with its response (R405). -/
theorem portOrder_awaits {i : Nat → Instr} {k : Nat} (hi : isOrder i k) {s u : State} {arg : BitVec 32} (hp : arg.toNat < 56)
    (hu : exec (i arg.toNat) s = .next u) (src : Nat) (seq : BitVec 32) :
    s.portOrder src seq arg (leBytes 8 (k * 2 ^ 24)) =
      { u with awaited := s.awaited ++ [{ src, seq, port := arg.toNat, order := k }] } := by
  obtain ⟨hbad, hk⟩ := orderWord (isOrder_cases hi)
  have hnum : bytesNat (leBytes 8 (k * 2 ^ 24)) = k * 2 ^ 24 :=
    bytesNat_leBytes_of_lt (by rcases isOrder_cases hi with rfl | rfl | rfl | rfl <;> omega)
  have hok : ¬ (56 ≤ arg.toNat ∨ (leBytes 8 (k * 2 ^ 24)).length ≠ 8 ∨ badOrder (BitVec.ofNat 64 (k * 2 ^ 24)) = true) := by
    rintro (h | h | h)
    · omega
    · exact h (leBytes_length ..)
    · rw [hbad] at h
      cases h
  simp only [State.portOrder, hnum, if_neg hok, hk]
  rcases hi with ⟨rfl, rfl⟩ | ⟨rfl, rfl⟩ | ⟨rfl, rfl⟩ | ⟨rfl, rfl⟩
  all_goals cases hu
  · simp only [State.unbindPort, State.ordered_awaited]
  · simp only [State.raisePort, State.ordered_awaited]
  · simp only [State.restPort_awaited]
  · simp only [State.lowerPort, State.ordered_awaited]

/-- A stamp puts down its event and answers the order that it belongs to (R381, R405). -/
theorem stamp_of_next {s : State} {o : Offer} (hn : s.stampedNow = false)
    (ho : nextOffer (s.offered.filter (fun o => decide (o.since ≤ s.cycle))) = some o) :
    ∃ t : State, s.stamp = t.answerOrder o ∧ t.awaited = s.awaited ∧ t.outbox = s.outbox := by
  rw [State.stamp, if_neg (by simp [hn]), ho]
  exact ⟨_, rfl, rfl, rfl⟩

/-- The event of the only order under way sends its response (R405). -/
theorem answerOrder_answers {s t : State} {o : Offer} {a : Awaited} (horg : o.org = 8) (hcode : o.code = 0x0038) (ha : t.awaited = [a])
    (hp : a.port = o.loc) (hk : a.order = (o.data.getD 1 0).toNat) (hout : t.outbox = s.outbox) :
    (t.answerOrder o).awaited = [] ∧ answered s (t.answerOrder o) a.src 9 a.seq 0 [] := by
  have hfind : t.awaited.find? (fun a => a.port == o.loc && a.order == (o.data.getD 1 0).toNat) = some a := by
    simp [ha, hp, hk]
  have hnone : t.awaited.erase a = [] := by simp [ha]
  simp only [State.answerOrder, horg, hcode, and_self, if_true, hfind, hnone]
  exact ⟨rfl, answered_respond hout ..⟩

/-- Settles O50: what each request does to the state, and the response that it sends or leaves to the stamp of its event. -/
theorem managementPort : Obligations.ManagementPort := by
  unfold Obligations.ManagementPort
  refine ⟨?_, ?_, ?_, ?_, ?_, ?_, ?_, ?_, ?_, ?_, ?_, ?_, ?_, ?_, ?_⟩
  · intro s src seq arg
    refine ⟨fun x h0 h1 hx => ⟨_, congrArg Host.Outcome.next (portRead_some h0 h1 hx src seq), answered_respond rfl .., rfl, rfl⟩,
      fun hx => ⟨_, congrArg Host.Outcome.next (portRead_none hx src seq), answered_respond rfl ..⟩⟩
  · intro r hr s src seq x
    obtain ⟨t, ht, hread, hoff, hout⟩ := plainRegs_written r hr s x
    obtain ⟨hnum, hread'⟩ := plainRegs_idle r hr
    obtain ⟨hsome, hidle⟩ := hread' s
    exact ⟨_, congrArg Host.Outcome.next (portWrite_plain hnum hsome hidle ht hoff src seq), hread, answered_respond hout ..⟩
  · intro s src seq x hb
    exact ⟨_, congrArg Host.Outcome.next (portWrite_busy hb x src seq), rfl, rfl, answered_respond rfl ..⟩
  · intro s src seq arg rs hg hrs hlen
    exact ⟨_, congrArg Host.Outcome.next (portLog_full hg hrs hlen src seq), rfl, answered_respond rfl ..⟩
  · intro s src i n seq hi h1 h16
    exact ⟨_, congrArg Host.Outcome.next (portBox_records hi h1 h16 s src seq), rfl, answered_respond rfl ..⟩
  · intro s src n seq arg hmod hlt h1 hn
    exact ⟨_, congrArg Host.Outcome.next (portFlash_bytes (goodOffset_of hmod hlt) h1 hn s src seq), rfl, answered_respond rfl ..⟩
  · intro s src seq arg d hmod hlt hd hwf
    refine ⟨_, congrArg Host.Outcome.next (portProgram_puts (goodOffset_of hmod hlt) hd s src seq), Mem.putBytes_holds hwf _ _, ?_,
      answered_respond rfl ..⟩
    exact hd ▸ Mem.putBytes_keeps hwf arg.toNat d
  · intro s src seq
    refine ⟨⟨_, rfl, rfl, rfl, rfl, rfl, rfl, rfl, rfl, ⟨rfl, rfl, rfl, rfl, rfl, rfl, rfl⟩, answered_respond rfl src 7 seq 0 []⟩,
      ⟨_, rfl, rfl, rfl, rfl, ⟨rfl, rfl, rfl, rfl, rfl, rfl, rfl⟩, answered_respond rfl src 7 seq 0 []⟩⟩
  · intro s src seq h
    refine ⟨_, rfl, answered_respond (releaseCore_outbox s) .., ?_⟩
    rw [releaseCore_halted h]
    exact s.putCore_coreAt ..
  · intro s src bs hsrc hbad
    exact congrArg Host.Outcome.next (datagram_bad hsrc hbad s)
  · intro s src bs hsrc hgood ha
    exact congrArg Host.Outcome.next (datagram_waits hsrc hgood ha)
  · intro s src bs hsrc
    exact ⟨fun a ha hlt => congrArg Host.Outcome.next (datagram_echoed ha hsrc hlt bs),
      fun ha => congrArg Host.Outcome.next (datagram_noAddress ha hsrc bs)⟩
  · intro s src bs r hsrc hgood ha hkept
    exact congrArg Host.Outcome.next (datagram_repeated hsrc hgood ha hkept)
  · intro s src seq arg d hsrc ha hd hk
    refine ⟨?_, ?_, ?_, ?_⟩
    · rintro i k u hi hp rfl hu
      have hserved := (datagram_serves (op := 9) hsrc ha hd hk (by omega)).trans (portOrder_awaits hi hp hu src seq)
      rw [ha] at hserved
      exact congrArg Host.Outcome.next hserved
    · exact congrArg Host.Outcome.next (datagram_serves hsrc ha hd hk (by omega))
    · exact congrArg Host.Outcome.next (datagram_serves hsrc ha hd hk (by omega))
    · exact congrArg Host.Outcome.next (datagram_serves hsrc ha hd hk (by omega))
  · intro s o a hn ho ht horg hcode ha hp hk
    obtain ⟨t, hstamp, hta, htout⟩ := stamp_of_next hn (o := o) (by simp [ho, ht, nextOffer])
    exact ⟨_, congrArg Host.Outcome.next hstamp, answerOrder_answers horg hcode (hta.trans ha) hp hk htout⟩

end Sys2Proof.Machine
end

section
/-! Lanes and masks bit by bit, and instructions of the V slot: one that is well formed and whose check passes issues (R128, R129). -/

namespace Sys2Proof.Machine

open Sys2Proof.Claims

/-! ### Elements packed side by side (R96, R128) -/

/-- Element `j` of the packed ones is the `j`-th, cut to its width. -/
theorem packFrom_element (w : Nat) (g : Nat → Nat) : ∀ {n i j : Nat}, j < n → packFrom w g n i / 2 ^ (w * j) % 2 ^ w = g (i + j) % 2 ^ w
  | n + 1, i, 0, _ => by simp [packFrom]
  | n + 1, i, j + 1, h => by
    have hlow : g i % 2 ^ w / 2 ^ w = 0 := Nat.div_eq_of_lt (Nat.mod_lt _ (by positivity))
    rw [packFrom, Nat.mul_succ, Nat.add_comm (w * j), Nat.pow_add, ← Nat.div_div_eq_div_mul, Nat.add_mul_div_left _ _ (by positivity), hlow,
      Nat.zero_add, packFrom_element w g (by omega), Nat.add_right_comm, Nat.add_assoc]

theorem packFrom_lt (w : Nat) (g : Nat → Nat) : ∀ n i : Nat, packFrom w g n i < 2 ^ (w * n)
  | 0, i => by simp [packFrom]
  | n + 1, i => by
    have hlow : g i % 2 ^ w < 2 ^ w := Nat.mod_lt _ (by positivity)
    have hrest : 2 ^ w * (packFrom w g n (i + 1) + 1) ≤ 2 ^ w * 2 ^ (w * n) := Nat.mul_le_mul_left _ (packFrom_lt w g n (i + 1))
    rw [packFrom, Nat.mul_succ w n, Nat.pow_add, Nat.mul_comm (2 ^ (w * n))]
    rw [Nat.mul_succ] at hrest
    omega

theorem toNat_ofNat_packFrom {w n m : Nat} (h : w * n ≤ m) (g : Nat → Nat) (i : Nat) :
    (BitVec.ofNat m (packFrom w g n i)).toNat = packFrom w g n i :=
  Nat.mod_eq_of_lt ((packFrom_lt w g n i).trans_le (Nat.pow_le_pow_right Nat.two_pos h))

/-- Each lane of a packed vector is its element, cut to the lane width. -/
theorem lane_packLanes {w i : Nat} (g : Nat → Nat) (h : i < 1024 / w) : lane w (packLanes w g) i = g i % 2 ^ w := by
  rw [lane, packLanes, toNat_ofNat_packFrom (Nat.mul_div_le 1024 w), packFrom_element w g h, Nat.zero_add]

/-- A merge keeps the lanes that are not active (R128). -/
theorem lane_mergeLanes {w i : Nat} (m : Mask) (old : Vec) (g : Nat → Nat) (h : i < 1024 / w) :
    lane w (mergeLanes w m old g) i = if m.getLsbD (w / 8 * i) then g i % 2 ^ w else lane w old i := by
  rw [mergeLanes, lane_packLanes _ h, apply_ite (· % 2 ^ w)]
  exact if_congr .rfl rfl (Nat.mod_mod ..)

/-- Bit `j` of packed bits. -/
theorem getLsbD_packBits {m j : Nat} (b : Nat → Bool) (h : j < m) :
    (BitVec.ofNat m (packFrom 1 (fun j => if b j then 1 else 0) m 0)).getLsbD j = b j := by
  have helem := packFrom_element 1 (fun j => if b j then 1 else 0) (i := 0) h
  rw [Nat.one_mul, pow_one, Nat.zero_add] at helem
  rw [BitVec.getLsbD_ofNat, decide_eq_true h, Bool.true_and, Nat.testBit_eq_decide_div_mod_eq, helem]
  cases b j <;> rfl

/-- A merged mask has all bits of an active lane equal and keeps the others (R132). -/
theorem getLsbD_mergeMask {w j : Nat} (m old : Mask) (g : Nat → Bool) (h : j < 128) :
    (mergeMask w m old g).getLsbD j = if m.getLsbD (w / 8 * (j / (w / 8))) then g (j / (w / 8)) else old.getLsbD j := by
  have hbits : mergeMask w m old g = BitVec.ofNat 128 (packFrom 1 (fun j =>
      if (if m.getLsbD (w / 8 * (j / (w / 8))) then g (j / (w / 8)) else old.getLsbD j) then 1 else 0) 128 0) := by
    refine congrArg (BitVec.ofNat 128) (packFrom_congr fun j _ _ => ?_)
    exact (apply_ite (fun b : Bool => if b then 1 else 0) ..).symm
  rw [hbits, getLsbD_packBits _ h]

/-! ### Operands of form V -/

theorem vbLane_eq (f : VForm) (c : Core) (i : Nat) : vbLane f c i = lb f c i := by
  simp [vbLane, lb, vSb, vw, lw, vScalar]

theorem vbReads_eq (f : VForm) : vbReads f = rb f := by
  simp [vbReads, rb, vSb, vScalar]

/-! ### A well-formed V instruction whose check passes issues -/

theorem State.issued_congr {s : State} {g g' : Core → Core} (h : g s.core = g' s.core) : s.issued g = s.issued g' := by
  rw [State.issued, h, State.issued]

theorem exec_vSlot {i : Instr} {f : VForm} {enc reads check lat res} {s : State}
    (hm : slotSem i = some (vSlot f enc reads check lat res)) (hw : i.wf = true) (hi : s.mayIssue none reads)
    (hc : check s.core = none) :
    exec i s = .next (s.issued (fun c => c.result .v lat (res c).1 (res c).2)) := by
  obtain ⟨-, hx⟩ := exec_of_slotSem hm
  have he : ∀ e ∈ enc, e.2 = true := encOk_of_wf hm hw
  rw [hx, vSlot_next hi he hc]

/-- A slot that begins results or redirects, with its own wait over, issues with its effect. -/
theorem exec_issued {i : Instr} {m : SlotSem} {s : State} {g : Core → Core} (hm : slotSem i = some m) (hw : i.wf = true)
    (hab : m.absent s = none) (hi : s.mayIssue m.guard m.reads) (hwait : m.wait s = none) (hl : m.late s = none) (hc : m.check s = none)
    (hg : m.eff s = onCore g s) (hr : (g s.core).lockstepCount ≤ 32) (hb : m.words s = []) (ha : m.after s = none) (hp : m.plain = true) :
    exec i s = .next (s.issued g) := by
  obtain ⟨hs, hx⟩ := exec_of_slotSem hm
  rw [hx, SlotSem.issueOne_issued hs hab hi hwait hl (encOk_of_wf hm hw) hc hg hr hb ha hp]

/-- A free bundle leaves room for one more result also on a core that has no other results in flight. -/
theorem State.unheld.room_of_inflight {s : State} (h : s.unheld) {c : Core} (hc : c.inflight = s.core.inflight) (sl : Slot) (n : Nat)
    (w : Write) (fl : Flags) : (c.result sl n w fl).lockstepCount ≤ 32 := by
  have hcount : c.lockstepCount = s.core.lockstepCount := by rw [Core.lockstepCount, hc, Core.lockstepCount]
  obtain ⟨-, -, -, hroom, -⟩ := h
  have hone := c.result_count sl n w fl
  omega

end Sys2Proof.Machine
end

section
/-! Vector integer instructions (O12). -/

namespace Sys2Proof.Machine

open Sys2Proof.Claims

theorem vec2Rows_slotSem : ∀ e ∈ vec2Rows, ∀ f, slotSem (e.1 f) = some (vInt2 f e.2) := by
  intro e he f
  simp only [vec2Rows, List.mem_cons, List.not_mem_nil, or_false] at he
  rcases he with rfl | rfl | rfl | rfl | rfl | rfl | rfl | rfl | rfl | rfl | rfl | rfl | rfl | rfl | rfl | rfl | rfl | rfl | rfl | rfl <;> rfl

theorem vec1Rows_slotSem : ∀ e ∈ vec1Rows, ∀ f, slotSem (e.1 f) = some (vInt1 f e.2) := by
  intro e he f
  simp only [vec1Rows, List.mem_cons, List.not_mem_nil, or_false] at he
  rcases he with rfl | rfl | rfl | rfl <;> rfl

theorem vcmp_code_le {f : VForm} (hw : (Instr.vcmp f).wf = true) : (field 0 4 f.fn : BitVec 4).toNat ≤ 9 := by
  simp only [Instr.wf, Bool.and_eq_true, decide_eq_true_eq] at hw
  exact hw.2

/-- Settles O12: each instruction is a slot of form V that puts its merged result on its way, and a merge is read lane by lane. -/
theorem vectorIntegerResults : Obligations.VectorIntegerResults := by
  unfold Obligations.VectorIntegerResults
  refine ⟨fun l m old => ⟨fun g i hi => lane_mergeLanes m old g hi, fun g q j hj => getLsbD_mergeMask m q g hj⟩, ?_, ?_, ?_, ?_⟩
  · intro e he f s ⟨hw, hi⟩
    rw [exec_vSlot (vec2Rows_slotSem e he f) hw (by rwa [vbReads_eq]) rfl]
    simp only [vbLane_eq]
    rfl
  · intro e he f s ⟨hw, hi⟩
    exact exec_vSlot (vec1Rows_slotSem e he f) hw hi rfl
  · intro f s ⟨hw, hi⟩
    rw [exec_vSlot (i := .vsel f) rfl hw (by rwa [vbReads_eq]) rfl]
    simp only [vbLane_eq]
    rfl
  · intro f s ⟨hw, hi⟩
    rw [exec_vSlot (i := .vcmp f) rfl hw (by rwa [vbReads_eq]) (if_pos (vcmp_code_le hw))]
    simp only [vbLane_eq]
    rfl

end Sys2Proof.Machine
end

section
/-! Vector moves, permutes and slides (O16). -/

namespace Sys2Proof.Machine

open Sys2Proof.Claims

/-- A move with its sources readable and its lane number in range issues with its merged lanes. -/
theorem vMove_issues {i : Instr} {f : VForm} {enc reads check g} {s : State} (hm : slotSem i = some (vMove f enc reads check g))
    (hw : i.wf = true) (hi : s.mayIssue none (reads ++ rd f)) (hc : check = none) :
    exec i s = .next (s.issued (intoV f 2 g (fun _ => 0))) :=
  exec_vSlot hm hw hi hc

/-- A lane number below the number of lanes (R138). -/
theorem idxCheck_none {f : VForm} (h : (field 0 7 f.fn : BitVec 7).toNat < 1024 / lw f) : idxCheck f = none := if_pos h

theorem shufPat_le {f : VForm} (hw : (Instr.vshuf f).wf = true) : shufPat f ≤ 4 := by
  simp only [Instr.wf, Bool.and_eq_true, decide_eq_true_eq] at hw
  exact hw.1.2

/-- The window of an upward slide by fewer lanes than there are: the top lanes of vb below those of va (R138). -/
theorem slide_up {α : Type} {n i k : Nat} (hk : k < n) (x y : Nat → α) :
    (if n + i - k < n then y (n + i - k) else x (n + i - k - n)) = if i < k then y (n + i - k) else x (i - k) := by
  by_cases h : i < k
  · rw [if_pos h, if_pos (by omega)]
  · rw [if_neg h, if_neg (by omega), show n + i - k - n = i - k by omega]

/-- Each move is a slot that reads the registers of its row, accepts what the row's condition allows, and takes the row's lane. -/
theorem moveRows_are : ∀ e ∈ moveRows, ∀ f, ∃ enc reads check g, slotSem (e.1 f) = some (vMove f enc reads check g) ∧
    reads = e.2.1 f ∧ ((e.1 f).wf = true → e.2.2.1 f → check = none) ∧ (e.2.2.1 f → ∀ c i, g c i = e.2.2.2 f c i) := by
  intro e he f
  simp only [moveRows, List.mem_cons, List.not_mem_nil, or_false] at he
  rcases he with rfl | rfl | rfl | rfl | rfl | rfl | rfl | rfl
  · exact ⟨_, _, _, _, rfl, rfl, fun _ _ => rfl, fun _ _ _ => rfl⟩
  · refine ⟨_, _, _, _, rfl, vbReads_eq f, fun _ h => ?_, fun _ c _ => vbLane_eq f c _⟩
    split
    next => rfl
    next hsb => exact idxCheck_none (h.resolve_left fun h1 => hsb (by simp [vSb, h1]))
  · exact ⟨_, _, _, _, rfl, rfl, fun _ _ => rfl, fun _ _ _ => rfl⟩
  · refine ⟨_, _, _, _, rfl, by rw [vbReads_eq], fun _ _ => rfl, fun _ c i => ?_⟩
    simp only [vbLane_eq]
    rfl
  · refine ⟨_, _, _, _, rfl, by rw [vbReads_eq]; rfl, fun _ _ => rfl, fun _ c i => ?_⟩
    simp only [vbLane_eq]
    rfl
  · refine ⟨_, _, _, _, rfl, by rw [vbReads_eq]; rfl, fun hw _ => if_pos (shufPat_le hw), fun _ c i => ?_⟩
    simp only [vbLane_eq]
    rfl
  · refine ⟨_, _, _, _, rfl, by rw [vbReads_eq], fun _ h => idxCheck_none h, fun h c i => ?_⟩
    simp only [vbLane_eq]
    exact if_congr .rfl (slide_up h (la f c) (lb f c)) rfl
  · refine ⟨_, _, _, _, rfl, ?_, fun _ _ => rfl, fun _ c i => ?_⟩
    · simp [vSb, vScalar]
    · simp [opAdd, vSb, vScalar, vw, lw]

/-- Settles O16: each move is a slot of form V, and the lane it takes is the one of its row. -/
theorem vectorMoveResults : Obligations.VectorMoveResults := by
  unfold Obligations.VectorMoveResults
  refine ⟨?_, ?_, ?_⟩
  · intro e he f s ⟨hw, hi⟩ h
    obtain ⟨enc, reads, check, g, hm, hreads, hcheck, hg⟩ := moveRows_are e he f
    obtain rfl := hreads
    obtain rfl : g = fun c i => e.2.2.2 f c i := funext₂ (hg h)
    exact vMove_issues hm hw hi (hcheck hw h)
  · intro f s ⟨hw, hi⟩ h
    exact exec_vSlot (i := .vextr f) rfl hw hi (idxCheck_none h)
  · intro f s ⟨hw, hi⟩ h
    rw [exec_vSlot (i := .vinsr f) rfl hw hi (idxCheck_none h)]
    simp only [Bool.and_eq_true, beq_iff_eq]
    rfl

end Sys2Proof.Machine
end

section
/-! Mask logic and mask reductions (O18). -/

namespace Sys2Proof.Machine

open Sys2Proof.Claims

/-- MG gates a mask destination bit by bit (R144). -/
theorem getLsbD_maskGate (f : VForm) (c : Core) (g : Nat → Bool) {j : Nat} (h : j < 128) :
    (maskGate f c g).getLsbD j = if (c.mreg f.mg).getLsbD j then g j else (c.mreg (field 0 4 f.vd)).getLsbD j :=
  getLsbD_packBits _ h

theorem maskRows_slotSem : ∀ e ∈ maskRows, ∀ f, ∃ two, slotSem (e.1 f) = some (maskLogic f two e.2) := by
  intro e he f
  simp only [maskRows, List.mem_cons, List.not_mem_nil, or_false] at he
  rcases he with rfl | rfl | rfl | rfl <;> exact ⟨_, rfl⟩

/-- Some lane is counted (R145). -/
theorem countedLanes_nonempty (f : VForm) (c : Core) : (!(countedLanes f c).isEmpty) =
    decide (∃ i < 1024 / lw f, on f c i = true ∧ laneOn (lw f) (c.mreg (field 0 4 f.va)) i = true) := by
  rw [Bool.eq_iff_iff, Bool.not_eq_true', List.isEmpty_eq_false_iff_exists_mem, decide_eq_true_iff]
  simp only [countedLanes, List.mem_filter, List.mem_range, Bool.and_eq_true]
  exact exists_congr fun i => and_congr_right fun _ => and_comm

/-- Every active lane is set in ma (R145). -/
theorem activeLanes_all (f : VForm) (c : Core) : (activeLanes f c).all (fun i => laneOn (vw f) (c.mreg (mOf f.va)) i) =
    decide (∀ i < 1024 / lw f, on f c i = true → laneOn (lw f) (c.mreg (field 0 4 f.va)) i = true) := by
  rw [Bool.eq_iff_iff, List.all_eq_true, decide_eq_true_iff]
  simp only [activeLanes, List.mem_filter, List.mem_range, and_imp]
  exact .rfl

theorem countedLanes_length (f : VForm) (c : Core) : (countedLanes f c).length =
    (List.range (1024 / lw f)).countP (fun i => laneOn (lw f) (c.mreg (field 0 4 f.va)) i && on f c i) :=
  List.countP_eq_length_filter.symm

theorem maskVote_issues {i : Instr} {f : VForm} {g : Core → Bool} {s : State} (hm : slotSem i = some (maskVote f g)) (hw : i.wf = true)
    (hi : s.mayIssue none []) : exec i s = .next (s.issued (fun c => c.result .v 2 (.p (field 0 3 f.vd) (g c)) 0)) :=
  exec_vSlot hm hw hi rfl

/-- Settles O18: each instruction is a slot of form V; masks are read bit by bit, and the votes run over the lanes counted. -/
theorem maskResults : Obligations.MaskResults := by
  unfold Obligations.MaskResults
  refine ⟨?_, ?_, ?_, ?_, ?_, ?_⟩
  · intro e he f s ⟨hw, hi⟩
    obtain ⟨two, hm⟩ := maskRows_slotSem e he f
    exact ⟨_, (exec_vSlot hm hw hi rfl).trans (congrArg _ (State.issued_congr rfl)), fun j hj => getLsbD_maskGate f _ _ hj⟩
  · intro f s ⟨hw, hi⟩
    refine ⟨_, (exec_vSlot (i := .mset f) rfl hw hi rfl).trans (congrArg _ (State.issued_congr rfl)), fun j hj => ?_⟩
    rw [getLsbD_maskGate f _ _ hj]
    exact if_congr .rfl (Bool.eq_iff_iff.2 (by rw [bne_iff_ne, decide_eq_true_iff])) rfl
  · intro f s ⟨hw, hi⟩
    refine ⟨_, (exec_vSlot (i := .mget f) rfl hw hi rfl).trans (congrArg _ (State.issued_congr rfl)), fun j hj => ?_⟩
    rw [lane_mergeLanes _ _ _ hj, show 8 / 8 * j = j by omega]
    refine if_congr .rfl ?_ rfl
    cases h : (s.core.mreg (mOf f.va)).getLsbD j
    · exact (if_neg (Bool.eq_false_iff.1 h)).symm
    · exact (if_pos h).symm
  · intro f s ⟨hw, hi⟩
    refine (maskVote_issues (i := .vany f) rfl hw hi).trans (congrArg _ (State.issued_congr ?_))
    rw [countedLanes_nonempty]
  · intro f s ⟨hw, hi⟩
    refine (maskVote_issues (i := .vall f) rfl hw hi).trans (congrArg _ (State.issued_congr ?_))
    rw [activeLanes_all]
  · intro f s ⟨hw, hi⟩
    rw [exec_vSlot (i := .mpopc f) rfl hw hi rfl]
    simp only [countedLanes_length]
    rfl

end Sys2Proof.Machine
end

section
/-! Vector float instructions (O13). -/

namespace Sys2Proof.Machine

open Sys2Proof.Claims

/-- A float instruction on a valid entry of the lane width issues with its lanes' codes and their flags. -/
theorem vFloat_issues {i : Instr} {f : VForm} {lat : Nat} {enc reads more} {g : Core → Nat → Nat × Flags} {s : State}
    (hm : slotSem i = some (vFloat f lat enc reads more g)) (hw : i.wf = true) (hr : f.rnd.toNat ≤ 4)
    (hi : s.mayIssue none (reads ++ rd f)) (h : vecEntry f s.core) (hmore : ∀ e ∈ more s.core, e.1 = true) :
    exec i s = .next (s.issued (intoV f lat (fun c i => (g c i).1) (fun c => laneFlags f c (fun i => (g c i).2)))) :=
  exec_vSlot hm hw hi (lowestCause_none (List.forall_mem_append.2 ⟨hmore, vFloatChecks_ok hr h⟩))

/-! ### One form, one meaning: the rows, and the rounding mode of a well-formed one -/

theorem vecFloat2Rows_are : ∀ e ∈ vecFloat2Rows, ∀ f, slotSem (e.1 f) = some (vFloat2 f e.2.1 (e.2.2 f.rnd)) ∧
    ((e.1 f).wf = true → f.rnd.toNat ≤ 4) := by
  intro e he f
  simp only [vecFloat2Rows, List.mem_cons, List.not_mem_nil, or_false] at he
  rcases he with rfl | rfl | rfl | rfl <;> exact ⟨rfl, fun hw => by simp_all [Instr.wf]⟩

theorem vecFloat1Rows_are : ∀ e ∈ vecFloat1Rows, ∀ f, slotSem (e.1 f) = some (vFloat1 f 12 e.2) ∧
    ((e.1 f).wf = true → f.rnd.toNat ≤ 4) := by
  intro e he f
  simp only [vecFloat1Rows, List.mem_cons, List.not_mem_nil, or_false] at he
  rcases he with rfl | rfl | rfl | rfl | rfl <;> exact ⟨rfl, fun hw => by simp_all [Instr.wf]⟩

theorem vecMinMaxRows_are : ∀ e ∈ vecMinMaxRows, ∀ f, slotSem (e.1 f) = some (vMinMax f e.2) ∧
    ((e.1 f).wf = true → f.rnd.toNat ≤ 4) := by
  intro e he f
  simp only [vecMinMaxRows, List.mem_cons, List.not_mem_nil, or_false] at he
  rcases he with rfl | rfl <;> exact ⟨rfl, fun hw => by simp_all [Instr.wf]⟩

theorem vfma_rnd_le {f : VForm} (hw : (Instr.vfma f).wf = true) : f.rnd.toNat ≤ 4 := by
  simp_all [Instr.wf]

/-- The instructions that do not round leave RND zero (R95). -/
theorem signOp_rnd_le {f : VForm} (hw : (Instr.vfabs f).wf = true) : f.rnd.toNat ≤ 4 := by
  simp_all [Instr.wf]

theorem vfcmp_check {f : VForm} {c : Core} (hw : (Instr.vfcmp f).wf = true) (h : vecEntry f c) :
    lowestCause ((fcmpOk (field 0 4 f.fn : BitVec 4).toNat, vBad 176) :: vFloatChecks f c) = none := by
  simp only [Instr.wf, Bool.and_eq_true, beq_iff_eq] at hw
  obtain ⟨⟨⟨⟨⟨⟨hrnd, -⟩, -⟩, -⟩, -⟩, -⟩, hcc⟩ := hw
  exact lowestCause_none (List.forall_mem_cons.2 ⟨fcmpOk_of_wf (by simpa using hcc), vFloatChecks_ok (by simp [hrnd]) h⟩)

/-- An instruction on the codes of the lanes raises no flag. -/
theorem vSignOp_issues {i : Instr} {f : VForm} {more} {g : BitVec 32 → Nat → Nat} {s : State}
    (hm : slotSem i = some (vSignOp f more g)) (hw : i.wf = true) (hr : f.rnd.toNat ≤ 4) (hi : s.mayIssue none (.v f.va :: rd f))
    (h : vecEntry f s.core) (hmore : ∀ e ∈ more s.core, e.1 = true) :
    exec i s = .next (s.issued (intoV f 4 (fun c i => g (c.fmt f.fmt) (la f c i)) (fun c => laneFlags f c (fun _ => 0)))) :=
  vFloat_issues (g := fun c i => (g (c.fmt f.fmt) (vaLane f c i), 0)) hm hw hr hi h hmore

/-- A result merged lane by lane depends on its lanes and flags alone. -/
theorem intoV_congr {f : VForm} {lat : Nat} {g g' : Core → Nat → Nat} {fl : Core → Flags} {c : Core} (h : ∀ i, g c i = g' c i) :
    intoV f lat g fl c = intoV f lat g' fl c := by
  rw [intoV, funext h, intoV]

/-- Settles O13: each instruction is a slot of form V whose checks a valid entry of the lane width passes. -/
theorem vectorFloatResults : Obligations.VectorFloatResults := by
  unfold Obligations.VectorFloatResults
  refine ⟨?_, ?_, ?_, ?_, ?_, ?_, ?_, ?_⟩
  · intro e he f s ⟨hw, hi⟩ h
    obtain ⟨hm, hr⟩ := vecFloat2Rows_are e he f
    rw [vFloat_issues hm hw (hr hw) (by rwa [vbReads_eq]) h (by simp)]
    simp only [vbLane_eq]
    rfl
  · intro e he f s ⟨hw, hi⟩ h
    obtain ⟨hm, hr⟩ := vecFloat1Rows_are e he f
    exact vFloat_issues hm hw (hr hw) hi h (by simp)
  · intro f s ⟨hw, hi⟩ h
    rw [vFloat_issues (i := .vfma f) rfl hw (vfma_rnd_le hw) (by rwa [vbReads_eq]) h (by simp)]
    simp only [vbLane_eq]
    rfl
  · intro e he f s ⟨hw, hi⟩ h
    obtain ⟨hm, hr⟩ := vecMinMaxRows_are e he f
    rw [vFloat_issues hm hw (hr hw) (by rwa [vbReads_eq]) h (by simp)]
    simp only [vbLane_eq]
    rfl
  · intro f s ⟨hw, hi⟩ h
    rw [vSignOp_issues (i := .vfabs f) rfl hw (signOp_rnd_le hw) hi h (by simp)]
    exact congrArg _ (State.issued_congr (intoV_congr fun i => by rw [h.2]))
  · intro f s ⟨hw, hi⟩ h hsgn
    rw [vSignOp_issues (i := .vfneg f) rfl hw (signOp_rnd_le hw) hi h (by simp [hsgn])]
    refine congrArg _ (State.issued_congr (intoV_congr fun i => ?_))
    rw [h.2]
    rfl
  · intro f s ⟨hw, hi⟩ h
    rw [exec_vSlot (i := .vfcmp f) rfl hw (by rwa [vbReads_eq]) (vfcmp_check hw h)]
    simp only [vbLane_eq]
    rfl
  · intro f s ⟨hw, hi⟩ h
    exact vSignOp_issues (i := .vfclass f) (g := fun e a => classNum e (decodeFloat e a)) rfl hw (signOp_rnd_le hw) hi h (by simp)

end Sys2Proof.Machine
end

section
/-! Conversions and quantisation (O14). -/

namespace Sys2Proof.Machine

open Sys2Proof.Claims

/-- What a conversion whose lanes have the wider storage writes (R135, R136). -/
theorem cvResult_eq {f : VForm} {c : Core} (g : Num → Num → Pre)
    (hl : lw f = max (fmtStore (c.fmt f.fmt)) (fmtStore (c.fmt (field 0 4 f.fn)))) :
    cvResult f (fun c i x => g x (cvScale f c i)) c = (.v f.vd (convTo f g c).1, (convTo f g c).2) := by
  simp only [cvResult, Bool.and_eq_true, decide_eq_true_eq, and_assoc]
  simp only [convTo, cvScale, cvS, cvPart, vSb, vScalar, hl, beq_iff_eq]
  rfl

/-- Valid entries of the lane width, and a part in range, pass the checks of R135. -/
theorem cvChecks_ok {f : VForm} {c : Core} (hr : f.rnd.toNat ≤ 4) (h : convEntries f c) : ∀ e ∈ cvChecks f c, e.1 = true := by
  obtain ⟨hd, hs, hk, hl, h8, h32, hp⟩ := h
  have hw : vw f = lw f := rfl
  have hcs : cvS f = field 0 4 f.fn := rfl
  rw [hl] at h8 h32
  simp only [cvChecks, hcs, hw, hl, List.forall_mem_cons, List.not_mem_nil, false_imp_iff, implies_true, hd, hs, Bool.and_self, Bool.not_true,
    Bool.false_or, decide_eq_true hr, decide_eq_true hk, decide_eq_true h8, decide_eq_true h32, beq_self_eq_true, true_and, and_true,
    decide_eq_true_eq]
  exact hp

theorem convRows_are : ∀ e ∈ convRows, ∀ f, ∃ enc reads, slotSem (e.1 f) = some (vConv f enc reads (fun c i x => e.2.2 x (cvScale f c i))) ∧
    reads = e.2.1 f ∧ ((e.1 f).wf = true → f.rnd.toNat ≤ 4) := by
  intro e he f
  simp only [convRows, List.mem_cons, List.not_mem_nil, or_false] at he
  rcases he with rfl | rfl | rfl
  · exact ⟨_, _, rfl, rfl, fun hw => by simp_all [Instr.wf]⟩
  · exact ⟨_, _, rfl, vbReads_eq f, fun hw => by simp_all [Instr.wf]⟩
  · exact ⟨_, _, rfl, vbReads_eq f, fun hw => by simp_all [Instr.wf]⟩

/-- A conversion waits for vd only where it keeps bits of it (R135). -/
theorem vConv_wait_none {f : VForm} {enc reads g} {s : State}
    (h : f.mg ≠ 0 ∨ fmtStore (s.core.fmt f.fmt) < fmtStore (s.core.fmt (field 0 4 f.fn)) → s.core.isPending (.v f.vd) = false) :
    (vConv f enc reads g).wait s = none := by
  refine if_neg fun hk => ?_
  simp only [cvKeeps, Bool.and_eq_true, Bool.or_eq_true, bne_iff_ne, decide_eq_true_eq] at hk
  rw [h hk.1] at hk
  exact Bool.false_ne_true hk.2

/-- Settles O14: the three conversions are one slot that differs in the exact result of an element and its scale. -/
theorem vectorConversionResults : Obligations.VectorConversionResults := by
  unfold Obligations.VectorConversionResults
  intro e he f s ⟨hw, hi⟩ h hpend
  obtain ⟨enc, reads, hm, rfl, hr⟩ := convRows_are e he f
  have hissue : exec (e.1 f) s = .next (s.issued fun c =>
      c.result .v 4 (cvResult f (fun c i x => e.2.2 x (cvScale f c i)) c).1 (cvResult f (fun c i x => e.2.2 x (cvScale f c i)) c).2) :=
    exec_issued hm hw rfl hi (vConv_wait_none hpend) rfl (firstCause_none (cvChecks_ok (hr hw) h)) rfl (hi.unheld.result_room ..) rfl rfl rfl
  obtain ⟨-, -, -, hl, -⟩ := h
  rw [hissue]
  exact congrArg _ (State.issued_congr (by simp only [cvResult_eq e.2.2 hl]))

end Sys2Proof.Machine
end

section
/-! Accumulator rows and stream registers (O17). -/

namespace Sys2Proof.Machine

open Sys2Proof.Claims

/-! ### Accumulator rows (R139 to R141, R143) -/

/-- A tile has a matrix array (R102). -/
theorem noArray_none {s : State} (h : s.core.isMgmt = false) (sl : Slot) (op : Nat) : noArray sl op s = none := by
  simp [noArray, h]

/-- A valid entry of the lane width passes the checks of the vector side (R140). -/
theorem accChecks_ok {f : VForm} {c : Core} (hr : f.rnd.toNat ≤ 4) (h : accEntry f c) : ∀ e ∈ accChecks f c, e.1 = true := by
  obtain ⟨hv, hk, h8, hl⟩ := h
  have hw : vw f = fmtStore (c.fmt f.fmt) := hl
  simp [accChecks, hr, hv, hk, h8, hw]

theorem vacc_rnd_le {f : VForm} (hw : (Instr.vacc f).wf = true) : f.rnd.toNat ≤ 4 := by
  simp_all [Instr.wf]

theorem vaccw_rnd_le {f : VForm} (hw : (Instr.vaccw f).wf = true) : f.rnd.toNat ≤ 4 := by
  simp_all [Instr.wf]

/-- A row below the watermark is read (R140, R143). -/
theorem vacc_issues {f : VForm} {s : State} (hgo : goV .vacc f s (rd f)) (hm : s.core.isMgmt = false) (he : accEntry f s.core)
    (hrow : (field 0 4 f.fn : BitVec 4).toNat < s.core.wmarks.get (field 4 2 f.fn : BitVec 2).toFin) :
    exec (.vacc f) s = .next (s.issued (fun c =>
      let x := fun j => decodeWide (elem c (field 4 2 f.fn) (field 0 4 f.fn : BitVec 4).toNat j)
      let r := fun j => roundTo (c.fmt f.fmt) f.rnd (f.sat == 1) (x j).pre
      c.result .v 4 (.v f.vd (packLanes (lw f) (fun j =>
          if 16 ≤ j then 0 else if on f c j then (r j).1 else lane (lw f) (c.vreg f.vd) j)))
        (orFlags (on f c) (fun j => (r j).2 ||| (if (x j).nonFinite then flNF else 0)) 16 0))) := by
  obtain ⟨hw, hi⟩ := hgo
  exact exec_issued (i := .vacc f) rfl hw (noArray_none hm ..) hi (if_neg (Nat.not_le.2 hrow)) rfl
    (lowestCause_none (accChecks_ok (vacc_rnd_le hw) he)) rfl (hi.unheld.result_room ..) rfl rfl rfl

/-- A row at or above the watermark is waited for (R143). -/
theorem vacc_waits {f : VForm} {s : State} (hgo : goV .vacc f s (rd f)) (hm : s.core.isMgmt = false)
    (hrow : s.core.wmarks.get (field 4 2 f.fn : BitVec 2).toFin ≤ (field 0 4 f.fn : BitVec 4).toNat) : exec (.vacc f) s = .next s := by
  obtain ⟨-, hp, hg, hr, -⟩ := hgo
  exact exec_waits (i := .vacc f) rfl (m := semVacc f) (SlotSem.waits_own (noArray_none hm ..) hp hg rfl
    (List.any_eq_false.2 fun r h => by simp [hr r h]) (if_pos hrow))

/-- With no owner left a row is put on its way (R141, R143). -/
theorem vaccw_issues {f : VForm} {s : State} (hgo : goV .vaccw f s [.v f.va]) (hm : s.core.isMgmt = false) (he : accEntry f s.core)
    (ho : s.core.owners.get (field 4 2 f.fn : BitVec 2).toFin = []) :
    exec (.vaccw f) s = .next (s.issued (fun c =>
      let r := fun j => roundWide (c.decode (c.fmt f.fmt) (la f c j)).pre
      c.result .v 4 (.acc (field 4 2 f.fn) (field 0 4 f.fn)
          (BitVec.ofNat 16 (packFrom 1 (fun j => if on f c j then 1 else 0) 16 0))
          (BitVec.ofNat 1536 (packFrom 96 (fun j => (r j).1.toNat) 16 0)) (c.vreg f.va) f.fmt (c.fmt f.fmt))
        (orFlags (on f c) (fun j => (r j).2) 16 0))) := by
  obtain ⟨hw, hi⟩ := hgo
  have hempty : (s.core.owners.get (vAcc f).toFin).isEmpty = true := List.isEmpty_iff.2 ho
  exact exec_issued (i := .vaccw f) rfl hw (noArray_none hm ..) hi (if_pos hempty) rfl
    (lowestCause_none (accChecks_ok (vaccw_rnd_le hw) he)) rfl (hi.unheld.result_room ..) rfl rfl rfl

/-! ### Stream registers (R142, R244) -/

theorem noStream_none {s : State} (h : streamReady s) (op : Nat) : noStream op s = none := by
  obtain ⟨p, hm, hp, -⟩ := h
  simp [noStream, hm, hp]

/-- A strand whose context the port's binding names, and that has not waited, passes the checks of the stream registers (R143, R244). -/
theorem streamCheck_none {s : State} (h : streamReady s) (f : VForm) : streamCheck f s = none := by
  obtain ⟨p, -, hp, hb, hctx, hwait⟩ := h
  have hport : s.port = Tab.getD s.ports p Port.fresh := by rw [State.port, hp, Option.getD_some]
  exact lowestCause_none (by simp [hport, hb, hctx, hwait])

/-- A buffer that can serve is not waited for. -/
theorem streamWait_none (s : State) : streamWait false s = none := rfl

theorem vsin_issues {f : VForm} {s : State} {x : Vec} {r : List Vec} (hgo : goV .vsin f s (rd f)) (h : streamReady s)
    (ho : s.core.orx.get (field 0 2 f.fn : BitVec 2).toFin = x :: r) :
    exec (.vsin f) s = .next (s.issued (fun c =>
      intoV f 2 (fun _ i => lane (lw f) x i) (fun _ => 0) { c with orx := c.orx.set (field 0 2 f.fn : BitVec 2).toFin r })) := by
  obtain ⟨hw, hi⟩ := hgo
  have hwait : (semVsin f).wait s = none := by
    show streamWait (s.core.orx.get (field 0 2 f.fn : BitVec 2).toFin).isEmpty s = none
    rw [ho]
    rfl
  have heff : (semVsin f).eff s = onCore (fun c =>
      intoV f 2 (fun _ i => lane (lw f) x i) (fun _ => 0) { c with orx := c.orx.set (field 0 2 f.fn : BitVec 2).toFin r }) s := by
    simp only [semVsin, onCore, ho]
    rfl
  have hroom := hi.unheld.room_of_inflight (c := { s.core with orx := s.core.orx.set (field 0 2 f.fn : BitVec 2).toFin r }) rfl
  exact exec_issued (i := .vsin f) rfl hw (noStream_none h _) hi hwait rfl (streamCheck_none h f) heff (hroom ..) rfl rfl rfl

theorem vsout_issues {f : VForm} {s : State} (hgo : goV .vsout f s [.v f.va]) (h : streamReady s)
    (ho : (s.core.otx.get (field 0 2 f.fn : BitVec 2).toFin).length < 64) :
    exec (.vsout f) s = .next (s.issued (fun c =>
      let o : BitVec 2 := field 0 2 f.fn
      { c with otx := c.otx.set o.toFin (c.otx.get o.toFin ++ [c.vreg f.va]) })) := by
  obtain ⟨hw, hi⟩ := hgo
  have hwait : (semVsout f).wait s = none := by
    show streamWait (decide (64 ≤ (s.core.otx.get (field 0 2 f.fn : BitVec 2).toFin).length)) s = none
    rw [decide_eq_false (Nat.not_le.2 ho), streamWait_none]
  exact exec_issued (i := .vsout f) rfl hw (noStream_none h _) hi hwait rfl (streamCheck_none h f) rfl hi.unheld.room rfl rfl rfl

/-- Settles O17: each instruction is one slot, with the wait of its row or buffer over, or, for `vacc`, not over. -/
theorem accumulatorRowsAndStreams : Obligations.AccumulatorRowsAndStreams := by
  unfold Obligations.AccumulatorRowsAndStreams
  exact ⟨fun _ _ => vacc_issues, fun _ _ => vacc_waits, fun _ _ => vaccw_issues, fun _ _ _ _ => vsin_issues, fun _ _ => vsout_issues⟩

end Sys2Proof.Machine
end

section
/-! The Z slot (O19). -/

namespace Sys2Proof.Machine

open Sys2Proof.Claims

/-! ### Bytes of a number read from memory (R2) -/

theorem Mem.readN_lt (m : Mem) : ∀ n a : Nat, m.readN a n < 256 ^ n
  | 0, a => by simp [Mem.readN]
  | n + 1, a => by
    have hrest := Mem.readN_lt m n (a + 1)
    have hb := (m.read a).isLt
    rw [Mem.readN, pow_succ]
    omega

/-- The number at `a` is that of its first `i` bytes with that of the others above them. -/
theorem Mem.readN_add (m : Mem) : ∀ i n a : Nat, m.readN a (i + n) = m.readN a i + 256 ^ i * m.readN (a + i) n
  | 0, n, a => by simp [Mem.readN]
  | i + 1, n, a => by
    rw [Nat.add_right_comm, Mem.readN, Mem.readN_add m i n, Mem.readN, pow_succ, Nat.add_right_comm a 1 i]
    ring_nf

/-- Bytes `i` to `i + k - 1` of a number of `n` bytes. -/
theorem Mem.readN_slice (m : Mem) {i k n : Nat} (h : i + k ≤ n) (a : Nat) :
    m.readN a n / 256 ^ i % 256 ^ k = m.readN (a + i) k := by
  obtain ⟨r, rfl⟩ := Nat.exists_eq_add_of_le h
  rw [Nat.add_assoc, Mem.readN_add, Nat.add_mul_div_left _ _ (by positivity), Nat.div_eq_of_lt (m.readN_lt ..), Nat.zero_add,
    Mem.readN_add, Nat.add_mul_mod_self_left, Nat.mod_eq_of_lt (m.readN_lt ..)]

/-! ### Z loads (R146, R147) -/

theorem zAddr_toNat (f : ZForm) (c : Core) : (zAddr f c).toNat = za f c := by
  rw [zAddr, za]
  congr 2
  rw [shiftLeft_eq_mul, Nat.mul_comm, BitVec.ofNat_mul, ← BitVec.ofNat_toNat]
  rfl

theorem poisonRead_none {c : Core} {a n : Nat} (h : clean c a n) (sl : Slot) : poisonRead c sl (wordsOf a n) = none := by
  have hnone : (wordsOf a n).find? (fun w => c.poison.contains w) = none := by
    rw [List.find?_eq_none]
    intro w hw
    obtain ⟨h1, h2⟩ := of_mem_wordsOf hw
    simpa using h w h1 h2
  rw [poisonRead, hnone]

theorem wordsAt_one (a n : Nat) : wordsAt [a] n = wordsOf a n := by
  simp [wordsAt]

/-- A Z load inside the scratchpad, clear of poison and of the other ports, issues with what its bytes make. -/
theorem zLoad_issues {i : Instr} {f : ZForm} {enc n w} {s : State} (hm : slotSem i = some (zLoad f enc n w)) (hw : i.wf = true)
    (hi : s.mayIssue none []) (hcls : s.core.classHeld 0 = false) (hr : zReads f s.core n) (hn : n ≤ 3064) (hal : alone s.core [za f s.core] n)
    {g : Core → Write} (hg : w s.core (s.core.spad.readN (za f s.core) n) = g s.core) :
    exec i s = .next (s.issuedAsks (wordsAt [za f s.core] n) (fun c => c.result .z 4 (g c) 0)) := by
  obtain ⟨-, hx⟩ := exec_of_slotSem hm
  obtain ⟨hin, hclean⟩ := hr
  rw [alone, wordsAt_one, ← zAddr_toNat] at hal
  rw [← zAddr_toNat] at hin hclean
  have hcheck : (zLoad f enc n w).check s = none := (if_neg (Nat.not_lt.2 hin)).trans (poisonRead_none hclean .z)
  have he : ∀ e ∈ enc, e.2 = true := encOk_of_wf hm hw
  rw [hx, zLoad_next hi he hcls hcheck hn hal, wordsAt_one, ← zAddr_toNat, State.issuedAsks, State.issuedAsks]
  simp only [zAddr_toNat, hg]

/-- `kld` with D [3] set names no codebook (R147). -/
theorem kld_traps {f : ZForm} {s : State} (hi : s.mayIssue none []) (hcls : s.core.classHeld 0 = false) (hd : f.d.getLsbD 3 = true) :
    exec (.kld f) s = .next (s.trapPrecise (badField .z 122)) := by
  obtain ⟨hs, hx⟩ := exec_of_slotSem (i := .kld f) rfl
  have hbit : lowestBit (semKld f).enc = some 122 := by
    have hne : (field 3 1 f.d == (0 : BitVec 1)) = false := by
      rw [beq_eq_false_iff_ne]
      intro h0
      have hget := getLsbD_of_field_zero h0 (le_refl 3) (by omega)
      rw [hd] at hget
      exact Bool.noConfusion hget
    simp only [semKld, zLoad, hne, lowestBit]
  have hwait : (semKld f).waits s = none := SlotSem.waits_none hi (if_neg (Bool.eq_false_iff.1 hcls))
  have hroom : ((semKld f).effect s).core.lockstepCount ≤ 32 := by
    simpa only [SlotSem.effect, guardOn, semKld, zLoad, plainSlot, if_true, onCore_core] using hi.unheld.result_room ..
  rw [hx, SlotSem.issueOne_reservedField hs rfl hwait (by simp [SlotSem.waitsLate, semKld, zLoad, plainSlot]) hi.unheld hroom hbit]
  rfl

theorem zfromv_issues {f : ZForm} {s : State} (hw : (Instr.zfromv f).wf = true) (hi : s.mayIssue none [.v (field 0 5 f.off)]) :
    exec (.zfromv f) s = .next (s.issued (fun c => c.result .z 4 (.z f.d
      (if f.off.getLsbD 5 then (c.vreg (field 0 5 f.off)).extractLsb' 512 512
        else (c.vreg (field 0 5 f.off)).extractLsb' 0 512)) 0)) :=
  exec_issued (i := .zfromv f) rfl hw rfl hi rfl rfl rfl rfl (hi.unheld.result_room ..) rfl rfl rfl

/-- The sixteen BF16 codes of `zldh`, as FP32 codes (R147). -/
theorem zldh_codes (m : Mem) (a : Nat) : packFrom 32 (fun j => m.readN a 32 / 2 ^ (16 * j) % 2 ^ 16 * 2 ^ 16) 16 0 =
    packFrom 32 (fun j => 2 ^ 16 * m.readN (a + 2 * j) 2) 16 0 := by
  refine packFrom_congr fun j _ hj => ?_
  rw [← Mem.readN_slice m (show 2 * j + 2 ≤ 32 by omega), show (256 : Nat) = 2 ^ 8 by norm_num, ← pow_mul, ← pow_mul,
    show 8 * (2 * j) = 16 * j by ring, Nat.mul_comm]

/-- The sixteen exponents of `zldb`, as powers of two (R147). -/
theorem zldb_codes (m : Mem) (a : Nat) : packFrom 32 (fun j => pow2Fp32 (m.readN a 16 / 2 ^ (8 * j) % 256)) 16 0 =
    packFrom 32 (fun j => pow2Fp32 (m.read (a + j)).toNat) 16 0 := by
  refine packFrom_congr fun j _ hj => ?_
  have hbyte : m.readN (a + j) 1 = (m.read (a + j)).toNat := by simp [Mem.readN]
  rw [← hbyte, ← Mem.readN_slice m (show j + 1 ≤ 16 by omega), pow_one, pow_mul]
  norm_num

/-- Settles O19: the four loads are one slot whose bytes are read piece by piece. -/
theorem zSlotResults : Obligations.ZSlotResults := by
  unfold Obligations.ZSlotResults
  refine ⟨?_, ?_, ?_, ?_, fun _ _ => kld_traps, fun _ _ => zfromv_issues⟩
  · intro f s ⟨hw, hi, hcls⟩ hr hal
    exact zLoad_issues (i := .zld f) rfl hw hi hcls hr (by omega) hal rfl
  · intro f s ⟨hw, hi, hcls⟩ hr hal
    exact zLoad_issues (i := .zldh f) rfl hw hi hcls hr (by omega) hal (by rw [zldh_codes])
  · intro f s ⟨hw, hi, hcls⟩ hr hal
    exact zLoad_issues (i := .zldb f) rfl hw hi hcls hr (by omega) hal (by rw [zldb_codes])
  · intro f s ⟨hw, hi, hcls⟩ hr hal
    exact zLoad_issues (i := .kld f) rfl hw hi hcls hr (by omega) hal rfl

end Sys2Proof.Machine
end

section
/-! Matrix commands leave the head of their queue (O31, R184, R187, R188). -/

namespace Sys2Proof.Machine

open Sys2Proof.Claims

/-! ### Dispatch -/

/-- A command whose accumulator has a row on its way waits (log 95). -/
theorem matrixDispatch_rowHeld {s : State} {k : Cmd} {rest : List Cmd} (h : mGoes s.core k rest) (hr : s.core.rowHeld k = true) :
    s.matrixDispatch = s := by
  obtain ⟨hq, -⟩ := h
  simp only [State.matrixDispatch, hq, hr, Bool.or_true, if_true]

/-- Nothing holds the head of a queue that may go and whose accumulator has no row on its way. -/
theorem mGoes_unheld {c : Core} {k : Cmd} {rest : List Cmd} (h : mGoes c k rest) (hr : c.rowHeld k = false) :
    (!c.engineOn || c.mat.stopped || c.mat.held || c.qHeld 3 k.ord || c.rowHeld k) = false := by
  obtain ⟨-, hon, hstop, hheld, hfence⟩ := h
  rw [hon, hstop, hheld, hfence, hr]
  rfl

/-- A `mred` whose generation has not come asks for its arrival word, as one operation (R187, R239). -/
theorem Core.askPart_gen {c : Core} {e : MExec} (he : c.mat.exec = some e) (hk : e.cmd.kind = .mred) (hf : e.failed = none)
    (hon : c.engineOn = true) (hrow : e.row = 0) (hgen : e.genCame = false) :
    c.askPart = { c with mat := { c.mat with exec := some { e with want := genWant e.cmd, got := [] } } } := by
  have hword : [(0, pairWord (e.cmd.awo / 8))] = genWant e.cmd := by
    rw [genWant, Cmd.awo, field_toNat, pow_zero, Nat.div_one, Cmd.reg]
  have hgo : (e.cmd.kind != .mred || e.failed.isSome || !c.engineOn) = false := by
    rw [hk, hf, hon]
    rfl
  have hask : e.row = 0 ∧ (!e.genCame) = true := ⟨hrow, by rw [hgen]; rfl⟩
  simp only [Core.askPart, he, hgo, Bool.false_eq_true, if_false, if_pos hask, hword]

section
variable {s : State} {k : Cmd} {rest : List Cmd} (h : mGoes s.core k rest) (hr : s.core.rowHeld k = false)
include h hr

/-- `mma` and `mclr` start when the engine is idle (R184). -/
theorem matrixDispatch_starts (hx : s.core.mat.exec = none) (hp : s.core.mat.epi = none) (hk : k.kind = .mma ∨ k.kind = .mclr) :
    s.matrixDispatch = s.setCore { s.core with mat := { s.core.mat with queue := rest, exec := some (started k s.cycle) } } := by
  have hfree := mGoes_unheld h hr
  obtain ⟨hq, -⟩ := h
  rcases hk with hk | hk <;> simp only [State.matrixDispatch, hq, hfree, hk, hx, hp] <;> rfl

/-- A `mred` that passes its checks starts with a read of its arrival word (R187). -/
theorem matrixDispatch_mred (hx : s.core.mat.exec = none) (hp : s.core.mat.epi = none) (hk : k.kind = .mred)
    (hc : s.core.mredCheck k = none) :
    s.matrixDispatch = s.setCore { s.core with
      mat := { s.core.mat with queue := rest, exec := some { started k s.cycle with want := genWant k } } } := by
  have hfree := mGoes_unheld h hr
  obtain ⟨hq, hon, -⟩ := h
  simp only [State.matrixDispatch, hq, hfree, hk, hx, hp, hc]
  exact congrArg s.setCore (Core.askPart_gen rfl hk rfl hon rfl rfl)

/-- An epilogue command that passes its checks goes into the epilogue (R184, R185). -/
theorem matrixDispatch_mepi (hp : s.core.mat.epi = none) (hk : k.kind = .mepi) (hc : s.core.mepiCheck k = none) :
    s.matrixDispatch = s.setCore { s.core with mat := { s.core.mat with queue := rest, epi := some (started k s.cycle) } } := by
  have hfree := mGoes_unheld h hr
  obtain ⟨hq, -⟩ := h
  simp only [State.matrixDispatch, hq, hfree, hk, hp, hc]
  rfl

/-- `mstat` retires at once, with its word on its way (R188). -/
theorem matrixDispatch_mstat (hx : s.core.mat.exec = none) (hp : s.core.mat.epi = none) (hk : k.kind = .mstat) :
    s.matrixDispatch = s.setCore (({ s.core with
        mat := { s.core.mat with queue := rest, retired := s.core.mat.retired + 1, fl := s.core.mat.fl ||| 0 } } : Core).lateResult .m k.ord 1
      (.s (field 21 6 k.ops) s.core.mstatWord) 0) := by
  have hfree := mGoes_unheld h hr
  obtain ⟨hq, -⟩ := h
  simp only [State.matrixDispatch, hq, hfree, hk, hx, hp]
  simp [Core.retireM, Core.disown, hk]

end

/-! ### The word of `mstat` (R188) -/

/-- The number whose bits below `n` are those of `b`. -/
def bitSum (b : Nat → Bool) (n : Nat) : Nat := ((List.range n).map (fun a => if b a then 2 ^ a else 0)).sum

theorem bitSum_succ (b : Nat → Bool) (n : Nat) : bitSum b (n + 1) = 2 ^ n * (b n).toNat + bitSum b n := by
  rw [bitSum, List.range_succ, List.map_append, List.sum_append, Nat.add_comm]
  cases h : b n <;> simp [bitSum, h]

theorem bitSum_lt (b : Nat → Bool) (n : Nat) : bitSum b n < 2 ^ n := by
  induction n with
  | zero => simp [bitSum]
  | succ n ih =>
    have hbit : 2 ^ n * (b n).toNat ≤ 2 ^ n * 1 := Nat.mul_le_mul_left _ (b n).toNat_le
    rw [bitSum_succ, pow_succ]
    omega

theorem testBit_bitSum (b : Nat → Bool) {n i : Nat} (hi : i < n) : (bitSum b n).testBit i = b i := by
  induction n with
  | zero => omega
  | succ n ih =>
    rw [bitSum_succ, Nat.testBit_two_pow_mul_add _ (bitSum_lt b n)]
    split
    next h => exact ih h
    next h =>
      obtain rfl : i = n := by omega
      cases hb : b i <;> simp

/-- Has accumulator `a` a non-finite element? -/
def Core.accNonFinite (c : Core) (a : BitVec 2) : Bool := (c.accs.get a.toFin).toList.any (fun x => (decodeWide x).nonFinite)

theorem mstatWord_eq (c : Core) : c.mstatWord =
    BitVec.ofNat 64 (2 ^ 16 * c.mat.passes + bitSum (fun a => c.accNonFinite (BitVec.ofNat 2 a)) 4) := by
  rw [Nat.mul_comm]
  rfl

/-- PASSES stands from bit 16 up. -/
theorem mstatWord_passes {c : Core} (h : c.mat.passes < 2 ^ 16) : c.mstatWord.toNat / 2 ^ 16 = c.mat.passes := by
  have hlow := bitSum_lt (fun a => c.accNonFinite (BitVec.ofNat 2 a)) 4
  rw [mstatWord_eq, BitVec.toNat_ofNat]
  omega

/-- Bit `a` tells of a non-finite element of accumulator `a`. -/
theorem mstatWord_bit (c : Core) (a : BitVec 2) : c.mstatWord.getLsbD a.toNat = c.accNonFinite a := by
  have ha : a.toNat < 4 := a.isLt
  have hlow := bitSum_lt (fun a => c.accNonFinite (BitVec.ofNat 2 a)) 4
  have hfit : bitSum (fun a => c.accNonFinite (BitVec.ofNat 2 a)) 4 < 2 ^ 16 := by omega
  rw [mstatWord_eq, BitVec.getLsbD_ofNat, decide_eq_true (by omega), Bool.true_and, Nat.testBit_two_pow_mul_add _ hfit,
    if_pos (by omega), testBit_bitSum _ ha, BitVec.ofNat_toNat, BitVec.setWidth_eq]

end Sys2Proof.Machine
end

section
/-! The passes of `mma`: their start and their retirement (O31, R183, R212, R213, R217). -/

namespace Sys2Proof.Machine

open Sys2Proof.Claims

/-! ### The start of a pass -/

/-- The first pass in an empty array, on the head slots of both rings. -/
def firstPass (c : Core) (e : MExec) (now : Nat) : Pass :=
  let ra := c.rings.get e.cmd.ringA.toFin
  let rb := c.rings.get e.cmd.ringB.toFin
  { p := e.pass, start := now, slotA := ra.head % ra.count, slotB := rb.head % rb.count
    book := c.kregs.get (BitVec.ofNat 3 (fmtCB e.cmd.fb)).toFin, cycles := 0, got := [] }

/-- A pass that nothing holds takes the head slots (R212, R217). -/
theorem Core.startPass_first {c : Core} {e : MExec} (now : Nat) (he : c.mat.exec = some e) (hk : e.cmd.kind = .mma) (hf : e.failed = none)
    (hp : e.pass < e.cmd.passCount) (hnone : e.passes = []) (hon : c.engineOn = true)
    (ha : 0 < (c.rings.get e.cmd.ringA.toFin).fill) (hb : 0 < (c.rings.get e.cmd.ringB.toFin).fill)
    (hc : c.passCause e (firstPass c e now).slotA (firstPass c e now).slotB = none) :
    c.startPass now = { c with mat := { c.mat with exec := some { e with pass := e.pass + 1, passes := [firstPass c e now] } } } := by
  simp only [firstPass] at hc
  simp [Core.startPass, he, hk, hf, hnone, hon, Nat.not_le.2 hp, ha.ne', hb.ne', hc, firstPass, Core.kreg]

/-- Every pass in the array asks for the words of its cycle (R213). -/
theorem Core.askSlots_eq {c : Core} {e : MExec} (he : c.mat.exec = some e) (hk : e.cmd.kind = .mma) :
    c.askSlots = { c with mat := { c.mat with exec := some { e with
      want := e.passes.flatMap (fun ps => (c.passWants e.cmd ps).map (fun w => (ps.p, w))) } } } := by
  simp [Core.askSlots, he, hk]

/-- A pass has a step in the first of its cycles. -/
theorem passShape_steps_pos (k : Cmd) : 0 < k.passShape.2 := by
  unfold Cmd.passShape
  split_ifs <;> decide

/-- In its first cycle a pass asks for the masks of a sparse B (log 101) and for what step 0 of row 0 takes of A. -/
theorem Core.mem_passWants_first {c : Core} {k : Cmd} {ps : Pass} (hx : ps.cycles = 0) (hg : ps.got = []) {w : Nat}
    (hw : w ∈ c.maskPlaces k ps.slotB ∨
      w ∈ (c.stepBytes k (c.withMasks k ps) 0 0).1.map (fun o => c.slotAddr k.ringA ps.slotA k.swz o / 8)) :
    w ∈ c.passWants k ps := by
  have hx' : (c.withMasks k ps).cycles = 0 := hx
  simp only [Core.passWants, hx', hg, Tab.get?_nil, Option.isNone_none, List.filter_true, List.mem_eraseDups, if_true, List.mem_append,
    List.mem_flatMap, List.mem_range]
  refine hw.imp_right fun h => ⟨0, by omega, ?_⟩
  rw [if_pos ⟨le_refl 0, by simp, by simpa using passShape_steps_pos k⟩]
  rw [Nat.sub_zero, Nat.zero_div]
  exact List.mem_append_left _ h

theorem Core.mem_passWants_dense {c : Core} {k : Cmd} {ps : Pass} (hx : ps.cycles = 0) (hg : ps.got = []) (hs : k.sparse = false) :
    c.slotAddr k.ringA ps.slotA k.swz 0 / 8 ∈ c.passWants k ps :=
  c.mem_passWants_first hx hg (.inr (by simp [Core.stepBytes, hs]))

theorem Core.mem_passWants_masks {c : Core} {k : Cmd} {ps : Pass} (hx : ps.cycles = 0) (hg : ps.got = []) (hs : k.sparse = true) {j : Nat}
    (hj : j < 16) : c.slotAddr k.ringB ps.slotB k.swz (8 * j) / 8 ∈ c.passWants k ps :=
  c.mem_passWants_first hx hg (.inl (by rw [Core.maskPlaces, if_pos hs]; exact List.mem_map.2 ⟨j, List.mem_range.2 hj, rfl⟩))

/-! ### The retirement of the last pass -/

theorem Core.disown_keeps (c : Core) (k : Cmd) : (c.disown k).mat = c.mat ∧ (c.disown k).cnt = c.cnt ∧ (c.disown k).rings = c.rings := by
  unfold Core.disown
  cases k.kind == .mstat <;> exact ⟨rfl, rfl, rfl⟩

/-- A retiring command is counted and leaves its flags; the counters and rings stand. -/
theorem Core.retireM_keeps (c : Core) (k : Cmd) (fl : Flags) :
    (c.retireM k fl).mat = { c.mat with retired := c.mat.retired + 1, fl := c.mat.fl ||| fl } ∧ (c.retireM k fl).cnt = c.cnt ∧
      (c.retireM k fl).rings = c.rings :=
  Core.disown_keeps ..

/-- The rings with the head slots of two of them popped. -/
def popRings (r : Vector Ring 8) (a b : BitVec 3) : Vector Ring 8 :=
  let r1 := r.set a.toFin (r.get a.toFin).pop
  r1.set b.toFin (r1.get b.toFin).pop

theorem Core.retirePass_last {c : Core} {e : MExec} {ps : Pass} {now : Nat} (he : c.mat.exec = some e) (hps : e.passes = [ps])
    (ht : ps.start + 15 + e.cmd.passShape.1 ≤ now) (hp : ps.p + 1 = e.cmd.passCount) :
    c.retirePass now = ({ c with
      rings := popRings c.rings e.cmd.ringA e.cmd.ringB
      mat := { c.mat with exec := none, passes := e.cmd.passCount } } : Core).retireM e.cmd e.fl := by
  simp only [Core.retirePass, he, hps, if_neg (Nat.not_lt.2 ht), if_pos hp]
  rfl

/-- A table of eight rings read after a write of one. -/
theorem ring_get_set (r : Vector Ring 8) (a g : BitVec 3) (x : Ring) :
    (r.set a.toFin x).get g.toFin = if g = a then x else r.get g.toFin := by
  have hread : (r.set a.toFin x).get g.toFin = (r.set a.toFin x)[g.toNat]'g.isLt := rfl
  rw [hread, Vector.getElem_set]
  exact if_congr (by rw [← BitVec.toNat_inj, eq_comm]; rfl) rfl rfl

/-- Each of two rings popped has lost its head slot, and the others stand (R212). -/
theorem popRings_get {r : Vector Ring 8} {a b : BitVec 3} (hab : a ≠ b) (g : BitVec 3) :
    (popRings r a b).get g.toFin = if g = a ∨ g = b then (r.get g.toFin).pop else r.get g.toFin := by
  simp only [popRings, ring_get_set]
  by_cases hb : g = b
  · subst hb
    simp [hab.symm]
  · by_cases ha : g = a
    · subst ha
      simp [hab]
    · simp [ha, hb]

end Sys2Proof.Machine
end

section
/-! Watermarks rise as rows become final (O31, R139, R219). -/

namespace Sys2Proof.Machine

open Sys2Proof.Claims

/-- The current core of a state that looks at tile `t`. -/
theorem State.at_core (s : State) (t : CoreId) : (s.at t).core = s.coreAt t := rfl

/-- A table of four accumulators read after a write of one. -/
theorem acc_get_set {α : Type} (v : Vector α 4) (a b : BitVec 2) (x : α) :
    (v.set a.toFin x).get b.toFin = if b = a then x else v.get b.toFin := by
  have hread : (v.set a.toFin x).get b.toFin = (v.set a.toFin x)[b.toNat]'b.isLt := rfl
  rw [hread, Vector.getElem_set]
  exact if_congr (by rw [← BitVec.toNat_inj, eq_comm]; rfl) rfl rfl

/-- An update of each of the four accumulators in turn changes each once. -/
theorem acc_get_updateAll {α : Type} (f : BitVec 2 → α → α) (v : Vector α 4) (a : BitVec 2) :
    ((List.range 4).foldl (fun v n => v.set (BitVec.ofNat 2 n).toFin (f (BitVec.ofNat 2 n) (v.get (BitVec.ofNat 2 n).toFin))) v).get a.toFin =
      f a (v.get a.toFin) := by
  have hcases : a = 0 ∨ a = 1 ∨ a = 2 ∨ a = 3 := by
    revert a
    decide
  rw [show List.range 4 = [0, 1, 2, 3] from rfl]
  simp only [List.foldl_cons, List.foldl_nil, acc_get_set]
  rcases hcases with rfl | rfl | rfl | rfl <;> rfl

/-- The order below which the owners of an accumulator are. -/
def Core.ownersEnd (c : Core) (a : BitVec 2) : Nat :=
  match (c.owners.get a.toFin).getLast? with
  | some (o, _) => o + 1
  | none => 0

/-- A watermark follows the rows that are final, and never falls (R219). -/
theorem Core.raiseMarks_wmark (c : Core) (now : Nat) (a : BitVec 2) :
    (c.raiseMarks now).wmarks.get a.toFin = max (c.wmarks.get a.toFin) (c.rowsFinal a (c.ownersEnd a) now) :=
  acc_get_updateAll (fun a m => max m (c.rowsFinal a (c.ownersEnd a) now)) c.wmarks a

/-- With no owner that changes elements all rows are final (R139). -/
theorem Core.rowsFinal_of_readers {c : Core} {a : BitVec 2} (h : ∀ m ∈ c.owners.get a.toFin, m.2 = false) (ord now : Nat) :
    c.rowsFinal a ord now = 16 := by
  have hnone : (c.owners.get a.toFin).filter (fun e => e.2 && decide (e.1 < ord)) = [] := by
    rw [List.filter_eq_nil_iff]
    intro m hm
    rw [h m hm]
    simp
  rw [Core.rowsFinal, hnone]
  rfl

/-- The rows of the one owner in execution are final as it has done them (R219). -/
theorem Core.rowsFinal_of_owner {c : Core} {a : BitVec 2} {e : MExec} (he : c.mat.exec = some e) (hk : e.cmd.kind ≠ .mma)
    (ho : c.owners.get a.toFin = [(e.cmd.ord, true)]) (now : Nat) : c.rowsFinal a (c.ownersEnd a) now = e.row := by
  have hend : c.ownersEnd a = e.cmd.ord + 1 := by
    rw [Core.ownersEnd, ho]
    rfl
  have hone : (c.owners.get a.toFin).filter (fun m => m.2 && decide (m.1 < e.cmd.ord + 1)) = [(e.cmd.ord, true)] := by
    rw [ho]
    simp
  have hkind : (e.cmd.kind == .mma) = false := beq_eq_false_iff_ne.2 hk
  rw [Core.rowsFinal, hend, hone]
  simp [he, MExec.rowsDone, hkind]

/-- ACC_ROW_FINAL: the watermarks of all accumulators (R219). -/
theorem accRowFinal_marks (s : State) (t : Nat) : ∃ u, exec (.accRowFinal t) s = .next u ∧ u.cur = t ∧ ∀ a : BitVec 2,
    (s.coreAt t).wmarks.get a.toFin ≤ u.core.wmarks.get a.toFin ∧
    ((∀ m ∈ (s.coreAt t).owners.get a.toFin, m.2 = false) → 16 ≤ u.core.wmarks.get a.toFin) ∧
    (∀ e m, (s.coreAt t).mat.exec = some e → e.cmd.kind ≠ .mma → (s.coreAt t).owners.get a.toFin = [m] → m = (e.cmd.ord, true) →
      u.core.wmarks.get a.toFin = max ((s.coreAt t).wmarks.get a.toFin) e.row) := by
  refine ⟨_, rfl, rfl, fun a => ?_⟩
  rw [State.setCore_core, Core.raiseMarks_wmark, State.at_core]
  refine ⟨le_max_left .., fun h => ?_, fun e m he hk ho hm => ?_⟩
  · rw [Core.rowsFinal_of_readers h]
    exact le_max_right ..
  · rw [Core.rowsFinal_of_owner he hk (ho.trans (by rw [hm]))]

end Sys2Proof.Machine
end

section
/-! The cycles of the array (O31, R213, R216 to R218). -/

namespace Sys2Proof.Machine

open Sys2Proof.Claims

/-! ### The elements of a written row -/

/-- The elements of a vector whose places from `b` up are written in turn. -/
theorem toList_getD_setFrom {α : Type} {n : Nat} (v : Vector α n) (b : Nat) (g : Nat → α) (m : Nat) (h : b + m ≤ n) (x : α) (i : Nat) :
    ((List.range m).foldl (fun v j => v.setIfInBounds (b + j) (g j)) v).toList.getD i x =
      if b ≤ i ∧ i < b + m then g (i - b) else v.toList.getD i x := by
  induction m with
  | zero => simp only [List.range_zero, List.foldl_nil, if_neg (show ¬(b ≤ i ∧ i < b + 0) by omega)]
  | succ m ih =>
    have hlen : b + m < (((List.range m).foldl (fun v j => v.setIfInBounds (b + j) (g j)) v).toList).length := by
      rw [Vector.length_toList]
      omega
    rw [List.range_succ, List.foldl_append, List.foldl_cons, List.foldl_nil, Vector.toList_setIfInBounds]
    by_cases hi : i = b + m
    · subst hi
      rw [if_pos (by omega), List.getD_eq_getElem?_getD, List.getElem?_set_self hlen, Nat.add_sub_cancel_left]
      rfl
    · rw [List.getD_eq_getElem?_getD, List.getElem?_set_ne (Ne.symm hi), ← List.getD_eq_getElem?_getD, ih (by omega)]
      exact if_congr (by omega) rfl rfl

/-- A row written into an accumulator stands in its place, and the accumulator's other rows are kept (R52). -/
theorem Core.elem_setAccRow (c : Core) (a : BitVec 2) {i i' j : Nat} (hi : i < 16) (hj : j < 16) (g : Nat → BitVec 96) :
    elem (c.setAccRow a i g) a i' j = if i' = i then g j else elem c a i' j := by
  have hread : elem (c.setAccRow a i g) a i' j =
      ((List.range 16).foldl (fun v j => v.setIfInBounds (16 * i + j) (g j)) (c.accs.get a.toFin)).toList.getD (16 * i' + j) 0 := by
    rw [elem, Core.setAccRow, acc_get_set, if_pos rfl]
  rw [hread, toList_getD_setFrom _ _ _ _ (by omega)]
  by_cases h : i' = i
  · subst h
    rw [if_pos (by omega), if_pos rfl, Nat.add_sub_cancel_left]
  · rw [if_neg (by omega), if_neg h]
    rfl

/-! ### The first step of a pass -/

/-- In the first cycle of a pass only row 0 performs a step (R217). -/
theorem Core.stepCycle_zero (c : Core) (k : Cmd) (ps : Pass) : c.stepCycle k ps 0 = ((c.stepRow k ps 0 0).1, 0 ||| (c.stepRow k ps 0 0).2) := by
  have hrow0 : 0 ≤ 0 ∧ (0 - 0) % (k.passShape.1 / k.passShape.2) = 0 ∧ (0 - 0) / (k.passShape.1 / k.passShape.2) < k.passShape.2 := by
    simpa using passShape_steps_pos k
  simp only [Core.stepCycle, show List.range 16 = 0 :: (List.range 15).map (· + 1) from rfl, List.foldl_cons, List.foldl_map, if_pos hrow0]
  rw [List.foldl_fixed' fun i => if_neg (by omega)]
  simp

/-- A step of row 0 leaves the elements of the other rows (R57, R217). -/
theorem Core.elem_stepRow_other (c : Core) (k : Cmd) (ps : Pass) {i j : Nat} (hi : 0 < i) (hj : j < 16) (t : Nat) :
    elem (c.stepRow k ps 0 t).1 (accOf k.ops) i j = elem c (accOf k.ops) i j := by
  rw [Core.stepRow, Core.elem_setAccRow _ _ (by decide) hj, if_neg hi.ne']

/-- Without zero-initialisation a step adds its products to the element that stands there (R57). -/
theorem Core.elem_stepRow {c : Core} {k : Cmd} (hz : k.zeroInit = false) (ps : Pass) {i j : Nat} (hi : i < 16) (hj : j < 16) (t : Nat) :
    elem (c.stepRow k ps i t).1 (accOf k.ops) i j = (stepCell (elem c (accOf k.ops) i j) (c.stepFactors k ps i j t)).1 := by
  rw [Core.stepRow, Core.elem_setAccRow _ _ hi hj, if_pos rfl, hz]
  simp [List.getD_eq_getElem?_getD, hj, Core.accElem, elem]

/-! ### The boundary behind a cycle -/

/-- A word not served, or a pass that waits for a slot, holds the whole array (R213, R218). -/
theorem Core.advanceArray_held {c : Core} {e : MExec} (he : c.mat.exec = some e) (hk : e.cmd.kind = .mma)
    (h : e.want ≠ [] ∨ (∃ ps ∈ e.passes, c.passWants e.cmd ps ≠ []) ∨ c.slotWait e = true) :
    c.advanceArray = { c with mat := { c.mat with
      exec := some { e with passes := e.passes.map (fun ps => { ps with start := ps.start + 1 }) } } } := by
  have hheld : (!e.want.isEmpty || e.passes.any (fun ps => !(c.passWants e.cmd ps).isEmpty) || c.slotWait e) = true := by
    simpa [or_assoc] using h
  simp only [Core.advanceArray, he, hk, hheld, bne_self_eq_false, Bool.false_eq_true, if_false, if_true]

/-- Where nothing holds the array and its one pass stands before its first cycle. -/
structure FirstCycle (c : Core) (e : MExec) (ps : Pass) : Prop where
  exec : c.mat.exec = some e
  mma : e.cmd.kind = .mma
  served : e.want = []
  read : c.passWants e.cmd ps = []
  goes : c.slotWait e = false
  one : e.passes = [ps]
  first : ps.cycles = 0

namespace FirstCycle
variable {c : Core} {e : MExec} {ps : Pass} (h : FirstCycle c e ps)
include h

/-- Nothing holds the array. -/
theorem free : (!e.want.isEmpty || e.passes.any (fun ps => !(c.passWants e.cmd ps).isEmpty) || c.slotWait e) = false := by
  simp [h.served, h.one, h.read, h.goes]

/-- The pass performs its first steps when its masks stop nothing. -/
theorem advanceArray_steps (hm : e.cmd.sparse = true → c.maskFault e.cmd ps = none) :
    ∃ fl, c.advanceArray = { (c.stepRow e.cmd ps 0 0).1 with mat := { c.mat with
      exec := some { e with passes := [{ ps with cycles := 1 }], fl := fl } } } := by
  have hchecked : c.checkMasks e = (c, e) := by
    cases hs : e.cmd.sparse with
    | false => simp [Core.checkMasks, h.one, hs]
    | true => simp [Core.checkMasks, h.one, hs, h.first, hm hs]
  simp only [Core.advanceArray, h.exec, h.mma, h.free, hchecked, bne_self_eq_false, Bool.false_eq_true, if_false]
  simp only [h.one, h.first, List.foldl_cons, List.foldl_nil, List.map_cons, List.map_nil, Core.stepCycle_zero]
  exact ⟨_, rfl⟩

/-- A sparse pass with a column of another count of bits is stopped, and nothing of it is done (R216). -/
theorem advanceArray_stops (hs : e.cmd.sparse = true) {j : Nat} (hj : j < 16)
    (hcount : (c.keptRows e.cmd ps.got ps.slotB j).length ≠ e.cmd.kept) :
    let k := deferredCause .m 0x0F (e.cmd.tagInfo 0xFF 1 ps.p) e.cmd.opc e.cmd.ord
    ∃ fl, c.advanceArray = { c.defer k with mat := { c.mat with
      stopped := true, exec := some { e with pass := ps.p, passes := [], failed := some k, fl := fl } } } := by
  have hfault : c.maskFault e.cmd ps = some (0x0F, e.cmd.tagInfo 0xFF 1 ps.p) := by
    have hany : (List.range 16).any (fun j => (c.keptRows e.cmd ps.got ps.slotB j).length != e.cmd.kept) = true :=
      List.any_eq_true.2 ⟨j, List.mem_range.2 hj, bne_iff_ne.2 hcount⟩
    rw [Core.maskFault, if_pos hany]
  intro k
  have hchecked : c.checkMasks e = (({ c with mat := { c.mat with stopped := true } } : Core).defer k,
      { e with pass := ps.p, passes := [], failed := some k }) := by
    simp only [Core.checkMasks, h.one, hs, h.first, hfault, List.getLast?_singleton, bne_self_eq_false, Bool.false_eq_true, if_false,
      Bool.not_true, Bool.or_self, List.dropLast_singleton, List.isEmpty_nil, if_true]
    rfl
  simp only [Core.advanceArray, h.exec, h.mma, h.free, hchecked, bne_self_eq_false, Bool.false_eq_true, if_false]
  exact ⟨_, rfl⟩

end FirstCycle

end Sys2Proof.Machine
end

section
/-! Matrix commands and passes (O31). -/

namespace Sys2Proof.Machine

open Sys2Proof.Claims

/-- The head of the matrix queue leaves it, unless a row of its accumulator is on its way (R184, R187, R188). -/
theorem matrixDispatch_head (s : State) (t : Nat) (k : Cmd) (rest : List Cmd) (h : mGoes (s.coreAt t) k rest) :
    ((s.coreAt t).rowHeld k = true → exec (.matrixDispatch t) s = .next (s.at t)) ∧
    ((s.coreAt t).rowHeld k = false → (s.coreAt t).mat.exec = none → (s.coreAt t).mat.epi = none → (k.kind = .mma ∨ k.kind = .mclr) →
      exec (.matrixDispatch t) s = .next ((s.at t).setCore { s.coreAt t with
        mat := { (s.coreAt t).mat with queue := rest, exec := some (started k s.cycle) } })) ∧
    ((s.coreAt t).rowHeld k = false → (s.coreAt t).mat.exec = none → (s.coreAt t).mat.epi = none → k.kind = .mred →
      (s.coreAt t).mredCheck k = none →
      exec (.matrixDispatch t) s = .next ((s.at t).setCore { s.coreAt t with
        mat := { (s.coreAt t).mat with queue := rest, exec := some { started k s.cycle with want := genWant k } } })) ∧
    ((s.coreAt t).rowHeld k = false → (s.coreAt t).mat.epi = none → k.kind = .mepi → (s.coreAt t).mepiCheck k = none →
      exec (.matrixDispatch t) s = .next ((s.at t).setCore { s.coreAt t with
        mat := { (s.coreAt t).mat with queue := rest, epi := some (started k s.cycle) } })) ∧
    ((s.coreAt t).rowHeld k = false → (s.coreAt t).mat.exec = none → (s.coreAt t).mat.epi = none → k.kind = .mstat →
      ∃ u x, exec (.matrixDispatch t) s = .next u ∧ u.cur = t ∧ u.core.mat.queue = rest ∧
        u.core.mat.retired = (s.coreAt t).mat.retired + 1 ∧
        u.core.inflight = (s.coreAt t).inflight ++
          [{ w := .s (field 21 6 k.ops) x, fl := 0, slot := .m, rem := 1, lat := 1, ord := k.ord, late := true }] ∧
        ((s.coreAt t).mat.passes < 2 ^ 16 → x.toNat / 2 ^ 16 = (s.coreAt t).mat.passes ∧
          ∀ a : BitVec 2, x.getLsbD a.toNat = ((s.coreAt t).accs.get a.toFin).toList.any (fun y => (decodeWide y).nonFinite))) := by
  have hrun : exec (.matrixDispatch t) s = .next (s.at t).matrixDispatch := rfl
  have hgo : mGoes (s.at t).core k rest := h
  rw [hrun]
  refine ⟨fun hr => congrArg _ (matrixDispatch_rowHeld hgo hr), fun hr hx hp hk => congrArg _ (matrixDispatch_starts hgo hr hx hp hk),
    fun hr hx hp hk hc => congrArg _ (matrixDispatch_mred hgo hr hx hp hk hc),
    fun hr hp hk hc => congrArg _ (matrixDispatch_mepi hgo hr hp hk hc), fun hr hx hp hk => ?_⟩
  refine ⟨_, (s.coreAt t).mstatWord, congrArg _ (matrixDispatch_mstat hgo hr hx hp hk), rfl, ?_⟩
  rw [State.setCore_core]
  exact ⟨rfl, rfl, rfl, fun hlt => ⟨mstatWord_passes hlt, mstatWord_bit _⟩⟩

/-- The first pass takes the head slots and asks for its words in the same cycle (R212, R213, R217). -/
theorem Core.startPass_askSlots {c : Core} {e : MExec} (now : Nat) (he : c.mat.exec = some e) (hk : e.cmd.kind = .mma) (hf : e.failed = none)
    (hp : e.pass < e.cmd.passCount) (hnone : e.passes = []) (hon : c.engineOn = true)
    (ha : 0 < (c.rings.get e.cmd.ringA.toFin).fill) (hb : 0 < (c.rings.get e.cmd.ringB.toFin).fill)
    (hc : c.passCause e (firstPass c e now).slotA (firstPass c e now).slotB = none) :
    let d := (c.startPass now).askSlots
    ∃ e', d.mat.exec = some e' ∧ e'.pass = e.pass + 1 ∧ e'.passes = [firstPass c e now] ∧
      d.rings = c.rings ∧ d.spad = c.spad ∧ d.accs = c.accs ∧
      (e.cmd.sparse = false → (e.pass, c.slotAddr e.cmd.ringA (firstPass c e now).slotA e.cmd.swz 0 / 8) ∈ e'.want) ∧
      (e.cmd.sparse = true → ∀ j < 16,
        (e.pass, c.slotAddr e.cmd.ringB (firstPass c e now).slotB e.cmd.swz (8 * j) / 8) ∈ e'.want) := by
  rw [Core.startPass_first now he hk hf hp hnone hon ha hb hc,
    Core.askSlots_eq (e := { e with pass := e.pass + 1, passes := [firstPass c e now] }) rfl hk]
  refine ⟨_, rfl, rfl, rfl, rfl, rfl, rfl, fun hs => ?_, fun hs j hj => ?_⟩
  · exact List.mem_flatMap.2 ⟨_, List.mem_singleton.2 rfl, List.mem_map.2 ⟨_, Core.mem_passWants_dense rfl rfl hs, rfl⟩⟩
  · exact List.mem_flatMap.2 ⟨_, List.mem_singleton.2 rfl, List.mem_map.2 ⟨_, Core.mem_passWants_masks rfl rfl hs hj, rfl⟩⟩

/-- MMA_PASS_RETIRE: the last pass frees its slots and retires the command (R212, R217). -/
theorem mmaPassRetire_last {s : State} {t : Nat} {e : MExec} {ps : Pass} (he : (s.coreAt t).mat.exec = some e) (hps : e.passes = [ps])
    (hab : e.cmd.ringA ≠ e.cmd.ringB) (ht : ps.start + 15 + e.cmd.passShape.1 ≤ s.cycle) (hp : ps.p + 1 = e.cmd.passCount) :
    ∃ u, exec (.mmaPassRetire t) s = .next u ∧ u.cur = t ∧ u.core.mat.exec = none ∧ u.core.mat.passes = e.cmd.passCount ∧
      u.core.mat.retired = (s.coreAt t).mat.retired + 1 ∧ u.core.cnt = (s.coreAt t).cnt ∧
      ∀ g : BitVec 3, u.core.rings.get g.toFin =
        if g = e.cmd.ringA ∨ g = e.cmd.ringB then ((s.coreAt t).rings.get g.toFin).pop else (s.coreAt t).rings.get g.toFin := by
  have hrun : exec (.mmaPassRetire t) s = .next ((s.at t).setCore ((s.coreAt t).retirePass s.cycle)) := rfl
  refine ⟨_, hrun, rfl, ?_⟩
  rw [State.setCore_core, Core.retirePass_last he hps ht hp]
  obtain ⟨hmat, hcnt, hrings⟩ := Core.retireM_keeps ({ s.coreAt t with
      rings := popRings (s.coreAt t).rings e.cmd.ringA e.cmd.ringB
      mat := { (s.coreAt t).mat with exec := none, passes := e.cmd.passCount } }) e.cmd e.fl
  rw [hmat, hcnt, hrings]
  exact ⟨rfl, rfl, rfl, rfl, popRings_get hab⟩

/-- Settles O31: each clause by the lemma about its operation (R183, R184, R188, R212, R213, R216 to R219). -/
theorem matrixCommandsAndPasses : Obligations.MatrixCommandsAndPasses := by
  unfold Obligations.MatrixCommandsAndPasses
  refine ⟨matrixDispatch_head, ?_, fun c e he hk => ⟨fun hheld => ?_, ?_, ?_⟩, ?_, accRowFinal_marks⟩
  · intro s t e c ra rb he hk hf hp hnone hon ha hb hc
    have hrun : exec (.mmaPassStart t) s = .next ((s.at t).setCore (c.startPass s.cycle).askSlots) := rfl
    obtain ⟨e', hpass⟩ := Core.startPass_askSlots s.cycle he hk hf hp hnone hon ha hb hc
    refine ⟨_, e', hrun, rfl, ?_⟩
    rw [State.setCore_core]
    exact hpass
  · rw [Core.advanceArray_held he hk hheld]
    exact ⟨rfl, rfl⟩
  · intro ps j hw hr hs hps hx hsparse hj hcount
    obtain ⟨fl, hstop⟩ := FirstCycle.advanceArray_stops ⟨he, hk, hw, hr, hs, hps, hx⟩ hsparse hj hcount
    rw [hstop]
    exact ⟨rfl, rfl, rfl, rfl, _, _, rfl, rfl, rfl, rfl, rfl, List.mem_append_right _ (List.mem_singleton.2 rfl)⟩
  · intro ps hw hr hs hps hx hmasks
    obtain ⟨fl, hstep⟩ := FirstCycle.advanceArray_steps ⟨he, hk, hw, hr, hs, hps, hx⟩ hmasks
    rw [hstep]
    exact ⟨rfl, ⟨_, rfl, rfl⟩, fun i hi _ j hj => c.elem_stepRow_other e.cmd ps hi hj 0,
      fun hz j hj => Core.elem_stepRow hz ps (by decide) hj 0⟩
  · intro s t e ps c he hps hab ht hp
    exact mmaPassRetire_last he hps hab ht hp

end Sys2Proof.Machine
end

section
/-! Packets that a core sends: routes, credit and what a letter becomes (O32 to O37, R226 to R233). -/

namespace Sys2Proof.Machine

open Sys2Proof.Claims

/-- A second put of a core replaces the first. -/
theorem State.putCore_putCore (s : State) (t : CoreId) (c d : Core) : (s.putCore t c).putCore t d = s.putCore t d := by
  simp [State.putCore]

/-! ### A route is walked on the repair maps alone (R224, R361, R362) -/

section
variable {s t : State} (h : t.fields = s.fields)
include h

theorem State.fieldMap_congr (f : Nat) : t.fieldMap f = s.fieldMap f := by
  rw [State.fieldMap, h]
  rfl

theorem State.physOf_congr (n : Nat) : t.physOf n = s.physOf n := by
  simp only [State.physOf, State.fieldMap_congr h]

theorem State.isHole_congr (n : Nat) : t.isHole n = s.isHole n := by
  simp only [State.isHole, State.fieldMap_congr h]

theorem State.meshDead_congr (n : Nat) : t.meshDead n = s.meshDead n := by
  simp only [State.meshDead, State.fieldMap_congr h]

theorem State.clearWalk_congr (n : Nat) (ds : List Nat) : t.clearWalk n ds = s.clearWalk n ds := by
  induction ds generalizing n with
  | nil => rfl
  | cons d r ih => simp only [State.clearWalk, State.clearStep, State.isHole_congr h, State.meshDead_congr h, ih]

theorem State.sideClear_congr (n d sd : Nat) : t.sideClear n d sd = s.sideClear n d sd := by
  rw [State.sideClear, State.sideClear, State.clearWalk_congr h]
  cases walkTile n [sd, d] with
  | none => rfl
  | some m =>
    dsimp only
    rw [State.meshDead_congr h]

theorem State.detour_congr (n d : Nat) : t.detour n d = s.detour n d := by
  simp only [State.detour, State.sideClear_congr h]

theorem State.stepTo_congr (w : Walked) (d n : Nat) : t.stepTo w d n = s.stepTo w d n := by
  simp only [State.stepTo, State.hopCost, State.seamBypass, State.physOf_congr h, State.fieldMap_congr h]

theorem State.walkMesh_congr (d fuel n : Nat) (w : Walked) : t.walkMesh d fuel n w = s.walkMesh d fuel n w := by
  induction fuel generalizing n w with
  | zero => rfl
  | succ fuel ih =>
    cases n with
    | zero => rfl
    | succ n =>
      simp only [State.walkMesh, State.isHole_congr h, State.meshDead_congr h, State.detour_congr h, State.stepTo_congr h, ih]

theorem State.walkSegs_congr (fuel : Nat) (segs : List Nat) (w : Walked) : t.walkSegs fuel segs w = s.walkSegs fuel segs w := by
  induction fuel generalizing segs w with
  | zero => rfl
  | succ fuel ih =>
    cases segs with
    | nil => rfl
    | cons sg r => simp only [State.walkSegs, State.isHole_congr h, State.walkMesh_congr h, ih]

theorem State.route_congr (n : Nat) (segs : List Nat) : t.route n segs = s.route n segs :=
  State.walkSegs_congr h ..

end

@[simp] theorem State.setCore_route (s : State) (c : Core) (n : Nat) (segs : List Nat) : (s.setCore c).route n segs = s.route n segs :=
  State.route_congr (s := s) (t := s.setCore c) rfl n segs

@[simp] theorem State.at_route (s : State) (t : CoreId) (n : Nat) (segs : List Nat) : (s.at t).route n segs = s.route n segs :=
  State.route_congr (s := s) (t := s.at t) rfl n segs

/-- Credit is judged by the channel's spent flits and the gang's window (R233). -/
theorem State.setCore_hasCredit {s : State} {c : Core} (h : c.chn.spent = s.core.chn.spent) (ch flits : Nat) :
    (s.setCore c).hasCredit ch flits = s.hasCredit ch flits := by
  have hw (n : Nat) : (s.setCore c).window n = s.window n := rfl
  rw [State.hasCredit, State.hasCredit, State.setCore_core, h, hw]
  rfl

theorem State.reaches_of_route {s : State} {segs : List Nat} {w : Walked} (h : s.route s.cur segs = .tile w) : s.reaches segs = true := by
  rw [State.reaches, h]

/-! ### What a letter becomes (R228, R231, R232) -/

/-- Packet `p` carries letter `l` from the current core of `s` to the tile at the end of walk `w`. -/
structure Carries (s : State) (l : Letter) (w : Walked) (credit : Bool) (p : Packet) : Prop where
  id : p.id = s.serial
  kind : p.kind = l.kind
  src : p.src = s.cur
  sch : p.sch = l.sch
  dst : p.dst = w.tid
  dch : p.dch = l.dch
  off : p.off = l.off
  aw : p.aw = l.aw
  awv : p.awv = l.awv
  len : p.len = l.len
  data : p.data = l.data
  flits : p.flits = l.flits + 1
  fs : p.fs = if w.seam then 2 else 1
  sent : p.sent = if l.kind = 0 then 0 else l.flits
  credit : p.credit = credit
  due : p.due = s.cycle + w.cost
  ord : p.ord = l.ord
  op : p.op = l.op
  expect : p.expect = l.expect

/-- What a letter becomes depends on no more than the name, the sender and the cycle. -/
theorem Carries.of_eq {s t : State} {l : Letter} {w : Walked} {credit : Bool} {p : Packet} (h : Carries t l w credit p)
    (hn : t.serial = s.serial) (hs : t.cur = s.cur) (hc : t.cycle = s.cycle) : Carries s l w credit p :=
  { h with id := h.id.trans hn, src := h.src.trans hs, due := by rw [h.due, hc] }

/-- A letter whose route ends at a tile enters the network as one packet. -/
theorem State.launchPacket_net {s : State} {l : Letter} {segs : List Nat} {w : Walked} (credit : Bool)
    (h : s.route s.cur segs = .tile w) : ∃ p, (s.launchPacket l segs credit).net = s.net ++ [p] ∧ Carries s l w credit p := by
  rw [State.launchPacket, h]
  cases credit <;> exact ⟨_, rfl, rfl, rfl, rfl, rfl, rfl, rfl, rfl, rfl, rfl, rfl, rfl, rfl, rfl, rfl, rfl, rfl, rfl, rfl, rfl⟩

/-- It takes credit of its channel (R233). -/
theorem State.launchPacket_core {s : State} {l : Letter} {segs : List Nat} {w : Walked} (h : s.route s.cur segs = .tile w) :
    (s.launchPacket l segs true).core = s.core.spendCredit l.sch (l.flits + 1) := by
  rw [State.launchPacket, h]
  exact State.setCore_core ..

@[simp] theorem State.launchPacket_cur (s : State) (l : Letter) (segs : List Nat) (credit : Bool) :
    (s.launchPacket l segs credit).cur = s.cur := by
  unfold State.launchPacket
  cases credit <;> dsimp only <;> split <;> rfl

end Sys2Proof.Machine
end

section
/-! What an engine asks of the bank units, and the poison it meets (O32 to O35, R151, R210). -/

namespace Sys2Proof.Machine

open Sys2Proof.Claims

/-- Bytes at their places, place by place. -/
theorem bytesAt_eq (a : Nat) (bs : List (BitVec 8)) :
    bytesAt a bs = (List.range bs.length).map (fun j => (a + j, bs.getD j 0)) := by
  refine List.ext_getElem (by simp [bytesAt]) fun i h _ => ?_
  have hi : i < bs.length := by simpa [bytesAt] using h
  simp [bytesAt, hi]

/-- A write begun asks for its bytes and for the words that they touch (R210). -/
theorem asksWrite_of_beginWrite {c d : Core} {o : XferOwner} {port a : Nat} {bs : List (BitVec 8)}
    (h : d.xfers = (c.beginWrite o port (bytesAt a bs)).xfers) : asksWrite c d o port a bs := by
  refine ⟨_, h, rfl, rfl, rfl, bytesAt_eq a bs, fun w => ?_⟩
  simp [bytesAt_eq, eq_comm]

/-- A sound place holds no poisoned word. -/
theorem find?_poison_of_sound {c : Core} {a n : Nat} (h : sound c a n) : (wordsOf a n).find? c.poison.contains = none := by
  rw [List.find?_eq_none]
  intro w hw hp
  obtain ⟨h1, h2⟩ := of_mem_wordsOf hw
  exact h w (by simpa using hp) ⟨by omega, h2⟩

/-- A write that covers every poisoned word that it touches meets none (R151). -/
theorem poisonHit_of_covers {c : Core} {a n : Nat} (h : coversPoison c a n) : poisonHit c a n = none := by
  rw [poisonHit, List.find?_eq_none]
  intro w hw
  obtain ⟨h1, h2⟩ := of_mem_wordsOf hw
  by_cases hp : w ∈ c.poison
  · obtain ⟨h3, h4⟩ := h w hp (by omega) h2
    simp [h3, h4]
  · simp [hp]

theorem coversPoison_of_sound {c : Core} {a n : Nat} (h : sound c a n) : coversPoison c a n :=
  fun w hw h1 h2 => absurd ⟨h1, h2⟩ (h w hw)

end Sys2Proof.Machine
end

section
/-! Rows of the matrix engine (O32, R185 to R188, R210). -/

namespace Sys2Proof.Machine

open Sys2Proof.Claims

/-! ### A row that is taken -/

/-- The row of an epilogue command that is ready is the one taken in its cycle (R184, R185). -/
theorem Core.rowToTake_of_ready {c : Core} {e : MExec} {n : Nat} (h : rowReady c e n) : c.rowToTake n = some e := by
  obtain ⟨he, hf, hs, hon, hrow, hsince, hfinal⟩ := h
  simp [Core.rowToTake, he, hf, hs, hon, hrow, hsince, hfinal]

/-- The command of a row that is due is the one in execution (R187, R188). -/
theorem Core.rowExec_of_due {c : Core} {kind : CmdKind} {e : MExec} {n : Nat} (h : rowDue c kind e n) : c.rowExec kind n = some e := by
  obtain ⟨he, hk, hf, hon, hsince⟩ := h
  simp [Core.rowExec, he, hk, hf, hon, hsince]

/-! ### `mepi` (R185) -/

/-- The elements of a row of `mepi`, scaled and rounded, are the spec's (R59). -/
theorem Core.mepiElem_eq (c : Core) (k : Cmd) (i : Nat) : c.mepiElem k i = epilogued c k i := by
  funext j
  have hz (z : BitVec 512) : lane 32 (z.setWidth 1024) j = z.toNat / 2 ^ (32 * j) % 2 ^ 32 := by
    rw [lane, BitVec.toNat_setWidth_of_le (by decide)]
  simp only [Core.mepiElem, hz]
  rfl

/-- The place of row `i` of `mepi`'s output. -/
def epiPlace (k : Cmd) (i : Nat) : Nat := (k.stg.getD 2 0).toNat % 2 ^ 20 + i * ((k.stg.getD 2 0).toNat / 2 ^ 20 % 2 ^ 16)

/-- A row of `mepi` that meets no poison goes to the bank units (R185, R210). -/
theorem Core.mepiRow_writes {c : Core} {e : MExec} {n : Nat} (h : rowReady c e n) (hk : e.cmd.kind = .mepi)
    (hs : sound c (epiPlace e.cmd e.row) (16 * (fmtStore e.cmd.fa / 8))) :
    c.mepiRow n = (c.beginWrite .epiRow 2 (bytesAt (epiPlace e.cmd e.row)
        ((List.range 16).flatMap (fun j => leBytes (fmtStore e.cmd.fa / 8) (epilogued c e.cmd e.row j).1)))).nextEpi e
      ((List.range 16).foldl (fun f j => f ||| (epilogued c e.cmd e.row j).2) 0) := by
  have hplace : (field 0 20 (e.cmd.reg 2)).toNat + e.row * (field 20 16 (e.cmd.reg 2)).toNat = epiPlace e.cmd e.row := by
    rw [field_toNat, field_toNat, pow_zero, Nat.div_one]
    rfl
  simp only [Core.mepiRow, Core.rowToTake_of_ready h, hk, hplace, poisonHit_of_covers (coversPoison_of_sound hs), Core.mepiElem_eq,
    bne_self_eq_false, Bool.false_eq_true, if_false, List.flatMap_map, List.foldl_map]

/-! ### `msend` (R186) -/

/-- The bytes of a row that `msend` sends as WIDE96. -/
def wideRow (c : Core) (k : Cmd) (i : Nat) : List (BitVec 8) :=
  (List.range 16).flatMap (fun j => leBytes 12 (elem c (field 25 2 k.ops) i j).toNat ++ leBytes 4 0)

theorem wideRow_length (c : Core) (k : Cmd) (i : Nat) : (wideRow c k i).length = 256 := by
  simp [wideRow, List.length_flatMap]

theorem sendElem_wide (x : BitVec 96) : sendElem 0 x = (leBytes 12 x.toNat ++ leBytes 4 0, (decodeWide x).nonFinite, 0) := rfl

/-- The core with another epilogue command in execution. -/
def Core.setEpi (c : Core) (e : MExec) : Core := { c with mat := { c.mat with epi := some e } }

/-- A row of finite WIDE96 elements is taken as it stands, without flags (R186). -/
theorem State.msendTake_wide {s : State} {e : MExec} (h : rowReady s.core e s.cycle) (hk : e.cmd.kind = .msend)
    (hf : e.cmd.sfmt = 0) (hfin : ∀ j < 16, (decodeWide (elem s.core (field 25 2 e.cmd.ops) e.row j)).nonFinite = false) :
    s.msendTake = s.setCore (s.core.setEpi
      { e with row := e.row + 1, out := e.out ++ [(e.row, wideRow s.core e.cmd e.row)] }) := by
  let els := (List.range 16).map (fun j => sendElem 0 (s.core.accElem (accOf e.cmd.ops) e.row j))
  have hnone : els.findIdx? (fun x => x.2.1) = none := by
    simp only [els, List.findIdx?_eq_none_iff, List.mem_map, List.mem_range]
    rintro _ ⟨j, hj, rfl⟩
    exact hfin j hj
  have hdata : els.flatMap (·.1) = wideRow s.core e.cmd e.row := List.flatMap_map ..
  have hfl : els.foldl (fun f x => f ||| x.2.2) 0 = 0 := by
    rw [List.foldl_map]
    exact List.foldl_fixed' (fun _ => by rw [sendElem_wide]; exact BitVec.or_zero) _
  have hor (f : Flags) : f ||| 0 = f := BitVec.or_zero
  simp only [State.msendTake, Core.rowToTake_of_ready h, hk, hf, els, hnone, hdata, hfl, bne_self_eq_false, Bool.false_eq_true, if_false,
    Core.nextEpi, hor, Core.setEpi]


/-- Row `row` of a partial as `msend` sends it (R186). -/
def rowLetter (e : MExec) (row : Nat) (data : List (BitVec 8)) : Letter :=
  { kind := 1, sch := e.cmd.mch, dch := e.cmd.mch, off := e.cmd.mdata + 16 * row * partSize e.cmd.sfmt, aw := e.cmd.awo, awv := true
    len := data.length, data, slot := .m, ord := e.cmd.ord, opc := e.cmd.opc, index := row, op := .deposit, expect := e.expect }

/-- The oldest row that waits leaves in one packet when its channel has credit (R186, R233). -/
theorem State.msendLeave_sends {s : State} {e : MExec} {row : Nat} {data : List (BitVec 8)} {rest : List (Nat × List (BitVec 8))} {w : Walked}
    (he : s.core.mat.epi = some e) (ho : e.out = (row, data) :: rest) (ha : e.accept = none) (hfr : s.core.frozen = false)
    (hc : s.hasCredit e.cmd.mch (dataFlits data.length + 1) = true) (hr : s.route s.cur e.segs = .tile w) :
    ∃ p, s.msendLeave.net = s.net ++ [p] ∧ Carries s (rowLetter e row data) w true p ∧ s.msendLeave.cur = s.cur ∧
      s.msendLeave.core.mat = { s.core.mat with epi := some { e with accept := some (s.cycle + dataFlits data.length + 1) } } := by
  obtain ⟨p, hnet, hp⟩ := State.launchPacket_net (l := rowLetter e row data) true hr
  have hleave : s.msendLeave = (s.launchPacket (rowLetter e row data) e.segs true).setCore
      { (s.launchPacket (rowLetter e row data) e.segs true).core with
        mat := { (s.launchPacket (rowLetter e row data) e.segs true).core.mat with
          epi := some { e with accept := some (s.cycle + dataFlits data.length + 1) } } } := by
    simp only [State.msendLeave, he, ho, ha, hfr, hc, State.reaches_of_route hr, Option.isSome_none, Bool.not_true, Bool.or_self,
      Bool.false_eq_true, if_false, rowLetter]
  rw [hleave]
  refine ⟨p, hnet, hp, State.launchPacket_cur .., ?_⟩
  rw [State.setCore_core, State.launchPacket_core hr]
  rfl

/-! ### The end of an epilogue command (R185, R186) -/

/-- An owner whose accesses have ended has none. -/
theorem Core.xfersOf_endXfer (c : Core) (o : XferOwner) : (c.endXfer o).xfersOf o = [] := by
  simp [Core.xfersOf, Core.endXfer]

/-- Accesses all of whose words are served are done, if there are any (R210). -/
theorem Core.xferDone_of_served {c : Core} {o : XferOwner} (h : ∀ x ∈ c.xfersOf o, x.todo = []) (hne : c.xfersOf o ≠ []) :
    c.xferDone o = true := by
  simp only [Core.xferDone, Bool.and_eq_true, Bool.not_eq_true', List.isEmpty_eq_false_iff, List.all_eq_true, List.isEmpty_iff]
  exact ⟨hne, h⟩

/-- Behind its sixteenth row an epilogue command all of whose words are served retires (R185). -/
theorem Core.endEpi_retires {c : Core} {e : MExec} (n : Nat) (he : c.mat.epi = some e) (hf : e.failed = none) (hrow : e.row = 16)
    (ho : e.out = []) (hx : ∀ x ∈ c.xfersOf .epiRow, x.todo = []) :
    (c.endEpi n).mat = { c.mat with epi := none, retired := c.mat.retired + 1, fl := c.mat.fl ||| e.fl } := by
  unfold Core.endEpi
  generalize hd : (if c.xferDone .epiRow then c.endXfer .epiRow else c) = d
  have hmat : d.mat = c.mat := by
    rw [← hd]
    split <;> rfl
  have hnone : d.xfersOf .epiRow = [] := by
    rw [← hd]
    split
    · exact c.xfersOf_endXfer .epiRow
    next hnot => exact by_contra fun hne => hnot (Core.xferDone_of_served hx hne)
  cases ha : e.accept with
  | none => simp [he, ha, hf, hrow, ho, hnone, Core.retireM_keeps, hmat]
  | some b => by_cases hb : b ≤ n <;> simp [he, ha, hb, hf, hrow, ho, hnone, Core.retireM_keeps, hmat]

/-! ### A row written into an accumulator (R52) -/

/-- A row written stands in its place; a row that the accumulator does not have is written nowhere. -/
theorem Core.elem_setAccRow_any (c : Core) (a : BitVec 2) (i : Nat) {i' j : Nat} (hi : i' < 16) (hj : j < 16) (g : Nat → BitVec 96) :
    elem (c.setAccRow a i g) a i' j = if i' = i then g j else elem c a i' j := by
  by_cases h : i < 16
  · exact c.elem_setAccRow a h hj g
  · have hkept : (List.range 16).foldl (fun v j => v.setIfInBounds (16 * i + j) (g j)) (c.accs.get a.toFin) = c.accs.get a.toFin :=
      List.foldl_fixed' (fun _ => Vector.setIfInBounds_eq_of_size_le (by omega)) _
    rw [if_neg (by omega), elem, Core.setAccRow, acc_get_set, if_pos rfl, hkept]
    rfl

/-! ### The next row of a command in execution (R187, R188) -/

theorem Core.nextRow_mid {c : Core} {e : MExec} (h : e.row < 15) (fl : Flags) :
    c.nextRow e fl = { c with mat := { c.mat with exec := some { e with row := e.row + 1, fl := e.fl ||| fl } } } := by
  rw [Core.nextRow, if_neg (by omega)]

/-- Behind row 15 the command retires (R20, R49). -/
theorem Core.nextRow_last {c : Core} {e : MExec} (h : e.row = 15) (fl : Flags) :
    (c.nextRow e fl).mat = { c.mat with exec := none, retired := c.mat.retired + 1, fl := c.mat.fl ||| (e.fl ||| fl) } := by
  rw [Core.nextRow, if_pos h, (Core.retireM_keeps _ _ _).1]

theorem Core.nextRow_accs (c : Core) (e : MExec) (fl : Flags) : (c.nextRow e fl).accs = c.accs := by
  unfold Core.nextRow Core.retireM Core.disown
  dsimp only
  split_ifs <;> rfl

theorem Core.rowDone_nextRow (c : Core) (e : MExec) (fl : Flags) : rowDone e (c.nextRow e fl).mat.exec fl c (c.nextRow e fl) := by
  refine ⟨fun h => ?_, fun h => ?_⟩
  · rw [Core.nextRow_mid h]
    exact ⟨rfl, rfl⟩
  · rw [Core.nextRow_last h]
    exact ⟨rfl, rfl, rfl⟩

/-! ### `mclr` (R188) -/

theorem Core.mclrRow_clears {c : Core} {e : MExec} {n : Nat} (h : rowDue c .mclr e n) :
    c.mclrRow n = (c.setAccRow (accOf e.cmd.ops) e.row (fun _ => 0)).nextRow e 0 := by
  rw [Core.mclrRow, Core.rowExec_of_due h]

/-! ### `mred` (R187) -/

/-- The number that bytes of words read make. -/
theorem bytesNat_wordBytes (got : Tab Word) (a n : Nat) : bytesNat (wordBytes got a n) = gotNat got a n := by
  induction n generalizing a with
  | zero => rfl
  | succ n ih =>
    rw [wordBytes, bytesNat, ih, gotNat, gotNat, List.range_succ_eq_map, List.map_cons, List.map_map, List.sum_cons, ← List.sum_map_mul_left,
      BitVec.toNat_ofNat]
    congr 2
    · simp
    · refine List.map_congr_left fun j _ => ?_
      simp only [Function.comp_apply, Nat.succ_eq_add_one, pow_succ, Nat.add_assoc, Nat.add_comm 1 j]
      ring

/-- An element of the incoming partial is the spec's (R53, R187). -/
theorem partElem_eq (k : Cmd) (got : Tab Word) (i j : Nat) : partElem k got i j = incoming k got i j := by
  have hplace : k.mdata + (16 * i + j) * partSize k.pf = partAt k i + j * partBytes (field 23 2 k.ops) := by
    rw [Cmd.mdata, field_toNat, partAt, Nat.add_mul, ← Nat.add_assoc]
    rfl
  have hpf : field 23 2 k.ops = k.pf := rfl
  rw [partElem, incoming, bytesNat_wordBytes, hplace, hpf]
  by_cases h0 : k.pf = 0
  · simp only [partSize, partBytes, if_pos h0, reduceIte]
  · by_cases h1 : k.pf = 1
    · simp only [partSize, partBytes, if_neg h0, if_pos h1, reduceIte, Nat.reduceEqDiff]
    · simp only [partSize, partBytes, if_neg h0, if_neg h1, reduceIte, Nat.reduceEqDiff]

/-- The words of a row of the incoming partial (R187). -/
theorem MExec.partWords_eq (e : MExec) : e.partWords = wordsOf (partAt e.cmd e.row) (16 * partBytes (field 23 2 e.cmd.ops)) := by
  rw [MExec.partWords, Cmd.mdata, field_toNat]
  rfl

theorem MExec.genCame_iff (e : MExec) : e.genCame = true ↔ partCame e := by
  have hawo : e.cmd.awo = (e.cmd.stg.getD 4 0).toNat % 2 ^ 20 := by
    rw [Cmd.awo, field_toNat, pow_zero, Nat.div_one]
    rfl
  rw [MExec.genCame, partCame, hawo]
  cases Tab.get? e.got ((e.cmd.stg.getD 4 0).toNat % 2 ^ 20 / 8 + 1) with
  | none => simp
  | some w => simp [genReached, Cmd.reg]

/-- The sum of an element of a `mred`'s row and its partial's, rounded, and its flags (R53, R187). -/
def redSum (c : Core) (e : MExec) (i j : Nat) : BitVec 96 × Flags :=
  roundWide (preAdd 0 (decodeWide (elem c (accOf e.cmd.ops) i j)) (incoming e.cmd e.got i j))

/-- The core with the sums of a `mred`'s row in its accumulator. -/
def Core.addRow (c : Core) (e : MExec) : Core :=
  c.setAccRow (accOf e.cmd.ops) e.row (fun j => (((List.range 16).map (redSum c e e.row)).getD j (0, 0)).1)

/-- The flags of a `mred`'s row. -/
def redFlags (c : Core) (e : MExec) : Flags := (List.range 16).foldl (fun f j => f ||| (redSum c e e.row j).2) 0

/-- The command without what it has read of its row. -/
def MExec.unread (e : MExec) : MExec := { e with got := [], want := [] }

/-- A row of finite elements all of whose partial's words are read, sound ones, is added and done (R187). -/
theorem Core.mredRow_adds {c : Core} {e : MExec} {n : Nat} (h : rowDue c .mred e n)
    (hs : sound c (partAt e.cmd e.row) (16 * partBytes (field 23 2 e.cmd.ops)))
    (hgot : ∀ w ∈ wordsOf (partAt e.cmd e.row) (16 * partBytes (field 23 2 e.cmd.ops)), (Tab.get? e.got w).isSome = true)
    (hfin : ∀ j < 16, (decodeWide (elem c (accOf e.cmd.ops) e.row j)).nonFinite = false ∧ (incoming e.cmd e.got e.row j).nonFinite = false) :
    c.mredRow n = (c.addRow e).nextRow e.unread (redFlags c e) := by
  obtain ⟨els, hels⟩ : ∃ els, els = (List.range 16).map (fun j =>
    (decodeWide (c.accElem (accOf e.cmd.ops) e.row j), partElem e.cmd e.got e.row j)) := ⟨_, rfl⟩
  have hall : e.partWords.all (fun w => (Tab.get? e.got w).isSome) = true := by
    rw [List.all_eq_true, e.partWords_eq]
    exact hgot
  have hclean : e.partWords.find? c.poison.contains = none := by
    rw [e.partWords_eq]
    exact find?_poison_of_sound hs
  have hnone : els.findIdx? (fun x => x.1.nonFinite || x.2.nonFinite) = none := by
    simp only [hels, List.findIdx?_eq_none_iff, List.mem_map, List.mem_range]
    rintro _ ⟨j, hj, rfl⟩
    obtain ⟨h1, h2⟩ := hfin j hj
    rw [Bool.or_eq_false_iff, partElem_eq]
    exact ⟨h1, h2⟩
  have hsums : els.map (fun x => roundWide (preAdd 0 x.1 x.2)) = (List.range 16).map (redSum c e e.row) := by
    rw [hels, List.map_map]
    refine List.map_congr_left fun j _ => ?_
    rw [Function.comp_apply, partElem_eq]
    rfl
  have hfl : ((List.range 16).map (redSum c e e.row)).foldl (fun f x => f ||| x.2) 0 = redFlags c e := List.foldl_map
  simp only [Core.mredRow, Core.rowExec_of_due h, hall, hclean, ← hels, hnone, hsums, hfl, Bool.not_true, Bool.false_eq_true, if_false]
  rfl

/-- Behind its generation a `mred` none of whose row's words is read asks for them all (R187, R210). -/
theorem Core.askPart_row {c : Core} {e : MExec} (he : c.mat.exec = some e) (hk : e.cmd.kind = .mred) (hf : e.failed = none)
    (hon : c.engineOn = true) (hgo : e.row = 0 → e.genCame = true)
    (hnew : ∀ w ∈ wordsOf (partAt e.cmd e.row) (16 * partBytes (field 23 2 e.cmd.ops)), Tab.get? e.got w = none) :
    c.askPart = { c with mat := { c.mat with exec := some { e with want := partWants e.cmd e.row } } } := by
  have hgen : ¬(e.row = 0 ∧ (!e.genCame) = true) := fun ⟨h0, hg⟩ => by simp [hgo h0] at hg
  have hall : e.partWords.filter (fun w => (Tab.get? e.got w).isNone) = wordsOf (partAt e.cmd e.row) (16 * partBytes (field 23 2 e.cmd.ops)) := by
    rw [e.partWords_eq]
    exact List.filter_eq_self.2 fun w hw => by rw [hnew w hw]; rfl
  simp only [Core.askPart, he, hk, hf, hon, if_neg hgen, hall, bne_self_eq_false, Option.isSome_none, Bool.not_true, Bool.or_self,
    Bool.false_eq_true, if_false, partWants]

/-- Behind a row that is not the last a `mred` asks for the next one (R187). -/
theorem Core.askPart_nextRow {c : Core} {e : MExec} (hk : e.cmd.kind = .mred) (hf : e.failed = none) (hon : c.engineOn = true)
    (hrow : e.row < 15) (hgot : e.got = []) (fl : Flags) :
    (c.nextRow e fl).askPart = { c with mat := { c.mat with
      exec := some { e with row := e.row + 1, fl := e.fl ||| fl, want := partWants e.cmd (e.row + 1) } } } := by
  rw [Core.nextRow_mid hrow]
  exact Core.askPart_row (e := { e with row := e.row + 1, fl := e.fl ||| fl }) rfl hk hf hon (fun h0 => absurd h0 (Nat.succ_ne_zero _))
    (fun w _ => by rw [hgot, Tab.get?_nil])

/-- A `mred` that has retired asks for nothing. -/
theorem Core.askPart_idle {c : Core} (h : c.mat.exec = none) : c.askPart = c := by
  rw [Core.askPart, h]

theorem Core.askPart_accs (c : Core) : c.askPart.accs = c.accs := by
  unfold Core.askPart
  split
  · rfl
  · split_ifs <;> rfl

/-- A row of a partial has words. -/
theorem wordsOf_ne_nil {a n : Nat} (h : n ≠ 0) : wordsOf a n ≠ [] := by
  simp [wordsOf, h]

theorem partBytes_pos (f : BitVec 2) : partBytes f ≠ 0 := by
  unfold partBytes
  split_ifs <;> decide

/-- A `mred` whose row is not read adds nothing (R187). -/
theorem Core.mredRow_waits {c : Core} {e : MExec} {n : Nat} (h : rowDue c .mred e n)
    (hnew : ∀ w ∈ wordsOf (partAt e.cmd e.row) (16 * partBytes (field 23 2 e.cmd.ops)), Tab.get? e.got w = none) : c.mredRow n = c := by
  obtain ⟨w, hw⟩ := List.exists_mem_of_ne_nil _ (wordsOf_ne_nil (a := partAt e.cmd e.row) (Nat.mul_ne_zero (by decide : (16 : Nat) ≠ 0)
    (partBytes_pos (field 23 2 e.cmd.ops))))
  have hsome : e.partWords.all (fun w => (Tab.get? e.got w).isSome) = false := by
    rw [List.all_eq_false, e.partWords_eq]
    exact ⟨w, hw, by simp [hnew w hw]⟩
  simp only [Core.mredRow, Core.rowExec_of_due h, hsome, Bool.not_false, if_true]

/-! ### The statement -/

/-- MEPI_ROW_WRITE on a row that is ready. -/
theorem mepiRowWrite_asks {s : State} {t : Nat} {e : MExec} (h : rowReady (s.coreAt t) e s.cycle) (hk : e.cmd.kind = .mepi)
    (hs : sound (s.coreAt t) (epiPlace e.cmd e.row) (16 * (fmtStore e.cmd.fa / 8))) :
    ∃ u, exec (.mepiRowWrite t) s = .next u ∧ u.cur = t ∧
      asksWrite (s.coreAt t) u.core .epiRow 2 (epiPlace e.cmd e.row)
        ((List.range 16).flatMap (fun j => leBytes (fmtStore e.cmd.fa / 8) (epilogued (s.coreAt t) e.cmd e.row j).1)) ∧
      u.core.spad = (s.coreAt t).spad ∧ u.core.mat.epi = some { e with
        row := e.row + 1, fl := e.fl ||| (List.range 16).foldl (fun f j => f ||| (epilogued (s.coreAt t) e.cmd e.row j).2) 0 } := by
  have hrun : exec (.mepiRowWrite t) s = .next ((s.at t).setCore ((s.coreAt t).mepiRow s.cycle)) := rfl
  refine ⟨_, hrun, rfl, ?_⟩
  rw [State.setCore_core, Core.mepiRow_writes h hk hs]
  exact ⟨asksWrite_of_beginWrite rfl, rfl, rfl⟩

/-- MSEND_ROW_SEND on a row of finite WIDE96 elements, with none before it waiting (R186). -/
theorem msendRowSend_leaves {s : State} {t : Nat} {e : MExec} {w : Walked} (h : rowReady (s.coreAt t) e s.cycle) (hk : e.cmd.kind = .msend)
    (ho : e.out = []) (ha : e.accept = none) (hf : e.cmd.sfmt = 0)
    (hfin : ∀ j < 16, (decodeWide (elem (s.coreAt t) (field 25 2 e.cmd.ops) e.row j)).nonFinite = false)
    (hc : (s.at t).hasCredit e.cmd.mch 5 = true) (hr : s.route t e.segs = .tile w) :
    ∃ u p, exec (.msendRowSend t) s = .next u ∧ u.cur = t ∧ u.net = s.net ++ [p] ∧
      Carries (s.at t) (rowLetter e e.row (wideRow (s.coreAt t) e.cmd e.row)) w true p ∧
      u.core.mat.epi = some { e with
        row := e.row + 1, out := [(e.row, wideRow (s.coreAt t) e.cmd e.row)], accept := some (s.cycle + 5) } := by
  have hrun : exec (.msendRowSend t) s = .next (s.at t).msendTake.msendLeave := rfl
  have hframe : (s.coreAt t).frozen = false := by
    obtain ⟨-, -, -, hon, -⟩ := h
    simp only [Core.engineOn, Bool.and_eq_true, Bool.not_eq_true'] at hon
    exact hon.1.1.1
  have hflits : dataFlits (wideRow (s.coreAt t) e.cmd e.row).length = 4 := by
    rw [wideRow_length]
    rfl
  have htake := State.msendTake_wide (s := s.at t) h hk hf hfin
  rw [ho, List.nil_append, State.at_core] at htake
  obtain ⟨p, hnet, hp, hcur, hmat⟩ := State.msendLeave_sends (s := (s.at t).msendTake) (row := e.row) (rest := [])
    (data := wideRow (s.coreAt t) e.cmd e.row) (w := w)
    (e := { e with row := e.row + 1, out := [(e.row, wideRow (s.coreAt t) e.cmd e.row)] })
    (by rw [htake, State.setCore_core]; rfl) rfl ha (by rw [htake, State.setCore_core]; exact hframe)
    (by rw [htake, hflits, State.setCore_hasCredit]; exacts [hc, rfl]) (by rw [htake, State.setCore_route, State.at_route]; exact hr)
  rw [hflits] at hmat
  refine ⟨_, p, hrun, ?_, ?_, ?_, ?_⟩
  · rw [hcur, htake]
    rfl
  · rw [hnet, htake]
    rfl
  · exact hp.of_eq (by rw [htake]; rfl) (by rw [htake]; rfl) (by rw [htake]; rfl)
  · rw [hmat, htake]
    rfl

/-- The rows of an accumulator after MRED_ROW_ADD (R187). -/
theorem Core.elem_addRow {c : Core} {e : MExec} (fl : Flags) {i j : Nat} (hi : i < 16) (hj : j < 16) :
    elem ((c.addRow e).nextRow e.unread fl).askPart (accOf e.cmd.ops) i j =
      if i = e.row then (redSum c e i j).1 else elem c (accOf e.cmd.ops) i j := by
  rw [elem, Core.askPart_accs, Core.nextRow_accs]
  refine (c.elem_setAccRow_any (accOf e.cmd.ops) e.row hi hj _).trans ?_
  by_cases h : i = e.row
  · subst h
    simp [hj]
  · rw [if_neg h, if_neg h]

/-- MRED_ROW_ADD on a row that is read: its sums stand in the accumulator, and the next row's words are asked for (R187). -/
theorem mredRowAdd_adds {s : State} {t : Nat} {e : MExec} (h : rowDue (s.coreAt t) .mred e s.cycle)
    (hs : sound (s.coreAt t) (partAt e.cmd e.row) (16 * partBytes (field 23 2 e.cmd.ops)))
    (hgot : ∀ w ∈ wordsOf (partAt e.cmd e.row) (16 * partBytes (field 23 2 e.cmd.ops)), (Tab.get? e.got w).isSome = true)
    (hfin : ∀ j < 16, (decodeWide (elem (s.coreAt t) (accOf e.cmd.ops) e.row j)).nonFinite = false ∧
      (incoming e.cmd e.got e.row j).nonFinite = false) :
    ∃ u, exec (.mredRowAdd t) s = .next u ∧ u.cur = t ∧
      (∀ i < 16, ∀ j < 16, elem u.core (accOf e.cmd.ops) i j =
        if i = e.row then (redSum (s.coreAt t) e i j).1 else elem (s.coreAt t) (accOf e.cmd.ops) i j) ∧
      u.core.spad = (s.coreAt t).spad ∧
      (e.row < 15 → u.core.mat.retired = (s.coreAt t).mat.retired ∧
        u.core.mat.exec = some { e with
          row := e.row + 1, fl := e.fl ||| redFlags (s.coreAt t) e, got := [], want := partWants e.cmd (e.row + 1) }) ∧
      (e.row = 15 → u.core.mat.exec = none ∧ u.core.mat.retired = (s.coreAt t).mat.retired + 1 ∧
        u.core.mat.fl = (s.coreAt t).mat.fl ||| (e.fl ||| redFlags (s.coreAt t) e)) := by
  have hrun : exec (.mredRowAdd t) s = .next ((s.at t).setCore ((s.coreAt t).mredRow s.cycle).askPart) := rfl
  obtain ⟨-, hk, hf, hon, -⟩ := id h
  refine ⟨_, hrun, rfl, ?_⟩
  rw [State.setCore_core, Core.mredRow_adds h hs hgot hfin]
  refine ⟨fun i hi j hj => Core.elem_addRow _ hi hj, by simp [Core.addRow], fun hrow => ?_, fun hrow => ?_⟩
  · rw [Core.askPart_nextRow (c := (s.coreAt t).addRow e) (e := e.unread) hk hf hon hrow rfl]
    exact ⟨rfl, rfl⟩
  · have hlast := Core.nextRow_last (c := (s.coreAt t).addRow e) (e := e.unread) hrow (redFlags (s.coreAt t) e)
    rw [Core.askPart_idle (by rw [hlast]), hlast]
    exact ⟨rfl, rfl, rfl⟩

/-- MRED_ROW_ADD before its first row is read: it asks for that row once its generation has come, else for its arrival word (R187, R239). -/
theorem mredRowAdd_asks {s : State} {t : Nat} {e : MExec} (h : rowDue (s.coreAt t) .mred e s.cycle) (hrow : e.row = 0)
    (hnew : ∀ x ∈ partWants e.cmd 0, Tab.get? e.got x.2 = none) :
    ∃ u, exec (.mredRowAdd t) s = .next u ∧ u.cur = t ∧ u.core.spad = (s.coreAt t).spad ∧ u.core.accs = (s.coreAt t).accs ∧
      (partCame e → u.core.mat.exec = some { e with want := partWants e.cmd 0 }) ∧
      (¬ partCame e → u.core.mat.exec = some { e with want := genWant e.cmd, got := [] }) := by
  have hwords : ∀ w ∈ wordsOf (partAt e.cmd e.row) (16 * partBytes (field 23 2 e.cmd.ops)), Tab.get? e.got w = none := by
    rw [hrow]
    exact fun w hw => hnew (0, w) (List.mem_map_of_mem hw)
  have hrun : exec (.mredRowAdd t) s = .next ((s.at t).setCore ((s.coreAt t).mredRow s.cycle).askPart) := rfl
  obtain ⟨he, hk, hf, hon, -⟩ := id h
  refine ⟨_, hrun, rfl, ?_⟩
  rw [State.setCore_core, Core.mredRow_waits h hwords]
  refine ⟨Core.askPart_spad _, Core.askPart_accs _, fun hcame => ?_, fun hnot => ?_⟩
  · rw [Core.askPart_row he hk hf hon (fun _ => e.genCame_iff.2 hcame) hwords, hrow]
  · rw [Core.askPart_gen he hk hf hon hrow (by rwa [← e.genCame_iff, Bool.not_eq_true] at hnot)]

/-- MCLR_ROW_WRITE on a row that is due (R188). -/
theorem mclrRowWrite_clears {s : State} {t : Nat} {e : MExec} (h : rowDue (s.coreAt t) .mclr e s.cycle) :
    ∃ u, exec (.mclrRowWrite t) s = .next u ∧ u.cur = t ∧
      (∀ i < 16, ∀ j < 16, elem u.core (accOf e.cmd.ops) i j = if i = e.row then 0 else elem (s.coreAt t) (accOf e.cmd.ops) i j) ∧
      rowDone e u.core.mat.exec 0 (s.coreAt t) u.core ∧ u.core.spad = (s.coreAt t).spad := by
  have hrun : exec (.mclrRowWrite t) s = .next ((s.at t).setCore ((s.coreAt t).mclrRow s.cycle)) := rfl
  refine ⟨_, hrun, rfl, ?_⟩
  rw [State.setCore_core, Core.mclrRow_clears h]
  refine ⟨fun i hi j hj => ?_, Core.rowDone_nextRow .., by simp⟩
  rw [elem, Core.nextRow_accs]
  exact Core.elem_setAccRow_any _ _ _ hi hj _

/-- Settles O32: each clause by the lemma about its row (R185 to R188, R210). -/
theorem matrixRows : Obligations.MatrixRows := by
  unfold Obligations.MatrixRows
  refine ⟨?_, ?_, ?_, ?_, ?_, ?_⟩
  · intro s t e c n a h hk hs
    exact mepiRowWrite_asks h hk hs
  · intro s t e w c data h hk ho ha hf hfin hc hr
    obtain ⟨u, p, hrun, hcur, hnet, hp, hepi⟩ := msendRowSend_leaves h hk ho ha hf hfin hc hr
    have hoff : e.cmd.mdata + 16 * e.row * partSize e.cmd.sfmt = (e.cmd.stg.getD 4 0).toNat / 2 ^ 32 % 2 ^ 20 + 256 * e.row := by
      have hsize : partSize e.cmd.sfmt = 16 := if_pos hf
      rw [Cmd.mdata, field_toNat, hsize, Cmd.reg]
      omega
    have haw : e.cmd.awo = (e.cmd.stg.getD 4 0).toNat % 2 ^ 20 := by
      rw [Cmd.awo, field_toNat, pow_zero, Nat.div_one, Cmd.reg]
    exact ⟨u, p, hrun, hcur, hnet, hp.kind, hp.src, hp.dst, hp.off.trans hoff, hp.awv, hp.aw.trans haw, hp.expect, hp.data, hepi⟩
  · intro c e n he hf hrow ho hx
    rw [Core.endEpi_retires n he hf hrow ho hx]
    exact ⟨rfl, rfl, rfl⟩
  · intro s t e c a n fl h hs hgot hfin
    exact mredRowAdd_adds h hs hgot hfin
  · intro s t e c h hrow hnew
    exact mredRowAdd_asks h hrow hnew
  · intro s t e c h
    exact mclrRowWrite_clears h

end Sys2Proof.Machine
end

section
/-! Copies: their start, their chunks and their end (O33, R191 to R193, R196, R210). -/

namespace Sys2Proof.Machine

open Sys2Proof.Claims

/-! ### Dispatch (R191) -/

/-- A copy that passes its checks and whose route, where it has one, reaches a tile starts. -/
theorem State.copyDispatch_starts {s : State} {k : Cmd} {rest : List Cmd} (hq : s.core.cpy.queue = k :: rest) (hx : s.core.cpy.exec = none)
    (hon : s.core.engineOn = true) (hs : s.core.cpy.stopped = false) (hk : s.core.qHeld 2 k.ord = false)
    (hl : k.drawerSide = true → s.core.qHeld 0 k.ord = false) (hcfg : k.configures = false) (hc : s.core.copyCheck k = none)
    (hr : (k.kind = .kput ∨ k.kind = .kloc) → s.reaches (entrySegs (s.core.routeEntry k.kch)) = true) :
    s.copyDispatch = s.setCore { s.core with cpy := { s.core.cpy with queue := rest, exec := some (Claims.copying s.core k) } } := by
  have hside : (k.drawerSide && s.core.qHeld 0 k.ord) = false := by
    cases h : k.drawerSide with
    | false => rfl
    | true => rw [hl h, Bool.and_false]
  have hreach : ((k.kind == .kput || k.kind == .kloc) && !s.reaches (entrySegs (s.core.routeEntry k.kch))) = false := by
    by_cases h : k.kind = .kput ∨ k.kind = .kloc
    · rw [hr h, Bool.not_true, Bool.and_false]
    · simp [not_or.1 h]
  simp only [State.copyDispatch, hq, hx, hon, hs, hk, hside, hcfg, hc, hreach, Bool.not_true, Bool.or_self, Bool.false_eq_true, if_false]
  rfl

/-! ### The copy in execution changed -/

/-- The core with another copy in execution. -/
def Core.setCopy (c : Core) (e : KExec) : Core := { c with cpy := { c.cpy with exec := some e } }

theorem State.setCopy_eq {s : State} {id : CoreId} {e : KExec} (h : (s.coreAt id).cpy.exec = some e) (g : KExec → KExec) :
    s.setCopy id g = s.putCore id ((s.coreAt id).setCopy (g e)) := by
  rw [State.setCopy, h]
  rfl

theorem Core.setCopy_self {c : Core} {e : KExec} (h : c.cpy.exec = some e) : c.setCopy e = c := by
  rw [Core.setCopy, ← h]

/-- A copy changed behind another change of its core. -/
theorem State.setCopy_putCore {s : State} {id : CoreId} {c : Core} {e : KExec} (h : c.cpy.exec = some e) (g : KExec → KExec) :
    (s.putCore id c).setCopy id g = s.putCore id (c.setCopy (g e)) := by
  rw [State.setCopy_eq (by rwa [State.putCore_coreAt]), State.putCore_coreAt, State.putCore_putCore]

/-! ### Issue of a chunk (R192) -/

/-- The first chunk of a local copy none of whose chunks is on its way may issue. -/
theorem Core.nextChunk_first {c : Core} {e : KExec} (hk : e.cmd.kind = .kcpy) (hd : e.cmd.dd = false) (hnone : e.chunks = [])
    (hn : e.next < e.cmd.chunkCount) : c.nextChunk e = some e.next := by
  simp [Core.nextChunk, hk, hd, hnone, List.range_succ_eq_map, hn]

/-- A copy between local places has no drawer side (R127). -/
theorem Cmd.drawerSide_local {k : Cmd} (hs : k.sd = false) (hd : k.dd = false) : k.drawerSide = false := by
  have h4 : (k.stg.getD 6 0).getLsbD 4 = false := hs
  have h9 : (k.stg.getD 6 0).getLsbD 9 = false := hd
  simp only [Cmd.drawerSide, h4, h9, Bool.or_self, Bool.and_false]

/-- A local chunk asks for its bytes through port 3 (R192, R210). -/
theorem State.issueChunk_local {s : State} {e : KExec} {n : Nat} (hk : e.cmd.kind = .kcpy)
    (hs : e.cmd.sd = false) (hsound : sound s.core (e.cmd.srcOf n).toNat (e.cmd.chunkLen n)) :
    s.issueChunk e n = (s.setCore (s.core.beginRead (.chunkRead n) 3 (e.cmd.srcOf n).toNat (e.cmd.chunkLen n))).markChunk s.cur n .flying := by
  have hreads : e.reads n = (e.cmd.srcOf n, e.cmd.chunkLen n) := by
    simp [KExec.reads, hk]
  have hlocal : e.cmd.localSource = true := by
    simp [Cmd.localSource, Cmd.hasSource, hk, hs]
  have hloc : (e.cmd.kind == .kloc) = false := by
    rw [hk]
    rfl
  simp only [State.issueChunk, hreads, hlocal, hloc, find?_poison_of_sound hsound, Bool.false_eq_true, if_false, if_true]

/-- CHUNK_ISSUE on a local copy none of whose chunks is on its way (R192). -/
theorem State.chunkIssue_local {s : State} {e : KExec} (he : s.core.cpy.exec = some e) (hk : e.cmd.kind = .kcpy) (hs : e.cmd.sd = false)
    (hd : e.cmd.dd = false) (hnone : e.chunks = []) (hn : e.next < e.cmd.chunkCount) (hon : s.core.engineOn = true)
    (hstop : s.core.cpy.stopped = false) (hheld : e.held = false) (hf : e.failed = none)
    (hsound : sound s.core (e.cmd.srcOf e.next).toNat (e.cmd.chunkLen e.next)) :
    s.chunkIssue = s.setCore ((s.core.beginRead (.chunkRead e.next) 3 (e.cmd.srcOf e.next).toNat (e.cmd.chunkLen e.next)).setCopy
      { e with chunks := [(e.next, .flying)] }) := by
  have hclear : s.classClear s.cur e = true := by
    rw [State.classClear, Cmd.drawerSide_local hs hd]
    rfl
  have hissue : s.chunkIssue = s.issueChunk e e.next := by
    simp only [State.chunkIssue, he, hon, hstop, hheld, hf, hclear, Core.nextChunk_first hk hd hnone hn, Option.isSome_none, Bool.not_true,
      Bool.or_self, Bool.false_eq_true, if_false]
  have he' : (s.core.beginRead (.chunkRead e.next) 3 (e.cmd.srcOf e.next).toNat (e.cmd.chunkLen e.next)).cpy.exec = some e := he
  rw [hissue, State.issueChunk_local hk hs hsound, State.markChunk, State.setCore, State.setCopy_putCore he', hnone]
  rfl

/-! ### A chunk goes on (R192, R210) -/

/-- What a chunk writes to a place in the local scratchpad. -/
theorem Core.chunkBytes_local {c : Core} {k : Cmd} (hk : k.kind = .kcpy) (n : Nat) (bs : List (BitVec 8)) :
    c.chunkBytes k n bs = bytesAt (k.dstOf n).toNat bs := by
  simp [Core.chunkBytes, hk, bytesAt]

@[simp] theorem wordBytes_length (got : Tab Word) (a n : Nat) : (wordBytes got a n).length = n := by
  induction n generalizing a with
  | zero => rfl
  | succ n ih => rw [wordBytes, List.length_cons, ih]

/-- A write to a sound place meets no poison (R151). -/
theorem poisonWrite_of_sound {c : Core} {a : Nat} {bs : List (BitVec 8)} (h : sound c a bs.length) (sl : Slot) :
    poisonWrite c sl (((bytesAt a bs).map (fun p => p.1 / 8)).eraseDups) (bytesAt a bs) = none := by
  refine poisonWrite_none fun w hw hp => absurd ?_ (h w hp)
  simp only [bytesAt_eq, List.mem_eraseDups, List.mem_map, List.mem_range, exists_exists_and_eq_and] at hw
  obtain ⟨j, hj, rfl⟩ := hw
  omega

/-- A chunk whose bytes are read goes to the bank units of its destination (R192, R210). -/
theorem State.chunkComplete_read {s : State} {t n : Nat} {e : KExec} (he : (s.coreAt t).cpy.exec = some e) (hk : e.cmd.kind = .kcpy)
    (hd : e.cmd.dd = false) (hfly : e.chunks = [(n, .flying)]) (hdone : (s.coreAt t).xferDone (.chunkRead n) = true)
    (hsound : sound (s.coreAt t) (e.cmd.dstOf n).toNat (e.cmd.chunkLen n)) :
    s.chunkComplete t n = s.putCore t (((s.coreAt t).endXfer (.chunkRead n)).beginWrite (.chunkWrite n) 3
      (bytesAt (e.cmd.dstOf n).toNat ((s.coreAt t).xferBytes (.chunkRead n) (e.cmd.srcOf n).toNat (e.cmd.chunkLen n)))) := by
  obtain ⟨bs, hbs⟩ : ∃ bs, bs = (s.coreAt t).xferBytes (.chunkRead n) (e.cmd.srcOf n).toNat (e.cmd.chunkLen n) := ⟨_, rfl⟩
  have hlen : bs.length = e.cmd.chunkLen n := by
    rw [hbs]
    exact wordBytes_length ..
  have hreads : e.reads n = (e.cmd.srcOf n, e.cmd.chunkLen n) := by
    simp [KExec.reads, hk]
  have hgo : (Tab.get? e.chunks n != some .flying) = false := by
    simp [hfly, Tab.get?]
  have hput : (e.cmd.kind == .kput) = false := by
    rw [hk]
    rfl
  have hread : s.chunkComplete t n = (s.putCore t ((s.coreAt t).endXfer (.chunkRead n))).chunkRead t n bs := by
    simp only [State.chunkComplete, he, hgo, hdone, hreads, hput, ← hbs, Bool.false_eq_true, if_false, if_true]
  have hput : Tab.put e.chunks n .flying = e.chunks := by
    simp [hfly, Tab.put]
  have hclean : poisonWrite ((s.coreAt t).endXfer (.chunkRead n)) .k
      (((bytesAt (e.cmd.dstOf n).toNat bs).map (fun p => p.1 / 8)).eraseDups) (bytesAt (e.cmd.dstOf n).toNat bs) = none :=
    poisonWrite_of_sound (by rw [hlen]; exact hsound) .k
  have hdec : (e.cmd.kind == .kdec) = false := by
    rw [hk]
    rfl
  have he' : ((s.coreAt t).endXfer (.chunkRead n)).cpy.exec = some e := he
  rw [hread, State.chunkRead, State.putCore_coreAt]
  simp only [he', hdec, hd, Bool.false_eq_true, if_false]
  rw [State.setCopy_putCore he', hput, Core.setCopy_self he', State.chunkToLocal, State.putCore_coreAt, Core.chunkBytes_local hk, hclean]
  simp only [State.putCore_putCore, hbs]

/-! ### A chunk ends (R192, R196) -/

/-- A chunk complete with none behind it is the lowest no more. -/
theorem skipDone_one (n fuel : Nat) : skipDone (fuel + 2) n [(n, .complete)] = (n + 1, []) := by
  simp [skipDone, Tab.get?, Tab.del]

/-- A chunk that is written, and counts nowhere, is done (R192, R196). -/
theorem State.chunkComplete_written {s : State} {t n : Nat} {e : KExec} (he : (s.coreAt t).cpy.exec = some e)
    (hfly : e.chunks = [(n, .flying)]) (hnext : e.next = n) (hread : (s.coreAt t).xfersOf (.chunkRead n) = []) (hblocks : e.blocks = [])
    (hreqs : ∀ r ∈ s.reqs, ¬(r.core = t ∧ r.owner = .chunk n)) (hdone : (s.coreAt t).xferDone (.chunkWrite n) = true)
    (hcount : e.cmd.counts = false) :
    s.chunkComplete t n = s.putCore t (((s.coreAt t).endXfer (.chunkWrite n)).setCopy { e with next := n + 1, chunks := [] }).retireCopy := by
  have hgo : (Tab.get? e.chunks n != some .flying) = false := by
    simp [hfly, Tab.get?]
  have hnot : (s.coreAt t).xferDone (.chunkRead n) = false := by
    simp [Core.xferDone, hread]
  have hnone : s.reqs.all (fun r => !(r.core == t && r.owner == .chunk n)) = true := by
    simpa using fun r hr => not_and_or.1 (hreqs r hr)
  have he' : ((s.coreAt t).endXfer (.chunkWrite n)).cpy.exec = some e := he
  have hwritten : s.chunkComplete t n = (s.dropBlocks t n).chunkWritten t n := by
    simp only [State.chunkComplete, he, hgo, hnot, hdone, hnone, Bool.and_self, Bool.false_eq_true, if_false, if_true]
  have hdrop : s.dropBlocks t n = s.putCore t ((s.coreAt t).endXfer (.chunkWrite n)) := by
    have hsame : { e with blocks := Tab.del e.blocks n } = e := by
      rw [hblocks, Tab.del, List.filter_nil, ← hblocks]
    rw [State.dropBlocks, State.setCopy_putCore he', hsame, Core.setCopy_self he']
  have hskip : skipDone 9 e.next (Tab.put e.chunks n .complete) = (n + 1, []) := by
    simp [hfly, hnext, Tab.put, skipDone_one]
  rw [hwritten, hdrop, State.chunkWritten, State.putCore_coreAt]
  simp only [he', hcount, Bool.false_eq_true, if_false]
  rw [State.chunkDone, State.putCore_coreAt]
  simp only [he', hskip, State.putCore_putCore]
  rfl

section
variable {c : Core} {e : KExec} (he : c.cpy.exec = some e)
include he

/-- A copy with chunks left goes on. -/
theorem Core.retireCopy_goesOn (h : e.next ≠ e.cmd.chunkCount) : c.retireCopy = c := by
  simp only [Core.retireCopy, he, h, false_and, if_false]

/-- A copy all of whose chunks are done retires, and K falls (R20, R196). -/
theorem Core.retireCopy_retires (hk : e.cmd.kind = .kcpy) (h : e.next = e.cmd.chunkCount) (hf : e.failed = none)
    (hstop : c.cpy.stopped = false) :
    c.retireCopy = { c with cpy := { c.cpy with exec := none }, cnt := { c.cnt with k := c.cnt.k - 1 } } := by
  simp [Core.retireCopy, he, h, hf, hstop, Core.fillDone, hk]

end

/-! ### A read fault (R193) -/

/-- A copy whose lowest faulted chunk has none under way about it makes a record and is held (R193, R313, R314). -/
theorem State.chunkReadFault_holds {s : State} {t n ty lev : Nat} {en va : Word} {st : BitVec 16} {rest : Tab ChunkState} {e : KExec}
    (he : (s.coreAt t).cpy.exec = some e) (hch : e.chunks = (n, .faulted ty lev en va st) :: rest)
    (hrest : ∀ x ∈ rest, x.2 ≠ .flying ∧ x.2 ≠ .logged) (hheld : e.held = false) (hf : e.failed = none) :
    ∃ r, (s.chunkReadFault t).fbWait = s.fbWait ++ [r] ∧ r.vaddr = va ∧ r.type = ty ∧ r.source = 2 ∧ r.stamp = st ∧ r.chunk = n ∧
      r.opc = e.cmd.opc.toNat ∧ ((s.chunkReadFault t).coreAt t).cpy.exec = some { e with held := true } := by
  have hquiet : e.chunks.any (fun x => x.2 == .flying || x.2 == .logged) = false := by
    rw [hch, List.any_cons, List.any_eq_false.2 fun x hx => by simpa using hrest x hx]
    rfl
  have hfirst (f : Nat × ChunkState → Bool) (h : f (n, .faulted ty lev en va st) = true) :
      e.chunks.find? f = some (n, .faulted ty lev en va st) := by
    rw [hch, List.find?_cons_of_pos h]
  obtain ⟨u, hu⟩ : ∃ u, u = s.putCore t ((s.coreAt t).setCopy { e with held := true }) := ⟨_, rfl⟩
  have hcopy : u.coreAt t = (s.coreAt t).setCopy { e with held := true } := by rw [hu, State.putCore_coreAt]
  have hwait : u.fbWait = s.fbWait := by rw [hu, State.putCore_fbWait]
  simp only [State.chunkReadFault, he]
  rw [hfirst _ rfl]
  simp only [hheld, hf, hquiet, Option.isSome_none, Bool.or_self, Bool.false_eq_true, if_false, State.setCopy_eq he]
  rw [← hf, ← hu, hwait]
  exact ⟨_, rfl, rfl, rfl, rfl, rfl, rfl, rfl, congrArg (fun c => c.cpy.exec) hcopy⟩

/-- Settles O33: the start, the issue of a chunk, its two stages, its end and its read fault, each by the rule above for it. -/
theorem copyProgress : Obligations.CopyProgress := by
  unfold Obligations.CopyProgress
  refine ⟨?_, ?_, ?_, ?_, ?_⟩
  · intro s t k rest c hq hx hon hs hk hl hcfg hc hr
    exact congrArg Host.Outcome.next (State.copyDispatch_starts (s := s.at t) hq hx hon hs hk hl hcfg hc hr)
  · intro s t e c a he hk hs hd hnone hn hon hstop hheld hf hsound
    have hissue := State.chunkIssue_local (s := s.at t) he hk hs hd hnone hn hon hstop hheld hf hsound
    refine ⟨_, congrArg Host.Outcome.next hissue, rfl, ?_, ?_, ?_⟩
    · rw [State.setCore_core]
      rfl
    · rw [State.setCore_core]
      rfl
    · rw [State.setCore_core]
      rfl
  · intro s t n e c bs he hk hd hfly hdone hsound
    refine ⟨_, congrArg Host.Outcome.next (State.chunkComplete_read he hk hd hfly hdone hsound), ?_, ?_, ?_⟩
    · rw [State.putCore_coreAt]
      rfl
    · rw [State.putCore_coreAt]
      exact he
    · rw [State.putCore_coreAt]
      exact asksWrite_of_beginWrite rfl
  · intro s t n e c he hk hfly hnext hread hblocks hreqs hdone hcount hf hstop
    refine ⟨_, congrArg Host.Outcome.next (State.chunkComplete_written he hfly hnext hread hblocks hreqs hdone hcount), ?_, ?_, ?_⟩
    · rw [State.putCore_coreAt, Core.retireCopy_spad]
      rfl
    · intro hlt
      rw [State.putCore_coreAt, Core.retireCopy_goesOn (e := { e with next := n + 1, chunks := [] }) rfl (Nat.ne_of_lt hlt)]
      rfl
    · intro hlast
      rw [State.putCore_coreAt, Core.retireCopy_retires
        (c := ((s.coreAt t).endXfer (.chunkWrite n)).setCopy { e with next := n + 1, chunks := [] }) rfl hk hlast hf hstop]
      exact ⟨rfl, rfl⟩
  · intro s t n ty lev en va st rest e c he hch hrest hheld hf
    obtain ⟨r, h⟩ := State.chunkReadFault_holds he hch hrest hheld hf
    exact ⟨_, r, rfl, h⟩

end Sys2Proof.Machine
end

section
/-! The channel engine: sends, postings, triggered sends and the packets of a send (O34, R199 to R202, R228, R250). -/

namespace Sys2Proof.Machine

open Sys2Proof.Claims

/-! ### Dispatch (R199, R202) -/

/-- No fired send, none taken up. -/
theorem State.takeFired_none {s : State} (h : s.core.chn.fired = []) : s.takeFired = s := by
  rw [State.takeFired, h]
  cases s.core.chn.exec <;> rfl

/-- A send in progress keeps a fired one waiting. -/
theorem State.takeFired_busy {s : State} {e : NExec} (h : s.core.chn.exec = some e) : s.takeFired = s := by
  rw [State.takeFired, h]

/-- Taking the head off leaves the rest of an N queue that is not held. -/
theorem Core.popN_eq {c : Core} {k : Cmd} {rest : List Cmd} (hq : c.chn.queue = k :: rest) (hheld : c.chn.held = false) :
    c.popN = { c with chn := { c.chn with queue := rest } } := by
  rw [Core.popN, hq, ← hheld]
  rfl

/-- An idle N engine dispatches its head. -/
theorem State.channelDispatch_idle {s : State} {k : Cmd} {rest : List Cmd} (hq : s.core.chn.queue = k :: rest)
    (hon : s.core.engineOn = true) (hs : s.core.chn.stopped = false) (hheld : s.core.chn.held = false) (hx : s.core.chn.exec = none)
    (hw : s.core.chn.waiting = none) (hf : s.core.chn.fired = []) (hord : s.core.qHeld 1 k.ord = false) :
    s.channelDispatch = s.dispatchN k := by
  simp only [State.channelDispatch, State.takeFired_none hf, hq, hon, hs, hheld, hx, hw, hord, Option.isSome_none, Bool.not_true,
    Bool.or_self, Bool.false_eq_true, if_false]

section
variable {s : State} {k : Cmd}

/-- `nsend` on a route that reaches a tile starts its send (R200). -/
theorem State.dispatchN_nsend (hk : k.kind = .nsend) (hc : s.core.sendCheck k k.nbytes k.nxOn = none)
    (hr : s.reaches (entrySegs (s.core.routeEntry k.nch)) = true) :
    s.dispatchN k = s.setCore (s.core.popN.startSend k k.laddr k.roff (entrySegs (s.core.routeEntry k.nch))
      (entryDch (s.core.routeEntry k.nch)) none) := by
  simp only [State.dispatchN, hk, hc, State.aimRoute, hr, if_true]

/-- `npost` sets the posting of its channel (R201). -/
theorem State.dispatchN_npost (hk : k.kind = .npost) (hn : k.nbytes ≠ 0) (hc : s.core.sendCheck k k.nbytes true = none) :
    s.dispatchN k = s.setCore { s.core.popN with chn := { s.core.popN.chn with
      posts := Tab.put s.core.chn.posts k.nch { base := k.laddr, bytes := k.nbytes, aw := k.nxAw } } } := by
  simp only [State.dispatchN, hk, hc, if_neg hn]

/-- `npost` of no bytes clears the posting of its channel (R201). -/
theorem State.dispatchN_npost_clear (hk : k.kind = .npost) (hn : k.nbytes = 0) (ha : k.laddr % 8 = 0) :
    s.dispatchN k = s.setCore { s.core.popN with chn := { s.core.popN.chn with posts := Tab.del s.core.chn.posts k.nch } } := by
  simp only [State.dispatchN, hk, if_pos hn, ha, ne_eq, not_true_eq_false, if_false]

/-- `nsendt` on a channel without an armed send fires at once or is armed (R202). -/
theorem State.dispatchN_nsendt (hk : k.kind = .nsendt) (hc : s.core.sendCheck k k.nbytes k.nxOn = none)
    (hr : s.reaches (entrySegs (s.core.routeEntry k.nch)) = true) (ha : ∀ x ∈ s.core.chn.armed, x.nch ≠ k.nch) :
    s.dispatchN k = s.setCore (if s.core.triggered k = true then
        { s.core.popN with chn := { s.core.popN.chn with fired := s.core.popN.chn.fired ++ [k] } }
      else ({ s.core.popN with chn := { s.core.popN.chn with armed := s.core.popN.chn.armed ++ [k] } } : Core).askTrigger k) := by
  have hnone : s.core.chn.armed.any (fun x => x.nch == k.nch) = false := by
    simpa using ha
  simp only [State.dispatchN, hk, hc, hr, hnone, Bool.not_true, Bool.false_eq_true, if_false]
  split <;> rfl

end

/-! ### Armed sends (R202, R239) -/

/-- What the firing cycle does with the read of one armed send's trigger word. -/
def Core.fireRead (c d : Core) (k : Cmd) : Core :=
  if (c.trigger k).2 = true then d.endXfer (.trigger k.ord)
  else if (c.trigger k).1 = true then (d.endXfer (.trigger k.ord)).askTrigger k
  else if (c.xfersOf (.trigger k.ord)).isEmpty = true then d.askTrigger k
  else d

theorem Core.fire_on {c : Core} (h : c.engineOn = true) : c.fire = { c.chn.armed.foldl c.fireRead c with
    chn := { (c.chn.armed.foldl c.fireRead c).chn with
      fired := c.chn.fired ++ c.chn.armed.filter (fun k => (c.trigger k).2)
      armed := c.chn.armed.filter (fun k => !(c.trigger k).2) } } := by
  rw [Core.fire, h]
  rfl

theorem Core.fireRead_chn (c d : Core) (k : Cmd) : (c.fireRead d k).chn = d.chn := by
  unfold Core.fireRead
  (repeat' split) <;> rfl

theorem Core.fireRead_spad (c d : Core) (k : Cmd) : (c.fireRead d k).spad = d.spad := by
  unfold Core.fireRead
  (repeat' split) <;> rfl

/-- The reads of the trigger words change neither the engine's lists nor the scratchpad. -/
theorem Core.foldl_fireRead (c : Core) (ks : List Cmd) (d : Core) :
    (ks.foldl c.fireRead d).chn = d.chn ∧ (ks.foldl c.fireRead d).spad = d.spad := by
  induction ks generalizing d with
  | nil => exact ⟨rfl, rfl⟩
  | cons k ks ih =>
    obtain ⟨hchn, hspad⟩ := ih (c.fireRead d k)
    exact ⟨hchn.trans (Core.fireRead_chn c d k), hspad.trans (Core.fireRead_spad c d k)⟩

/-- An armed send's condition: its read has been served, and its generation had come. -/
theorem Core.trigger_holds (c : Core) (k : Cmd) : (c.trigger k).2 = (c.xferDone (.trigger k.ord) && Claims.came c k) := rfl

section
variable {c : Core} {k : Cmd} (hon : c.engineOn = true) (ha : c.chn.armed = [k])
include hon ha

/-- The one armed send fires when its generation has come. -/
theorem Core.fire_came (h : (c.trigger k).2 = true) :
    c.fire = { c.endXfer (.trigger k.ord) with chn := { c.chn with fired := c.chn.fired ++ [k], armed := [] } } := by
  simp [Core.fire_on hon, ha, Core.fireRead, h, Core.endXfer]

/-- Otherwise its chain of reads goes on from `d`. -/
theorem Core.fire_waits {d : Core} (h : (c.trigger k).2 = false) (hd : c.fireRead c k = d) : c.fire = d := by
  have hchn : d.chn = c.chn := by rw [← hd, Core.fireRead_chn]
  rw [Core.fire_on hon, ha, List.foldl_cons, List.foldl_nil, hd, List.filter_cons_of_neg (by simp [h]), List.filter_nil,
    List.append_nil, List.filter_cons_of_pos (by simp [h]), List.filter_nil, ← ha, ← hchn]

end

/-! ### Packets of a send (R200, R228, R233) -/

theorem State.sendPush_none {s : State} (h : s.core.chn.waiting = none) : s.sendPush = s := by
  rw [State.sendPush, h]

theorem State.sendAtomic_none {s : State} (h : ∀ a ∈ s.core.dacc, a.isAtomic = false) : s.sendAtomic = none := by
  have hfind : s.core.dacc.find? (fun a => a.isAtomic && a.st == .queued && s.canLeave s.cur a) = none :=
    List.find?_eq_none.2 fun a ha => by simp [h a ha]
  rw [State.sendAtomic, hfind]

/-- A send between two packets goes on to its next packet when no other message is in the way. -/
theorem State.packetSend_next {s : State} {e : NExec} (hw : s.core.chn.waiting = none) (he : s.core.chn.exec = some e)
    (hp : e.pkt = none) (ha : ∀ a ∈ s.core.dacc, a.isAtomic = false) : s.packetSend = s.sendPacket := by
  simp only [State.packetSend, State.sendPush_none hw, he, hp, State.sendAtomic_none ha, State.takeFired_busy he, Option.isSome_none,
    Bool.false_eq_true, if_false]

/-- The letter of a send's next packet (R228, R229). -/
def NExec.letter (e : NExec) : Letter :=
  { kind := 0, sch := e.cmd.nch, dch := e.dch, off := e.roff + 1024 * e.next, aw := 0, awv := false, len := e.size
    data := [], slot := .n, ord := e.cmd.ord, opc := e.cmd.opc, index := e.next, op := .deposit, expect := e.expect }

/-- The next packet's header leaves, and its first words are asked for (R200). -/
theorem State.sendPacket_header {s : State} {e : NExec} (he : s.core.chn.exec = some e) (hp : e.pkt = none)
    (hs : s.core.chn.stopped = false) (hon : s.core.engineOn = true) (hr : s.reaches e.segs = true)
    (hsound : sound s.core (e.src + 1024 * e.next) e.size) (hcr : s.hasCredit e.cmd.nch (dataFlits e.size + 1) = true) :
    s.sendPacket = ((s.launchPacket e.letter e.segs true).setSend { e with pkt := some s.serial, flit := 0 }).askFlit e 0 := by
  have hclean : (wordsOf (e.flitAt 0).1 e.size).find? s.core.poison.contains = none := find?_poison_of_sound hsound
  simp only [State.sendPacket, he, hp, hs, hon, hr, hclean, hcr, Option.isSome_none, Bool.not_true, Bool.or_self, Bool.false_eq_true,
    if_false]
  rfl

section
variable {s : State} {e : NExec} {id : Nat} (hw : s.core.chn.waiting = none) (he : s.core.chn.exec = some e) (hp : e.pkt = some id)
include hw he hp

/-- A packet under way goes on. -/
theorem State.packetSend_flit (h : ∃ e', (s.sendFlit e id).core.chn.exec = some e' ∧ e'.pkt.isSome = true) :
    s.packetSend = s.sendFlit e id := by
  obtain ⟨e', he', hp'⟩ := h
  simp only [State.packetSend, State.sendPush_none hw, he, hp, he', hp', if_true]

/-- Behind a send's last packet an engine with nothing else to send stands still. -/
theorem State.packetSend_last (h : (s.sendFlit e id).core.chn.exec = none) (hf : (s.sendFlit e id).core.chn.fired = [])
    (ha : ∀ a ∈ (s.sendFlit e id).core.dacc, a.isAtomic = false) : s.packetSend = s.sendFlit e id := by
  have hidle : (s.sendFlit e id).sendPacket = s.sendFlit e id := by rw [State.sendPacket, h]
  simp only [State.packetSend, State.sendPush_none hw, he, hp, h, State.sendAtomic_none ha, State.takeFired_none hf, hidle,
    Bool.false_eq_true, if_false]

end

/-- A changed send is the one in execution; nothing else of the core differs. -/
theorem State.setSend_core (s : State) (e : NExec) :
    (s.setSend e).core = { s.core with chn := { s.core.chn with exec := some e } } := by
  rw [State.setSend, State.setCore_core]

theorem State.askFlit_core (s : State) (e : NExec) (k : Nat) :
    (s.askFlit e k).core = s.core.beginRead .flit 4 (e.flitAt k).1 (e.flitAt k).2 := by
  rw [State.askFlit, State.setCore_core]

/-- A data flit whose words have been read enters the router (R200). -/
theorem State.sendFlit_enters {s : State} {e : NExec} {id : Nat} (hlt : e.flit < dataFlits e.size) (hdone : s.core.xferDone .flit = true) :
    (s.sendFlit e id).cur = s.cur ∧
      (s.sendFlit e id).net = s.net.map (fun p => if p.id = id then { p with
        data := p.data ++ s.core.xferBytes .flit (e.flitAt e.flit).1 (e.flitAt e.flit).2, sent := p.sent + 1 } else p) ∧
      (s.sendFlit e id).core.chn.exec = some { e with flit := e.flit + 1 } ∧ (s.sendFlit e id).core.spad = s.core.spad := by
  obtain ⟨t, ht⟩ : ∃ t, t = (s.setCore (s.core.endXfer .flit)).setSend { e with flit := e.flit + 1 } := ⟨_, rfl⟩
  have hexec : t.core.chn.exec = some { e with flit := e.flit + 1 } := by rw [ht, State.setSend_core]
  have hspad : t.core.spad = s.core.spad := by
    rw [ht, State.setSend_core, State.setCore_core]
    rfl
  have hnet : t.net = s.net := by rw [ht]; rfl
  have hcur : t.cur = s.cur := by rw [ht]; rfl
  simp only [State.sendFlit, if_neg (Nat.ne_of_lt hlt), hdone, Bool.not_true, Bool.false_eq_true, if_false, ← ht, hnet]
  split
  · refine ⟨hcur, rfl, ?_, ?_⟩ <;> rw [State.askFlit_core]
    · exact hexec
    · exact hspad
  · exact ⟨hcur, rfl, hexec, hspad⟩

/-- The release word's count of a packet that is gone (R236). -/
def State.released (s : State) (e : NExec) : State :=
  if e.cmd.releases = true then s.addArrival s.cur e.cmd.nxAw e.size s.cur e.cmd.ord .n none none else s

/-- The count changes no more of the core than its accesses. -/
theorem State.released_core (s : State) (e : NExec) : ∃ xs, (s.released e).core = { s.core with xfers := xs } := by
  unfold State.released
  split
  · exact ⟨_, State.putCore_coreAt ..⟩
  · exact ⟨_, rfl⟩

@[simp] theorem State.released_cur (s : State) (e : NExec) : (s.released e).cur = s.cur := by
  unfold State.released
  split <;> rfl

theorem State.released_arrivals {s : State} {e : NExec} (h : e.cmd.releases = true) :
    ∃ x ∈ (s.released e).arrivals, x.core = s.cur ∧ x.aw = e.cmd.nxAw ∧ x.bytes = e.size := by
  rw [State.released, if_pos h]
  exact ⟨_, List.mem_append_right _ (List.mem_singleton_self _), rfl, rfl, rfl⟩

/-- Behind the last flit of its last packet a send retires (R20, R200). -/
theorem State.sendFlit_last {s : State} {e : NExec} {id : Nat} (hn : e.flit = dataFlits e.size) (hlast : e.cmd.nbytes ≤ 1024 * (e.next + 1)) :
    s.sendFlit e id = (s.released e).setCore
      ({ (s.released e).core with chn := { (s.released e).core.chn with exec := none } } : Core).lowerN := by
  simp only [State.sendFlit, if_pos hn, if_pos hlast]
  rfl

/-- Settles O34: dispatch by kind, the firing of armed sends, and a send's header, flits and end, each by the rule above for it. -/
theorem channelProgress : Obligations.ChannelProgress := by
  unfold Obligations.ChannelProgress
  refine ⟨?_, ?_, ?_, ?_, ?_⟩
  · intro s t k rest c hq hon hs hheld hx hw hf hord
    have hidle : exec (.channelDispatch t) s = .next ((s.at t).dispatchN k) :=
      congrArg Host.Outcome.next (State.channelDispatch_idle (s := s.at t) hq hon hs hheld hx hw hf hord)
    have hpop : (s.at t).core.popN = { c with chn := { c.chn with queue := rest } } := Core.popN_eq (c := c) hq hheld
    rw [hidle]
    refine ⟨?_, ?_, ?_, ?_⟩
    · intro hk hc hr
      rw [State.dispatchN_nsend (s := s.at t) hk hc hr, hpop]
      rfl
    · intro hk hn hc
      rw [State.dispatchN_npost (s := s.at t) hk hn hc, hpop]
      rfl
    · intro hk hn ha
      rw [State.dispatchN_npost_clear (s := s.at t) hk hn ha, hpop]
      rfl
    · intro hk hc hr ha
      have hnow : (s.at t).core.triggered k = decide ((BitVec.ofNat 32 (c.spad.readN (k.taw + 8) 4) - k.tgen).toNat < 2 ^ 31) := rfl
      rw [State.dispatchN_nsendt (s := s.at t) hk hc hr ha, hpop, hnow]
      simp only [decide_eq_true_eq, hf, List.nil_append]
      rfl
  · intro s t c hon
    have hfire : (s.at t).core.fire = _ := Core.fire_on (c := c) hon
    obtain ⟨hchn, hspad⟩ := Core.foldl_fireRead c c.chn.armed c
    refine ⟨_, rfl, rfl, ?_, ?_⟩
    · rw [State.setCore_core, hfire]
      exact hspad
    · rw [State.setCore_core, hfire, hchn]
      rfl
  · intro s t k c d hon ha
    have hexec (u : Core) (h : c.fire = u) : exec (.triggeredSendFire t) s = .next ((s.at t).setCore u) :=
      congrArg (fun u => Host.Outcome.next ((s.at t).setCore u)) h
    refine ⟨?_, ?_, ?_⟩
    · intro hdone hcame
      exact hexec _ (Core.fire_came hon ha (by rw [Core.trigger_holds, hdone, hcame]; rfl))
    · intro hdone hcame
      have hholds : (c.trigger k).2 = false := by rw [Core.trigger_holds, hcame, Bool.and_false]
      have hserved : (c.trigger k).1 = true := hdone
      refine hexec _ (Core.fire_waits hon ha hholds ?_)
      rw [Core.fireRead, hholds, hserved]
      rfl
    · intro hdone hasks
      have hholds : (c.trigger k).2 = false := by rw [Core.trigger_holds, hdone, Bool.false_and]
      have hserved : (c.trigger k).1 = false := hdone
      refine hexec _ (Core.fire_waits hon ha hholds ?_)
      simp [Core.fireRead, hholds, hserved, hasks]
  · intro s t e w c n ha hw he hp hs hon hr hsound hcr
    have hroute : (s.at t).route (s.at t).cur e.segs = .tile w := by rwa [State.at_route]
    have hheader := (State.packetSend_next (s := s.at t) hw he hp ha).trans
      (State.sendPacket_header he hp hs hon (State.reaches_of_route hroute) hsound hcr)
    obtain ⟨p, hnet, hp⟩ := State.launchPacket_net (s := s.at t) (l := e.letter) true hroute
    have hcore := State.launchPacket_core (s := s.at t) (l := e.letter) hroute
    refine ⟨_, p, congrArg Host.Outcome.next hheader, ?_, hnet, hp.kind, hp.src, hp.dst, hp.sch, hp.dch, hp.off, hp.len, hp.data, hp.sent,
      hp.flits, hp.due, hp.fs, hp.credit, ?_, ?_, ?_⟩
    · exact State.launchPacket_cur ..
    · rw [State.askFlit_core, State.setSend_core, hcore]
      exact Tab.getD_put_same ..
    · rw [State.askFlit_core, State.setSend_core, hp.id]
      rfl
    · rw [State.askFlit_core, State.setSend_core, hcore]
      rfl
  · intro s t id e c n bs hw he hp hfrozen
    refine ⟨?_, ?_⟩
    · intro hlt hdone
      obtain ⟨hcur, hnet, hx, hspad⟩ := State.sendFlit_enters (s := s.at t) (id := id) hlt hdone
      exact ⟨_, congrArg Host.Outcome.next (State.packetSend_flit (s := s.at t) hw he hp ⟨_, hx, by rw [hp]; rfl⟩), hcur, hnet, hx, hspad⟩
    · intro hn hlast hf ha
      have hend := State.sendFlit_last (s := s.at t) (id := id) hn hlast
      obtain ⟨xs, hxs⟩ := State.released_core (s.at t) e
      have hcore : ((s.at t).sendFlit e id).core =
          ({ c with xfers := xs, chn := { c.chn with exec := none } } : Core).lowerN := by
        rw [hend, State.setCore_core, hxs]
        rfl
      refine ⟨_, congrArg Host.Outcome.next (State.packetSend_last (s := s.at t) hw he hp (by rw [hcore]; rfl) (by rw [hcore]; exact hf)
        (by rw [hcore]; exact ha)), ?_, by rw [hcore]; rfl, by rw [hcore]; rfl, ?_⟩
      · rw [hend]
        exact State.released_cur ..
      · intro hrel
        rw [hend]
        exact State.released_arrivals hrel

end Sys2Proof.Machine
end

section
/-! Packets at their tile: deposits, arrivals and credit (O35, R200, R201, R210, R228, R233 to R239, R355). -/

namespace Sys2Proof.Machine

open Sys2Proof.Claims

/-! ### The arrival word (R237, R238) -/

theorem Mem.writeN_eq (m : Mem) (a n x : Nat) : m.writeN a n x = (storeAt a n x).foldl (fun m p => m.write p.1 p.2) m := by
  induction n generalizing m a x with
  | zero => rfl
  | succ n ih => rw [Mem.writeN, ih, storeAt_succ, List.foldl_cons]

theorem Mem.read_writeN {m : Mem} (h : m.wf = true) (a n x b : Nat) :
    ((m.writeN a n x).read b).toNat = if a ≤ b ∧ b < a + n then x / 256 ^ (b - a) % 256 else (m.read b).toNat := by
  rw [Mem.writeN_eq, Mem.read_storeAt h]

theorem Mem.readN_congr {m m' : Mem} {a n : Nat} (h : ∀ i < n, (m'.read (a + i)).toNat = (m.read (a + i)).toNat) :
    m'.readN a n = m.readN a n := by
  induction n generalizing a with
  | zero => rfl
  | succ n ih =>
    have hrest : m'.readN (a + 1) n = m.readN (a + 1) n := ih fun i hi => by
      rw [Nat.add_assoc, Nat.add_comm 1 i]
      exact h (i + 1) (by omega)
    rw [Mem.readN, Mem.readN, hrest]
    exact congrArg (· + _) (h 0 (by omega))

/-- What a number's write leaves elsewhere. -/
theorem Mem.readN_writeN_other {m : Mem} (h : m.wf = true) {a n x b k : Nat} (hd : b + k ≤ a ∨ a + n ≤ b) :
    (m.writeN a n x).readN b k = m.readN b k :=
  Mem.readN_congr fun i hi => by rw [Mem.read_writeN h, if_neg (by omega)]

/-- A number written is read back. -/
theorem Mem.readN_writeN {m : Mem} (h : m.wf = true) (a n x : Nat) : (m.writeN a n x).readN a n = x % 256 ^ n :=
  Mem.readN_eq_mod fun i hi => by rw [Mem.read_writeN h, if_pos (by omega), Nat.add_sub_cancel_left]

theorem Mem.read_writeN_other {m : Mem} (h : m.wf = true) {a n x b : Nat} (hd : b < a ∨ a + n ≤ b) :
    (m.writeN a n x).read b = m.read b :=
  BitVec.eq_of_toNat_eq (by rw [Mem.read_writeN h, if_neg (by omega)])

theorem Mem.readN_write_other {m : Mem} (h : m.wf = true) {a b k : Nat} (v : BitVec 8) (hd : b + k ≤ a ∨ a < b) :
    (m.write a v).readN b k = m.readN b k :=
  Mem.readN_congr fun i hi => by rw [Mem.read_write _ _ _ h, if_neg (by omega)]

/-- The count of bytes, and the generation, that an arrival of `b` bytes leaves at `a`. -/
def arriveWords (m : Mem) (a b : Nat) : Mem :=
  let p := phases (m.readN a 4) (m.readN (a + 4) 4 + b)
  (m.writeN (a + 4) 4 (p.1 % 2 ^ 32)).writeN (a + 8) 4 ((m.readN (a + 8) 4 + p.2) % 2 ^ 32)

/-- An overrun is marked behind the two words (R238). -/
theorem arriveAt_eq (m : Mem) (a b : Nat) : arriveAt m a b =
    if 1 < (phases (m.readN a 4) (m.readN (a + 4) 4 + b)).2 then
      (arriveWords m a b).write (a + 12) ((arriveWords m a b).read (a + 12) ||| 1)
    else arriveWords m a b := rfl

section
variable {m : Mem} (h : m.wf = true) (a b : Nat)
include h

theorem arriveWords_wf : (arriveWords m a b).wf = true := Mem.wf_writeN _ _ _ (Mem.wf_writeN _ _ _ h)

theorem arriveWords_count :
    (arriveWords m a b).readN (a + 4) 4 = (phases (m.readN a 4) (m.readN (a + 4) 4 + b)).1 % 2 ^ 32 := by
  rw [arriveWords, Mem.readN_writeN_other (Mem.wf_writeN _ _ _ h) (by omega), Mem.readN_writeN h]
  exact Nat.mod_mod ..

theorem arriveWords_gen : (arriveWords m a b).readN (a + 8) 4 =
    (m.readN (a + 8) 4 + (phases (m.readN a 4) (m.readN (a + 4) 4 + b)).2) % 2 ^ 32 := by
  rw [arriveWords, Mem.readN_writeN (Mem.wf_writeN _ _ _ h)]
  exact Nat.mod_mod ..

theorem arriveWords_target : (arriveWords m a b).readN a 4 = m.readN a 4 := by
  rw [arriveWords, Mem.readN_writeN_other (Mem.wf_writeN _ _ _ h) (by omega), Mem.readN_writeN_other h (by omega)]

theorem arriveWords_read {x : Nat} (hx : x < a + 4 ∨ a + 12 ≤ x) : (arriveWords m a b).read x = m.read x := by
  rw [arriveWords, Mem.read_writeN_other (Mem.wf_writeN _ _ _ h) (by omega), Mem.read_writeN_other h (by omega)]

/-- The mark of an overrun leaves the numbers below it. -/
theorem arriveAt_readN {x : Nat} (hx : x + 4 ≤ a + 12) : (arriveAt m a b).readN x 4 = (arriveWords m a b).readN x 4 := by
  rw [arriveAt_eq]
  split
  · exact Mem.readN_write_other (arriveWords_wf h a b) _ (Or.inl hx)
  · rfl

theorem arriveAt_mark : (arriveAt m a b).read (a + 12) =
    if 1 < (phases (m.readN a 4) (m.readN (a + 4) 4 + b)).2 then m.read (a + 12) ||| 1 else m.read (a + 12) := by
  rw [arriveAt_eq, ← arriveWords_read h a b (x := a + 12) (by omega)]
  split
  · rw [Mem.read_write _ _ _ (arriveWords_wf h a b), if_pos rfl]
  · rfl

theorem arriveAt_keeps : keeps m (arriveAt m a b) a 16 := by
  intro x hx
  rw [arriveAt_eq, ← arriveWords_read h a b (x := x) (by omega)]
  split
  · rw [Mem.read_write _ _ _ (arriveWords_wf h a b), if_neg (by omega)]
  · rfl

end

theorem phases_sum (t n : Nat) : (phases t n).1 = if t = 0 then n else n % t := by
  unfold phases
  split <;> rfl

theorem phases_count (t n : Nat) : (phases t n).2 = if t = 0 then 0 else n / t := by
  unfold phases
  split <;> rfl

/-- An arrival that has been served leaves the network and counts (R238, R239). -/
theorem execArrival_served {s : State} {x : Arrival} (hx : s.arrivals.find? (fun y => y.id == x.id) = some x)
    (hdone : (s.coreAt x.core).xferDone (.arrival x.id) = true) (hchunk : x.chunk = none) :
    exec (.arrival x.id) s = .next (State.putCore { s with arrivals := s.arrivals.filter (fun y => y.id != x.id) } x.core
      { (s.coreAt x.core).endXfer (.arrival x.id) with spad := arriveAt (s.coreAt x.core).spad x.aw x.bytes }) := by
  show execArrival x.id s = _
  simp only [execArrival, hx, hdone, hchunk, Bool.not_true, Bool.false_eq_true, if_false]

/-! ### A packet comes in (R228, R235) -/

/-- A packet changed is found in its place. -/
theorem State.find?_putPacket {s : State} {p q : Packet} (h : s.net.find? (fun x => x.id == p.id) = some q) :
    (s.putPacket p).net.find? (fun x => x.id == p.id) = some p := by
  have hid : ((fun x : Packet => x.id == p.id) ∘ fun x => if x.id = p.id then p else x) = fun x => x.id == p.id := by
    funext x
    by_cases hx : x.id = p.id <;> simp [hx]
  have hq : q.id = p.id := by simpa using List.find?_some h
  rw [State.putPacket, List.find?_map, hid, h, Option.map_some, if_pos hq]

/-- The second of two changes of a packet stands. -/
theorem State.putPacket_putPacket {s : State} {p q : Packet} (h : q.id = p.id) : (s.putPacket p).putPacket q = s.putPacket q := by
  have hnet : (s.net.map (fun x => if x.id = p.id then p else x)).map (fun x => if x.id = q.id then q else x) =
      s.net.map (fun x => if x.id = q.id then q else x) := by
    rw [List.map_map]
    refine List.map_congr_left fun x _ => ?_
    by_cases hx : x.id = p.id <;> simp [hx, h]
  simp only [State.putPacket, hnet]

/-- A packet that has come whole has no flit to come. -/
theorem State.enterFlit_whole {s : State} {p : Packet} (h : p.arrived = p.flits) : s.enterFlit p = p := by
  simp [State.enterFlit, h]

/-- A core that takes a packet in is not frozen. -/
theorem Core.frozen_of_takes {c : Core} {p : Packet} (h : c.takes p = true) : c.frozen = false := by
  have hserves (h : c.serves = true) : c.frozen = false := by
    simp only [Core.serves, Bool.and_eq_true, Bool.not_eq_true'] at h
    exact h.1
  unfold Core.takes at h
  split at h
  · simpa using h
  · simpa using h
  · split at h
    · simpa using h
    · exact hserves h

/-- Deposits and read replies are not ordered by SEQ (R231). -/
theorem State.tookSeq_unordered {s : State} {p : Packet} (h : orderedKind p.kind = false) : s.tookSeq p = s := by
  rw [State.tookSeq, h]
  rfl

/-- Packet `p` taken in at `base`, counted at `aw`. -/
def Packet.takenAt (p : Packet) (base : Nat) (aw : Option Nat) : Packet := { p with place := .taken base aw }

/-- A packet that has come whole is taken in where its fate says (R235). -/
theorem State.comeIn_takes {s : State} {p : Packet} {base : Nat} {aw : Option Nat} (h : standing s p) (ho : orderedKind p.kind = false)
    (hf : s.fate p = .take base aw) : s.comeIn p = s.putPacket (p.takenAt base aw) := by
  obtain ⟨-, hplace, hwhole, hlen, -, -, htakes, hbefore, hseq, -⟩ := h
  have hcame : p.arrived ≠ 0 := by omega
  simp only [State.comeIn, hplace, htakes, Core.frozen_of_takes htakes, State.enterFlit_whole hwhole, hcame, State.takeIn, hbefore, hseq, hf,
    State.tookSeq_unordered ho, Bool.false_and, Bool.true_or, Bool.not_true, Bool.or_self, decide_false, Bool.false_eq_true, if_false]
  rfl

/-! ### What its fate is (R235, R322) -/

/-- A deposit that fits, whose arrival word fits, and that meets no poison is taken. -/
theorem depositFate_take {c : Core} {p : Packet} {base : Nat} (aw : Option Nat)
    (ha : p.kind = 1 → p.awv = true → p.aw + 16 ≤ c.spend) (hp : coversPoison c base p.len) :
    depositFate c p true base aw = .take base aw := by
  have hword : (decide (p.kind = 1) && p.awv && decide (c.spend < p.aw + 16)) = false := by
    by_cases hk : p.kind = 1 <;> cases hv : p.awv <;> simp [hk]
    exact ha hk hv
  simp only [depositFate, hword, poisonHit_of_covers hp, Bool.not_true, Bool.false_eq_true, if_false]

/-- A grant with W is all that a deposit needs (R322). -/
theorem grant_write {g : BitVec 2} (h : g.getLsbD 1 = true) : g &&& 2 = 2 := by
  revert g
  decide

/-- A reply goes to the place that its request named (R241). -/
theorem State.fate_reply {s : State} {p : Packet} (hk : p.kind = 4) : s.fate p = .take p.off (if p.awv then some p.aw else none) := by
  rw [State.fate, if_pos hk]

/-- A granted and welcome deposit is judged by its place alone. -/
theorem State.fate_welcome {s : State} {p : Packet} (hg : granted s p 1) (hw : welcome s p) (hk : p.kind = 0 ∨ p.kind = 1) :
    s.fate p = if p.kind = 0 then
        match Tab.get? (s.coreAt p.dst).chn.posts p.dch with
        | none => .waits
        | some q => depositFate (s.coreAt p.dst) p (decide (p.off + p.len ≤ q.bytes)) (q.base + p.off) (some q.aw)
      else depositFate (s.coreAt p.dst) p (decide (p.off + p.len ≤ (s.coreAt p.dst).spend)) p.off (if p.awv then some p.aw else none) := by
  obtain ⟨hbit, hhome⟩ := hg
  obtain ⟨⟨g, hgang, hstart⟩, hexp⟩ := hw
  have hneeds : p.needs = 2 := by
    rcases hk with hk | hk <;> simp [Packet.needs, hk]
  have hallow : ((s.grant p.dst p.ctx) &&& p.needs != p.needs) = false := by
    rw [hneeds, grant_write hbit]
    rfl
  have hnot4 : p.kind ≠ 4 := by omega
  simp only [State.fate, if_neg hnot4, hallow, hhome, hgang, hstart, hexp, Bool.or_self, Bool.not_true, Bool.false_eq_true, if_false]
  rcases hk with hk | hk <;> rw [hk] <;> rfl

section
variable {s : State} {p : Packet} (hg : granted s p 1) (hw : welcome s p)
include hg hw

/-- A posted deposit within its posting goes there (R201). -/
theorem State.fate_posted {q : Posting} (hk : p.kind = 0) (hq : Tab.get? (s.coreAt p.dst).chn.posts p.dch = some q)
    (hfits : p.off + p.len ≤ q.bytes) (hp : coversPoison (s.coreAt p.dst) (q.base + p.off) p.len) :
    s.fate p = .take (q.base + p.off) (some q.aw) := by
  rw [State.fate_welcome hg hw (Or.inl hk), if_pos hk, hq]
  dsimp only
  rw [decide_eq_true hfits]
  exact depositFate_take _ (fun h => by omega) hp

/-- An absolute deposit within the scratchpad goes to its offset (R200, R235). -/
theorem State.fate_absolute (hk : p.kind = 1) (ha : p.awv = true) (hfits : p.off + p.len ≤ (s.coreAt p.dst).spend)
    (haw : p.aw + 16 ≤ (s.coreAt p.dst).spend) (hp : coversPoison (s.coreAt p.dst) p.off p.len) :
    s.fate p = .take p.off (some p.aw) := by
  rw [State.fate_welcome hg hw (Or.inr hk), if_neg (by omega), decide_eq_true hfits, if_pos ha]
  exact depositFate_take _ (fun _ _ => haw) hp

end

/-! ### Its flits go to the bank units (R210, R228, R355) -/

/-- A packet with no access has none to end. -/
theorem Core.xfers_noneOf {c : Core} {n : Nat} (h : c.xfersOf (.packet n) = []) :
    c.xfers.filter (fun x => x.owner == .packet n && x.todo.isEmpty) = [] ∧
      c.xfers.filter (fun x => !(x.owner == .packet n && x.todo.isEmpty)) = c.xfers := by
  have hnone (x : Xfer) (hx : x ∈ c.xfers) : (x.owner == .packet n) = false := by
    simpa using List.filter_eq_nil_iff.1 h x hx
  exact ⟨List.filter_eq_nil_iff.2 fun x hx => by simp [hnone x hx], List.filter_eq_self.2 fun x hx => by simp [hnone x hx]⟩

/-- No credit goes back. -/
theorem State.returnFlits_zero (s : State) (p : Packet) : s.returnFlits p 0 = s := by
  simp [State.returnFlits]

/-- The packet with all its flits asked of the bank units. -/
def Packet.beganAll (p : Packet) : Packet := { p with begun := p.flits - 1 }

/-- The packet with all its flits written. -/
def Packet.wroteAll (p : Packet) : Packet := { p with done := p.flits - 1 }

/-- A packet that has its turn has all the flits that have come written (R355). -/
theorem State.moveFlits_turn {s : State} {p : Packet} {base : Nat} (hx : (s.coreAt p.dst).xfersOf (.packet p.id) = [])
    (hb : p.begun = 0) (hwhole : p.arrived = p.flits) (ht : s.channelTurn p = true) :
    s.moveFlits p base = (p.beganAll,
      (s.putCore p.dst (Claims.writing (s.coreAt p.dst) p p.bankPort base)).putPacket p.beganAll) := by
  obtain ⟨hfin, hleft⟩ := Core.xfers_noneOf hx
  have hcame : p.arrived - 1 = p.flits - 1 := by rw [hwhole]
  simp only [State.moveFlits, ht, hfin, hleft, hcame, hb, if_true, List.length_nil, List.length_map, List.length_range, Nat.sub_zero,
    Nat.add_zero, Nat.zero_add, List.foldl_map]
  exact congrArg (Prod.mk _) ((congrArg (State.returnFlits _ _) (Nat.sub_self p.returned)).trans (State.returnFlits_zero _ _))

/-- One whose turn it is not waits (R355). -/
theorem State.moveFlits_waits {s : State} {p : Packet} {base : Nat} (hx : (s.coreAt p.dst).xfersOf (.packet p.id) = [])
    (ht : s.channelTurn p = false) : s.moveFlits p base = (p, (s.putCore p.dst (s.coreAt p.dst)).putPacket p) := by
  obtain ⟨hfin, hleft⟩ := Core.xfers_noneOf hx
  simp only [State.moveFlits, ht, hfin, hleft, Bool.false_eq_true, if_false, List.length_nil, Nat.add_zero, List.foldl_nil, Nat.sub_self,
    State.returnFlits_zero]

/-- A packet's turn does not hang on its own place. -/
theorem State.channelTurn_takenAt (s : State) (p : Packet) (base : Nat) (aw : Option Nat) :
    (s.putPacket (p.takenAt base aw)).channelTurn (p.takenAt base aw) = s.channelTurn p := by
  have hnet : (s.net.map fun x => if x.id = p.id then p.takenAt base aw else x).all (fun q =>
        !(q.id != p.id && q.kind == 0 && q.dst == p.dst && q.dch == p.dch && q.here && q.arrived != 0 && decide (q.turn < p.turn))) =
      s.net.all (fun q =>
        !(q.id != p.id && q.kind == 0 && q.dst == p.dst && q.dch == p.dch && q.here && q.arrived != 0 && decide (q.turn < p.turn))) := by
    rw [List.all_map]
    refine List.all_congr rfl fun x => ?_
    by_cases hx : x.id = p.id <;> simp [hx, Packet.takenAt]
  exact congrArg (fun b => (p.kind != 0) || (b && _)) hnet

/-- A packet of its channel that came before it holds it (R355). -/
theorem State.channelTurn_held {s : State} {p x : Packet} (hk : p.kind = 0) (hx : x ∈ s.net) (hid : x.id ≠ p.id) (hxk : x.kind = 0)
    (hdst : x.dst = p.dst) (hdch : x.dch = p.dch) (hhere : x.here = true) (hcame : x.arrived ≠ 0) (hturn : x.turn < p.turn) :
    s.channelTurn p = false := by
  have hall : s.net.all (fun q =>
      !(q.id != p.id && q.kind == 0 && q.dst == p.dst && q.dch == p.dch && q.here && q.arrived != 0 && decide (q.turn < p.turn))) = false :=
    List.all_eq_false.2 ⟨x, hx, by simp [hid, hxk, hdst, hdch, hhere, hcame, hturn]⟩
  rw [State.channelTurn, hk, hall]
  rfl

/-! ### A cycle of a deposit (R200, R201, R228) -/

/-- The step of a packet that stands in the network at its number. -/
theorem exec_packetDeposit {s : State} {p : Packet} (hp : s.net.find? (fun q => q.id == p.id) = some p)
    (hk : p.kind = 0 ∨ p.kind = 1 ∨ p.kind = 4) : exec (.packetDeposit p.id) s = .next (s.depositPacket p.id) := by
  show execPacketDeposit p.id s = _
  rw [execPacketDeposit, hp]
  exact congrArg Host.Outcome.next (if_pos hk)

/-- A packet that is taken in at `base` has its flits moved. -/
theorem State.depositPacket_moves {s : State} {p q r : Packet} {u : State} {base : Nat} {aw : Option Nat}
    (hp : s.net.find? (fun x => x.id == p.id) = some p) (hid : q.id = p.id) (hin : s.comeIn p = s.putPacket q)
    (hplace : q.place = .taken base aw) (hfr : (s.coreAt q.dst).frozen = false)
    (hmove : (s.putPacket q).moveFlits q base = (r, u)) :
    s.depositPacket p.id = if r.done = r.nd then u.depositDone r aw else u := by
  have hq : (s.putPacket q).net.find? (fun x => x.id == p.id) = some q := by
    rw [← hid] at hp ⊢
    exact State.find?_putPacket hp
  have hfr' : ((s.putPacket q).coreAt q.dst).frozen = false := hfr
  simp only [State.depositPacket, hp, hin, hq, hplace, hfr', hmove, Bool.false_eq_true, if_false]

/-- Kinds that PACKET_DEPOSIT serves are not ordered by SEQ (R231). -/
theorem orderedKind_deposit {n : Nat} (h : n = 0 ∨ n = 1 ∨ n = 4) : orderedKind n = false := by
  rcases h with rfl | rfl | rfl <;> rfl

section
variable {s : State} {p : Packet} {base : Nat} {aw : Option Nat} (h : standing s p) (hk : p.kind = 0 ∨ p.kind = 1 ∨ p.kind = 4)
  (hf : s.fate p = .take base aw)
include h hk hf

/-- A packet that its target accepts, on a channel when it is its turn, begins to be written (R200, R201, R235). -/
theorem State.depositPacket_takenIn (ht : s.channelTurn p = true) : takenIn s (s.depositPacket p.id) p p.bankPort base aw := by
  have hin := State.comeIn_takes h (orderedKind_deposit hk) hf
  obtain ⟨hp, -, hwhole, hlen, hb, hd, htakes, -, -, hx⟩ := h
  have hmove := State.moveFlits_turn (s := s.putPacket (p.takenAt base aw)) (p := p.takenAt base aw) (base := base) hx hb hwhole
    ((State.channelTurn_takenAt s p base aw).trans ht)
  have hnot : p.done ≠ p.flits - 1 := by omega
  have hstep := (State.depositPacket_moves (q := p.takenAt base aw) hp rfl hin rfl (Core.frozen_of_takes htakes) hmove).trans (if_neg hnot)
  rw [hstep]
  refine ⟨State.putCore_coreAt .., ?_⟩
  exact congrArg State.net (State.putPacket_putPacket (s := s) (p := p.takenAt base aw) (q := (p.takenAt base aw).beganAll) rfl)

/-- On a channel whose turn is another packet's it is taken in and waits (R355). -/
theorem State.depositPacket_waits (ht : s.channelTurn p = false) :
    ((s.depositPacket p.id).coreAt p.dst).xfers = (s.coreAt p.dst).xfers ∧
      { p with place := .taken base aw } ∈ (s.depositPacket p.id).net := by
  have hin := State.comeIn_takes h (orderedKind_deposit hk) hf
  obtain ⟨hp, -, hwhole, hlen, hb, hd, htakes, -, -, hx⟩ := h
  have hmove := State.moveFlits_waits (s := s.putPacket (p.takenAt base aw)) (p := p.takenAt base aw) (base := base) hx
    ((State.channelTurn_takenAt s p base aw).trans ht)
  have hnot : p.done ≠ p.flits - 1 := by omega
  have hstep := (State.depositPacket_moves (q := p.takenAt base aw) hp rfl hin rfl (Core.frozen_of_takes htakes) hmove).trans (if_neg hnot)
  rw [hstep]
  have hnet := congrArg State.net
    (State.putPacket_putPacket (s := s.putCore p.dst (s.coreAt p.dst)) (p := p.takenAt base aw) (q := p.takenAt base aw) rfl)
  refine ⟨congrArg Core.xfers (State.putCore_coreAt (s.putPacket (p.takenAt base aw)) p.dst (s.coreAt p.dst)), ?_⟩
  exact hnet.symm ▸ List.mem_map.2 ⟨p, List.mem_of_find?_eq_some hp, if_pos rfl⟩

end

/-! ### A deposit that is written (R228, R233, R236) -/

/-- Flits that are all written, behind the last of which the packet's credit has all gone back. -/
theorem State.moveFlits_written {s : State} {p : Packet} {base : Nat} (hwhole : p.arrived = p.flits) (hb : p.begun = p.flits - 1)
    (htodo : ∀ x ∈ (s.coreAt p.dst).xfersOf (.packet p.id), x.todo = [])
    (hdone : p.done + ((s.coreAt p.dst).xfersOf (.packet p.id)).length = p.flits - 1) (hlen : 1 < p.flits) (hret : p.returned < p.flits) :
    s.moveFlits p base = (p.wroteAll,
      ((s.putCore p.dst ((s.coreAt p.dst).endXfer (.packet p.id))).putPacket p.wroteAll).returnFlits p
        (p.flits - p.returned)) := by
  have hfin : (s.coreAt p.dst).xfers.filter (fun x => x.owner == .packet p.id && x.todo.isEmpty) =
      (s.coreAt p.dst).xfersOf (.packet p.id) := by
    refine List.filter_congr fun x hx => ?_
    cases ho : x.owner == .packet p.id with
    | false => rfl
    | true => simp [htodo x (List.mem_filter.2 ⟨hx, ho⟩)]
  have hleft : (s.coreAt p.dst).xfers.filter (fun x => !(x.owner == .packet p.id && x.todo.isEmpty)) =
      ((s.coreAt p.dst).endXfer (.packet p.id)).xfers := by
    refine List.filter_congr fun x hx => ?_
    cases ho : x.owner == .packet p.id with
    | false => simp [bne, ho]
    | true => simp [bne, ho, htodo x (List.mem_filter.2 ⟨hx, ho⟩)]
  have hnone : p.arrived - 1 - p.begun = 0 := by omega
  have hall : p.wroteAll.returned = p.flits := by
    have hagain : p.again ≤ p.returned := Nat.le_max_left ..
    have hflits : p.flits - 1 ≠ 0 := by omega
    have hwrote : p.wroteAll.returned = max p.again (p.flits - 1 + 1) := congrArg (max p.again) (if_neg hflits)
    omega
  simp only [State.moveFlits, hfin, hleft, hnone, List.range_zero, List.map_nil, ite_self, List.length_nil, List.foldl_nil, Nat.add_zero,
    hdone]
  exact congrArg (fun n => (p.wroteAll, State.returnFlits _ p (n - p.returned))) hall

/-- A packet that leaves the network is gone from wherever it was changed. -/
theorem State.putPacket_gone (s : State) (p : Packet) :
    (s.putPacket p).net.filter (fun q => q.id != p.id) = s.net.filter (fun q => q.id != p.id) := by
  rw [State.putPacket, List.filter_map]
  have hid : ((fun q : Packet => q.id != p.id) ∘ fun q => if q.id = p.id then p else q) = fun q => q.id != p.id := by
    funext q
    by_cases hq : q.id = p.id <;> simp [hq]
  rw [hid]
  refine (List.map_congr_left fun q hq => if_neg ?_).trans (List.map_id _)
  simpa using (List.mem_filter.1 hq).2

@[simp] theorem State.returnFlits_coreAt (s : State) (p : Packet) (k t : Nat) : (s.returnFlits p k).coreAt t = s.coreAt t := by
  unfold State.returnFlits
  split <;> rfl

@[simp] theorem State.returnFlits_net (s : State) (p : Packet) (k : Nat) : (s.returnFlits p k).net = s.net := by
  unfold State.returnFlits
  split <;> rfl

/-- Credit on its way back (R233). -/
theorem State.returnFlits_credit {s : State} {p : Packet} {k : Nat} (hc : p.credit = true) (hk : k ≠ 0) :
    ∃ x ∈ (s.returnFlits p k).credits, x.core = p.src ∧ x.ch = p.sch ∧ x.flits = k ∧ x.due = s.cycle + p.back := by
  have hgo : (p.credit && k != 0) = true := by simp [hc, hk]
  rw [State.returnFlits, if_pos hgo]
  exact ⟨_, List.mem_append_right _ (List.mem_singleton_self _), rfl, rfl, rfl, rfl⟩

/-- A deposit written whole is counted, and leaves the network (R228, R236). -/
theorem State.depositDone_counts (s : State) (p : Packet) (aw : Nat) :
    ∃ x ∈ (s.depositDone p (some aw)).arrivals, x.core = p.dst ∧ x.aw = aw ∧ x.bytes = p.len ∧
      (s.depositDone p (some aw)).coreAt p.dst =
        ((s.coreAt p.dst).endXfer (.packet p.id)).beginXfer (.arrival x.id) 4 [] [pairWord (aw / 8)] true ∧
      (s.depositDone p (some aw)).net = s.net.filter (fun q => q.id != p.id) ∧ (s.depositDone p (some aw)).credits = s.credits := by
  refine ⟨_, List.mem_append_right _ (List.mem_singleton_self _), rfl, rfl, rfl, ?_, rfl, rfl⟩
  refine (State.putCore_coreAt ..).trans ?_
  exact congrArg (fun c => Core.beginXfer c _ 4 [] [pairWord (aw / 8)] true) (State.putCore_coreAt s p.dst _)

/-- A packet taken in before, that has come whole, stands as it is (R228). -/
theorem State.comeIn_taken {s : State} {p : Packet} {base : Nat} {aw : Option Nat} (hplace : p.place = .taken base aw)
    (hwhole : p.arrived = p.flits) (hfr : (s.coreAt p.dst).frozen = false) : s.comeIn p = s.putPacket p := by
  simp only [State.comeIn, hplace, hfr, State.enterFlit_whole hwhole, Bool.false_and, Bool.false_eq_true, if_false]

/-- The state in which all flits of a packet at its tile are written, and the packet still stands. -/
def State.wroteOut (s : State) (p : Packet) : State :=
  ((s.putPacket p).putCore p.dst ((s.coreAt p.dst).endXfer (.packet p.id))).putPacket p.wroteAll

theorem State.wroteOut_coreAt (s : State) (p : Packet) : (s.wroteOut p).coreAt p.dst = (s.coreAt p.dst).endXfer (.packet p.id) :=
  State.putCore_coreAt (s.putPacket p) ..

theorem State.wroteOut_net (s : State) (p : Packet) :
    (s.wroteOut p).net.filter (fun q => q.id != p.id) = s.net.filter (fun q => q.id != p.id) :=
  (State.putPacket_gone ((s.putPacket p).putCore p.dst ((s.coreAt p.dst).endXfer (.packet p.id))) p.wroteAll).trans
    (State.putPacket_gone s p)

/-- The cycle in which the last flits of a counted packet are written (R228, R233, R236). -/
theorem State.depositPacket_ends {s : State} {p : Packet} {a aw : Nat} (h : atTile s p a (some aw)) (hlen : 1 < p.flits)
    (hb : p.begun = p.flits - 1) (hret : p.returned < p.flits) (htodo : ∀ x ∈ (s.coreAt p.dst).xfersOf (.packet p.id), x.todo = [])
    (hdone : p.done + ((s.coreAt p.dst).xfersOf (.packet p.id)).length = p.flits - 1) :
    s.depositPacket p.id = ((s.wroteOut p).returnFlits p (p.flits - p.returned)).depositDone p.wroteAll (some aw) := by
  obtain ⟨hp, hplace, hwhole, hfr⟩ := h
  have hmove := State.moveFlits_written (s := s.putPacket p) (base := a) hwhole hb htodo hdone hlen hret
  exact (State.depositPacket_moves hp rfl (State.comeIn_taken hplace hwhole hfr) hplace hfr hmove).trans (if_pos rfl)

/-- The accesses of one owner that end are not another's. -/
theorem Core.xfersOf_endXfer_other {c : Core} {o o' : XferOwner} (h : o' ≠ o) : (c.endXfer o).xfersOf o' = c.xfersOf o' := by
  rw [Core.xfersOf, Core.endXfer, List.filter_filter]
  refine List.filter_congr fun x _ => ?_
  by_cases hx : x.owner = o' <;> simp [hx, h]

/-- One owner's access begun where another's have ended. -/
theorem Core.xfersOf_beginXfer_endXfer {c : Core} {o o' : XferOwner} (h : o' ≠ o) (port : Nat) (put : ByteWrites) (words : List Nat)
    (write : Bool) : ((c.endXfer o).beginXfer o' port put words write).xfersOf o' =
      c.xfersOf o' ++ [{ owner := o', port, todo := words, put, write, got := [] }] := by
  rw [← Core.xfersOf_endXfer_other (c := c) h, Core.xfersOf, Core.beginXfer, List.filter_append]
  simp [Core.xfersOf]

/-- Settles O35: what a packet's fate is, the cycle that takes it in, the cycle that ends it, the count of an arrival and the return of
credit, each by the rule above for it. -/
theorem packetsArrive : Obligations.PacketsArrive := by
  unfold Obligations.PacketsArrive
  refine ⟨?_, ?_, ?_, ?_, ?_, ?_⟩
  · intro s p h hg hw hv hk hfits haw hp
    have hport : p.bankPort = 5 := by simp [Packet.bankPort, hk]
    have hturn : s.channelTurn p = true := by simp [State.channelTurn, hk]
    have hin := State.depositPacket_takenIn h (Or.inr (Or.inl hk)) (State.fate_absolute hg hw hk hv hfits haw hp) hturn
    exact ⟨_, exec_packetDeposit h.1 (Or.inr (Or.inl hk)), hport ▸ hin⟩
  · intro s p q h hg hw hk hq hfits hp
    have hport : p.bankPort = 4 := by simp [Packet.bankPort, hk]
    have hfate := State.fate_posted hg hw hk hq hfits hp
    refine ⟨fun hturn => ?_, fun x hx hid hxk hdst hdch hhere hcame hlt => ?_⟩
    · exact ⟨_, exec_packetDeposit h.1 (Or.inl hk), hport ▸ State.depositPacket_takenIn h (Or.inl hk) hfate hturn⟩
    · exact ⟨_, exec_packetDeposit h.1 (Or.inl hk), State.depositPacket_waits h (Or.inl hk) hfate
        (State.channelTurn_held hk hx hid hxk hdst hdch hhere hcame hlt)⟩
  · intro s p h hk
    have hport : p.bankPort = 3 := by simp [Packet.bankPort, hk]
    have hturn : s.channelTurn p = true := by simp [State.channelTurn, hk]
    have hin := State.depositPacket_takenIn h (Or.inr (Or.inr hk)) (State.fate_reply hk) hturn
    exact ⟨_, exec_packetDeposit h.1 (Or.inr (Or.inr hk)), hport ▸ hin⟩
  · intro s p a aw c h hk hlen hb hret htodo hdone
    have hends := State.depositPacket_ends h hlen hb hret htodo hdone
    obtain ⟨u, hu⟩ : ∃ u, u = (s.wroteOut p).returnFlits p (p.flits - p.returned) := ⟨_, rfl⟩
    have hcore : u.coreAt p.dst = c.endXfer (.packet p.id) := by rw [hu, State.returnFlits_coreAt, State.wroteOut_coreAt]
    have hnet : u.net.filter (fun q => q.id != p.id) = s.net.filter (fun q => q.id != p.id) := by
      rw [hu, State.returnFlits_net, State.wroteOut_net]
    obtain ⟨x, hx, hxc, hxa, hxb, hafter, hgone, hcred⟩ := State.depositDone_counts u p.wroteAll aw
    have hcore' : (u.depositDone p.wroteAll (some aw)).coreAt p.dst =
        ((c.endXfer (.packet p.id)).endXfer (.packet p.id)).beginXfer (.arrival x.id) 4 [] [pairWord (aw / 8)] true :=
      hafter.trans (congrArg (fun d => Core.beginXfer (Core.endXfer d _) _ 4 [] [pairWord (aw / 8)] true) hcore)
    rw [exec_packetDeposit h.1 hk, hends, ← hu]
    refine ⟨_, rfl, hgone.trans hnet, ?_, ⟨x, hx, hxc, hxa, hxb, ?_⟩, fun hc => ?_⟩
    · rw [hcore', Core.beginXfer_spad, Core.endXfer_spad, Core.endXfer_spad]
    · rw [hcore', Core.xfersOf_beginXfer_endXfer (by simp), Core.xfersOf_endXfer_other (by simp)]
    · rw [hcred, hu]
      exact State.returnFlits_credit hc (by omega)
  · intro s x hx hdone hchunk hwf m target sum
    refine ⟨_, execArrival_served hx hdone hchunk, rfl, ?_, ?_, ?_, ?_, ?_⟩
    all_goals rw [State.putCore_coreAt]
    · exact (arriveAt_readN hwf _ _ (by omega)).trans (arriveWords_target hwf _ _)
    · rw [arriveAt_readN hwf _ _ (by omega), arriveWords_count hwf, phases_sum]
    · rw [arriveAt_readN hwf _ _ (by omega), arriveWords_gen hwf, phases_count]
    · rw [arriveAt_mark hwf, phases_count]
      refine if_congr ?_ rfl rfl
      by_cases ht : m.readN x.aw 4 = 0 <;> simp [target, sum, ht, m]
    · exact arriveAt_keeps hwf _ _
  · intro s k hk hdue
    show execCreditReturn k.id s = _
    simp only [execCreditReturn, hk, Nat.not_lt.2 hdue, if_false]
    rfl

end Sys2Proof.Machine
end

section
/-! Queues: pushes, pops, closing and spill traffic at the home tile, and a pop's outcome at its own (O37, R205, R206, R284 to R287). -/

namespace Sys2Proof.Machine

open Sys2Proof.Claims

/-! ### What leaves the queues and their descriptors as they are -/

/-- State `u` has the queues and the queue descriptors of `s`. -/
def sameQueues (s u : State) : Prop := u.queues = s.queues ∧ u.qdesc = s.qdesc

theorem sameQueues.refl (s : State) : sameQueues s s := ⟨rfl, rfl⟩

theorem sameQueues.trans {s t u : State} (h : sameQueues s t) (h' : sameQueues t u) : sameQueues s u :=
  ⟨h'.1.trans h.1, h'.2.trans h.2⟩

theorem sameQueues.queueRec {s u : State} (h : sameQueues s u) (q : Nat) : u.queueRec q = s.queueRec q := by
  rw [State.queueRec, h.1, State.queueRec]

theorem sameQueues.queueDesc {s u : State} (h : sameQueues s u) (q : Nat) : u.queueDesc q = s.queueDesc q := by
  rw [State.queueDesc, h.2, State.queueDesc]

theorem sameQueues.foldl {α : Type} {f : State → α → State} (hf : ∀ s x, sameQueues s (f s x)) (xs : List α) (s : State) :
    sameQueues s (xs.foldl f s) := by
  induction xs generalizing s with
  | nil => exact .refl s
  | cons x xs ih => exact (hf s x).trans (ih (f s x))

theorem State.offNet_sameQueues (s : State) (p : Packet) : sameQueues s (s.offNet p) := ⟨rfl, rfl⟩

theorem State.launchPacket_sameQueues (s : State) (l : Letter) (segs : List Nat) (credit : Bool) :
    sameQueues s (s.launchPacket l segs credit) := by
  unfold State.launchPacket
  cases credit <;> dsimp only <;> split <;> exact ⟨rfl, rfl⟩

theorem State.offer_sameQueues (s : State) (org loc ctx code : Nat) (data : List (BitVec 8)) :
    sameQueues s (s.offer org loc ctx code data) := by
  unfold State.offer State.offerLog
  dsimp only
  split
  · split <;> exact ⟨rfl, rfl⟩
  · exact ⟨rfl, rfl⟩

theorem State.failCommand_sameQueues (s : State) (id : CoreId) (slot : Slot) (code : Nat) (info : Word) (opc : CodeIdx) (ord n : Nat) :
    sameQueues s (s.failCommand id slot code info opc ord n) := by
  unfold State.failCommand
  dsimp only
  (repeat' split) <;> exact ⟨rfl, rfl⟩

theorem State.tellCore_sameQueues (s : State) (id : CoreId) (slot : Slot) (code : Nat) (info : Word) (opc : CodeIdx) (ord n : Nat) :
    sameQueues s (s.tellCore id slot code info opc ord n) := by
  unfold State.tellCore
  dsimp only
  split
  · split <;> exact ⟨rfl, rfl⟩
  · refine sameQueues.trans ?_ (State.failCommand_sameQueues ..)
    (repeat' split) <;> exact ⟨rfl, rfl⟩
  · exact State.failCommand_sameQueues ..

theorem State.tellOwner_sameQueues (s : State) (p : Packet) (code : Nat) (info : Word) : sameQueues s (s.tellOwner p code info) := by
  unfold State.tellOwner
  extract_lets reply back
  split
  · exact ⟨rfl, rfl⟩
  · exact State.tellCore_sameQueues ..

theorem State.replyTo_sameQueues (s : State) (p : Packet) (l : Letter) (segs : List Nat) : sameQueues s (s.replyTo p l segs) := by
  unfold State.replyTo
  dsimp only
  split
  · exact State.launchPacket_sameQueues (s.at p.dst) l segs false
  · exact (State.tellOwner_sameQueues ((s.at p.dst).at s.cur) p _ _).trans (State.offer_sameQueues ..)

theorem State.answerPop_sameQueues (s : State) (p : Packet) (ws : List Word) (ok : Bool) : sameQueues s (s.answerPop p ws ok) :=
  State.replyTo_sameQueues ..

theorem State.pushDone_sameQueues (s : State) (p : Packet) : sameQueues s (s.pushDone p) := by
  unfold State.pushDone
  dsimp only
  (repeat' split) <;> exact ⟨rfl, rfl⟩

@[simp] theorem State.pushDone_net (s : State) (p : Packet) : (s.pushDone p).net = s.net := by
  unfold State.pushDone
  dsimp only
  (repeat' split) <;> rfl

@[simp] theorem State.queueRec_putQueue (s : State) (q : Nat) (r : QueueRec) : (s.putQueue q r).queueRec q = r :=
  Tab.getD_put_same ..

/-! ### A message at its home tile (R205, R231, R283, R322) -/

/-- A packet taken in of its order changes the SEQ tables alone (R231). -/
theorem State.tookSeq_eq (s : State) (p : Packet) : ∃ a b, s.tookSeq p = { s with seqIn := a, seqGone := b } := by
  unfold State.tookSeq
  split
  · exact ⟨_, _, rfl⟩
  · exact ⟨s.seqIn, s.seqGone, rfl⟩

theorem State.tookSeq_sameQueues (s : State) (p : Packet) : sameQueues s (s.tookSeq p) := by
  obtain ⟨a, b, ht⟩ := s.tookSeq_eq p
  rw [ht]
  exact ⟨rfl, rfl⟩

/-- A message that its network has brought in order can be served. -/
theorem State.canServe_of_arrived {s : State} {p : Packet} (h : Claims.arrived s p) : s.canServe p = true := by
  obtain ⟨-, hdue, hstuck, htakes, hplace, hseq⟩ := h
  simp [State.canServe, hdue, hstuck, htakes, hplace, hseq]

/-- Its home tile does not refuse it (R205, R283, R322). -/
theorem State.messageRefused_atHome {s : State} {p : Packet} {q : Nat} (h : atHome s p q) : (s.tookSeq p).messageRefused p q = false := by
  obtain ⟨a, b, ht⟩ := s.tookSeq_eq p
  obtain ⟨-, hgrant, hhome, hctx, htile⟩ := h
  have hsame : (s.tookSeq p).messageRefused p q = s.messageRefused p q := by
    rw [ht]
    rfl
  rw [hsame]
  simp only [State.messageRefused, hgrant, hhome, hctx, htile, bne_self_eq_false, Bool.not_true, Bool.or_self]

/-- The message taken in of its order and out of the network. -/
def State.received (s : State) (p : Packet) : State := (s.tookSeq p).offNet p

theorem State.received_sameQueues (s : State) (p : Packet) : sameQueues s (s.received p) :=
  (s.tookSeq_sameQueues p).trans (State.offNet_sameQueues ..)

theorem State.received_fields (s : State) (p : Packet) : (s.received p).fields = s.fields := by
  obtain ⟨a, b, ht⟩ := s.tookSeq_eq p
  rw [State.received, ht]
  rfl

theorem State.received_coreAt (s : State) (p : Packet) (t : CoreId) : ∃ x, (s.received p).coreAt t = { s.coreAt t with xfers := x } := by
  obtain ⟨a, b, ht⟩ := s.tookSeq_eq p
  obtain ⟨hx, -⟩ := State.offNet_leavesStrands (s.tookSeq p) p
  obtain ⟨x, hx⟩ := hx t
  exact ⟨x, by rw [State.received, hx, ht]; rfl⟩

/-! ### Pushes (R205, R284) -/

/-- A queue without blocked pops has none that an entry could go to. -/
theorem unserved_nil (ws : List Word) : unserved ws [] = [] := by
  induction ws with
  | nil => rfl
  | cons w ws ih => exact ih

/-- An append that is first in line, with room in the head segment, goes there (R284). -/
theorem State.append_head {s : State} {q since name : Nat} {e : List (BitVec 8)} (hopen : qdClosed (s.queueDesc q) = false)
    (hspill : s.spilling.contains q = false) (hjob : s.job? moduleUnit (.spillOut q name) = none)
    (hline : s.firstInLine ⟨q, since, name⟩ false = true) (hb : (s.queueRec q).blocked = [])
    (hout : (s.queueRec q).out = (s.queueRec q).inn) (hroom : (s.queueRec q).head.length < qdHn (s.queueDesc q)) :
    s.append q since name e = .done (s.putQueue q { s.queueRec q with head := (s.queueRec q).head ++ [e] }) := by
  have hnone : (if qdLaunch (s.queueDesc q) then none
      else (unserved (s.queueRec q).keys (s.queueRec q).blocked).find? (fun p => p.takesKey (entryKey e))) = none := by
    rw [hb, unserved_nil, List.find?_nil, ite_self]
  simp only [State.append, hopen, hjob, hspill, hline, hnone, hout, hroom, Option.isSome_none, Bool.not_true, Bool.or_self, and_self,
    Bool.false_eq_true, if_false, if_true]

/-- A push that its home tile has taken frees its sender (R20, R205). -/
theorem State.pushDone_frees {s : State} {p : Packet} {k : Cmd} (hw : (s.coreAt p.src).chn.waiting = some k) (ho : k.ord = p.ord) :
    ((s.pushDone p).coreAt p.src).chn.waiting = none ∧ ((s.pushDone p).coreAt p.src).cnt.n =
      if (s.coreAt p.src).chn.accept = some 0 then (s.coreAt p.src).cnt.n else (s.coreAt p.src).cnt.n - 1 := by
  simp only [State.pushDone, hw, if_pos ho, State.putCore_coreAt, beq_iff_eq]
  split <;> exact ⟨rfl, rfl⟩

/-! ### Pops (R206, R286) -/

/-- The answer to a pop whose tile the computed route reaches is on its way (R206). -/
theorem State.answerPop_answers {s : State} {p : Packet} {v : Walked} (h : s.route p.dst (computedSegs p.dst p.src) = .tile v)
    (ws : List Word) (ok : Bool) : popAnswer (s.answerPop p ws ok) p v ws ok := by
  have hroute : (s.at p.dst).route (s.at p.dst).cur (computedSegs p.dst p.src) = .tile v := by rwa [State.at_route]
  rw [State.answerPop, State.replyTo, if_pos (State.reaches_of_route hroute)]
  obtain ⟨r, hnet, hr⟩ := State.launchPacket_net false hroute
  exact ⟨r, hnet ▸ List.mem_append_right _ (List.mem_singleton_self _), hr.kind, hr.src, hr.dst, hr.ord, hr.op⟩

/-- A blocked pop that no entry of its queue matches any more and that is answered without one (R206, R287). -/
def State.popGone (s : State) (q : Nat) (p : Packet) : Bool :=
  !(s.queueRec q).spillHas p && (qdClosed (s.queueDesc q) || p.popFails)

theorem State.settlePops_eq (s : State) (q : Nat) : s.settlePops q =
    ((s.queueRec q).blocked.filter (s.popGone q)).foldl
      (fun t p => t.answerPop p (emptyWords (if qdClosed (s.queueDesc q) then 2 else 1)) false)
      (s.putQueue q { s.queueRec q with blocked := (s.queueRec q).blocked.filter (fun p => !s.popGone q p) }) := rfl

/-- Answered pops leave the queue; nothing else of it changes. -/
theorem State.settlePops_queueRec (s : State) (q : Nat) : (s.settlePops q).queueRec q =
    { s.queueRec q with blocked := (s.queueRec q).blocked.filter (fun p => !s.popGone q p) } := by
  rw [State.settlePops_eq, (sameQueues.foldl (fun t p => t.answerPop_sameQueues p _ _) _ _).queueRec, State.queueRec_putQueue]

theorem State.settlePops_queueDesc (s : State) (q : Nat) : (s.settlePops q).queueDesc q = s.queueDesc q := by
  rw [State.settlePops_eq, (sameQueues.foldl (fun t p => t.answerPop_sameQueues p _ _) _ _).queueDesc]
  rfl

/-- A queue without blocked pops has none to answer. -/
theorem State.settlePops_none {s : State} {q : Nat} (h : (s.queueRec q).blocked = []) :
    (s.settlePops q).queueRec q = s.queueRec q ∧ (s.settlePops q).charged = s.charged := by
  refine ⟨?_, ?_⟩
  · rw [State.settlePops_queueRec, h, List.filter_nil, ← h]
  · rw [State.settlePops_eq, h]
    rfl

section
variable {s : State} {p : Packet} {q : Nat}

/-- A pop that matches an entry of the head segment takes the first one (R206). -/
theorem State.pop_takes {i : Nat} (h : (s.queueRec q).head.findIdx? (fun e => p.takesKey (entryKey e)) = some i) :
    s.pop p q = (s.putQueue q { s.queueRec q with head := (s.queueRec q).head.eraseIdx i }).answerPop p
      (words8 ((s.queueRec q).head.getD i [])) true := by
  simp only [State.pop, h]
  rfl

/-- One that matches none is blocked first. -/
theorem State.pop_blocks (h : (s.queueRec q).head.findIdx? (fun e => p.takesKey (entryKey e)) = none) :
    s.pop p q = (s.putQueue q { s.queueRec q with blocked := (s.queueRec q).blocked ++ [p] }).settlePops q := by
  simp only [State.pop, h]

/-- The only pop of its queue, answered at once without an entry (R206, R287). -/
theorem State.pop_empty (h : (s.queueRec q).head.findIdx? (fun e => p.takesKey (entryKey e)) = none) (hb : (s.queueRec q).blocked = [])
    (hspill : (s.queueRec q).spillHas p = false) (hgo : (qdClosed (s.queueDesc q) || p.popFails) = true) :
    ∃ u : State, u.fields = s.fields ∧ s.pop p q = u.answerPop p (emptyWords (if qdClosed (s.queueDesc q) then 2 else 1)) false := by
  obtain ⟨t, ht⟩ : ∃ t, t = s.putQueue q { s.queueRec q with blocked := [p] } := ⟨_, rfl⟩
  have hrec : t.queueRec q = { s.queueRec q with blocked := [p] } := by rw [ht, State.queueRec_putQueue]
  have hdesc : t.queueDesc q = s.queueDesc q := by
    rw [ht]
    rfl
  have hgone : t.popGone q p = true := by
    have hnone : (t.queueRec q).spillHas p = false := by rwa [hrec]
    rw [State.popGone, hnone, hdesc, hgo]
    rfl
  have hblocked : (t.queueRec q).blocked = [p] := by rw [hrec]
  rw [State.pop_blocks h, hb, List.nil_append, ← ht, State.settlePops_eq, hblocked, List.filter_cons_of_pos hgone, hdesc]
  exact ⟨_, by rw [ht]; rfl, rfl⟩

/-- A pop that waits, on an open queue whose blocked pops all wait, is blocked behind them (R286). -/
theorem State.pop_waits (h : (s.queueRec q).head.findIdx? (fun e => p.takesKey (entryKey e)) = none)
    (hopen : qdClosed (s.queueDesc q) = false) (hb : ∀ x ∈ (s.queueRec q).blocked, x.popFails = false) (hp : p.popFails = false) :
    (s.pop p q).queueRec q = { s.queueRec q with blocked := (s.queueRec q).blocked ++ [p] } := by
  rw [State.pop_blocks h, State.settlePops_queueRec, State.queueRec_putQueue, List.filter_eq_self.2]
  intro x hx
  have hfails : x.popFails = false := by
    rcases List.mem_append.1 hx with hx | hx
    · exact hb x hx
    · rwa [List.mem_singleton.1 hx]
  have hdesc (r : QueueRec) : qdClosed ((s.putQueue q r).queueDesc q) = false := hopen
  rw [State.popGone, hdesc, hfails, Bool.or_self, Bool.and_false, Bool.not_false]

end

/-! ### The outcome at the popping tile (R206) -/

/-- The words of an outcome land one behind the other. -/
theorem Core.foldl_lateResult (c : Core) (ord : Nat) (ws : List (Word × Nat)) :
    ws.foldl (fun (x : Core) w => x.lateResult .n ord 1 (.s (BitVec.ofNat 6 (56 + w.2)) w.1) 0) c =
      { c with inflight := c.inflight ++ ws.map (fun w => lateRes .n ord (.s (BitVec.ofNat 6 (56 + w.2)) w.1) 0) } := by
  induction ws generalizing c with
  | nil => simp
  | cons w ws ih =>
    rw [List.foldl_cons, ih, List.map_cons, List.append_cons]
    rfl

/-- A pop's outcome lands in s56 to s63 and its predicate (R206). -/
theorem Core.popLands_eq (c : Core) (k : Cmd) (ws : List Word) (ok : Bool) :
    c.popLands k ws ok = { c with
      inflight := c.inflight ++ ws.zipIdx.map (fun w => lateRes .n k.ord (.s (BitVec.ofNat 6 (56 + w.2)) w.1) 0) ++
        [lateRes .n k.ord (.p (field 9 3 k.ops) ok) 0] } := by
  rw [Core.popLands, Core.foldl_lateResult]
  rfl

/-- The outcome of a pop that its core waits for ends the wait (R206). -/
theorem execNpopResultWrite_lands {s : State} {p : Packet} {ws : List Word} {ok : Bool} {k : Cmd} (h : Claims.arrived s p)
    (hop : p.op = .popped ws ok) (hw : (s.coreAt p.dst).chn.waiting = some k) (ho : k.ord = p.ord) :
    ∃ d : Core, d.chn.waiting = none ∧ d.inflight = (s.coreAt p.dst).inflight ∧
      exec (.npopResultWrite p.id) s = .next ((s.received p).putCore p.dst (d.popLands k ws ok)) := by
  obtain ⟨x, hx⟩ := s.received_coreAt p p.dst
  have hwait : ((s.received p).coreAt p.dst).chn.waiting = some k := by rw [hx]; exact hw
  refine ⟨{ (s.received p).coreAt p.dst with chn := { ((s.received p).coreAt p.dst).chn with
    waiting := none, queue := ((s.received p).coreAt p.dst).chn.queue.filter (fun y => y.ord != p.ord) } }, rfl, by rw [hx], ?_⟩
  show execNpopResultWrite p.id s = _
  rw [State.received] at hwait
  simp only [execNpopResultWrite, h.1, hop, State.canServe_of_arrived h, hwait, if_pos ho, Bool.not_true, Bool.false_eq_true, if_false]
  rfl

/-! ### Closing (R287) -/

theorem State.dropJobs_sameQueues (s : State) (core : Nat) (f : JobOwner → Bool) : sameQueues s (s.dropJobs core f) := ⟨rfl, rfl⟩

/-- CLOSED is set (R283). -/
theorem qdClosed_or (d : BitVec 256) : qdClosed (d ||| 8) = true := by
  rw [qdClosed, BitVec.getLsbD_or]
  simp

/-- A queue closed is closed, its waiting pushes and staging entries are dropped, and its head segment stays (R287). -/
theorem State.closeQueue_closes (s : State) (q : Nat) :
    qdClosed ((s.closeQueue q).queueDesc q) = true ∧ ((s.closeQueue q).queueRec q).waiting = [] ∧
      ((s.closeQueue q).queueRec q).taken = (s.queueRec q).tail ∧ ((s.closeQueue q).queueRec q).head = (s.queueRec q).head := by
  obtain ⟨t, ht⟩ : ∃ t, t = ((s.queueRec q).waiting.foldl (fun (t : State) p => t.pushDone p)
      { s with qdesc := Tab.put s.qdesc q (s.queueDesc q ||| 8) }).dropJobs moduleUnit
        (fun w => match w with | .spillOut n _ => n == q | .stage n => n == q | _ => false) := ⟨_, rfl⟩
  have hsame : sameQueues { s with qdesc := Tab.put s.qdesc q (s.queueDesc q ||| 8) } t := by
    rw [ht]
    exact (sameQueues.foldl (fun t p => t.pushDone_sameQueues p) _ _).trans (State.dropJobs_sameQueues ..)
  have hdesc : t.queueDesc q = s.queueDesc q ||| 8 := by
    rw [hsame.queueDesc]
    exact Tab.getD_put_same ..
  have hclose : s.closeQueue q =
      (t.putQueue q { s.queueRec q with waiting := [], since := none, taken := (s.queueRec q).tail }).settlePops q := by
    rw [ht]
    rfl
  rw [hclose, State.settlePops_queueDesc, State.settlePops_queueRec, State.queueRec_putQueue]
  refine ⟨?_, rfl, rfl, rfl⟩
  exact (congrArg qdClosed hdesc).trans (qdClosed_or _)

/-! ### Spill (R284) -/

/-- The queue with its oldest spilled entry, `e`, back in the head segment. -/
def QueueRec.unspill (r : QueueRec) (e : List (BitVec 8)) : QueueRec :=
  { r with out := r.out + 1, keys := r.keys.drop 1, head := r.head ++ [e] }

/-- The state with the quota of an entry of descriptor `d` given back (R285). -/
def State.uncharge (s : State) (d : BitVec 256) : State :=
  { s with charged := Tab.put s.charged (qdCtx d) (Tab.getD s.charged (qdCtx d) 0 - qdUnits d) }

/-- A spilled entry that has been read comes back to the head segment of a queue without blocked pops, and gives its quota back (R284,
R285). -/
theorem State.spillMove_returns {s t : State} {q : Nat} {e : List (BitVec 8)} (hheld : (s.queueRec q).heldSpill = false)
    (hne : (s.queueRec q).inn ≠ (s.queueRec q).out) (hroom : (s.queueRec q).head.length < qdHn (s.queueDesc q))
    (hb : (s.queueRec q).blocked = [])
    (hread : s.unitRead moduleUnit (.spillIn q) (cacheKey (qdHome (s.queueDesc q))) (qdCtx (s.queueDesc q))
      (spillAddr (s.queueDesc q) (s.queueRec q).out) (qdSize (s.queueDesc q)) false = .done e t) :
    (s.spillMove q).queueRec q = (s.queueRec q).unspill e ∧ (s.spillMove q).charged = (t.uncharge (s.queueDesc q)).charged := by
  obtain ⟨u, hu⟩ : ∃ u, u = (t.uncharge (s.queueDesc q)).putQueue q ((s.queueRec q).unspill e) := ⟨_, rfl⟩
  have hnone : (if qdLaunch (s.queueDesc q) then none
      else (s.queueRec q).blocked.find? (fun p => p.takesKey (entryKey e))) = none := by
    rw [hb, List.find?_nil, ite_self]
  have hgo : ((s.queueRec q).heldSpill || decide ((s.queueRec q).inn = (s.queueRec q).out) ||
      decide (qdHn (s.queueDesc q) ≤ (s.queueRec q).head.length)) = false := by
    rw [hheld, decide_eq_false hne, decide_eq_false (Nat.not_le.2 hroom)]
    rfl
  have hmove : s.spillMove q = u.settlePops q := by
    simp only [State.spillMove, hgo, hread, hnone, Bool.false_eq_true, if_false, hu]
    rfl
  have hrec : u.queueRec q = (s.queueRec q).unspill e := hu ▸ State.queueRec_putQueue ..
  obtain ⟨hsettled, hcharged⟩ := State.settlePops_none (s := u) (q := q) (by rw [hrec]; exact hb)
  rw [hmove, hsettled, hcharged]
  exact ⟨hrec, by rw [hu]; rfl⟩

/-! ### The steps -/

section
variable {s : State} {p : Packet} {q : Nat} (h : atHome s p q)
include h

/-- A push at its home tile that is appended retires (R205, R284). -/
theorem execQueueAppend_appends (hop : p.op = .push q) {u : State} (hu : (s.tookSeq p).append q s.cycle p.id p.data = .done u) :
    exec (.queueAppend p.id) s = .next ((u.offNet p).pushDone p) := by
  show execQueueAppend p.id s = _
  obtain ⟨hfind, -⟩ := h.1
  simp only [execQueueAppend, hfind, hop, State.canServe_of_arrived h.1, if_true]
  rw [State.pushArrives, State.messageRefused_atHome h, hu]
  rfl

/-- A pop at its home tile is served (R286). -/
theorem execQueuePop_serves {tag aff : BitVec 16} {fail : Bool} (hop : p.op = .pop q tag aff fail) :
    exec (.queuePop p.id) s = .next ((s.received p).pop p q) := by
  show execQueuePop p.id s = _
  obtain ⟨hfind, -⟩ := h.1
  simp only [execQueuePop, hfind, hop, State.canServe_of_arrived h.1, State.messageRefused_atHome h, Bool.not_true, Bool.false_eq_true,
    if_false]
  rfl

/-- A close at its home tile closes its queue, unless that is a launch queue (R287). -/
theorem execQueueClose_closes (hop : p.op = .close q) (hl : qdLaunch (s.queueDesc q) = false) :
    exec (.queueClose p.id) s = .next ((s.received p).closeQueue q) := by
  show execQueueClose p.id s = _
  obtain ⟨hfind, -⟩ := h.1
  have hl' : qdLaunch ((s.tookSeq p).queueDesc q) = false := by
    rw [(s.tookSeq_sameQueues p).queueDesc]
    exact hl
  simp only [execQueueClose, hfind, hop, State.canServe_of_arrived h.1, State.messageRefused_atHome h, hl', Bool.not_true,
    Bool.false_eq_true, if_false]
  rfl

end

/-- Settles O37: a push's append, a pop's four outcomes, the landing of an outcome, a close and a spilled entry's return, each by the
rule above for it. -/
theorem queueOperations : Obligations.QueueOperations := by
  unfold Obligations.QueueOperations
  refine ⟨?_, ?_, ?_, ?_, ?_⟩
  · intro s p q h hop hopen hspill hjob hline hb hout hroom
    obtain ⟨a, b, ht⟩ := s.tookSeq_eq p
    have happend : (s.tookSeq p).append q s.cycle p.id p.data =
        .done ((s.tookSeq p).putQueue q { s.queueRec q with head := (s.queueRec q).head ++ [p.data] }) := by
      rw [ht]
      exact State.append_head hopen hspill hjob hline hb hout hroom
    refine ⟨_, execQueueAppend_appends h hop happend, ?_, ?_, ?_⟩
    · rw [(State.pushDone_sameQueues ..).queueRec, (State.offNet_sameQueues ..).queueRec, State.queueRec_putQueue]
    · rw [State.pushDone_net, ht]
      rfl
    · intro k hw ho
      obtain ⟨hcores, -⟩ := State.offNet_leavesStrands
        ((s.tookSeq p).putQueue q { s.queueRec q with head := (s.queueRec q).head ++ [p.data] }) p
      obtain ⟨x, hx⟩ := hcores p.src
      have hcore : ((s.tookSeq p).putQueue q { s.queueRec q with head := (s.queueRec q).head ++ [p.data] }).coreAt p.src = s.coreAt p.src := by
        rw [ht]
        rfl
      rw [hcore] at hx
      have hfrees := State.pushDone_frees (p := p) (k := k) (by rw [hx]; exact hw) ho
      rwa [hx] at hfrees
  · intro s p q tag aff fail v h hop hroute
    obtain ⟨t, ht⟩ : ∃ t, t = s.received p := ⟨_, rfl⟩
    have hsame : sameQueues s t := ht ▸ s.received_sameQueues p
    have hrec := hsame.queueRec q
    have hdesc := hsame.queueDesc q
    have hfields : t.fields = s.fields := ht ▸ s.received_fields p
    have hanswer (u : State) (hu : u.fields = t.fields) (ws : List Word) (ok : Bool) : popAnswer (u.answerPop p ws ok) p v ws ok :=
      State.answerPop_answers ((State.route_congr (hu.trans hfields) ..).trans hroute) ws ok
    have hfails : p.popFails = fail := by rw [Packet.popFails, hop]
    rw [execQueuePop_serves h hop, ← ht, ← hrec, ← hdesc]
    refine ⟨fun i hi => ?_, fun hnone hspill => ⟨fun hclosed hb => ?_, fun hopen hf hb => ?_, fun hopen hf hb => ?_⟩⟩
    · rw [State.pop_takes hi]
      exact ⟨_, rfl, by rw [(State.answerPop_sameQueues ..).queueRec, State.queueRec_putQueue], hanswer (t.putQueue q _) rfl _ _⟩
    · obtain ⟨u, hu, hpop⟩ := State.pop_empty hnone hb hspill (by rw [hclosed]; rfl)
      rw [hpop, hclosed]
      exact ⟨_, rfl, hanswer u hu _ _⟩
    · obtain ⟨u, hu, hpop⟩ := State.pop_empty hnone hb hspill (by rw [hfails, hf, Bool.or_true])
      rw [hpop, hopen]
      exact ⟨_, rfl, hanswer u hu _ _⟩
    · exact ⟨_, rfl, State.pop_waits hnone hopen hb (hfails.trans hf)⟩
  · intro s p ws ok k h hop hw ho
    obtain ⟨d, hd, hfl, hexec⟩ := execNpopResultWrite_lands h hop hw ho
    refine ⟨_, hexec, ?_, ?_⟩
    · rw [State.putCore_coreAt, Core.popLands_eq]
      exact hd
    · rw [State.putCore_coreAt, Core.popLands_eq, hfl]
  · intro s p q h hop hl
    have hrec := (s.received_sameQueues p).queueRec q
    obtain ⟨hclosed, hwaiting, htaken, hhead⟩ := (s.received p).closeQueue_closes q
    exact ⟨_, execQueueClose_closes h hop hl, hclosed, hwaiting, htaken.trans (congrArg _ hrec), hhead.trans (congrArg _ hrec)⟩
  · intro s t q e d r hheld hne hroom hb hread
    obtain ⟨hrec, hcharged⟩ := State.spillMove_returns hheld hne hroom hb hread
    refine ⟨_, rfl, hrec, ?_⟩
    rw [hcharged]
    exact Tab.getD_put_same ..

end Sys2Proof.Machine
end
